-- ==== Sys2Proof/Word.lean ====
section
/-! DEFINITION. The word types of the GX9 block model and their plainest forms. -/

namespace Sys2Proof

/-- One byte of memory or of a packet. -/
abbrev Byte := BitVec 8

/-- A register word: every register is 32 bits wide (R3). -/
abbrev Word := BitVec 32

/-- A 64-bit value: a step sum, an increment, a Tally. -/
abbrev DWord := BitVec 64

/-- One Stipe instruction (R128). -/
abbrev IWord := BitVec 128

end Sys2Proof
end

