-- ==== Sys2Proof/Syntax.lean ====
section
/-! DEFINITION. The commands of the GX9 block: one constructor per row of spec/opcode_table.json, with the
operands of the row. Small indices are `Fin`, so a command names only units that exist; what is left to check is
in WellFormed. -/

namespace Sys2Proof

/-- Who writes a register outside Ebwick: Thallus firmware, or a debugger at FULL (R8). -/
inductive Writer where
  | firmware
  | debug
  deriving DecidableEq, Repr

/-- Units of the scratchpad arbitration, in the order of R152. -/
inductive SpUnit where
  | feeder
  | drain
  | sorus
  | vector
  | sampler (lane : Fin 2)
  | dmaWrite (ch : Fin 16)
  | dmaRead (ch : Fin 16)
  deriving DecidableEq, Repr

/-- One scratchpad request presented in an FCLK (R152): unit, row, direction, FCLK waited. -/
structure SpReq where
  unit : SpUnit
  row : Nat
  write : Bool
  waited : Nat
  deriving DecidableEq, Repr

/-- Requesters of a Mat bank, in the order of R187. -/
inductive MatUnit where
  | rhizoid
  | hezor
  | frond (f : Fin 4) (q : Fin 64)
  | aperture (p : Fin 4)
  deriving DecidableEq, Repr

/-- What a Mat request does (R186): a read of the row or of the whole block that holds its offset, a write of bytes from it on
(a merge, or a part of a row), a write of its whole block with the writer's BCW. -/
inductive MatAct where
  | read
  | readBlock
  | write (data : List Byte)
  | writeBlock (data : List Byte) (bcw : Word)
  deriving DecidableEq, Repr

/-- One Mat request of an NCLK (R186, R187). -/
structure MatReq where
  unit : MatUnit
  off : Nat
  act : MatAct
  deriving DecidableEq, Repr

/-- Requesters of main memory, in the order of R530; firmware stands last. -/
inductive MemUnit where
  | rhizoid (unit : Fin 12)
  | hezor (l : Fin 3)
  | frond (f : Fin 4) (q : Fin 64)
  | aperture (p : Fin 4)
  | firmware
  deriving DecidableEq, Repr

/-- A CSI-2 packet as the receiver sees it (R309, R310). -/
inductive Csi2Packet where
  /-- Long packet on a virtual channel: data type, header corrected?, payload CRC good?, payload. -/
  | long (vc : Fin 16) (dt : BitVec 6) (corrected crcOk : Bool) (payload : List Byte)
  /-- Line start or line end: accepted and ignored; header corrected? -/
  | line (vc : Fin 16) (corrected : Bool)
  /-- A header whose ECC error is not correctable, on the virtual channel it shows. -/
  | badHeader (vc : Fin 16)
  /-- A packet the port cannot parse. -/
  | unparsable
  deriving DecidableEq, Repr

/-- The header of a CSI-2 frame start or frame end packet: virtual channel, and whether an ECC error in it was corrected
(R309). -/
structure Csi2Head where
  vc : Fin 16
  corrected : Bool
  deriving DecidableEq, Repr

/-- A MAC or trigger output and the position in the REFCLK period, in 1/32 steps, at which it acts (R383, R395, R397). -/
structure UnitAt where
  unit : Fin 8
  phase : Fin 32
  deriving DecidableEq, Repr

/-- A link and the lanes of it that answered receiver detection (R561). -/
structure Detected where
  link : Fin 3
  lanes : BitVec 8
  deriving DecidableEq, Repr

/-- What drives a warm reset (R728, R725, R722, R733). -/
inductive WarmCause where
  | pin
  | commit
  | watchdog
  | escalation
  deriving DecidableEq, Repr

/-- Wake causes of S1 (R670). -/
inductive WakeCause where
  | doorbell (p : Fin 4)
  | srx (p : Fin 4)
  | lost (p : Fin 4)
  | i2c
  deriving DecidableEq, Repr

/-- Units with a Widow (R620). -/
inductive WidowUnit where
  | stipe (f : Fin 4)
  | management
  | safety
  deriving DecidableEq, Repr

/-- Scope of a recovery step (R732). -/
inductive Scope where
  | job (f : Fin 4)
  | frond (f : Fin 4)
  | part (r : Fin 4)
  | rhizoid
  | link (l : Fin 3)
  | port (p : Fin 4)
  | device
  deriving DecidableEq, Repr

/-- What a source event carries beside its source (R637, R642). -/
structure FaultInfo where
  source : BitVec 10
  cause : BitVec 5
  subunit : Word
  syndrome : DWord
  job : Option Nat
  deriving DecidableEq, Repr

/-- Training commands (R410, R422). -/
inductive Training where
  | fifoWrite (bytes : List Byte)
  | fifoRead
  | dqCalibration
  | zq
  | oscillator
  | levelling
  deriving DecidableEq, Repr

/-- HELLO of a Hezor link peer (R562). -/
structure LinkHello where
  module : BitVec 2
  stepping : Byte
  minVer : BitVec 8
  maxVer : BitVec 8
  lanes : BitVec 8
  noReplay : Bool
  deriving DecidableEq, Repr

/-- What POR_N release finds (R714, R721): the straps; the hottest junction sensor in eighths of a degree; the DRAM channels that pass
the write and read check after a restore, and those that full training brings up. -/
structure BootFacts where
  bootSrc : BitVec 2
  modId : BitVec 2
  hot : BitVec 16
  restored : BitVec 32
  trained : BitVec 32
  deriving DecidableEq, Repr

/-- What a request to a DRAM controller asks (R529 to R531): units of 32 bytes, a whole block with its BCW, or bytes. -/
inductive DramAct where
  | read (units : Nat)
  | write (data : List Byte) (bcw : Word)
  | merge (data : List Byte)
  deriving DecidableEq, Repr

/-- A request to the DRAM controllers. -/
structure DramReq where
  unit : MemUnit
  addr : BitVec 48
  act : DramAct
  deriving DecidableEq, Repr

/-- The commands and events of the GX9. -/
inductive Instr where
  -- registers (R5, R27, R81)
  | registerWrite (w : Writer) (off : BitVec 28) (v : Word)
  | regRead (p : Fin 4) (d : Fin 256)
  | regWrite (p : Fin 4) (d : Fin 256)
  | groupWindowAccess (caller : Option (Fin 4)) (off : BitVec 28) (write : Option Word)
  -- array, feeder, drain
  | frdMapoutWrite (f : Fin 4) (v : Word)
  | injRes (f : Fin 4) (pinna : Fin 68)
  | loadw (f : Fin 4) (q : Fin 64)
  | weightSetReady (f : Fin 4) (set : Fin 2)
  | stream (f : Fin 4) (q : Fin 64)
  | gang (f : Fin 4) (q : Fin 64)
  | operandRowEnter (f : Fin 4)
  | accumulatorWrite (f : Fin 4)
  | accumulatorComplete (f : Fin 4)
  | drain (f : Fin 4) (q : Fin 64)
  | drainEntryRead (f : Fin 4)
  | drainOutputWrite (f : Fin 4) (lost : Bool)
  | drainComplete (f : Fin 4)
  -- Stipe
  | kernelStart (f : Fin 4)
  | instructionFetch (f : Fin 4) (q : Fin 64)
  | instructionDeliver (f : Fin 4)
  | tokWait (f : Fin 4) (q : Fin 64)
  | tokSig (f : Fin 4) (q : Fin 64)
  | remoteSignalArrive (f : Fin 4)
  | bar (f : Fin 4) (q : Fin 64)
  | endQueue (f : Fin 4) (q : Fin 64)
  | kernelEnd (f : Fin 4)
  -- DMA
  | copy (f : Fin 4) (q : Fin 64)
  | gather (f : Fin 4) (q : Fin 64)
  | scatter (f : Fin 4) (q : Fin 64)
  | workTake (f : Fin 4) (q : Fin 64)
  | workSet (f : Fin 4) (q : Fin 64)
  | dmaTranspose (f : Fin 4) (q : Fin 64)
  | dmaCslot (f : Fin 4) (q : Fin 64)
  | dmaUnitArrive (f : Fin 4) (ch : Fin 16)
  | dmaTimeout (f : Fin 4) (ch : Fin 16)
  -- scratchpad and Mat
  | scratchpadRead (f : Fin 4) (reqs : List SpReq)
  | spCeWriteback (f : Fin 4)
  | scratchpadWrite (f : Fin 4) (reqs : List SpReq) (data : List Byte) (bcw : Word)
  | scratchpadMerge (f : Fin 4) (reqs : List SpReq) (rows : Nat) (data : List Byte)
  | partialRowWrite (f : Fin 4) (reqs : List SpReq) (start : Nat) (data : List Byte)
  | frdSpRepairWrite (f : Fin 4) (b : Fin 320) (sp : Fin 32) (v : Word)
  | frdSpResbaseWrite (f : Fin 4) (v : Word)
  | drcMatRepairWrite (b : Fin 64) (sp : Fin 16) (v : Word)
  | matAccess (reqs : List MatReq)
  | zeroFillDone (f : Option (Fin 4))
  | residentRestoreDone (f : Fin 4)
  -- Sampler
  | cropResize (f : Fin 4) (q : Fin 64)
  | maxpool (f : Fin 4) (q : Fin 64)
  | avgpool (f : Fin 4) (q : Fin 64)
  -- vector unit
  | vecAdd (f : Fin 4) (q : Fin 64)
  | vecSub (f : Fin 4) (q : Fin 64)
  | vecMul (f : Fin 4) (q : Fin 64)
  | vecMin (f : Fin 4) (q : Fin 64)
  | vecMax (f : Fin 4) (q : Fin 64)
  | vecAbs (f : Fin 4) (q : Fin 64)
  | vecNeg (f : Fin 4) (q : Fin 64)
  | vecCvt (f : Fin 4) (q : Fin 64)
  | vecScale2 (f : Fin 4) (q : Fin 64)
  | vecAnd (f : Fin 4) (q : Fin 64)
  | vecOr (f : Fin 4) (q : Fin 64)
  | vecXor (f : Fin 4) (q : Fin 64)
  | vecShl (f : Fin 4) (q : Fin 64)
  | vecShra (f : Fin 4) (q : Fin 64)
  | vecRsum (f : Fin 4) (q : Fin 64)
  | vecRmax (f : Fin 4) (q : Fin 64)
  | vecRmin (f : Fin 4) (q : Fin 64)
  | vecArgmax (f : Fin 4) (q : Fin 64)
  | vecEafAdd (f : Fin 4) (q : Fin 64)
  | vecEafOut (f : Fin 4) (q : Fin 64)
  | vecMeanFin (f : Fin 4) (q : Fin 64)
  | vecVarFin (f : Fin 4) (q : Fin 64)
  | vecEafCvt (f : Fin 4) (q : Fin 64)
  | vecExpmap (f : Fin 4) (q : Fin 64)
  -- special functions
  | sfuExp (f : Fin 4) (q : Fin 64)
  | sfuLog (f : Fin 4) (q : Fin 64)
  | sfuReciprocal (f : Fin 4) (q : Fin 64)
  | sfuRsqrt (f : Fin 4) (q : Fin 64)
  | sfuSigmoid (f : Fin 4) (q : Fin 64)
  | sfuTanh (f : Fin 4) (q : Fin 64)
  | sfuGelu (f : Fin 4) (q : Fin 64)
  | sfuSilu (f : Fin 4) (q : Fin 64)
  | sfuSoftplus (f : Fin 4) (q : Fin 64)
  | sfuErf (f : Fin 4) (q : Fin 64)
  | sfuUserTable (f : Fin 4) (q : Fin 64)
  -- Sorus and sequences
  | sorusQk (f : Fin 4) (q : Fin 64)
  | sorusPv (f : Fin 4) (q : Fin 64)
  | sorusAppend (f : Fin 4) (q : Fin 64)
  | seqCreate (p : Fin 4) (d : Fin 256)
  | seqFork (p : Fin 4) (d : Fin 256)
  | seqEditTruncate (p : Fin 4) (d : Fin 256)
  | seqEditDropBelow (p : Fin 4) (d : Fin 256)
  | seqRetire (p : Fin 4) (d : Fin 256)
  -- Rhizoid
  | csi2Packet (port : Fin 12) (pkt : Csi2Packet)
  | csi2FrameStart (port : Fin 12) (head : Csi2Head) (phase : Fin 32)
  | csi2FrameEnd (port : Fin 12) (head : Csi2Head)
  | ethFrameReceive (mac : Fin 8) (fcsOk : Bool) (phase : Fin 32) (frame : List Byte)
  | auxMessage (ctx : Fin 96) (p : Fin 4) (d : Fin 256) (phase : Fin 32)
  | frameStartGap (ctx : Fin 96)
  | ethLinkLoss (mac : Fin 8)
  | quarHoldExpire (ctx : Fin 96)
  | frameDeliver (ctx : Fin 96)
  | streamConfig (p : Fin 4) (d : Fin 256)
  | streamStart (p : Fin 4) (d : Fin 256)
  | streamStop (p : Fin 4) (d : Fin 256)
  | jobInstanceStart (job : Nat)
  -- Dealer
  | dealerConfig (p : Fin 4) (d : Fin 256)
  | dealerStart (p : Fin 4) (d : Fin 256)
  | dealerStop (p : Fin 4) (d : Fin 256)
  | dealerRecordStart (lane : Fin 8)
  | dealerRecordDone (lane : Fin 8) (decodeUs : Nat)
  | dealerBudgetExpire (lane : Fin 8)
  | dealerDeliver
  -- device time
  | timeIncSet (p : Fin 4) (d : Fin 256)
  | timeStep (p : Fin 4) (d : Fin 256)
  | timeRead (p : Fin 4) (d : Fin 256)
  | timeIncIntWrite (w : Writer) (v : Word)
  | timeIncApply
  | timeStepApply
  | secondsRollover
  | launchSetFrame (p : Fin 4) (d : Fin 256)
  | launchSetTrigger (p : Fin 4) (d : Fin 256)
  | launchTransmit (e : UnitAt)
  | timeTrigCtrlWrite (w : Writer) (n : Fin 8) (v : Word)
  | trigPulse (e : UnitAt)
  -- host ports
  | act (p : Fin 4) (bank : Fin 16) (row : Nat)
  | pre (p : Fin 4) (bank : Option (Fin 16))
  | rd (p : Fin 4) (bank : Fin 16) (col : Nat)
  | wr (p : Fin 4) (bank : Fin 16) (col : Nat) (data : List Byte) (mask : BitVec 32)
  | rd32Wr32 (p : Fin 4) (write : Bool)
  | ref (p : Fin 4)
  | rfm (p : Fin 4)
  | sre (p : Fin 4)
  | srx (p : Fin 4)
  | pdePdx (p : Fin 4) (enter : Bool)
  | mrw (p : Fin 4) (ma : BitVec 8) (op : Byte) (valid5 valid4 : Bool)
  | mrr (p : Fin 4) (ma : BitVec 8)
  | trainingCommand (p : Fin 4) (t : Training)
  | hostResetNAssert (p : Fin 4)
  | hostResetNDeassert (p : Fin 4)
  | heartbeatTimeout (p : Fin 4)
  | hostPortReady (p : Fin 4)
  | hpSramZeroFillDone (p : Fin 4)
  -- rings
  | cpSqDb (p : Fin 4) (d : Fin 256)
  | cpSqDbDrop (p : Fin 4) (d : Fin 256)
  | cpCqDb (p : Fin 4) (d : Fin 256)
  | cpCqDbSqFlagClear (p : Fin 4) (d : Fin 256)
  | cpIrqClear (p : Fin 4) (v : Word)
  | sqPacketTake (p : Fin 4) (d : Fin 256)
  | readTimeout (p : Fin 4) (d : Fin 256)
  | commandTimeout (p : Fin 4) (d : Fin 256)
  -- Ebwick commands
  | hello (p : Fin 4) (d : Fin 256)
  | caps (p : Fin 4) (d : Fin 256)
  | partClaim (p : Fin 4) (d : Fin 256)
  | partRelease (p : Fin 4) (d : Fin 256)
  | quotaSet (p : Fin 4) (d : Fin 256)
  | memAlloc (p : Fin 4) (d : Fin 256)
  | memFree (p : Fin 4) (d : Fin 256)
  | apertureMap (p : Fin 4) (d : Fin 256)
  | apertureFill (p : Fin 4) (d : Fin 256)
  | apertureFlush (p : Fin 4) (d : Fin 256)
  | progLoad (p : Fin 4) (d : Fin 256)
  | progUnload (p : Fin 4) (d : Fin 256)
  | jobSubmit (p : Fin 4) (d : Fin 256)
  | jobCancel (p : Fin 4) (d : Fin 256)
  | deckLoad (p : Fin 4) (d : Fin 256)
  | deckSwitch (p : Fin 4) (d : Fin 256)
  | deckBankActivate (r : Fin 4)
  | latTolSet (p : Fin 4) (d : Fin 256)
  | pwrHintNone (p : Fin 4) (d : Fin 256)
  | pwrHintIdle (p : Fin 4) (d : Fin 256)
  | pwrHintStandbyOk (p : Fin 4) (d : Fin 256)
  | groupForm (p : Fin 4) (d : Fin 256)
  | groupLeave (p : Fin 4) (d : Fin 256)
  | faultRead (p : Fin 4) (d : Fin 256)
  | faultAck (p : Fin 4) (d : Fin 256)
  | forcePulse (p : Fin 4) (d : Fin 256)
  | forceHold (p : Fin 4) (d : Fin 256)
  | forceRelease (p : Fin 4) (d : Fin 256)
  | selftestStatus (p : Fin 4) (d : Fin 256)
  | selftestPause (p : Fin 4) (d : Fin 256)
  | selftestResume (p : Fin 4) (d : Fin 256)
  | selftestRunNow (p : Fin 4) (d : Fin 256)
  | testpackLoad (p : Fin 4) (d : Fin 256)
  | healthRead (p : Fin 4) (d : Fin 256)
  | attestQuote (p : Fin 4) (d : Fin 256)
  | debugAuthBegin (p : Fin 4) (d : Fin 256)
  | debugAuthEnd (p : Fin 4) (d : Fin 256)
  | debugChallengeTimeout
  | fwStage (p : Fin 4) (d : Fin 256)
  | fwCommit (p : Fin 4) (d : Fin 256)
  -- Deck, Cards, self-test, power of a Frond
  | roundStart (r : Fin 4)
  | cardOpen (f : Fin 4)
  | cardClose (f : Fin 4)
  | kernelSwitch (f : Fin 4)
  | kcapExpire (f : Fin 4)
  | goldenRunEnd (f : Fin 4)
  | selftestSegmentStart (f : Fin 4)
  | selftestSegmentEnd (f : Fin 4) (matched : Bool)
  | checkRotationOverdue (f : Fin 4)
  | patternRotationOverdue (f : Fin 4)
  -- units whose injection was missed, sources whose test was not seen, whether the broken-pair detector failed
  | thallusCheckerTest (checkers : List (Fin 128)) (pairs : List (BitVec 10)) (detector : Bool)
  | comparatorInjectionTest (u : WidowUnit) (missed : Bool)
  | widowDifference (u : WidowUnit)
  | frondWakeStart (f : Fin 4)
  | frondAstateEntry (f : Fin 4)
  | frondWakeDone (f : Fin 4) (restoreUs : Nat)
  | s1Entry
  | s1Wake (c : WakeCause)
  -- main memory
  | dramRead (u : MemUnit) (addr : BitVec 48) (units : Nat)
  | dramWrite (u : MemUnit) (addr : BitVec 48) (data : List Byte) (bcw : Word)
  | dramMerge (u : MemUnit) (addr : BitVec 48) (data : List Byte)
  | dramWriteback (c : Fin 16)
  | dramRefresh (ch : Fin 32)
  | exactAddedRefresh (ch : Fin 32)
  | patrolScrub (c : Fin 16)
  -- Hezor
  | flitTransmit (l : Fin 3)
  | flitReceive (l : Fin 3) (lanes : List (List Byte))
  | replayTimeout (l : Fin 3)
  | linkDetect (e : Detected)
  | linkTrainDone (l : Fin 3) (lanes : BitVec 8)
  | linkTrainTimeout (l : Fin 3)
  | hezorHello (l : Fin 3) (h : LinkHello)
  | linkLockLoss (l : Fin 3)
  | fastRetrainDone (l : Fin 3) (lanes : BitVec 8) (ok : Bool)
  | dataPacket (l : Fin 3)
  | closePacket (l : Fin 3)
  | commitPacket (l : Fin 3)
  | gctlJoin (l : Fin 3)
  | gctlLeave (l : Fin 3)
  | trickLedgerExamine (key : Word) (entry : Nat) (inst : Nat)
  | trickTimeout (key : Word) (entry : Nat) (inst : Nat)
  -- determinism, sealing, ages
  | clockLockLoss
  | sealDecision (job : Nat)
  | twinCompare (job : Nat)
  | ageDeadline (job : Nat)
  -- fault collection
  | faultSourceEvent (e : FaultInfo)
  | brokenPair (src : BitVec 10)
  | collectorSelfFault
  | fcolAck (w : Writer) (v : Word)
  | fcolForceHold (w : Writer) (i : Fin 32) (v : Word)
  | fcolForcePulse (w : Writer) (i : Fin 32) (v : Word)
  | escalationTimeout
  | errPulseEnd
  | powerOnTimeSave
  -- power and temperature
  | powerSample (mw : Nat)
  | thermalSample (temps : List (BitVec 16 × BitVec 16))
  | thermalLimitLower
  | thermalLimitRaise
  | thermalTrip (sensor : Fin 24)
  | droopDetect (f : Fin 4)
  | droopRecover (f : Fin 4)
  | droopFault (f : Fin 4)
  | opChange (f : Fin 4)
  | pllLockLoss (domain : Fin 32)
  | avsTimeout
  | pwrgdMainFail
  -- JTAG
  | dbgChal (level : BitVec 2) (key : Bool)
  | dbgResp (rs : BitVec 512)
  | dbgAccRead (addr : BitVec 48)
  | dbgAccWrite (addr : BitVec 48) (v : Word)
  | dbgHalt (target : BitVec 4)
  | dbgResume (target : BitVec 4)
  | dbgStep (target : BitVec 4)
  | dbgStage
  | extest (scan : List Bool)
  | clamp
  | highz
  | samplePreload (capture load : List Bool)
  | tapReset
  -- reset, boot, recovery
  | porNAssert
  | porNRelease (b : BootFacts)
  | warmReset (c : WarmCause)
  | bootWatchdogExpire
  /-- NOC_TIMEOUT: router, requester, whether the retry expired too, and the 256-byte block that an aborted read was to fill. -/
  | nocTimeout (router : Fin 64) (u : MemUnit) (second : Bool) (block : Option (BitVec 40))
  | kernelAbort (f : Fin 4)
  | frondReset (f : Fin 4)
  | partitionReset (r : Fin 4)
  | rhizoidReset
  | hezorLinkReset (l : Fin 3)
  | hostPortReset (p : Fin 4)
  | recoveryStepOverrun (sc : Scope)
  -- I2C
  | i2cWrite (bytes : List Byte)
  | i2cRead (n : Nat)
  | i2cWake
  -- rows added at the end of the table
  | matCorrectedWriteback (bank : Fin 64)
  | dramMr4Report (ch : Fin 32) (code : BitVec 3)
  | testPackRead
  | cpIrqMaskWrite (p : Fin 4) (v : Word)
  | deskewCalibrationSequence (port : Fin 12)
  deriving DecidableEq, Repr

end Sys2Proof
end

