-- ==== Sys2Proof/WellFormed.lean ====
section
/-! DEFINITION. Which commands a sender forms: bounds of the operands that are not already bounded by their type, and the
lengths of the byte lists a command carries. A command outside it still has a meaning; only a scratchpad row or Mat offset
past the end of the memory stops the machine. -/

namespace Sys2Proof

/-- A scratchpad request names one of the 655,360 rows (R164). -/
def SpReq.ok (r : SpReq) : Bool := decide (r.row < 655360)

/-- A Mat request starts inside the 16 MiB Mat (R184). -/
def MatReq.ok (r : MatReq) : Bool := decide (r.off < 2 ^ 24)

/-- What a Mat request carries fits its row or block (R186): at least one byte, a merge inside one block, a block whole. -/
def MatReq.shaped (r : MatReq) : Bool :=
  match r.act with
  | .read | .readBlock => true
  | .write d => decide (d ≠ [] ∧ r.off % 256 + d.length ≤ 256)
  | .writeBlock d _ => decide (d.length = 256)

/-- Operands a sender can form. -/
def Instr.wellFormed : Instr → Bool
  | .scratchpadRead _ rs => rs.all SpReq.ok
  | .scratchpadWrite _ rs d _ => rs.all SpReq.ok && decide (d.length = 256)
  | .scratchpadMerge _ rs n d => rs.all SpReq.ok && decide (1 ≤ n ∧ n ≤ 4 ∧ d.length = 64 * n)
  | .partialRowWrite _ rs st d => rs.all SpReq.ok && decide (d ≠ [] ∧ st + d.length ≤ 64)
  | .matAccess rs => rs.all fun r => r.ok && r.shaped
  | .ethFrameReceive _ _ _ fr => decide (14 ≤ fr.length)
  | .act _ _ row => decide (row < 65536)
  | .rd _ _ col => decide (col < 64)
  | .wr _ _ col d _ => decide (col < 64 ∧ d.length = 32)
  | .trainingCommand _ (.fifoWrite b) => decide (b.length = 32)
  | .dramWrite _ a d _ => decide (a.toNat % 256 = 0 ∧ d.length = 256)
  | .dramMerge _ _ d => decide (d ≠ [])
  | .flitReceive _ lanes => decide (lanes.length = 8)
  | .thermalSample ts => decide (ts.length = 24)
  | .i2cWrite b => decide (b ≠ [])
  | _ => true

end Sys2Proof
end

