-- ==== Sys2Proof/Config.lean ====
section
/-! DEFINITION. What an implementation fixes and what the manual leaves to another standard:
opaque constants, so that no proof can see a value. Each has a row in notes/assumptions. -/

namespace Sys2Proof.Config

/-- Fresh free values: the manual states no value; the counter `State.free` numbers them. -/
opaque freeWord : Nat → Word

/-- SM3 digest (GB/T 32905), bytes in output order (R691). -/
opaque sm3 : List Byte → BitVec 256

/-- SM2 verification (GB/T 32918.2) of signature `r ‖ s` over a digest under a public key (R691). -/
opaque sm2Verify : (key : BitVec 512) → (digest : BitVec 256) → (sig : BitVec 512) → Bool

/-- SM2 signature of a digest under a private key (R701). -/
opaque sm2Sign : (priv : BitVec 256) → (digest : BitVec 256) → BitVec 512

/-- CMAC-SM4 tag (R337). -/
opaque cmacSm4 : (key : BitVec 128) → List Byte → BitVec 128

/-- MACsec open (IEEE 802.1AE, R313): key bytes, 256-bit suite?, SCI, packet number, secured bytes. -/
opaque gcmOpen : List Byte → Bool → BitVec 64 → BitVec 32 → List Byte → Option (List Byte)

/-- Whether a MAC protects the frames that the device time unit sends (R313, R393): no rule sets a transmit association up. -/
opaque macTxSecured : Nat → Bool

/-- MACsec seal (IEEE 802.1AE, R313, R393) of a frame with its addresses, under the association of a MAC: MAC, packet number, frame. -/
opaque gcmSeal : Nat → BitVec 32 → List Byte → List Byte

/-- The vendor public key that signs SFU user tables, which carry no key (R258, R692). -/
opaque vendorTableKey : BitVec 512

/-- The vendor public key that answers debug challenges (R692, R703). -/
opaque vendorDebugKey : BitVec 512

/-- TRNG output (R703). -/
opaque trng : Nat → BitVec 256

/-- Whether the TRNG fails its health test at a request (R704). -/
opaque trngFails : Nat → Bool

/-- SM2 public-key decryption under a private key (R697). -/
opaque sm2Decrypt : (priv : BitVec 256) → List Byte → Option (List Byte)

/-- Segment record (Y0, Y1, C2) of built-in SFU table FUNC (R259 gives error bounds, no contents). -/
opaque sfuBuiltin : (func seg : Nat) → Word × Word × Word

/-- Block of the staging area that the `k`-th block staged by a SORUS instruction takes, modulo 640 (R288, R291). -/
opaque stageBlock : Nat → Nat

/-- Build number of the firmware release (R429). -/
opaque fwBuild : BitVec 16

/-- Power-up value of mode register `ma` in LPDDR5 (`true`) or LPDDR4X (`false`) (R423). -/
opaque mrPowerUp : Bool → Nat → Byte

/-- Whether the standard in use defines mode register `ma` (R423). -/
opaque mrDefined : Bool → Nat → Bool

/-- Whether the standard makes mode register `ma` read-only (R423). -/
opaque mrReadOnly : Bool → Nat → Bool

/-- Bits of mode register `ma` that hold a feature R411 does not offer. -/
opaque mrUnoffered : Bool → Nat → Byte

/-- MR4 code of the normal range at 1x with TUF 0, and MR8's S16, 8 Gb, x16 code (R423). -/
opaque mrFixed : Bool → Nat → Byte

/-- Whether the written value of MR3 selects the 8-bank organisation, not offered (R411). -/
opaque mr3EightBank : Byte → Bool

/-- Bits of MR3 that hold the bank organisation (R411, R423). -/
opaque mr3OrgBits : Byte

/-- Whether MR3's value selects BG organisation (R402, R406). -/
opaque mr3IsBG : Byte → Bool

/-- Sensor nearest a unit (R642 TEMP, SENSOR). -/
opaque nearestSensor : Nat → Fin 24

/-- Rail voltage in mV at a unit, by unit and free counter (R642 RAIL). -/
opaque railMv : Nat → Nat → BitVec 16

/-- Set point that a write of mode register `ma` selects, modulo 3; `none` where it selects none (R414). -/
opaque mrFsp : Bool → Nat → Byte → Option Nat

/-- Whether mode register `ma` reads an oscillator count (R410). -/
opaque mrOsc : Bool → Nat → Bool

/-- Data rate measured on a settled port, in 100 MT/s (R451). -/
opaque dataRate : Nat → Byte

/-- The port's own oscillator count (R410). -/
opaque oscCount : Nat → Byte

/-- Byte of a spare row that nothing has written since POR_N (R178). -/
opaque spareByte : Nat → Byte

/-- SEC-DED standing of a word of a spare row that nothing has written since POR_N (R178): modulo 3, 0 good, 1 correctable
at bit `m / 3`, 2 uncorrectable. -/
opaque spareMark : Nat → Nat

/-- Left shift that brings a raw sample of `n` bits into its 16-bit word, modulo 17 (R328 stage 1). -/
opaque rawShift : (n : Nat) → Nat

/-- Which of the four BLACK and GAIN entries serves a colour position, modulo 4: CFA code, row parity, column parity, or for
YUV422 the component (R328 stage 2, R485). -/
opaque cfaEntry : Nat → Nat → Nat → Nat

/-- Tone value past the last entry of a table: last entry and fraction (R328 stage 5). -/
opaque toneEnd : Nat → Nat → Nat

/-- Colour that a mono output takes, modulo 3 (R328 stage 8). -/
opaque monoChannel : Nat

/-- Bytes less 1 of field `i` of a point packet, modulo 8 (R333). -/
opaque pointWidth : Nat → Nat

/-- Device time in ns that a sensor's own timestamp names (R327, R333). -/
opaque pointTime : Nat → Nat

/-- Range, azimuth and channel of a Cartesian point, for a range image (R333, R334). -/
opaque polarOf : Int → Int → Int → Nat × Nat × Nat

/-- Bytes of one voxel of a voxel list: grid index and points, each with x, y, z, intensity and time offset (R333, R336). -/
opaque voxelBytes : Nat → List (Int × Int × Int × Nat × Nat) → List Byte

/-- Stage 7's sample past the last row or column, from the block's fill value (R225, R328). -/
opaque resizePast : Nat → Nat

/-- Message and host's sensor time in ns that the payload of an AUX ring entry carries (R315). -/
opaque auxEntry : List Byte → List Byte × Nat

/-- Whether a CSI-2 port pair is wired as C-PHY (R309, R340). -/
opaque pairCphy : Nat → Bool

/-- Data lanes or trios of a CSI-2 port: 0 one, 1 two, 2 the most its PHY has, modulo 3 (R309, R340). -/
opaque portLanes : Nat → Nat

/-- Power-on time, in parts of 1/307,200,000 s, that a save of NOR region `r` takes, or programming the image for 6 (R717 and R725
give none). -/
opaque norSave : Nat → Nat

end Sys2Proof.Config
end

