-- ==== Sys2Proof/Machine/Bits.lean ====
section
/-! DEFINITION. Byte order, bit fields, CRC-32C and mod-7 residues: the plain helpers every meaning uses. -/

namespace Sys2Proof.Machine

/-- Bits `lo .. lo+len-1` of `v` (R10). -/
def bits (v lo len : Nat) : Nat := (v >>> lo) % 2 ^ len

/-- One bit of `v`. -/
def bit1 (v i : Nat) : Bool := v.testBit i

/-- `v` with bits `lo .. lo+len-1` replaced by the low bits of `x`. -/
def setBits (v lo len x : Nat) : Nat :=
  v - bits v lo len * 2 ^ lo + (x % 2 ^ len) * 2 ^ lo

/-- Two's-complement reading of the low `w` bits of `v` (R88). -/
def sext (w v : Nat) : Int :=
  let u := v % 2 ^ w
  if u < 2 ^ (w - 1) then (u : Int) else (u : Int) - 2 ^ w

/-- The `w`-bit two's-complement code of `v`. -/
def code (w : Nat) (v : Int) : Nat := (v % (2 ^ w : Int)).toNat

/-- `v` brought into `lo .. hi` (saturation). -/
def clampInt (lo hi v : Int) : Int := max lo (min hi v)

/-- Little-endian value of a byte list (R11). -/
def leNat : List Byte → Nat
  | [] => 0
  | b :: t => b.toNat + 256 * leNat t

/-- The `n` little-endian bytes of `v` (R11). -/
def leBytes : Nat → Nat → List Byte
  | 0, _ => []
  | n + 1, v => BitVec.ofNat 8 v :: leBytes n (v / 256)

/-- Big-endian value of a byte list, for the formats of external standards (R11). -/
def beNat (l : List Byte) : Nat := l.foldl (fun a b => 256 * a + b.toNat) 0

/-- The `n` big-endian bytes of `v`. -/
def beBytes (n v : Nat) : List Byte := (leBytes n v).reverse

/-- `n` bytes of `l` from offset `o`, zero past its end. -/
def slice (l : List Byte) (o n : Nat) : List Byte :=
  let t := (l.drop o).take n
  t ++ List.replicate (n - t.length) 0

/-- Little-endian field of `n` bytes at offset `o`. -/
def fld (l : List Byte) (o n : Nat) : Nat := leNat (slice l o n)

/-- Big-endian field of `n` bytes at offset `o`. -/
def fldBE (l : List Byte) (o n : Nat) : Nat := beNat (slice l o n)

/-- `l` cut or zero-filled to `n` bytes. -/
def padTo (n : Nat) (l : List Byte) : List Byte := slice l 0 n

/-- `l` with the bytes `x` placed at offset `o`. -/
def splice (l : List Byte) (o : Nat) (x : List Byte) : List Byte :=
  padTo o l ++ x ++ l.drop (o + x.length)

/-- Ceiling division. -/
def cdiv (a b : Nat) : Nat := (a + b - 1) / b

/-- One bit step of CRC-32C, reflected polynomial 0x82F6_3B78 (R537). -/
def crcStep (c : Nat) : Nat := if c % 2 = 1 then (c / 2) ^^^ 0x82F63B78 else c / 2

/-- One byte step of CRC-32C. -/
def crcByte (c : Nat) (b : Byte) : Nat :=
  crcStep (crcStep (crcStep (crcStep (crcStep (crcStep (crcStep (crcStep (c ^^^ b.toNat))))))))

/-- CRC-32C of a byte list (R537). -/
def crc32c (l : List Byte) : Nat := (l.foldl crcByte 0xFFFFFFFF) ^^^ 0xFFFFFFFF

/-- A CRC-32C taken on over `n` further bytes that contribute nothing: the CRC of A followed by B, B of `n` bytes, is this of A's,
XOR B's (R537). -/
def crcZeros (n c : Nat) : Nat := (List.replicate n (0 : Byte)).foldl crcByte c

/-- BCW of a 256-byte block of zeros: what every block nothing has written carries (R189). -/
def zeroBcw : Nat := 0xB872B190

/-- Cut a list into pieces of `n` (fuel bounds the pieces). -/
def chunks (n : Nat) : Nat → List Byte → List (List Byte)
  | 0, _ => []
  | k + 1, l => if l.isEmpty then [] else l.take n :: chunks n k (l.drop n)

/-- Mod-7 residue of an integer, 0 to 6 (R111). -/
def res7 (v : Int) : Nat := (v % 7).toNat

end Sys2Proof.Machine
end

