-- ==== Sys2Proof/Machine/Num.lean ====
section
/-! DEFINITION. Number formats and exact arithmetic: every value is an exact rational times a power of two until
it is rounded once (R88, R94, R109, R115, R243). -/

namespace Sys2Proof.Machine

/-- Round to nearest, ties to even, of `n / d` (R94); `d` is positive. -/
def rneDiv (n : Int) (d : Nat) : Int :=
  let q := n / (d : Int)
  let r := n % (d : Int)
  if 2 * r < d then q else if 2 * r > d then q + 1 else if q % 2 = 0 then q else q + 1

/-- RNE of `n / d * 2 ^ e`. -/
def rneScale (n : Int) (d : Nat) (e : Int) : Int :=
  if 0 ≤ e then rneDiv (n * 2 ^ e.toNat) d else rneDiv n (d * 2 ^ (-e).toNat)

/-- An exact value: sign, magnitude `num / den * 2 ^ exp`. The sign of a zero is kept. -/
structure Exact where
  neg : Bool
  num : Nat
  den : Nat
  exp : Int
  deriving DecidableEq, Repr

/-- The exact value of an integer. -/
def exactInt (v : Int) : Exact := ⟨v < 0, v.natAbs, 1, 0⟩

/-- The signed numerator of an exact value. -/
def Exact.signed (x : Exact) : Int := if x.neg then -(x.num : Int) else x.num

/-- Exact product. -/
def Exact.mul (x y : Exact) : Exact := ⟨x.neg != y.neg, x.num * y.num, x.den * y.den, x.exp + y.exp⟩

/-- Exact quotient; the caller keeps `y` away from zero. -/
def Exact.div (x y : Exact) : Exact := ⟨x.neg != y.neg, x.num * y.den, x.den * y.num, x.exp - y.exp⟩

/-- Exact negation, which turns the sign of a zero. -/
def Exact.neg' (x : Exact) : Exact := { x with neg := !x.neg }

/-- Exact scaling by a power of two. -/
def Exact.scale (x : Exact) (e : Int) : Exact := { x with exp := x.exp + e }

/-- Exact sum. A zero sum is `+0` unless both terms are negative (IEEE 754 RNE, R243). -/
def Exact.add (x y : Exact) : Exact :=
  let e := min x.exp y.exp
  let a := x.signed * (y.den : Int) * 2 ^ (x.exp - e).toNat
  let b := y.signed * (x.den : Int) * 2 ^ (y.exp - e).toNat
  let t := a + b
  ⟨if t = 0 then x.neg && y.neg else t < 0, t.natAbs, x.den * y.den, e⟩

/-- Exact comparison of values, `-0` and `+0` equal. -/
def Exact.le (x y : Exact) : Bool :=
  let e := min x.exp y.exp
  x.signed * (y.den : Int) * 2 ^ (x.exp - e).toNat ≤ y.signed * (x.den : Int) * 2 ^ (y.exp - e).toNat

/-- Floor of an exact value. -/
def Exact.floor (x : Exact) : Int :=
  if 0 ≤ x.exp then (x.signed * 2 ^ x.exp.toNat) / (x.den : Int)
  else x.signed / ((x.den * 2 ^ (-x.exp).toNat : Nat) : Int)

/-- RNE to an integer. -/
def Exact.rne (x : Exact) : Int := rneScale x.signed x.den x.exp

/-- Floor of log2 of the magnitude of a nonzero exact value (R90). -/
def Exact.ilog2 (x : Exact) : Int :=
  let l : Int := (Nat.log2 x.num : Int) - (Nat.log2 x.den : Int)
  let ge : Bool := if 0 ≤ l then x.den * 2 ^ l.toNat ≤ x.num else x.den ≤ x.num * 2 ^ (-l).toNat
  (if ge then l else l - 1) + x.exp

/-- Whether the value is an integer multiple of 1. -/
def Exact.isInt (x : Exact) : Bool :=
  if 0 ≤ x.exp then (x.num * 2 ^ x.exp.toNat) % x.den = 0
  else x.num % (x.den * 2 ^ (-x.exp).toNat) = 0

/-- The formats of R88, in the order of OUTFMT (R137). -/
inductive Fmt where
  | int4 | int8 | uint8 | int16 | int32 | e4m3 | e5m2 | fp16 | bf16 | fp32 | eaf
  deriving DecidableEq, Repr

/-- OUTFMT codes (R137). -/
def Fmt.ofCode : Nat → Option Fmt
  | 0 => some .int4 | 1 => some .int8 | 2 => some .uint8 | 3 => some .int16 | 4 => some .int32
  | 5 => some .e4m3 | 6 => some .e5m2 | 7 => some .fp16 | 8 => some .bf16 | 9 => some .fp32
  | 10 => some .eaf | _ => none

/-- Code bits of one element; EAF elements count 96 (R88). -/
def Fmt.width : Fmt → Nat
  | .int4 => 4 | .int8 | .uint8 | .e4m3 | .e5m2 => 8 | .int16 | .fp16 | .bf16 => 16
  | .int32 | .fp32 => 32 | .eaf => 96

/-- Whether the format is a floating-point one. -/
def Fmt.isFloat : Fmt → Bool
  | .e4m3 | .e5m2 | .fp16 | .bf16 | .fp32 => true
  | _ => false

/-- Bounds of an integer format (R88). -/
def Fmt.range : Fmt → Int × Int
  | .int4 => (-8, 7) | .int8 => (-128, 127) | .uint8 => (0, 255) | .int16 => (-32768, 32767)
  | _ => (-2147483648, 2147483647)

/-- Significand bits, bias and largest finite magnitude code of a floating format (R88). -/
def Fmt.float : Fmt → Nat × Int × Nat
  | .e4m3 => (3, 7, 0x7E)
  | .e5m2 => (2, 15, 0x7B)
  | .fp16 => (10, 15, 0x7BFF)
  | .bf16 => (7, 127, 0x7F7F)
  | _ => (23, 127, 0x7F7FFFFF)

/-- Value of a floating code: `none` for NaN and infinity (R88). -/
def decodeFloat (f : Fmt) (c : Nat) : Option Exact :=
  let (m, bias, mx) := f.float
  let w := f.width
  let neg := c.testBit (w - 1)
  let mag := c % 2 ^ (w - 1)
  if mx < mag then none
  else
    let e := mag / 2 ^ m
    let s := mag % 2 ^ m
    if e = 0 then some ⟨neg, s, 1, 1 - bias - m⟩
    else some ⟨neg, 2 ^ m + s, 1, (e : Int) - bias - m⟩

/-- Rounding to a floating format once, by RNE: the magnitude code before saturation (R109). -/
def roundMag (f : Fmt) (x : Exact) : Nat :=
  if x.num = 0 then 0
  else
    let (m, bias, _) := f.float
    let e := max x.ilog2 (1 - bias)
    let sig := (rneScale (x.num : Int) x.den (x.exp - (e - m))).toNat
    (e + bias - 1).toNat * 2 ^ m + sig

/-- Rounding to a floating format with saturation to the largest finite magnitude: code, and whether it
saturated (R109, R243). -/
def roundFloat (f : Fmt) (x : Exact) : Nat × Bool :=
  let (_, _, mx) := f.float
  let mag := roundMag f x
  let sat := decide (mx < mag)
  ((if x.neg then 2 ^ (f.width - 1) else 0) + (if sat then mx else mag), sat)

/-- Rounding to FP32. -/
def toFp32 (x : Exact) : Nat := (roundFloat .fp32 x).1

/-- Exact value of an FP32 code with NaN and infinity taken as 0 (R243); whether it was non-finite. -/
def fp32Val (c : Nat) : Exact × Bool :=
  match decodeFloat .fp32 c with
  | some x => (x, false)
  | none => (⟨false, 0, 1, 0⟩, true)

/-- Conversion of an exact value to a non-EAF format: integers by RNE and saturation, floats by R109. -/
def convert (f : Fmt) (x : Exact) : Nat × Bool :=
  if f.isFloat then roundFloat f x
  else
    let v := x.rne
    let (lo, hi) := f.range
    (code f.width (clampInt lo hi v), decide (v < lo ∨ hi < v))

/-- Exact value of an element code of any non-EAF format; `none` for NaN and infinity. -/
def decodeElem (f : Fmt) (c : Nat) : Option Exact :=
  if f.isFloat then decodeFloat f c
  else if f = .uint8 then some (exactInt (c % 256 : Nat))
  else some (exactInt (sext f.width c))

/-! Exact Accumulation Format (R113 to R118). -/

/-- An EAF block: 64 elements, exponent, flags, count, and the residue field of each element (R113, R117). -/
structure Eaf where
  elems : List Int
  exp : Int
  inexact : Bool
  range : Bool
  nonfinite : Bool
  count : Nat
  res : List Nat
  deriving DecidableEq, Repr

/-- The 1,024 bytes of an EAF block (R113). -/
def Eaf.bytes (b : Eaf) : List Byte :=
  let es := (List.range 64).map fun i => b.elems.getD i 0
  let res := (List.range 64).foldl (fun a i => a + b.res.getD i 0 % 8 * 8 ^ i) 0
  padTo 1024 (es.flatMap (fun v => leBytes 12 (code 96 v)) ++ leBytes 2 (code 16 b.exp)
    ++ leBytes 2 (b.inexact.toNat + 2 * b.range.toNat + 4 * b.nonfinite.toNat)
    ++ leBytes 4 b.count ++ leBytes 24 res)

/-- Reading an EAF block; the flag says that RES disagrees with an element (R117). DESIGN CHOICE (notes/assumptions/82): a stored
code 7 is a mismatch, whatever the element. -/
def Eaf.parse (l : List Byte) : Eaf × Bool :=
  let es := (List.range 64).map fun i => sext 96 (fld l (12 * i) 12)
  let res := (List.range 64).map fun i => bits (fld l 776 24) (3 * i) 3
  let bad := (es.zip res).any fun e => e.2 != res7 e.1
  let fl := fld l 770 2
  (⟨es, sext 16 (fld l 768 2), bit1 fl 0, bit1 fl 1, bit1 fl 2, fld l 772 4, res⟩, bad)

/-- Flags an EAF conversion raises. -/
structure EafFlags where
  inexact : Bool
  range : Bool
  nonfinite : Bool
  deriving DecidableEq, Repr

/-- Union of flags (R116). -/
def EafFlags.or (a b : EafFlags) : EafFlags :=
  ⟨a.inexact || b.inexact, a.range || b.range, a.nonfinite || b.nonfinite⟩

/-- Converting a value into an EAF element at exponent `e` (R115). -/
def toEaf (v : Option Exact) (e : Int) : Int × EafFlags :=
  match v with
  | none => (0, ⟨false, false, true⟩)
  | some x =>
    let y := x.scale (-e)
    let i := y.rne
    let m : Int := 2 ^ 63 - 1
    if i.natAbs > m.toNat then (if x.neg then -m else m, ⟨!y.isInt, true, false⟩)
    else (i, ⟨!y.isInt, false, false⟩)

/-- Saturation of an EAF element sum (R116). -/
def eafSat (v : Int) : Int × Bool :=
  let m : Int := 2 ^ 95 - 1
  if v > m then (m, true) else if v < -m then (-m, true) else (v, false)

/-- Adding two EAF blocks of equal exponent (R116); the residues of a sum are the sums of the operands' residues, so that a RES that
disagreed goes on disagreeing (R117). DESIGN CHOICE (notes/assumptions/82): a saturated element takes its bound's residue. -/
def Eaf.add (a b : Eaf) : Eaf :=
  let s := (List.range 64).map fun i => eafSat (a.elems.getD i 0 + b.elems.getD i 0)
  let c := a.count + b.count
  { elems := s.map (·.1), exp := a.exp, inexact := a.inexact || b.inexact,
    range := a.range || b.range || s.any (·.2) || decide (0xFFFFFFFF < c),
    nonfinite := a.nonfinite || b.nonfinite, count := min c 0xFFFFFFFF,
    res := s.zipIdx.map fun (e, i) => if e.2 then res7 e.1 else (a.res.getD i 0 + b.res.getD i 0) % 7 }

/-- A block of converted elements: RES is formed from them (R115, R117). -/
def Eaf.ofElems (l : List Int) (e : Int) (inexact range nonfinite : Bool) (count : Nat) : Eaf :=
  ⟨l, e, inexact, range, nonfinite, count, l.map res7⟩

/-- A block of zeros. -/
def Eaf.empty : Eaf := ⟨[], 0, false, false, false, 0, []⟩

/-- Exact value of an EAF element. -/
def eafVal (i e : Int) : Exact := { exactInt i with exp := e }

/-- Variance finish of one element (R119): `n`, `S1`, `S2` at exponents `e` and `2 e`. DESIGN CHOICE (notes/assumptions/83): with
COUNT 0 in both blocks and S1 zero, where the quotient is 0 / 0, the result is the free value `free`. -/
def varFin (free : Word) (n : Nat) (s1 s2 e : Int) : Nat :=
  let num := (n : Int) * s2 - s1 * s1
  if n = 0 ∧ num = 0 then free.toNat else if num ≤ 0 then 0 else toFp32 ⟨false, num.toNat, n * n, 2 * e⟩

/-- Mean of one element (R248). -/
def meanFin (n : Nat) (i e : Int) : Nat :=
  if n = 0 then 0 else toFp32 ⟨i < 0, i.natAbs, n, e⟩

end Sys2Proof.Machine
end

