-- ==== Sys2Proof/Machine/Flags.lean ====
section
/-! DEFINITION. Flag computations: residue shadows and their saturation code, the accumulator's saturating add,
counters that hold at their top (R63, R78, R111). -/

namespace Sys2Proof.Machine

/-- Shadow code of a saturated accumulator value (R63, R111). -/
def shadowSat : Nat := 7

/-- Sum of two residue shadows (R112). -/
def shadowAdd (a b : Nat) : Nat := (a + b) % 7

/-- Saturating accumulate (R63): the value written and its shadow. `lo`/`hi` bound the entry; a saturated entry
stays until a CLEAR write; `newRes` is the predicted residue of what is added. -/
def accAdd (lo hi : Int) (clear : Bool) (old : Int) (oldSh : Nat) (add : Int) (newRes : Nat) : Int × Nat :=
  if !clear && oldSh = shadowSat then (old, oldSh)
  else
    let base : Int := if clear then 0 else old
    let t := base + add
    if t > hi then (hi, shadowSat)
    else if t < lo then (lo, shadowSat)
    else (t, if clear then newRes % 7 else shadowAdd oldSh newRes)

/-- A 32-bit event counter that holds at 0xFFFF_FFFF (R78, R160, R195). -/
def countUp (c : Word) (n : Nat) : Word := BitVec.ofNat 32 (min (c.toNat + n) 0xFFFFFFFF)

/-- A 16-bit token counter wraps (R138). -/
def tokAdd (t : BitVec 16) (n : Nat) : BitVec 16 := t + BitVec.ofNat 16 n

end Sys2Proof.Machine
end

