-- ==== Sys2Proof/Machine/FrondState.lean ====
section
/-! DEFINITION. The state of one Frond (chapters 02 to 08, 14, 20): plain data. -/

namespace Sys2Proof.Machine

/-- SEC-DED mark of a protected word or unit: a single-bit (correctable) or an uncorrectable error (R168, R169, R529). -/
inductive Upset where
  | none
  | ce (bit : Nat)
  | ue
  deriving DecidableEq, Repr

/-- State of an accumulator half (R61). -/
inductive HalfSt where
  | free
  | accumulating
  | complete
  | draining
  deriving DecidableEq, Repr

/-- State of a weight set (R75). IN_USE is read off the streams in flight. -/
inductive SetSt where
  | empty
  | loading
  | ready
  deriving DecidableEq, Repr

/-- One accumulator entry row: 512 values with shadows by accumulator column, checksum entry, row tags by logical
Pinna column with their parities (R63, R64, R99, R112). An empty list of cells reads as zeros with shadow 0. -/
structure AccRow where
  cells : List (Word × BitVec 3)
  csum : DWord
  xtag : List Int
  xpar : List Bool
  deriving DecidableEq, Repr

/-- One accumulator half: state, entry rows, column tags with their parities, whether its LAST row has been written (R61, R99),
the index of the geometry, first pixel and entry of the present tile, whether the tile is floating or wide, and the MIRROR its
weights were loaded with. -/
structure Half where
  st : HalfSt
  rows : List (Nat × AccRow)
  ytag : List Int
  ypar : List Bool
  closing : Bool
  geo : Nat
  p0 : Nat
  e0 : Nat
  fp : Bool
  wide : Bool
  mirror : Bool
  deriving DecidableEq, Repr

/-- One weight set: the aligned weights by reduction index and output, with the values R44 forms read off them. -/
structure WeightSet where
  st : SetSt
  wfmt : Nat
  n : Nat
  mirror : Bool
  cells : List (List Int)
  ycol : List Int
  deriving DecidableEq, Repr

/-- A LOADW that has issued and is not yet marked ready (R43): cell rows fetched, and the scratchpad rows, for the check of
R170. -/
structure LoadRun where
  q : Nat
  ins : IWord
  fetched : Nat
  seen : List Nat
  deriving DecidableEq, Repr

/-- Compressed slot header (R212). -/
structure SlotHdr where
  nelem : Nat
  nnz : Nat
  fmt : Nat
  zcode : Nat
  nch : Nat
  first : Nat
  bitmap : Nat
  deriving DecidableEq, Repr

/-- A STREAM or GANG in progress: whether it is WIDE, rows entered and rows written, all passes together (R58 to R60), the
scratchpad rows it has fetched, for the check of R170, the slot headers it holds by first row of the slot (R219), and what the
row-reuse shifter holds: element codes of the slice by problem and input pixel (R50). -/
structure StreamRun where
  q : Nat
  ins : IWord
  wide : Bool
  total : Nat
  entered : Nat
  written : Nat
  seen : List Nat
  hdrs : List (Nat × SlotHdr)
  shift : List ((Nat × Nat) × List Nat)
  deriving DecidableEq, Repr

/-- An operand row in the array, with what its accumulator write will add (R60). -/
structure RowRun where
  entry : Nat
  target : Nat
  clear : Bool
  wide : Bool
  sums : List Int
  shadows : List Nat
  csum : Int
  xtag : List Int
  ytag : List Int
  fp : Bool
  deriving DecidableEq, Repr

/-- Bytes a unit is about to write at a scratchpad byte address. -/
structure PendWrite where
  addr : Nat
  data : List Byte
  deriving DecidableEq, Repr

/-- A DRAIN in progress: entries read, outputs waiting to be presented, codes of the compressed slot being built and
slots finished (R69, R215). -/
structure DrainRun where
  q : Nat
  ins : IWord
  read : Nat
  outs : List (List PendWrite)
  slot : List Nat
  slots : Nat
  deriving DecidableEq, Repr

/-- One 64-byte unit (or part of a unit) in flight on a DMA channel, with its transport CRC (R543). `whole` says that the
instruction writes all of its destination block, `last` that it is the last unit there; `bcw` is the source BCW where it
is carried. -/
structure DmaUnit where
  dst : Nat
  data : List Byte
  crc : Word
  whole : Bool
  last : Bool
  bcw : Option Word
  deriving DecidableEq, Repr

/-- A DMA instruction in progress on a channel (R125, R547): units in flight, bytes of a whole block that have arrived with the CRC
combined from their transport CRCs (R543), and destination blocks whose BCW is to be complemented (R544). -/
structure DmaRun where
  q : Nat
  ins : IWord
  units : List DmaUnit
  got : List Byte
  gotCrc : Word
  bad : List Nat
  deriving DecidableEq, Repr

/-- One instruction queue of the running kernel (R120 to R127). -/
structure Queue where
  kind : Nat
  base : Nat
  count : Nat
  fetch : Nat
  entries : List IWord
  slot : Option IWord
  busy : Nat
  retired : Bool
  deriving DecidableEq, Repr

/-- The kernel a Frond runs (R126, R158, R507): for a Twin copy `orig` is the Frond of the original copy (R610), `kcap`
the cap of the Card it started in (R508). -/
structure KernelRun where
  job : Nat
  inst : Nat
  prog : Nat
  kernel : Nat
  golden : Bool
  twin : Bool
  orig : Fin 4
  kcap : Nat
  deriving DecidableEq, Repr

/-- A remote signal: job, instance and kernel it is for, counter and increment (R134). -/
structure RemoteSig where
  job : Nat
  inst : Nat
  kernel : Nat
  ttok : Nat
  inc : Nat
  deriving DecidableEq, Repr

/-- What a Frond does in its present Card (R506). -/
inductive CardUse where
  | none
  | work
  | golden
  | selftest
  | refresh
  deriving DecidableEq, Repr

/-- Droop state of a Frond's clock (R681). -/
inductive Droop where
  | none
  | stretched
  deriving DecidableEq, Repr

/-- A read that lost its bank to a write of the same row: the row as it was before the write (R153). -/
structure HeldRow where
  unit : SpUnit
  row : Nat
  data : List Byte
  deriving DecidableEq, Repr

/-- The state of one Frond. Its open Card with what it does there, its close in deck time and whether it still has to start
late (R506, R512); `swFrom` is the deck time at which a switch began to wait for the running kernel, `swD` FCLK added to the
next T_sw (R511, R517); `holds` the reasons for which JOB Cards run as IDLE, as (cause, segment, L2 has followed)
(R616, R622, R627, R632); `sfu` the user tables by slot with program and number, `sfuMarks` the SEC-DED standing of their
8-byte words, keyed 1,024 × slot + word (R260); `stPos` the next CHECK segment, `stRun` the segment that runs (R519, R626). -/
structure Frond where
  half0 : Half
  half1 : Half
  set0 : WeightSet
  set1 : WeightSet
  loads : List LoadRun
  streams : List StreamRun
  rows : List RowRun
  drains : List DrainRun
  inj : List (Fin 68)
  kernel : Option KernelRun
  lastJob : Word
  lastKernel : BitVec 16
  queues : List (Nat × Queue)
  qptr : List (Nat × Nat)
  rr : Nat
  tok : List (Nat × BitVec 16)
  remote : List RemoteSig
  inbound : List RemoteSig
  dma : List (Nat × DmaRun)
  wb : List Nat
  heldRows : List HeldRow
  spWait : List SpReq
  sfu : List (Nat × (Nat × Nat × List Byte))
  sfuMarks : List (Nat × Upset)
  zfill : Bool
  restore : Bool
  astate : Fin 4
  waking : Bool
  op : Nat
  retired : Bool
  droop : Droop
  card : Option Nat
  cardUse : CardUse
  cardEnd : Nat
  late : Bool
  swFrom : Option Nat
  swD : Nat
  switching : Option (Nat × Nat × Nat)
  holds : List (Nat × Nat × Bool)
  stPos : Nat
  stRun : Option Nat
  twinSum : DWord
  overlap : List Nat
  deriving DecidableEq, Repr

/-- An accumulator half as a Frond reset leaves it (R61, R64). -/
def Half.reset : Half := ⟨.free, [], [], [], false, 0, 0, 0, false, false, false⟩

/-- An empty weight set (R66). -/
def WeightSet.reset : WeightSet := ⟨.empty, 0, 0, false, [], []⟩

/-- An accumulator row of zeros with shadow 0 (R64). -/
def AccRow.zero : AccRow := ⟨[], 0, [], []⟩

end Sys2Proof.Machine
end

