-- ==== Sys2Proof/Machine/Operands.lean ====
section
/-! DEFINITION. Operand forms: the fields of the 128-bit Stipe instructions (R128 to R132) and the 32-byte
descriptors they name (R136, R137, R221, R237, R288, R542). -/

namespace Sys2Proof.Machine

/-- Bits `lo .. lo+len-1` of an instruction (R128). -/
def ifld (w : IWord) (lo len : Nat) : Nat := bits w.toNat lo len

/-- OPCODE (R128). -/
def opc (w : IWord) : Nat := ifld w 0 6
/-- WEN, the instruction waits on WTOK (R128). -/
def wen (w : IWord) : Bool := bit1 w.toNat 6
/-- SEN, the instruction signals STOK (R128). -/
def sen (w : IWord) : Bool := bit1 w.toNat 7
/-- WTOK (R128). -/
def wtok (w : IWord) : Nat := ifld w 8 8
/-- WVAL (R128). -/
def wval (w : IWord) : Nat := ifld w 16 16
/-- STOK (R128). -/
def stok (w : IWord) : Nat := ifld w 32 8

/-- Token condition of R131 on the value `t` of the counter. -/
def tokOk (w : IWord) (t : Nat) : Bool := !wen w || decide ((t + 65536 - wval w) % 65536 < 32768)

/-- LOADW fields (R130). -/
structure LoadwF where
  wfmt : Nat
  mirror : Bool
  set : Nat
  n : Nat
  k : Nat
  src : Nat
  deriving DecidableEq, Repr

/-- LOADW fields of an instruction (R130). -/
def loadwF (w : IWord) : LoadwF :=
  ⟨ifld w 79 3, bit1 w.toNat 78, ifld w 77 1, ifld w 68 9 + 1, ifld w 60 8 + 1, ifld w 40 20⟩

/-- Weight formats of WFMT (R130). -/
def wfmtOf : Nat → Fmt
  | 0 => .int8 | 1 => .int4 | 2 => .e4m3 | 3 => .e5m2 | 4 => .bf16 | _ => .fp16

/-- STREAM and GANG fields (R130): a STREAM is a GANG of one problem with `gang` false. -/
structure StreamF where
  gang : Bool
  last : Bool
  clear : Bool
  set : Nat
  target : Nat
  e0 : Nat
  m : Nat
  p0 : Nat
  g : Nat
  slot : Nat
  geo : Nat
  src : Nat
  deriving DecidableEq, Repr

/-- STREAM or GANG fields of an instruction (R130). -/
def streamF (w : IWord) : StreamF :=
  let gang := opc w = 3
  { gang := gang, last := bit1 w.toNat 127, clear := bit1 w.toNat 126, set := ifld w 125 1,
    target := ifld w 123 2, e0 := ifld w 112 11, m := ifld w 96 16,
    p0 := if gang then 0 else ifld w 72 24, g := if gang then ifld w 92 4 + 1 else 1,
    slot := if gang then ifld w 72 20 else 0, geo := ifld w 60 12, src := ifld w 40 20 }

/-- DRAIN fields (R130). -/
structure DrainF where
  half : Nat
  ne : Nat
  e0 : Nat
  desc : Nat
  dst : Nat
  deriving DecidableEq, Repr

/-- DRAIN fields of an instruction (R130). -/
def drainF (w : IWord) : DrainF := ⟨ifld w 95 2, ifld w 83 12, ifld w 72 11, ifld w 60 12, ifld w 40 20⟩

/-- VEC fields (R132): DST, SRCB, SRCA, DESC, VOP. -/
structure VecF where
  dst : Nat
  srcb : Nat
  srca : Nat
  desc : Nat
  vop : Nat
  deriving DecidableEq, Repr

/-- VEC fields of an instruction (R132). -/
def vecF (w : IWord) : VecF := ⟨ifld w 98 20, ifld w 78 20, ifld w 58 20, ifld w 46 12, ifld w 40 6⟩

/-- SFU fields as a VEC without B; `vop` holds FUNC (R132). -/
def sfuF (w : IWord) : VecF := ⟨ifld w 77 20, 0, ifld w 57 20, ifld w 45 12, ifld w 40 5⟩

/-- DMA fields (R132). -/
structure DmaF where
  idx : Nat
  doff : Nat
  soff : Nat
  desc : Nat
  dop : Nat
  deriving DecidableEq, Repr

/-- DMA fields of an instruction (R132). -/
def dmaF (w : IWord) : DmaF := ⟨ifld w 104 20, ifld w 80 24, ifld w 56 24, ifld w 44 12, ifld w 40 4⟩

/-- SAMPLE fields (R132). -/
structure SampleF where
  nbox : Nat
  dst : Nat
  img : Nat
  boxes : Nat
  desc : Nat
  deriving DecidableEq, Repr

/-- SAMPLE fields of an instruction (R132). -/
def sampleF (w : IWord) : SampleF := ⟨ifld w 112 13, ifld w 92 20, ifld w 72 20, ifld w 52 20, ifld w 40 12⟩

/-- SORUS fields (R132). -/
structure SorusF where
  list : Nat
  out : Nat
  qrow : Nat
  desc : Nat
  sop : Nat
  deriving DecidableEq, Repr

/-- SORUS fields of an instruction (R132). -/
def sorusF (w : IWord) : SorusF := ⟨ifld w 96 20, ifld w 76 20, ifld w 56 20, ifld w 44 12, ifld w 40 4⟩

/-- TOK.SIG fields (R132). -/
structure SigF where
  tfrd : Nat
  remote : Bool
  ttok : Nat
  inc : Nat
  deriving DecidableEq, Repr

/-- TOK.SIG fields of an instruction (R132). -/
def sigF (w : IWord) : SigF := ⟨ifld w 65 2, bit1 w.toNat 64, ifld w 56 8, ifld w 40 16⟩

/-- BAR fields: QMASK and BARID (R132). -/
def barQmask (w : IWord) : Nat := ifld w 48 64
/-- BARID (R132). -/
def barId (w : IWord) : Nat := ifld w 40 8

/-! Descriptors. -/

/-- Geometry descriptor (R136). -/
structure Geo where
  wino : Bool
  ofmt : Nat
  h : Nat
  w : Nat
  c : Nat
  kh : Nat
  kw : Nat
  ky0 : Nat
  khb : Nat
  c0 : Nat
  cb : Nat
  padT : Nat
  padL : Nat
  padB : Nat
  padR : Nat
  s : Nat
  d : Nat
  padVal : Nat
  mgroup : Nat
  ppitch : Nat
  expmap : Nat
  deriving DecidableEq, Repr

/-- Reading a geometry descriptor (R136). -/
def geoOf (b : List Byte) : Geo :=
  { wino := bit1 (fld b 1 1) 0, ofmt := bits (fld b 1 1) 1 3, h := fld b 2 2, w := fld b 4 2, c := fld b 6 2,
    kh := fld b 8 1, kw := fld b 9 1, ky0 := fld b 10 1, khb := fld b 11 1, c0 := fld b 12 2, cb := fld b 14 2,
    padT := fld b 16 1, padL := fld b 17 1, padB := fld b 18 1, padR := fld b 19 1, s := fld b 20 1,
    d := fld b 21 1, padVal := fld b 22 2, mgroup := fld b 24 2, ppitch := fld b 26 2,
    expmap := bits (fld b 28 4) 0 20 }

/-- Operand formats of OFMT (R136). -/
def ofmtOf : Nat → Fmt
  | 0 => .int8 | 1 => .uint8 | 2 => .int4 | 3 => .e4m3 | 4 => .e5m2 | 5 => .bf16 | _ => .fp16

/-- Output width (R46). -/
def Geo.ow (g : Geo) : Nat := (g.w + g.padL + g.padR - ((g.kw - 1) * g.d + 1)) / g.s + 1
/-- Output height (R46). -/
def Geo.oh (g : Geo) : Nat := (g.h + g.padT + g.padB - ((g.kh - 1) * g.d + 1)) / g.s + 1
/-- Shifter span (R49). -/
def Geo.span (g : Geo) : Nat := (g.kw - 1) * g.d + 1
/-- Compressed input (R216). -/
def Geo.compressed (g : Geo) : Bool := g.ppitch = 0xFFFF
/-- Pixels per compressed slot (R212, R216). -/
def Geo.pb (g : Geo) : Nat := 1792 / g.c
/-- Winograd tiles across (R200). -/
def Geo.tw (g : Geo) : Nat := cdiv g.ow 2
/-- Winograd tiles down (R200). -/
def Geo.th (g : Geo) : Nat := cdiv g.oh 2

/-- Drain descriptor (R137). -/
structure DrainD where
  outfmt : Nat
  act : Nat
  slope : Nat
  compress : Bool
  winoOut : Bool
  param : Nat
  clampLo : Nat
  clampHi : Nat
  eafExp : Int
  ncols : Nat
  opitch : Nat
  mapdst : Nat
  deriving DecidableEq, Repr

/-- Reading a drain descriptor (R137). -/
def drainOf (b : List Byte) : DrainD :=
  let post := fld b 2 1
  { outfmt := fld b 1 1, act := bits post 0 2, slope := bits post 2 4, compress := bit1 post 6,
    winoOut := bit1 post 7, param := bits (fld b 4 4) 0 20, clampLo := fld b 8 4, clampHi := fld b 12 4,
    eafExp := sext 16 (fld b 16 2), ncols := fld b 18 2, opitch := fld b 20 2,
    mapdst := bits (fld b 24 4) 0 20 }

/-- Requantization record (R105). -/
structure Requant where
  bias : Nat
  mult : Int
  shift : Nat
  zp : Int
  deriving DecidableEq, Repr

/-- Reading a requantization record (R105). DESIGN CHOICE (notes/assumptions/84): a SHIFT byte of 64 to 255, which R105 does not
list and no rule rejects, shifts by the byte as it stands. -/
def requantOf (b : List Byte) : Requant :=
  ⟨fld b 0 4, sext 16 (fld b 4 2), fld b 6 1, sext 16 (fld b 8 2)⟩

/-- VEC and SFU descriptor (R237). -/
structure VecD where
  afmt : Nat
  bfmt : Nat
  dfmt : Nat
  bmode : Nat
  acc : Bool
  sq : Bool
  eafExp : Int
  len : Nat
  rows : Nat
  apitch : Nat
  bpitch : Nat
  dpitch : Nat
  imm : Nat
  deriving DecidableEq, Repr

/-- Reading a VEC or SFU descriptor (R237). -/
def vecOf (b : List Byte) : VecD :=
  let m := fld b 4 1
  { afmt := fld b 1 1, bfmt := fld b 2 1, dfmt := fld b 3 1, bmode := bits m 0 2, acc := bit1 m 2, sq := bit1 m 3,
    eafExp := sext 16 (fld b 6 2), len := bits (fld b 8 4) 0 24, rows := bits (fld b 12 4) 0 24,
    apitch := bits (fld b 16 4) 0 24, bpitch := bits (fld b 20 4) 0 24, dpitch := bits (fld b 24 4) 0 24,
    imm := fld b 28 4 }

/-- SAMPLE descriptor (R221). -/
structure SampleD where
  mode : Nat
  fmt : Nat
  norm : Bool
  ih : Nat
  iw : Nat
  c : Nat
  ipitch : Nat
  oh : Nat
  ow : Nat
  s : Nat
  extrap : Nat
  opitch : Nat
  padT : Nat
  padL : Nat
  padB : Nat
  padR : Nat
  deriving DecidableEq, Repr

/-- Reading a SAMPLE descriptor (R221). -/
def sampleOf (b : List Byte) : SampleD :=
  { mode := fld b 1 1, fmt := fld b 2 1, norm := bit1 (fld b 3 1) 0, ih := fld b 4 2, iw := fld b 6 2, c := fld b 8 2,
    ipitch := fld b 10 2, oh := fld b 12 1, ow := fld b 13 1, s := fld b 14 1, extrap := fld b 16 2,
    opitch := fld b 18 2, padT := fld b 20 1, padL := fld b 21 1, padB := fld b 22 1, padR := fld b 23 1 }

/-- Image formats of a SAMPLE (R221). -/
def sampleFmt : Nat → Fmt
  | 0 => .int8 | 1 => .uint8 | _ => .int16

/-- SORUS descriptor (R288). -/
structure SorusD where
  qfmt : Nat
  ofmt : Nat
  hg : Nat
  qcap : Nat
  tcap : Nat
  qpitch : Nat
  opitch : Nat
  scale : Nat
  qmap : Nat
  stage : Nat
  dh : Nat
  kvfmt : Nat
  deriving DecidableEq, Repr

/-- Reading a SORUS descriptor (R288). -/
def sorusOf (b : List Byte) : SorusD :=
  { qfmt := fld b 1 1, ofmt := fld b 2 1, hg := fld b 3 1, qcap := fld b 4 2, tcap := fld b 6 2,
    qpitch := bits (fld b 8 4) 0 24, opitch := bits (fld b 12 4) 0 24, scale := fld b 16 4,
    qmap := bits (fld b 20 4) 0 20, stage := bits (fld b 24 4) 0 20, dh := fld b 28 1, kvfmt := fld b 29 1 }

/-- DMA descriptor (R542). -/
structure DmaD where
  transpose : Bool
  cslot : Bool
  esize : Nat
  len : Nat
  src : Nat
  dst : Nat
  rows : Nat
  cols : Nat
  spitch : Nat
  dpitch : Nat
  deriving DecidableEq, Repr

/-- Reading a DMA descriptor (R542). -/
def dmaOf (b : List Byte) : DmaD :=
  { transpose := bit1 (fld b 1 1) 0, cslot := bit1 (fld b 1 1) 1, esize := fld b 2 1, len := bits (fld b 4 4) 0 24,
    src := fld b 8 6, dst := fld b 16 6, rows := fld b 24 2, cols := fld b 26 2, spitch := fld b 28 2,
    dpitch := fld b 30 2 }

/-- Element bytes of a transpose (R542). -/
def DmaD.e (d : DmaD) : Nat := 2 ^ d.esize

end Sys2Proof.Machine
end

