-- ==== Sys2Proof/Machine/Feeder.lean ====
section
/-! DEFINITION. The feeder's arithmetic (R45 to R50, R90 to R101, R200 to R204, R212 to R217): from a byte reader of
the scratchpad to operand rows, pure. -/

namespace Sys2Proof.Machine

/-- A byte reader of one Frond's scratchpad. -/
abbrev Reader := Nat → Byte

/-- `n` bytes from a reader, little-endian. -/
def rdLe (rd : Reader) (a n : Nat) : Nat := leNat ((List.range n).map fun i => rd (a + i))

/-- Reading the header block of the slot whose first row is `r` (R212, R216). -/
def slotHdr (rd : Reader) (r : Nat) : SlotHdr :=
  let a := r * 64
  ⟨rdLe rd a 2, rdLe rd (a + 2) 2, rdLe rd (a + 4) 1, rdLe rd (a + 5) 1, rdLe rd (a + 6) 2, rdLe rd (a + 8) 4,
    rdLe rd (a + 16) 224⟩

/-- Number of ones below bit `n`. -/
def popBelow (v n : Nat) : Nat := ((List.range n).filter fun i => v.testBit i).length

/-- FMT code of a slot for OFMT (R212). -/
def slotFmt (ofmt : Nat) : Nat := if ofmt ≤ 1 then ofmt else ofmt - 1

/-- The checks of R217 on the header of slot `k`. -/
def slotOk (g : Geo) (k : Nat) (h : SlotHdr) : Bool :=
  decide (1 ≤ h.nelem ∧ h.nelem ≤ 1792 ∧ h.nnz ≤ h.nelem ∧ h.fmt = slotFmt g.ofmt ∧ h.nch = g.c ∧
    h.first = k * g.pb ∧ h.nelem % g.c = 0 ∧ h.nelem ≤ g.pb * g.c ∧ h.bitmap < 2 ^ h.nelem ∧
    popBelow h.bitmap h.nelem = h.nnz)

/-- The header of the slot whose first row is `r`, of those a STREAM holds (R219); a slot of no element where it holds none. -/
def hdrAt (hdrs : List (Nat × SlotHdr)) (r : Nat) : SlotHdr :=
  ((hdrs.find? fun e => decide (e.1 = r)).map (·.2)).getD ⟨0, 0, 0, 0, 0, 0, 0⟩

/-- Element code of channel `c` of in-range input pixel `p` (R136, R216), with the slot headers held. -/
def pixelCode (rd : Reader) (g : Geo) (hdrs : List (Nat × SlotHdr)) (src p c : Nat) : Nat :=
  if g.compressed then
    let r := src + 32 * (p / g.pb)
    let h := hdrAt hdrs r
    let e := (p % g.pb) * g.c + c
    if h.bitmap.testBit e then (rd (r * 64 + 256 + popBelow h.bitmap e)).toNat else h.zcode
  else
    let a := src * 64 + p * g.ppitch
    match g.ofmt with
    | 2 => let b := (rd (a + c / 2)).toNat; if c % 2 = 0 then b % 16 else b / 16
    | 5 | 6 => rdLe rd (a + 2 * c) 2
    | _ => (rd (a + c)).toNat

/-- Element codes of the pixel slice of pixel `p`: channels `c0 .. c0+cb-1` (R50). -/
def pixelSlice (rd : Reader) (g : Geo) (hdrs : List (Nat × SlotHdr)) (src p : Nat) : List Nat :=
  (List.range g.cb).map fun c => pixelCode rd g hdrs src p (g.c0 + c)

/-- Input row and column of tap `(ky, kx)` of output pixel `p` (R47). -/
def tapPos (g : Geo) (p ky kx : Nat) : Int × Int :=
  ((p / g.ow * g.s : Nat) - g.padT + (ky * g.d : Nat), (p % g.ow * g.s : Nat) - g.padL + (kx * g.d : Nat))

/-- Whether an input position lies inside the input (R47). -/
def Geo.inside (g : Geo) (q : Int × Int) : Bool :=
  decide (0 ≤ q.1 ∧ q.1 < g.h ∧ 0 ≤ q.2 ∧ q.2 < g.w)

/-- Pixel index of an inside position. -/
def Geo.pix (g : Geo) (q : Int × Int) : Nat := q.1.toNat * g.w + q.2.toNat

/-- What the row-reuse shifter holds: element codes of the slice by problem and input pixel (R50). -/
abbrev Shifter := List ((Nat × Nat) × List Nat)

/-- Code of slice channel `c` that the shifter holds for problem `i` at an input position: PAD_VAL outside the input (R47). -/
def Shifter.at (sh : Shifter) (g : Geo) (i : Nat) (q : Int × Int) (c : Nat) : Nat :=
  if g.inside q then
    match sh.find? fun e => decide (e.1 = (i, g.pix q)) with
    | some e => e.2.getD c 0
    | none => 0
  else g.padVal

/-- Element code `k` of problem `i`'s operand row of output pixel `p`; `none` beyond the slice (R47, R48). -/
def operandCode (sh : Shifter) (g : Geo) (i p k : Nat) : Option Nat :=
  if k < g.khb * g.kw * g.cb then
    let t := k / g.cb
    some (sh.at g i (tapPos g p (g.ky0 + t / g.kw) (t % g.kw)) (k % g.cb))
  else none

/-- Group exponent map entry of group `q` of pixel `p` at map row `row`: `none` is 0x8000 (R90). -/
def mapEntry (rd : Reader) (row c p q : Nat) : Option Int :=
  let v := rdLe rd (row * 64 + 2 * (p * cdiv c 32 + q)) 2
  if v = 0x8000 then none else some (sext 16 v)

/-- Maximum of optional exponents. -/
def maxExp (l : List (Option Int)) : Option Int :=
  l.foldl (fun a x => match a, x with | none, y => y | y, none => y | some a, some b => some (max a b)) none

/-- Offset subtracted from exponents: 8 in FP8, 15 in WIDE (R92, R93). -/
def expOff (f : Fmt) : Int := if f = .bf16 ∨ f = .fp16 then 15 else 8

/-- Row exponent X of output pixel `p` (R92). -/
def rowExp (rd : Reader) (g : Geo) (mapRow p : Nat) : Int :=
  let taps := (List.range (g.kh * g.kw)).map fun t => tapPos g p (t / g.kw) (t % g.kw)
  let es := (taps.filter g.inside).flatMap fun q =>
    (List.range (cdiv g.c 32)).map fun k => mapEntry rd mapRow g.c (g.pix q) k
  match maxExp es with
  | none => 0
  | some e => e - expOff (ofmtOf g.ofmt)

/-- An aligned element: the integer, whether the source was non-finite, whether it passed its bound (R94 to R96). -/
structure Aligned where
  v : Int
  nonfinite : Bool
  past : Bool
  deriving DecidableEq, Repr

/-- Bound of an aligned magnitude (R96). -/
def alignBound (f : Fmt) : Int := if f = .bf16 ∨ f = .fp16 then 65535 else 511

/-- Aligning an exact value at exponent `x` (R94 to R96). -/
def alignVal (bound : Int) (v : Option Exact) (x : Int) : Aligned :=
  match v with
  | none => ⟨0, true, false⟩
  | some e =>
    let a := (e.scale (-x)).rne
    ⟨clampInt (-bound) bound a, false, decide (bound < a ∨ a < -bound)⟩

/-- Aligning an element code: integers widen, floats align (R89, R94). -/
def alignCode (f : Fmt) (c : Nat) (x : Int) : Aligned :=
  if f.isFloat then alignVal (alignBound f) (decodeFloat f c) x
  else ⟨(if f = .uint8 then (c % 256 : Nat) else sext f.width c), false, false⟩

/-- An operand row ready for the array. -/
structure OpRow where
  elems : List Int
  x : Int
  nonfinite : Bool
  past : Bool
  deriving DecidableEq, Repr

/-- Gather aligned elements into a row. -/
def rowOf (x : Int) (l : List Aligned) : OpRow :=
  ⟨l.map (·.v), x, l.any (·.nonfinite), l.any (·.past)⟩

/-- Operand row of problem `i` at output pixel `p`, `k` elements, map at `mapRow` (R47, R92, R94). -/
def operandRow (rd : Reader) (sh : Shifter) (g : Geo) (i mapRow p k : Nat) : OpRow :=
  let f := ofmtOf g.ofmt
  let x := if f.isFloat then rowExp rd g mapRow p else 0
  rowOf x ((List.range k).map fun j =>
    match operandCode sh g i p j with
    | none => ⟨0, false, false⟩
    | some c => alignCode f c x)

/-- Dot product of two integer lists. -/
def dot : List Int → List Int → Int
  | a :: s, b :: t => a * b + dot s t
  | _, _ => 0

/-- Rows of Bᵀ (R202). -/
def winoB : List (List Int) := [[1, 0, -1, 0], [0, 1, 1, 0], [0, -1, 1, 0], [0, 1, 0, -1]]
/-- Rows of Aᵀ (R202). -/
def winoA : List (List Int) := [[1, 1, 1, 0], [0, 1, -1, -1]]

/-- Entry `(i, j)` of `P M Pᵀ` for a 4-column matrix `P` and a 4 × 4 matrix `m`. -/
def sandwich (p : List (List Int)) (m : Nat → Nat → Int) (i j : Nat) : Int :=
  let pi := p.getD i []
  let pj := p.getD j []
  dot pi ((List.range 4).map fun u => dot ((List.range 4).map fun v => m u v) pj)

/-- Operand row of problem `g` of Winograd tile `t` (R200, R201). -/
def winoRow (sh : Shifter) (geo : Geo) (t g k : Nat) : OpRow :=
  let ty := t / geo.tw
  let tx := t % geo.tw
  rowOf 0 ((List.range k).map fun c =>
    if c < geo.cb then
      let d := fun (u v : Nat) =>
        sext 8 (sh.at geo 0 ((2 * ty : Nat) - geo.padT + (u : Nat), (2 * tx : Nat) - geo.padL + (v : Nat)) c)
      ⟨sandwich winoB d (g / 4) (g % 4), false, false⟩
    else ⟨0, false, false⟩)

/-- Scratchpad rows that bytes `a .. a+n-1` touch. -/
def rowsOf (a n : Nat) : List Nat := if n = 0 then [] else (List.range ((a + n - 1) / 64 - a / 64 + 1)).map (a / 64 + ·)

/-- Columns the shifter loads at output pixel `p`: all at the start of an output row, else those that enter (R50). -/
def enteringCols (g : Geo) (p : Nat) (first : Bool) : List Int :=
  let c0 : Int := (p % g.ow * g.s : Nat) - g.padL
  let n := if first || p % g.ow = 0 then g.span else min g.s g.span
  (List.range n).map fun i => c0 + (g.span - n : Nat) + i

/-- Input positions that enter the shifter at output pixel `p` of an instruction, every tap row (R50); for a Winograd tile 4
input rows, 4 columns at a tile row's start and 2 after it (R201). -/
def entering (g : Geo) (p : Nat) (first : Bool) : List (Int × Int) :=
  let l := if g.wino then
      let ty := p / g.tw
      let tx := p % g.tw
      let n := if first || tx = 0 then 4 else 2
      (List.range 4).flatMap fun u => (List.range n).map fun v =>
        (((2 * ty : Nat) - g.padT + (u : Nat) : Int), ((2 * tx : Nat) - g.padL + (4 - n + v : Nat) : Int))
    else
      ((List.range g.khb).map fun k => (tapPos g p (g.ky0 + k) 0).1).flatMap fun y =>
        (enteringCols g p first).map fun x => (y, x)
  l.filter g.inside

/-- First input column of the window of output pixel `p`. -/
def Geo.winLeft (g : Geo) (p : Nat) : Int :=
  if g.wino then (2 * (p % g.tw) : Nat) - g.padL else (p % g.ow * g.s : Nat) - g.padL

/-- Whether the shifter starts afresh at output pixel `p`: at the first of the instruction and of each output row (R50). -/
def Geo.fresh (g : Geo) (p : Nat) (first : Bool) : Bool := first || decide (p % (if g.wino then g.tw else g.ow) = 0)

/-- The shifter at output pixel `p`: what has left the window is dropped, the entering slices are read (R50). -/
def Shifter.load (sh : Shifter) (rd : Reader) (g : Geo) (hdrs : List (Nat × SlotHdr)) (srcs : List (Nat × Nat)) (p : Nat)
    (first : Bool) : Shifter :=
  let kept := if g.fresh p first then [] else sh.filter fun e => decide (g.winLeft p ≤ (e.1.2 % g.w : Nat))
  kept ++ srcs.flatMap fun e => (entering g p first).map fun q => ((e.1, g.pix q), pixelSlice rd g hdrs e.2 (g.pix q))

/-- Bytes of the pixel slice of pixel `p` as (address, length) (R50, R136). In a compressed slot the stored elements of the
slice stand together; before the header is held, the slice stands as if every element were stored (R219). -/
def sliceBytes (g : Geo) (hdrs : Option (List (Nat × SlotHdr))) (src p : Nat) : Nat × Nat :=
  if g.compressed then
    let r := src + 32 * (p / g.pb)
    let e := (p % g.pb) * g.c + g.c0
    match hdrs with
    | none => (r * 64 + 256 + e, g.cb)
    | some l =>
      let b := popBelow (hdrAt l r).bitmap e
      (r * 64 + 256 + b, popBelow (hdrAt l r).bitmap (e + g.cb) - b)
  else
    let a := src * 64 + p * g.ppitch
    match g.ofmt with
    | 2 => (a + g.c0 / 2, (g.c0 + g.cb + 1) / 2 - g.c0 / 2)
    | 5 | 6 => (a + 2 * g.c0, 2 * g.cb)
    | _ => (a + g.c0, g.cb)

/-- Problems of an instruction that fetch, with their input rows: one for a Winograd GANG (R56, R201). -/
def StreamF.srcs (s : StreamF) (g : Geo) : List (Nat × Nat) :=
  if g.wino then [(0, s.src)] else (List.range s.g).map fun i => (i, s.src + i * s.slot)

/-- Map rows of operand row `m` of one problem (R92). -/
def mapFetch (g : Geo) (mapRow p : Nat) : List Nat :=
  if (ofmtOf g.ofmt).isFloat then
    (((List.range (g.kh * g.kw)).map fun t => tapPos g p (t / g.kw) (t % g.kw)).filter g.inside).flatMap fun q =>
      rowsOf (mapRow * 64 + 2 * (g.pix q * cdiv g.c 32)) (2 * cdiv g.c 32)
  else []

/-- Rows an instruction's operand row `m` (row number within a pass) fetches, all problems together (R50, R56, R758): each once. -/
def instrFetch (s : StreamF) (g : Geo) (hdrs : Option (List (Nat × SlotHdr))) (m : Nat) : List Nat :=
  let p := s.p0 + m
  ((s.srcs g).flatMap fun e =>
    ((entering g p (m = 0)).flatMap fun q => let b := sliceBytes g hdrs e.2 (g.pix q); rowsOf b.1 b.2)
      ++ mapFetch g (g.expmap + e.1 * s.slot) p).dedup

/-- Header rows in the FCLKs in which they are fetched: whole headers in order, as many as 32 reads and the banks take
(R51, R758). -/
def hdrChunks : List Nat → List (List Nat) → List (List Nat)
  | [], acc => acc.reverse
  | r :: t, acc =>
    let rows := (List.range 4).map (r + ·)
    match acc with
    | [] => hdrChunks t [rows]
    | c :: u =>
      let n := (c ++ rows).dedup
      if n.length ≤ 32 ∧ (n.map (· % 320)).Nodup then hdrChunks t (n :: u) else hdrChunks t (rows :: c :: u)

/-- Reservation check of R51 on one FCLK's rows: at most 32, no two of them in one bank. -/
def slotsOk (rows : List Nat) : Bool := decide (rows.length ≤ 32) && decide ((rows.map (· % 320)).Nodup)

/-- A dead instruction (R208). -/
def isDead (s : StreamF) (g : Geo) : Bool :=
  !g.wino && g.padVal = 0 && !s.clear &&
    (List.range s.m).all fun m => (List.range (g.khb * g.kw)).all fun t =>
      !g.inside (tapPos g (s.p0 + m) (g.ky0 + t / g.kw) (t % g.kw))

/-- Halves of a wide value (R100). -/
def wideHi (a : Int) : Int := a / 256
/-- Low half of a wide value (R100). -/
def wideLo (a : Int) : Int := a - 256 * (a / 256)

/-- Cell rows of a weight block and bytes of each (R130). -/
def weightRows (l : LoadwF) : Nat × Nat :=
  let b := if l.wfmt = 4 ∨ l.wfmt = 5 then 2 else 1
  (if l.wfmt = 1 then (l.k + 1) / 2 else l.k, cdiv (l.n * b) 64)

/-- Weight code `(k, n)` of a block at row `src` (R130). -/
def weightCode (rd : Reader) (l : LoadwF) (k n : Nat) : Nat :=
  let (_, rr) := weightRows l
  match l.wfmt with
  | 1 => let b := (rd ((l.src + k / 2 * rr) * 64 + n)).toNat; if k % 2 = 0 then b % 16 else b / 16
  | 4 | 5 => rdLe rd ((l.src + k * rr) * 64 + 2 * n) 2
  | _ => (rd ((l.src + k * rr) * 64 + n)).toNat

/-- Column exponents of a block: the 512 entries of its exponent row (R93). -/
def colExps (rd : Reader) (l : LoadwF) : List Int :=
  let (cr, rr) := weightRows l
  (List.range 512).map fun n => sext 16 (rdLe rd ((l.src + cr * rr) * 64 + 2 * n) 2)

/-- The aligned weights of reduction index `k` (R41, R94). -/
def weightRow (rd : Reader) (l : LoadwF) (ys : List Int) (k : Nat) : List Aligned :=
  (List.range l.n).map fun n => alignCode (wfmtOf l.wfmt) (weightCode rd l k n) (ys.getD n 0)

/-- Accumulator column of output `n` under MIRROR (R36, R38). -/
def accCol (mirror : Bool) (n : Nat) : Nat := 32 * (if mirror then 15 - n / 32 else n / 32) + n % 32

/-- Physical column of mirrored column `c'` under map-out (R37). -/
def physCol (valid : Bool) (pcol c : Nat) : Nat := if valid && decide (pcol ≤ c) then c + 1 else c

/-- Mirrored column carried by physical column `b`, or `none` when it carries no work (R37, R85). -/
def mirrorOf (valid : Bool) (pcol b : Nat) : Option Nat :=
  if valid then (if b = pcol then none else if b < pcol then some b else some (b - 1))
  else if b < 16 then some b else none

end Sys2Proof.Machine
end

