-- ==== Sys2Proof/Machine/HostState.lean ====
section
/-! DEFINITION. The state of one host port and of Ebwick's rings and sessions (chapters 12 and 13): plain data. -/

namespace Sys2Proof.Machine

/-- Settled mode of a port (R403). -/
inductive PortMode where
  | unsettled
  | lpddr5
  | lpddr4x
  deriving DecidableEq, Repr

/-- Heartbeat state (R438). -/
inductive Hb where
  | init
  | live
  | sleeping
  | lost
  deriving DecidableEq, Repr

/-- A command taken from a submission ring and not yet completed (R468, R476): header and the bytes that follow it. -/
structure Taken where
  opc : Nat
  tag : Nat
  part : Nat
  status : Nat
  flags : Nat
  payload : List Byte
  deriving DecidableEq, Repr

/-- An armed ring (R454, R455): directory values as armed, the two copies of the pointers (the second complemented),
flags. An SQ holds the end of an abandoned span (R463) and the commands taken from it, oldest first; a CQ the room
promised, as SQ and bytes (R468). -/
structure Ring where
  base : Nat
  size : Nat
  kind : Nat
  part : Nat
  pair : Nat
  rtmo : Nat
  head : Nat
  tail : Nat
  nseq : Nat
  headC : Nat
  tailC : Nat
  nseqC : Nat
  full : Bool
  overrun : Bool
  reset : Bool
  resets : Nat
  lost : Nat
  tmoDone : Bool
  drop : Option Nat
  taken : List Taken
  promises : List (Nat × Nat)
  deriving DecidableEq, Repr

/-- An open session (R471). -/
structure Session where
  minor : Nat
  hostId : Word
  deriving DecidableEq, Repr

/-- A mapped aperture: allocation handle, offset in it, host writes allowed (R480). -/
structure Aper where
  handle : Nat
  off : Nat
  wr : Bool
  deriving DecidableEq, Repr

/-- One host port beside its HPC registers. -/
structure Port where
  mode : PortMode
  hb : Hb
  ready : Bool
  filled : Bool
  openRows : List (Nat × Nat)
  mrs : List (Nat × Byte)
  ambig : Nat
  fsp : Nat
  pd : Bool
  sr : Bool
  hint : Bool
  fifo : List Byte
  sqDb : List (Nat × Word)
  cqDb : List (Nat × Word)
  rings : List (Nat × Ring)
  session : Option Session
  irqStatus : BitVec 6
  irqMask : BitVec 6
  aperSeq : List Nat
  apers : List (Nat × Aper)
  deriving DecidableEq, Repr

/-- A port as POR_N leaves it (R402, R438, R447, R452). -/
def Port.reset : Port :=
  { mode := .unsettled, hb := .init, ready := false, filled := false, openRows := [], mrs := [],
    ambig := 0, fsp := 0, pd := false, sr := false, hint := false, fifo := [],
    sqDb := [], cqDb := [], rings := [], session := none, irqStatus := 0, irqMask := 0x3F, aperSeq := [0, 0, 0, 0],
    apers := [] }

end Sys2Proof.Machine
end

