-- ==== Sys2Proof/Machine/IngestState.lean ====
section
/-! DEFINITION. The state of Rhizoid, the Dealer and the device time unit beside their registers (chapters 09 to 11):
plain data. -/

namespace Sys2Proof.Machine

/-- The frame a stream is receiving (R316, R327): `bad` says that the period before it was outside PMIN to PMAX. Times are
device nanoseconds at the capture, with the step sum then. `sums` are the BCWs that stand beside each 256 bytes of a line in the
line buffers (R328 stage 1), or beside the decoded output of a record (R367); `icheckAt` is the first block whose check word a
failed check complements (R331); `chan` is the Dealer channel that the frame came on (R362). -/
structure FrameRun where
  no : Nat
  sof : Nat
  stepSum : Int
  lines : List (List Byte)
  sums : List (List Word)
  front : Option (List Byte)
  back : Option (List Byte)
  corr : Nat
  errored : Bool
  dropped : Bool
  slot : Nat
  sens : Option Nat
  sensCnt : Nat
  icheck : Bool
  icheckAt : Nat
  bad : Bool
  msec : Bool
  sidx : Nat
  epoch : Nat
  chan : Nat
  deriving DecidableEq, Repr

/-- A complete frame waiting for delivery (R321). -/
structure FrameDone where
  run : FrameRun
  eof : Nat
  state : Nat
  cmac : Bool
  deriving DecidableEq, Repr

/-- A delivered frame standing in a slot (R324, R325). -/
structure SlotFrame where
  slot : Nat
  no : Nat
  sens : Nat
  stepSum : Int
  icheck : Bool
  degraded : Bool
  sidx : Nat
  deriving DecidableEq, Repr

/-- A MACsec secure association (R313). -/
structure Sa where
  an : Nat
  key : List Byte
  next : Nat
  deriving DecidableEq, Repr

/-- One stream context beside its STRM registers (R307 to R326). Slots held name the job instance that holds them. -/
structure Stream where
  owner : Option (Fin 4)
  starts : Nat
  param : Nat
  paramLen : Nat
  hist : List Bool
  good : Nat
  short : Nat
  lastStart : Option Nat
  frame : Option FrameRun
  done : List FrameDone
  slots : List SlotFrame
  held : List (Nat × Nat × Nat)
  taken : List (Nat × Nat)
  nextSlot : Nat
  scan : Option Nat
  sas : List Sa
  fcnt : Option Nat
  quarAt : Nat
  deriving DecidableEq, Repr

/-- A stream context as reset leaves it. -/
def Stream.reset : Stream :=
  ⟨none, 0, 0, 0, [], 0, 0, none, none, [], [], [], [], 0, none, [], none, 0⟩

/-- DEALER_CONFIG values (R487). -/
structure DealerCfg where
  part : Fin 4
  base : Nat
  len : Nat
  seed : Nat
  epoch0 : Nat
  nepoch : Nat
  shuffle : Bool
  ops : Nat
  floorMs : Nat
  mult : Nat
  logBase : Nat
  logN : Nat
  probDrop : Nat
  probBlur : Nat
  glo : Nat
  ghi : Nat
  olo : Int
  ohi : Int
  namp : Nat
  jr : Nat
  ja : Nat
  chans : List Nat
  deriving DecidableEq, Repr

/-- Status of a Dealer record (R364, R370). -/
inductive RecStatus where
  | ok
  | skipped
  | corrupt
  | dropout
  deriving DecidableEq, Repr

/-- A record decoding on a lane: epoch, position, record number in its sample, byte offset in the image, and whether a check of its
augmentation failed (R363). -/
structure LaneRun where
  epoch : Nat
  pos : Nat
  num : Nat
  off : Nat
  icheck : Bool
  deriving DecidableEq, Repr

/-- A record whose status stands, waiting for its turn (R364, R367), with the BCW of each 256 bytes of its decoded output. -/
structure RecDone where
  epoch : Nat
  pos : Nat
  num : Nat
  status : RecStatus
  ms : Nat
  chan : Nat
  sidx : Nat
  sens : Nat
  payload : List Byte
  sums : List Word
  icheck : Bool
  deriving DecidableEq, Repr

/-- The Dealer (R352 to R371). -/
structure Dealer where
  cfg : Option DealerCfg
  run : Bool
  nsamp : Nat
  epoch : Nat
  pos : Nat
  nextRec : Nat
  startEpoch : Nat
  startPos : Nat
  startRec : Nat
  lanes : List (Nat × LaneRun)
  done : List RecDone
  logged : Nat
  times : List Nat
  delivered : Nat
  missed : Nat
  deriving DecidableEq, Repr

/-- A stopped, unconfigured Dealer. -/
def Dealer.reset : Dealer := ⟨none, false, 0, 0, 0, 0, 0, 0, 0, [], [], 0, [], 0, 0⟩

/-- A frame queued for launch (R394). -/
structure Launch where
  time : Nat
  late : Bool
  event : Bool
  tag : Word
  part : Fin 4
  frame : List Byte
  deriving DecidableEq, Repr

/-- A PTP frame forwarded to a MAC, with its ingress stamp and whether correctionField is updated (R391, R392). -/
structure PtpFwd where
  mac : Fin 8
  ingress : Nat
  correct : Bool
  frame : List Byte
  deriving DecidableEq, Repr

/-- One trigger output beside its registers: next edge, whether the series has pulses left, whether a pulse is on the
pin and when it ends (R397, R399). -/
structure Trig where
  active : Bool
  next : Nat
  pulseEnd : Option Nat
  deriving DecidableEq, Repr

/-- The device time unit (R375 to R399); `txPn` is the next packet number of each MAC's transmit MACsec (R313, R393). -/
structure TimeUnit where
  sec : BitVec 48
  ns : Nat
  frac : Word
  inc : DWord
  incPend : Option DWord
  stepPend : Option Int
  stepSum : Int
  coarse : Bool
  aoInc : Nat
  launch : List (Nat × List Launch)
  fwd : List PtpFwd
  sent : List (Fin 8 × List Byte)
  txPn : List Nat
  trig : List Trig
  deriving DecidableEq, Repr

/-- Device time at POR_N (R377). -/
def TimeUnit.reset : TimeUnit :=
  ⟨0, 0, 0, 0x1A0AAAAAAB, none, none, 0, false, 0, [], [], [], List.replicate 8 1, List.replicate 8 ⟨false, 0, none⟩⟩

end Sys2Proof.Machine
end

