-- ==== Sys2Proof/Machine/PartState.lean ====
section
/-! DEFINITION. The state of partitions, allocations, programs, sequences, jobs and Decks (chapters 08, 13, 14, 18):
plain data. -/

namespace Sys2Proof.Machine

/-- Claim state of a partition (R492). -/
inductive PartSt where
  | unclaimed
  | claimed
  | orphaned
  deriving DecidableEq, Repr

/-- Determinism mode (R585). -/
inductive DetMode where
  | relaxed
  | strict
  | exact
  deriving DecidableEq, Repr

/-- Lost-host policy (R494). -/
inductive LostPolicy where
  | continue
  | stop
  | reset
  deriving DecidableEq, Repr

/-- A partition's entry of the signed ownership table (R491). -/
structure Owned where
  fronds : BitVec 4
  claim : BitVec 4
  mgmt : BitVec 4
  dram : Nat
  dramMax : Nat
  mat : Nat
  matMax : Nat
  time : Nat
  timeMax : Nat
  policy : LostPolicy
  hb : Nat
  cap : Nat
  trigs : BitVec 8
  macs : BitVec 8
  signing : Bool
  deriving DecidableEq, Repr

/-- One Card of a Deck bank (R500). -/
structure Card where
  kind : Nat
  frond : Nat
  prio : Nat
  off : Nat
  len : Nat
  kcap : Nat
  prog : Nat
  args : Nat
  deriving DecidableEq, Repr

/-- A loaded Deck bank (R500). -/
structure Bank where
  round : Nat
  cards : List Card
  deriving DecidableEq, Repr

/-- A shared work counter: both copies of VALUE and LIMIT (R147). -/
structure WorkCnt where
  v0 : Word
  l0 : Word
  v1 : Word
  l1 : Word
  deriving DecidableEq, Repr

/-- One partition. `hint` is its PWR_HINT, `idling` whether it still acts as IDLE (R667); `idleAll` its Cards run as IDLE after
STOP (R494); `paused` no Card opens before the next Round starts (R671). -/
structure Part where
  st : PartSt
  port : Fin 4
  mgmt : Bool
  mode : DetMode
  dramQ : Nat
  matQ : Nat
  timeQ : Nat
  timeNext : Nat
  tol : Nat
  hint : Nat
  idling : Bool
  notice : Nat
  bank0 : Option Bank
  bank1 : Option Bank
  active : Option (Fin 2)
  t0 : Nat
  round : Nat
  switchTo : Option (Fin 2 × Nat)
  cut : Option Nat
  idleAll : Bool
  paused : Bool
  deriving DecidableEq, Repr

/-- An unclaimed partition (R492). -/
def Part.reset : Part :=
  { st := .unclaimed, port := 0, mgmt := false, mode := .relaxed, dramQ := 0, matQ := 0, timeQ := 0, timeNext := 0,
    tol := 2, hint := 0, idling := false, notice := 1, bank0 := none, bank1 := none, active := none, t0 := 0, round := 0,
    switchTo := none, cut := none, idleAll := false, paused := false }

/-- An allocation (R480, R496). REGION 0 DRAM, 1 Mat, 2 KV pool (with its hot range in the Mat). -/
structure Alloc where
  part : Fin 4
  region : Nat
  base : Nat
  size : Nat
  matBase : Nat
  matSize : Nat
  pool : Nat
  deriving DecidableEq, Repr

/-- A KV page (R274, R276, R279). -/
structure Page where
  count : Nat
  taint : Bool
  deriving DecidableEq, Repr

/-- A KV pool (R267, R268): pages in use by ID; a page not listed is free. -/
structure Pool where
  handle : Nat
  dh : Nat
  kvfmt : Nat
  nhot : Nat
  npages : Nat
  pages : List (Nat × Page)
  reserved : List Nat
  deriving DecidableEq, Repr

/-- One span of a sequence: (K page, V page) per head group (R272). -/
abbrev Span := List (Nat × Nat)

/-- A sequence (R271 to R279). -/
structure Seq where
  part : Fin 4
  pool : Nat
  nhg : Nat
  hot : Bool
  gen : Word
  basePos : Nat
  len : Nat
  spans : List Span
  retired : Bool
  deriving DecidableEq, Repr

/-- One kernel of a loaded program (R489, R759, R760): the queues of each named Frond as (kind, length, offset). -/
structure Kernel where
  twin : Bool
  fronds : BitVec 4
  wcet : Nat
  nq : Nat
  queues : List (Nat × Nat × Nat)
  deriving DecidableEq, Repr

/-- A loaded program (R489): the object's place in DRAM, its kernels, its descriptor table as placed in the Stipe's
descriptor memory (R136), its user SFU tables and its resident image. -/
structure Prog where
  part : Fin 4
  handle : Nat
  base : Nat
  len : Nat
  needs : Nat
  kernels : List Kernel
  descs : List Byte
  nsfu : Nat
  sfuOff : Nat
  res : Nat
  resLen : Nat
  resRow : Nat
  deriving DecidableEq, Repr

/-- One sequence admitted to a step (R280 to R285): the generation and spans pinned, the spans a commit gives it, the
pages reserved for it. -/
structure Admit where
  entry : Nat
  seq : Nat
  leave : Bool
  gen : Word
  na : Nat
  newLen : Nat
  oldSpans : List Span
  newSpans : List Span
  fresh : List Nat
  deriving DecidableEq, Repr

/-- A ledger entry: unit, kind of check, location, kernel index, device time (R599). -/
structure LedgerEntry where
  unit : Nat
  cause : Nat
  loc : Nat
  kernel : Nat
  time : Nat
  deriving DecidableEq, Repr

/-- How an instance stands: waiting for a frame (KIND STREAM), ready or running kernels, every kernel ended. -/
inductive InstSt where
  | waiting
  | ready
  | finished
  deriving DecidableEq, Repr

/-- A job with its present instance (R481, R482, R599). A golden run is an instance with `golden` set (R516).
`ranOn` gives, by
Frond, when a kernel of the instance last ran there (R616, R627). `digestA` and `digestB` hold output digests by 4 × kernel + Frond of the original copy (R613). -/
structure Job where
  part : Fin 4
  prog : Nat
  kind : Nat
  prio : Nat
  twin : Bool
  ring : Nat
  age : Nat
  pick : Nat
  args : Nat
  streams : List Nat
  steps : List Admit
  deferred : Nat
  stepRec : Nat
  pool : Nat
  inst : Nat
  st : InstSt
  kernel : Nat
  readySince : Nat
  started : List (Fin 4 × Bool)
  ended : List (Fin 4 × Bool)
  ranOn : List (Nat × Nat)
  ledger : List LedgerEntry
  ledgerMore : Nat
  nonfinite : Bool
  degraded : Bool
  replayed : Bool
  sens : Nat
  sensStep : Int
  sidx : Nat
  tricks : List (Word × Nat × Nat)
  voided : Bool
  signals : List (Fin 4 × RemoteSig)
  digestA : List (Nat × DWord)
  digestB : List (Nat × DWord)
  golden : Option (Fin 4)
  goldSum : DWord
  deriving DecidableEq, Repr

end Sys2Proof.Machine
end

