-- ==== Sys2Proof/Machine/SystemState.lean ====
section
/-! DEFINITION. The state of the memory controllers, Hezor, the Fault Collector, power, security, boot and pins
(chapters 15, 16, 19 to 23): plain data. -/

namespace Sys2Proof.Machine

/-! Main memory and links. -/

/-- State of a Hezor link (R561). -/
inductive LinkSt where
  | down
  | detect
  | train
  | negotiate
  | active
  deriving DecidableEq, Repr

/-- A packet, or what is left of one, waiting on a virtual lane; `tag` is 1 + 64 · Frond + queue of the DMA queue that its
flits are charged to, 0 for none (R513, R571). -/
structure OutPkt where
  vl : Nat
  tag : Nat
  bytes : List Byte
  deriving DecidableEq, Repr

/-- A PAYLOAD flit kept until acknowledged, with the number of times it has been sent (R558, R559). -/
structure SentFlit where
  seq : Nat
  sends : Nat
  bytes : List Byte
  deriving DecidableEq, Repr

/-- Whether a NAK is owed or has been sent and the next flit in order has not come (R558). -/
inductive NakSt where
  | none
  | owed
  | sent
  deriving DecidableEq, Repr

/-- One Hezor link beside its counters (R553 to R564, R583): `outq` waits for flits, `rx` holds received bytes by virtual
lane, `tags` the flits in flight by (tag, SEQ), `lastTx` the flit on the wire and `txLanes` its bytes on each of the eight lanes; `txPos`
and `rxPos` count the bytes of both flit streams (R552); `sentHello` is the HELLO this end sent in NEGOTIATE (R562). -/
structure Link where
  st : LinkSt
  lanes : BitVec 8
  verMaj : Nat
  verMin : Nat
  peer : BitVec 2
  noReplay : Bool
  retrain : Bool
  credits : List Nat
  owed : List Nat
  txSeq : Nat
  rxSeq : Nat
  replay : List SentFlit
  resend : Nat
  nak : NakSt
  outq : List OutPkt
  rx : List (Nat × List Byte)
  tags : List (Nat × Nat)
  lastTx : List Byte
  txLanes : List (List Byte)
  txPos : Nat
  rxPos : Nat
  sentHello : Option LinkHello
  deriving DecidableEq, Repr

/-- A link in DOWN. -/
def Link.reset : Link :=
  { st := .down, lanes := 0, verMaj := 0, verMin := 0, peer := 0, noReplay := false, retrain := false,
    credits := [0, 0, 0, 0], owed := [0, 0, 0, 0], txSeq := 0, rxSeq := 0, replay := [], resend := 0, nak := .none,
    outq := [], rx := [], tags := [], lastTx := [], txLanes := [], txPos := 0, rxPos := 0, sentHello := none }

/-- State of one sender's slot in a Trick instance (R575, R576). -/
structure SlotSt where
  src : Nat
  blocks : List Nat
  bad : Bool
  closed : Option (Nat × DWord)
  verified : Bool
  commit : Option Bool
  delivered : Bool
  deriving DecidableEq, Repr

/-- A Trick instance (R571 to R579). -/
structure Trick where
  key : Word
  entry : Nat
  inst : Nat
  job : Option Nat
  slots : List SlotSt
  done : Option Bool
  deriving DecidableEq, Repr

/-- A formed group (R566 to R570). -/
structure Group where
  key : Word
  handle : Nat
  part : Fin 4
  mask : BitVec 4
  fronds : BitVec 4
  replica : Bool
  timeout : Nat
  joined : BitVec 4
  crc : Word
  next : List (Nat × Nat)
  deriving DecidableEq, Repr

/-! Fault collection. -/

/-- A fault record (R642): SEQ, class and flags, source, cause and the other fields. -/
structure FaultRec where
  seq : Nat
  cls : Nat
  forced : Bool
  escalated : Bool
  src : BitVec 10
  cause : BitVec 5
  subunit : Word
  prog : Word
  kernel : BitVec 16
  opcode : Byte
  part : Byte
  time : Nat
  temp : BitVec 16
  rail : BitVec 16
  sensor : Byte
  step : Byte
  rep : Word
  syndrome : DWord
  job : Nat
  seqmask : DWord
  acked : Bool
  deriving DecidableEq, Repr

/-- The Fault Collector beside its registers: ring, pending records as (SEQ, deadline, source), pins, SEQ of the first record since
POR_N, sources whose pair was broken before (R638, R641 to R652). Deadlines and pulse ends are step-corrected device times. -/
structure Fcol where
  ring : List FaultRec
  pending : List (Nat × Nat × Nat)
  safe : Bool
  self : Bool
  lastClass : Nat
  lastSrc : BitVec 10
  pulse : Bool
  pulseEnd : Nat
  safeLow : Bool
  porSeq : Nat
  refound : List Nat
  deriving DecidableEq, Repr

/-- A health-history entry (R654). -/
structure Health where
  unit : Nat
  elem : Word
  st : Nat
  action : Nat
  hard : Nat
  ce : Nat
  ue : Nat
  ueTime : List Nat
  retTime : Option Nat
  deriving DecidableEq, Repr

/-! Power, security, boot. -/

/-- Power and clocks beside their registers (R663 to R685, R739). The burst budget is in mW · 10 µs, i.e. units of 10 nJ; `overTime`
counts the samples above 180 W in a row; `restoreUs` holds the last measured A3 restore of each Frond; `powerOn` counts power-on seconds and `onPart` what is left of one, in
units of 1/307,200,000 s (R654). -/
structure Power where
  budget : Int
  overTime : Nat
  vdd : Nat
  stepped : Bool
  tlim : Nat
  pkgMw : Nat
  temps : List (BitVec 16 × BitVec 16)
  s1 : Bool
  restoreUs : List Nat
  locked : Bool
  powerOn : Nat
  onPart : Nat
  brokenRound : Bool
  avsHeld : Bool
  deriving DecidableEq, Repr

/-- An action of a debugger that enters a Widow's replay FIFO (R624): run control, or a write of a Stipe's register. -/
inductive DbgOp where
  | halt (t : BitVec 4)
  | resume (t : BitVec 4)
  | step (t : BitVec 4)
  | write (addr : BitVec 48) (v : Word)
  deriving DecidableEq, Repr

/-- Debug authority (R700 to R707): open level with its key; the open challenge as (level, key, challenge, through JTAG);
halted units, actions their Widows have still to apply (0 halt, 1 resume, 2 step, 3 a register write), halted units that may act once; `pend` holds the key of a FULL level that waits for the Fronds, `held` the action that a full FIFO
holds at the TAP (R625). -/
structure Debug where
  level : Nat
  key : Nat
  chal : Option (Nat × Nat × BitVec 256 × Bool)
  fails : Nat
  lockout : Bool
  halted : List (BitVec 4)
  replay : List (BitVec 4 × Nat)
  stepped : List (BitVec 4)
  pend : Option Nat
  held : Option DbgOp
  deriving DecidableEq, Repr

/-- OTP fields (R690). `lifecycle` is the highest fuse blown; the security engine alone reads the private key and the
storage root keys. Repairs are (Frond, bank, spare, row) and (bank, spare, row). -/
structure Otp where
  lifecycle : Nat
  idkeyPriv : BitVec 256
  idkeyPub : BitVec 512
  endorse : BitVec 512
  srk0 : BitVec 256
  srk1 : BitVec 256
  srkSel : Nat
  vendorPkh : List (BitVec 256)
  vendorRevoke : Byte
  ownerPkh : BitVec 256
  ownerRevoked : Bool
  rollback : Nat
  hpLock : List Nat
  spRepair : List (Nat × Nat × Nat × Nat)
  matRepair : List (Nat × Nat × Nat)
  deriving DecidableEq, Repr

/-- What the DRAM training cache records (R721): the hottest junction sensor in eighths of a degree, and the channels whose
training it holds. -/
structure TrainCache where
  temp : Int
  chans : BitVec 32
  deriving DecidableEq, Repr

/-- Content of the NOR regions that are kept in two halves, in the clear (R715, R717). Region 0, provisioning: the ownership table in
force with its bytes and flags, the last SERIAL applied, a pending package, the ROLLBACK of packages applied. Region 1: the training cache. Region 2: field repairs,
map-outs, retirements, withheld granules. Region 3: health history and power-on time. Region 4: saved fault records. Region 5: owner
keys (debug, model signing) and camera slots. -/
structure NorData where
  errHold : Bool
  vendorMaint : Bool
  ownerTable : List Owned
  ownerRaw : List Byte
  serial : Nat
  rollDue : Nat
  pending : List Byte
  train : Option TrainCache
  spRepair : List (Nat × Nat × Nat × Nat)
  matRepair : List (Nat × Nat × Nat)
  mapout : List (Option Nat)
  retired : List Bool
  withheld : List Nat
  health : List Health
  powerOn : Nat
  faults : List FaultRec
  nextSeq : Nat
  keys : List Byte
  camera : List (List Byte)
  deriving DecidableEq, Repr

/-- One copy of a region (R699, R717): its half, its write count, whether its save was completed, the storage root key its HMAC was made
under, the power-on time of its save in the present power cycle, and the content saved, of which the region's own part counts. -/
structure NorCopy where
  region : Nat
  half : Nat
  count : Nat
  whole : Bool
  srk : Nat
  savedAt : Option Nat
  data : NorData
  deriving DecidableEq, Repr

/-- QSPI NOR content the device reads and writes, in the clear (R659, R715 to R718): what its regions say, as the device holds it; the
firmware object and whether the boot descriptor stands, the count of image writes and the power-on time of
the newest in the present power cycle (R716, R726), the installed test pack, the copies of the regions. -/
structure Nor extends NorData where
  image : List Byte
  imageOk : Bool
  imageWrites : Nat
  imageAt : Option Nat
  pack : List Byte
  copies : List NorCopy
  deriving DecidableEq, Repr

end Sys2Proof.Machine
end

