-- ==== Sys2Proof/Machine/State.lean ====
section
/-! DEFINITION. The state of the GX9 block, its faults and refusals, and the state at reset. Plain data throughout: every
register of the register space that no other field holds stands in `regs`, keyed by its offset, and reads as its reset
value until something writes it. -/

namespace Sys2Proof.Machine

/-- Why a step can stop. -/
inductive Fault where
  /-- Raised by the scratchpad and Mat access commands that name a row or offset past the end of the memory: R164 and R184
  give it no such row, and no unit can form its address, so stopping is safe. -/
  | noSuchAddress
  deriving DecidableEq, Repr

/-- Why a step can be refused. -/
inductive Refusal where
  /-- Raised by an arm of Dispatch that has no meaning yet: safe, the run ends. -/
  | notModelled (mnemonic : String)
  deriving DecidableEq, Repr

/-- Device state (R429). -/
inductive DevSt where
  | startup
  | test
  | service
  | recovery
  | safe
  | standby
  deriving DecidableEq, Repr

/-- Boot, reset and recovery (R714 to R734): device state and CHG, POR_N asserted, straps, boot-failure count, the
staging area with its port and whether a verified object stands in it, whether a commit drives the running warm reset,
the firmware object that runs, Mat zero-fill in progress, the last session number, and the recovery steps that count
toward an escalation as (level, key, time). -/
structure Sys where
  st : DevSt
  chg : Nat
  por : Bool
  bootSrc : BitVec 2
  modId : BitVec 2
  bootFail : Nat
  stage : List Byte
  stagePort : Fin 4
  stageOk : Bool
  commit : Bool
  image : List Byte
  zfillMat : Bool
  sessions : Nat
  steps : List (Nat × Nat × Nat)
  packRead : Bool
  dramBad : BitVec 32
  fullTrain : Bool
  bootHot : BitVec 16
  deriving DecidableEq, Repr

/-- The safety controller's self-test bookkeeping (R615 to R630, R660), by Frond: completed CHECK rotations, failed segments,
end of the last rotation, start of the one in progress, start of the newest, RUN_NOW asked, place in the PATTERN rotation, its
start, LATENT posted for it, the pack it uses, OVERDUE; Fronds whose LOCATE segments are wanted; last pass by 32 × Frond +
segment, 31 for the golden run. -/
structure Safety where
  patPaused : Bool
  rotations : List Nat
  failed : List Nat
  lastRot : List (Option Nat)
  rotStart : List (Option Nat)
  rotBegan : List (Option Nat)
  runNow : List Bool
  patPos : List Nat
  patStart : List (Option Nat)
  patLate : List Bool
  patPack : List (List Byte)
  overdue : List Bool
  locate : List Nat
  locPos : List Nat
  passAt : List (Nat × Nat)
  deriving DecidableEq, Repr

/-- An age-monitor entry: job, deadline in step-corrected device time, whether MISSING is armed (R618, R619). -/
structure AgeEntry where
  job : Nat
  part : Fin 4
  stream : Bool
  age : Nat
  pmax : Nat
  deadline : Int
  armed : Bool
  deriving DecidableEq, Repr

/-- The TAP (R709, R710). -/
structure Tap where
  ir : Byte
  boundary : List Bool
  accData : Word
  accStatus : Nat
  chalStatus : Nat
  chalOut : BitVec 256
  hiz : Bool
  driving : Bool
  deriving DecidableEq, Repr

/-- The I2C target (R752, R753). -/
structure I2c where
  ptr : Nat
  deriving DecidableEq, Repr

/-- What the release buffer can take back (R608): bytes of host-port SRAM with what stood there, a ring's state with what it was, a
seal with the job, pool, sequences and monitor entries that it changed, a COMMIT or group packet for a link. -/
inductive Held where
  | sram (a n : Nat) (old : List Host.Cell)
  | ring (p : Fin 4) (d : Nat) (old : Option Ring)
  | seal (job : Nat) (old : Job) (pools : List (Nat × Pool)) (seqs : List (Nat × Seq)) (ages : List AgeEntry)
  | packet (l : Fin 3) (pkt : OutPkt)
  deriving DecidableEq, Repr

/-- The state of the block. -/
structure State where
  mem : List Host.Cell
  bcw : List (Nat × Word)
  upsets : List (Nat × Upset)
  repairs : List (Nat × Word)
  matHeld : List (MatUnit × Nat × List Byte)
  matWait : List MatReq
  dramWait : List DramReq
  regs : List (Nat × Word)
  latch : List (Nat × Word)
  fronds : Vector Frond 4
  ports : Vector Port 4
  parts : Vector Part 4
  links : Vector Link 3
  streams : List (Nat × Stream)
  dealer : Dealer
  time : TimeUnit
  allocs : List (Nat × Alloc)
  pools : List (Nat × Pool)
  seqs : List (Nat × Seq)
  progs : List (Nat × Prog)
  jobs : List (Nat × Job)
  nextId : Nat
  groups : List Group
  tricks : List Trick
  fcol : Fcol
  ages : List AgeEntry
  safety : Safety
  power : Power
  dbg : Debug
  mbs : List (BitVec 256)
  otp : Otp
  nor : Nor
  sys : Sys
  tap : Tap
  i2c : I2c
  dramWb : List (Nat × List Nat)
  matWb : List Nat
  wbDone : List (Nat × Nat)
  hot : List Nat
  patrol : List Nat
  release : List (Nat × Held)
  out : List Byte
  free : Nat
  pending : List Instr
  deriving DecidableEq, Repr

/-- A Frond as POR_N leaves it: logic at reset, memories to be zero-filled (R61, R66, R138, R193, R675). -/
def Frond.reset : Frond :=
  { half0 := Half.reset, half1 := Half.reset, set0 := WeightSet.reset, set1 := WeightSet.reset, loads := [],
    streams := [], rows := [], drains := [], inj := [], kernel := none, lastJob := 0, lastKernel := 0, queues := [],
    qptr := [], rr := 63, tok := [], remote := [], inbound := [], dma := [], wb := [], heldRows := [], spWait := [],
    sfu := [], sfuMarks := [], zfill := true, restore := false, astate := 0, waking := false, op := 0,
    retired := false, droop := .none, card := none, cardUse := .none, cardEnd := 0,
    late := false, swFrom := none, swD := 0, switching := none, holds := [], stPos := 0, stRun := none, twinSum := 0, overlap := [] }

/-- The Fault Collector at POR_N: SAFE_N low (R651, R662). -/
def Fcol.reset : Fcol := ⟨[], [], false, false, 0, 0, false, 0, true, 0, []⟩

/-- Self-test bookkeeping at reset (R632). -/
def Safety.reset : Safety :=
  { patPaused := false, rotations := [0, 0, 0, 0], failed := [0, 0, 0, 0],
    lastRot := [none, none, none, none], rotStart := [none, none, none, none],
    rotBegan := [none, none, none, none], patLate := [false, false, false, false], patPack := [[], [], [], []], runNow := [false, false, false, false],
    patPos := [0, 0, 0, 0], patStart := [none, none, none, none], overdue := [false, false, false, false], locate := [], locPos := [0, 0, 0, 0],
    passAt := [] }

/-- Power at POR_N: budget 8,000 mJ in units of 10 nJ (R677), no limit in force. -/
def Power.reset : Power :=
  { budget := 800000000, overTime := 0, vdd := 780, stepped := false, tlim := 0, pkgMw := 0, temps := [],
    s1 := false, restoreUs := [0, 0, 0, 0], locked := false, powerOn := 0, onPart := 0,
    brokenRound := false, avsHeld := false }

/-- A blank part: lifecycle TEST, no keys, no repairs (DESIGN CHOICE, notes/assumptions/3). -/
def Otp.blank : Otp :=
  { lifecycle := 0, idkeyPriv := 0, idkeyPub := 0, endorse := 0, srk0 := 0, srk1 := 0, srkSel := 0,
    vendorPkh := [0, 0, 0, 0], vendorRevoke := 0, ownerPkh := 0, ownerRevoked := false, rollback := 0,
    hpLock := [0, 0, 0, 0], spRepair := [], matRepair := [] }

/-- Regions of an empty NOR. -/
def NorData.blank : NorData :=
  { errHold := false, vendorMaint := false, ownerTable := [], ownerRaw := [], serial := 0, rollDue := 0, pending := [], train := none, spRepair := [],
    matRepair := [], mapout := [none, none, none, none], retired := [false, false, false, false], withheld := [], health := [],
    powerOn := 0, faults := [], nextSeq := 0, keys := [], camera := [] }

/-- A NOR of which every region holds one valid copy that says nothing (DESIGN CHOICE, notes/assumptions/109). -/
def Nor.blank : Nor :=
  { NorData.blank with
    image := [], imageOk := false, imageWrites := 0, imageAt := none, pack := []
    copies := (List.range 6).map fun r => ⟨r, 0, 0, true, 0, none, NorData.blank⟩ }

/-- Boot state with POR_N asserted (R727). -/
def Sys.reset : Sys :=
  { st := .startup, chg := 0, por := true, bootSrc := 0, modId := 0, bootFail := 0, stage := [], stagePort := 0,
    stageOk := false, commit := false, image := [], zfillMat := true, sessions := 0, steps := [], packRead := false,
    dramBad := 0, fullTrain := false, bootHot := 0 }

/-- The state with POR_N asserted: every field at the value the manual gives for POR_N (R9, R727), the queue empty. -/
def State.reset : State :=
  { mem := [], bcw := [], upsets := [], repairs := [], matHeld := [], matWait := [], dramWait := [], regs := [], latch := [],
    fronds := Vector.replicate 4 Frond.reset, ports := Vector.replicate 4 Port.reset,
    parts := Vector.replicate 4 Part.reset, links := Vector.replicate 3 Link.reset, streams := [],
    dealer := Dealer.reset, time := TimeUnit.reset, allocs := [], pools := [], seqs := [], progs := [], jobs := [],
    nextId := 1, groups := [], tricks := [], fcol := Fcol.reset, ages := [], safety := Safety.reset,
    power := Power.reset, dbg := ⟨0, 0, none, 0, false, [], [], [], none, none⟩, mbs := List.replicate 8 0,
    otp := Otp.blank, nor := Nor.blank, sys := Sys.reset,
    tap := ⟨0xFF, [], 0, 0, 0, 0, false, false⟩, i2c := ⟨0⟩, dramWb := [], matWb := [], wbDone := [], hot := [], patrol := [],
    release := [], out := [], free := 0, pending := [] }

end Sys2Proof.Machine
end

