-- ==== Sys2Proof/Machine/Tbl.lean ====
section
/-! DEFINITION. Sparse tables: lists of (key, value) with strictly rising keys. A table with a default holds no entry
equal to its default, so that equal contents are equal data. Memory, registers, tokens and every keyed store use these. -/

namespace Sys2Proof.Machine

variable {α : Type}

/-- The entry at a key. -/
def tfind : List (Nat × α) → Nat → Option α
  | [], _ => none
  | (j, v) :: t, k => if j = k then some v else tfind t k

/-- The table with `v` at `k`. -/
def tput : List (Nat × α) → Nat → α → List (Nat × α)
  | [], k, v => [(k, v)]
  | (j, w) :: t, k, v => if k < j then (k, v) :: (j, w) :: t else if j = k then (k, v) :: t else (j, w) :: tput t k v

/-- The table without an entry at `k`. -/
def tdel : List (Nat × α) → Nat → List (Nat × α)
  | [], _ => []
  | (j, w) :: t, k => if j = k then tdel t k else (j, w) :: tdel t k

/-- The value at `k` of a table with defaults. -/
def tget (d : Nat → α) (l : List (Nat × α)) (k : Nat) : α := (tfind l k).getD (d k)

/-- Storing into a table with defaults: the default itself is not listed. -/
def tset [DecidableEq α] (d : Nat → α) (l : List (Nat × α)) (k : Nat) (v : α) : List (Nat × α) :=
  if v = d k then tdel l k else tput l k v

/-- Updating an entry that is present. -/
def tmod (l : List (Nat × α)) (k : Nat) (f : α → α) : List (Nat × α) :=
  match tfind l k with
  | none => l
  | some v => tput l k (f v)

/-- Keys strictly rising from a bound. -/
def tsorted : Nat → List (Nat × α) → Bool
  | _, [] => true
  | b, (j, _) :: t => decide (b ≤ j) && tsorted (j + 1) t

/-- The canonical form: keys strictly rising, no entry equal to its default. -/
def tcanon [DecidableEq α] (d : Nat → α) (l : List (Nat × α)) : Bool :=
  tsorted 0 l && l.all fun e => decide (e.2 ≠ d e.1)

/-- The entries whose key does not satisfy `p`. -/
def tdrop (p : Nat → Bool) (l : List (Nat × α)) : List (Nat × α) := l.filter fun e => !p e.1

end Sys2Proof.Machine
end

