-- ==== Sys2Proof/Machine/RegMap.lean ====
section
/-! DEFINITION. The register space (R3 to R8, R25, R71 to R87 and the register maps of every chapter): which offsets hold
a register, the fields that a write reaches with their access codes, reset values, and who may name a register. Offsets
are relative to 0x11_0000_0000. -/

namespace Sys2Proof.Machine

/-- Access codes (R5). A field that is only read is not listed below. -/
inductive Acc where
  | rw
  | rwl
  | wo
  | w1c
  | w1p
  deriving DecidableEq, Repr

/-- A writable field: bits `hi..lo`, access code, the encodings listed (others are reserved, R8) and the range outside
which a write leaves the field (R757). -/
structure Fld where
  hi : Nat
  lo : Nat
  acc : Acc
  enc : Option (Nat × Nat)
  rng : Option (Nat × Nat)
  deriving DecidableEq, Repr

/-- A register: reset value and writable fields. -/
structure RegSpec where
  reset : Nat
  flds : List Fld
  deriving DecidableEq, Repr

/-- A read-only register. -/
def ro (reset : Nat) : Option RegSpec := some ⟨reset, []⟩
/-- A plain field. -/
def fld' (hi lo : Nat) (acc : Acc) : Fld := ⟨hi, lo, acc, none, none⟩
/-- A field with listed encodings `a..b`. -/
def fldE (hi lo : Nat) (acc : Acc) (a b : Nat) : Fld := ⟨hi, lo, acc, some (a, b), none⟩
/-- A field with a range outside which a write is ignored. -/
def fldR (hi lo : Nat) (acc : Acc) (a b : Nat) : Fld := ⟨hi, lo, acc, none, some (a, b)⟩

/-- Index of `o` in an array of `n` registers at `base` with a stride. -/
def arr (base stride n o : Nat) : Option Nat :=
  if base ≤ o ∧ o < base + stride * n ∧ (o - base) % stride = 0 then some ((o - base) / stride) else none

/-- Frond and offset inside its unicast block. -/
def inFrond (o : Nat) : Option (Fin 4 × Nat) :=
  if 0x02000000 ≤ o ∧ o < 0x02400000 then
    some (⟨(o - 0x02000000) / 0x100000 % 4, Nat.mod_lt _ (by decide)⟩, (o - 0x02000000) % 0x100000)
  else none

/-- Stream context and offset inside its block. -/
def inStream (o : Nat) : Option (Fin 96 × Nat) :=
  if 0x03100000 ≤ o ∧ o < 0x03160000 then
    some (⟨(o - 0x03100000) / 0x1000 % 96, Nat.mod_lt _ (by decide)⟩, (o - 0x03100000) % 0x1000)
  else none

/-- Register offset inside Frond `f`. -/
def oFrd (f : Fin 4) (o : Nat) : Nat := 0x02000000 + f.val * 0x100000 + o
/-- Register offset inside stream context `c`. -/
def oStrm (c o : Nat) : Nat := 0x03100000 + c * 0x1000 + o
/-- Register offset inside host-port block `p`. -/
def oHpc (p : Fin 4) (o : Nat) : Nat := 0x04800000 + p.val * 0x10000 + o
/-- Register offset inside the Deck block of Frond `f`. -/
def oDeck (f : Fin 4) (o : Nat) : Nat := 0x00100000 + f.val * 0x100 + o
/-- Register offset inside DRAM controller `c`. -/
def oDrc (c : Nat) (o : Nat) : Nat := 0x04000000 + c * 0x1000 + o
/-- Register offset inside the Hezor block. -/
def oHzl (o : Nat) : Nat := 0x05000000 + o
/-- Register offset inside the safety block. -/
def oSafe (o : Nat) : Nat := 0x00120000 + o
/-- Register offset inside the power block. -/
def oPwr (o : Nat) : Nat := 0x07000000 + o
/-- Register offset inside the device time block. -/
def oTime (o : Nat) : Nat := 0x06000000 + o
/-- Register offset inside the Fault Collector. -/
def oFcol (o : Nat) : Nat := 0x01000000 + o
/-- Register offset of FRD_MAPOUT. -/
def oMapout (f : Fin 4) : Nat := oFrd f 0x10
/-- Register offset of FRD_SP_RESBASE. -/
def oResbase (f : Fin 4) : Nat := oFrd f 0x40004
/-- Register offset of FRD_SP_REPAIR entry `(b, sp)`. -/
def oSpRepair (f : Fin 4) (b sp : Nat) : Nat := oFrd f (0x44000 + 4 * (32 * b + sp))
/-- Register offset of DRC_MAT_REPAIR entry `(b, sp)`. -/
def oMatRepair (b sp : Nat) : Nat := 0x04F01000 + 4 * (16 * b + sp)

/-- MEMBERS masks and window status (R79, R80). -/
def maskSpec (n : Nat) : Option RegSpec := some ⟨0, [fld' (n - 1) 0 .rw]⟩
/-- Window status: DIFFER and EMPTY, write one to clear (R80). -/
def winStatus : Option RegSpec := some ⟨0, [fld' 1 1 .w1c, fld' 0 0 .w1c]⟩
/-- A repair entry: VALID, FIELD, ROW (R197, R198). -/
def repairSpec (w : Nat) : Option RegSpec := some ⟨0, [fld' 31 31 .rw, fld' 30 30 .rw, fld' (w - 1) 0 .rw]⟩

/-- Pinna block (R84). -/
def pinSpec (p o : Nat) : Option RegSpec :=
  match o with
  | 0 => ro (p % 17 * 65536 + p / 17 * 256 + p % 17)
  | 4 => ro 0
  | 8 => some ⟨0, [fld' 0 0 .w1p]⟩
  | _ => none

/-- Frond unicast block (R71, R157, R192, R233, R263, R303), without its Pinna windows. -/
def frondSpec (f o : Nat) : Option RegSpec :=
  match o with
  | 0x0 => ro (0x00111000 + f)
  | 0x4 => ro 0x80000000
  | 0x10 => some ⟨0, [fld' 31 31 .rwl, fld' 8 8 .rwl, fldE 4 0 .rwl 0 0xF]⟩
  | 0x20 => ro 0
  | 0x30 | 0x34 => maskSpec 32
  | 0x38 => maskSpec 4
  | 0x3C => winStatus
  | 0x4000 | 0x4004 | 0x4010 | 0x4014 | 0x4018 => ro 0
  | 0x8000 | 0x8010 | 0x8014 | 0x8018 | 0x801C => ro 0
  | 0x8008 => some ⟨0, [fld' 31 8 .rw]⟩
  | 0x800C => some ⟨0, [fld' 15 0 .rw]⟩
  | 0xC000 | 0xC004 | 0xC008 | 0xC00C | 0xC010 => ro 0
  | 0xE000 | 0xE004 | 0xE008 | 0xE00C => ro 0
  | 0x40000 => ro 1
  | 0x40004 => some ⟨0xA0000, [fldR 19 0 .rw 0 655360]⟩
  | 0x40010 | 0x40014 | 0x40018 | 0x4001C | 0x40020 => ro 0
  | o =>
    if (arr 0x4400 4 256 o).isSome then ro 0
    else if (arr 0x4800 4 128 o).isSome then ro 0
    else if (arr 0x44000 4 10240 o).isSome then repairSpec 11
    else if 0x10000 ≤ o ∧ o < 0x21000 then pinSpec ((o - 0x10000) / 0x400) ((o - 0x10000) % 0x400)
    else none

/-- Stream context block (R342 to R351). -/
def strmSpec (o : Nat) : Option RegSpec :=
  match o with
  | 0x0 => some ⟨3, [fldE 30 28 .rw 0 4, fld' 27 24 .rw, fld' 23 20 .rw, fld' 19 16 .rw, fld' 15 10 .rw, fld' 9 7 .rw,
      fld' 6 6 .rw, fld' 5 5 .rw, fldE 3 0 .rw 3 8]⟩
  | 0x4 => some ⟨0, [fldE 31 16 .rw 1 8192, fldE 15 0 .rw 1 9216]⟩
  | 0x8 => some ⟨0, [fld' 31 16 .rw, fld' 15 0 .rw]⟩
  | 0xC => some ⟨0x00200000, [fld' 31 24 .rw, fldE 23 20 .rw 1 15, fld' 15 0 .rw]⟩
  | 0x10 => ro 0
  | 0x14 => some ⟨0, [fld' 31 0 .rw]⟩
  | 0x18 => some ⟨0, [fld' 31 12 .rw]⟩
  | 0x1C => some ⟨0, [fldE 31 16 .rw 1 65535, fld' 15 0 .rw]⟩
  | 0x20 | 0x24 | 0x28 | 0x2C | 0x30 | 0x34 | 0x40 | 0x44 | 0x48 => ro 0
  | _ => none

/-- Host-port block (R450, R451). -/
def hpcSpec (o : Nat) : Option RegSpec :=
  match o with
  | 0x4 => some ⟨0x40, [fldR 15 0 .rw 8 1000]⟩
  | 0x0 | 0x10 | 0x14 | 0x18 | 0x1C | 0x20 | 0x24 | 0x28 | 0x2C | 0x30 => ro 0
  | o => if (arr 0x100 4 64 o).isSome then some ⟨0, [fld' 31 0 .rw]⟩ else none

/-- Device time block (R400, R401). -/
def timeSpec (o : Nat) : Option RegSpec :=
  match o with
  | 0x0 | 0x4 | 0x8 | 0xC | 0x18 | 0x1C => ro 0
  | 0x10 => some ⟨0x0AAAAAAB, [fld' 31 0 .rw]⟩
  | 0x14 => some ⟨0x1A, [fldE 7 0 .rw 25 27]⟩
  | o =>
    if (arr 0x20 4 8 o).isSome then some ⟨0, [fld' 15 8 .rw, fld' 0 0 .rw]⟩
    else if (arr 0x40 4 8 o).isSome then some ⟨0, [fld' 31 16 .rw, fld' 15 0 .rw]⟩
    else if 0x100 ≤ o ∧ o < 0x200 ∧ o % 4 = 0 then
      match o % 0x20 with
      | 0 => some ⟨0, [fld' 1 1 .rw, fld' 0 0 .rw]⟩
      | 0xC => some ⟨0, [fld' 15 0 .rw]⟩
      | 0x1C => ro 0
      | _ => some ⟨0, [fld' 31 0 .rw]⟩
    else none

/-- Bits of FCOL_SRC_MAP word `w`: the sources of R634. -/
def srcPresent (n : Nat) : Bool :=
  let u := n / 8
  let k := n % 8
  if u < 64 then (if u % 16 = 0 then decide (k ≤ 6) else decide (k ≤ 4 ∨ k = 6))
  else if u ≤ 102 then decide (k ≤ 4 ∨ k = 6)
  else if u = 112 ∨ u = 113 then true
  else if 114 ≤ u ∧ u ≤ 120 then decide (k ≤ 4 ∨ k = 6 ∨ k = 7)
  else false

/-- The word of FCOL_SRC_MAP. -/
def srcMapWord (w : Nat) : Nat :=
  (List.range 32).foldl (fun a b => if srcPresent (32 * w + b) then a + 2 ^ b else a) 0

/-- Fault Collector block (R661, R662). -/
def fcolSpec (o : Nat) : Option RegSpec :=
  match o with
  | 0x0 | 0x10 | 0x14 => ro 0
  | 0x4 => some ⟨0x7D0, [fld' 31 31 .rwl, fldR 16 0 .rwl 100 100000]⟩
  | 0x8 => some ⟨0x14, [fld' 31 31 .rw, fld' 10 10 .rw, fldR 9 0 .rw 20 1000]⟩
  | 0xC => some ⟨0, [fld' 31 0 .wo]⟩
  | o =>
    if (arr 0x100 4 32 o).isSome then ro (srcMapWord ((o - 0x100) / 4))
    else if (arr 0x200 4 32 o).isSome then some ⟨0, [fld' 31 0 .rw]⟩
    else if (arr 0x300 4 32 o).isSome then some ⟨0, [fld' 31 0 .w1p]⟩
    else if (arr 0x400 4 32 o).isSome then ro 0
    else none

/-- Power block (R683, R684). -/
def pwrSpec (o : Nat) : Option RegSpec :=
  match o with
  | 0x0 => ro 0x30C
  | 0x4 => ro 0x1F40
  | 0x8 | 0x24 | 0x30 | 0x34 => ro 0
  | 0x10 | 0x14 | 0x18 | 0x1C => some ⟨0x898, [fldE 26 24 .rw 0 5]⟩
  | 0x20 => some ⟨0x6E73, [fld' 31 31 .rwl, fld' 15 8 .rwl, fld' 7 0 .rwl]⟩
  | 0x200 => ro 3
  | o => if (arr 0x40 4 4 o).isSome ∨ (arr 0x100 4 24 o).isSome then ro 0 else none

/-- DRAM controllers, scrub configuration and Mat registers (R548, R198). -/
def drcSpec (o : Nat) : Option RegSpec :=
  if o < 0x10000 then
    (match o % 0x1000 with
    | 0x0 | 0x4 | 0x8 | 0xC | 0x10 | 0x14 | 0x18 => ro 0
    | _ => none)
  else if o = 0x20000 then some ⟨8, [fldR 7 0 .rw 1 255]⟩
  else if 0x00800000 ≤ o ∧ o < 0x00840000 then hpcSpec ((o - 0x00800000) % 0x10000)
  else if o = 0x00F00000 ∨ o = 0x00F00004 ∨ o = 0x00F00008 ∨ o = 0x00F0000C then ro 0
  else if (arr 0x00F01000 4 1024 o).isSome then repairSpec 12
  else none

/-- Hezor block (R582). -/
def hzlSpec (o : Nat) : Option RegSpec :=
  if o < 0x3000 then (match o % 0x1000 with
    | 0x0 | 0x4 | 0x8 | 0xC | 0x10 | 0x14 => ro 0
    | _ => none)
  else if o = 0x4000 ∨ o = 0x4004 ∨ o = 0x4008 ∨ (arr 0x4100 4 8 o).isSome then ro 0
  else none

/-- Thallus blocks (R523, R596, R631, R712). -/
def thlSpec (o : Nat) : Option RegSpec :=
  if 0x00100000 ≤ o ∧ o < 0x00100400 then (if o % 0x100 ≤ 0x1C ∧ o % 4 = 0 then ro 0 else none)
  else if o = 0x00110000 ∨ o = 0x00110004 then ro 0
  else if o = 0x00120000 then ro 4
  else if (arr 0x00120004 4 8 o).isSome then ro 0
  else if (arr 0x00120100 4 4 o).isSome then ro 0xFFFF
  else if o = 0x00130000 ∨ o = 0x00130004 ∨ o = 0x00130008 then ro 0
  else none

/-- Rhizoid common block and Dealer (R339, R372). -/
def rhzSpec (o : Nat) : Option RegSpec :=
  if (arr 0x0 4 12 o).isSome ∨ (arr 0x40 4 12 o).isSome ∨ (arr 0x80 4 8 o).isSome then ro 0
  else if o = 0xA0 ∨ o = 0xA4 ∨ o = 0xA8 then maskSpec 32
  else if o = 0xAC then winStatus
  else if (arr 0x80000 4 8 o).isSome then ro 0
  else none

/-- The registers that are not reached through a window (R25): `none` where the offset holds no register (R27). -/
def regSpec (o : Nat) : Option RegSpec :=
  if o % 4 ≠ 0 then none
  else if o < 0x01000000 then thlSpec o
  else if o < 0x02000000 then fcolSpec (o - 0x01000000)
  else if o = 0x02F00000 then maskSpec 4
  else if o = 0x02F00004 then winStatus
  else if o < 0x03000000 then (match inFrond o with
    | some (f, x) => frondSpec f.val x
    | none => none)
  else if o < 0x03100000 then rhzSpec (o - 0x03000000)
  else if o < 0x04000000 then (match inStream o with
    | some (_, x) => strmSpec x
    | none => none)
  else if o < 0x05000000 then drcSpec (o - 0x04000000)
  else if o < 0x06000000 then hzlSpec (o - 0x05000000)
  else if o < 0x07000000 then timeSpec (o - 0x06000000)
  else if o < 0x08000000 then pwrSpec (o - 0x07000000)
  else none

/-- Reset value by offset; 0 where there is no register. -/
def regReset (o : Nat) : Word := BitVec.ofNat 32 ((regSpec o).elim 0 (·.reset))

/-- The stored value of a register. -/
def State.reg (s : State) (o : Nat) : Word := tget regReset s.regs o

/-- Storing a register's value. -/
def State.setReg (s : State) (o : Nat) (v : Word) : State := { s with regs := tset regReset s.regs o v }

/-- A field of a stored register. -/
def State.regF (s : State) (o lo len : Nat) : Nat := bits (s.reg o).toNat lo len

/-- Storing a field of a register. -/
def State.setRegF (s : State) (o lo len v : Nat) : State :=
  s.setReg o (BitVec.ofNat 32 (setBits (s.reg o).toNat lo len v))

/-- Counting events in a register that holds at 0xFFFF_FFFF. -/
def State.count (s : State) (o n : Nat) : State := s.setReg o (countUp (s.reg o) n)

/-- Counting events in a register that wraps. -/
def State.countWrap (s : State) (o : Nat) : State := s.setReg o (s.reg o + 1)

/-- Every register whose offset satisfies `p` back to its reset value. -/
def State.clearRegs (s : State) (p : Nat → Bool) : State := { s with regs := tdrop p s.regs }

/-- Whether every encoding a word carries is listed (R8). -/
def encOk (r : RegSpec) (v : Nat) : Bool :=
  r.flds.all fun f => match f.enc with
    | some (a, b) => let x := bits v f.lo (f.hi + 1 - f.lo); decide (a ≤ x ∧ x ≤ b)
    | none => true

/-- One field of a write: the new word. A reserved encoding or a value outside the field's range leaves the field
(R8, R757), and a locked RWL field is left (R5); every lock bit stands at bit 31. -/
def fldWrite (old : Nat) (v : Nat) (acc : Nat) (f : Fld) : Nat :=
  let n := f.hi + 1 - f.lo
  let x := bits v f.lo n
  let ok := (match f.enc with | some (a, b) => decide (a ≤ x ∧ x ≤ b) | none => true) &&
    (match f.rng with | some (a, b) => decide (a ≤ x ∧ x ≤ b) | none => true)
  match f.acc with
  | .rw => if ok then setBits acc f.lo n x else acc
  | .rwl => if ok && !old.testBit 31 then setBits acc f.lo n x else acc
  | .w1c => setBits acc f.lo n (bits old f.lo n &&& (2 ^ n - 1 - x))
  | .wo | .w1p => acc

/-- The word a register holds after a write that the register's fields take (R5). -/
def regAfter (r : RegSpec) (old v : Nat) : Nat := r.flds.foldl (fldWrite old v) old

/-- STRM_CFG (R8, R343): PORT, VC, FLOW and PIPE have the encodings that KIND, as the write leaves it, gives them; a reserved one
leaves its field (DEDUCED, notes/assumptions/105). -/
def strmCfgAfter (old v : Nat) : Nat :=
  let k := if bits v 28 3 ≤ 4 then bits v 28 3 else bits old 28 3
  let put := fun (acc lo n : Nat) (ok : Nat → Bool) => if ok (bits v lo n) then setBits acc lo n (bits v lo n) else acc
  let flow : Nat → Bool := fun x => match k with | 2 => decide (x ≤ 4) | 4 => decide (1 ≤ x ∧ x ≤ 3) | _ => decide (x = 0)
  let sub : Nat := if flow (bits v 16 4) then bits v 16 4 else bits old 16 4
  let a := setBits (setBits (setBits (setBits old 28 3 k) 10 6 (bits v 10 6)) 6 1 (bits v 6 1)) 5 1 (bits v 5 1)
  let b := put a 24 4 fun x => match k with | 1 => decide (x ≤ 11) | 2 => decide (x ≤ 7) | 4 => decide (x = 0) | _ => true
  let c := put b 20 4 fun x => match k with | 1 => true | 3 => true | _ => decide (x = 0)
  let d := put (put c 16 4 flow) 7 3 fun x => !(decide (k = 2) || (decide (k = 4) && decide (sub = 2))) || decide (x ≤ 3)
  put d 0 4 fun x => decide (3 ≤ x ∧ x ≤ 8)

/-- PWR_THERM_CFG (R684, R757): THROTTLE is 85 to 115, RELEASE is 80 to THROTTLE − 2, each left by a value outside its range. The
THROTTLE that bounds RELEASE is the one the same write leaves (DESIGN CHOICE, notes/assumptions/105). -/
def thermAfter (old v : Nat) : Nat :=
  if old.testBit 31 then old
  else
    let t := if 85 ≤ bits v 0 8 ∧ bits v 0 8 ≤ 115 then bits v 0 8 else bits old 0 8
    let r := if 80 ≤ bits v 8 8 ∧ bits v 8 8 + 2 ≤ t then bits v 8 8 else bits old 8 8
    setBits (setBits (setBits old 31 1 (bits v 31 1)) 0 8 t) 8 8 r

/-- Groups of registers read as one value (R4): base offset and number of further words. -/
def latchGroup (o : Nat) : Nat :=
  if 0x06000000 ≤ o ∧ o < 0x07000000 then
    let x := o - 0x06000000
    if x = 0x4 then 2 else if x = 0x10 ∨ x = 0x18 then 1
    else if 0x100 ≤ x ∧ x < 0x200 ∧ x % 0x20 = 4 then 2 else 0
  else match inStream o with
    | some (_, x) => if x = 0x40 then 2 else if x = 0x18 then 1 else 0
    | none => match inFrond o with
      | some (_, x) => if x = 0x8008 then 1 else if (arr 0x4800 8 64 x).isSome then 1 else 0
      | none => if (arr 0x05004100 8 4 o).isSome then 1 else 0

/-- Frond registers that REG_WRITE may not name: FRD_MAPOUT, Sorus, the scratchpad block, PIN_CTRL (R76, R87, R192,
R303). -/
def frondNoWrite (x : Nat) : Bool :=
  decide (x = 0x10 ∨ (0x8000 ≤ x ∧ x < 0xC000) ∨ 0x40000 ≤ x) ||
    decide (((0x10000 ≤ x ∧ x < 0x21000) ∨ (0x30000 ≤ x ∧ x < 0x30400) ∨ (0x38000 ≤ x ∧ x < 0x38400)) ∧ x % 0x400 = 8)

/-- Registers that REG_WRITE may not name, whoever calls: every block its chapter closes to REG_WRITE. -/
def noRegWrite (o : Nat) : Bool :=
  if o < 0x02000000 then true
  else if o < 0x02400000 then frondNoWrite ((o - 0x02000000) % 0x100000)
  else if 0x02800000 ≤ o ∧ o < 0x02900000 then frondNoWrite (o - 0x02800000)
  else if 0x02C00000 ≤ o ∧ o < 0x02D00000 then frondNoWrite (o - 0x02C00000)
  else if o < 0x03100000 then false
  else true

end Sys2Proof.Machine
end

