-- ==== Sys2Proof/Machine/RegView.lean ====
section
/-! DEFINITION. Reading a register: status registers are views of the state; every other register reads as stored. A read
of the lowest word of a value latches the others (R4). -/

namespace Sys2Proof.Machine

/-- FCLK in MHz by operating point (R673). -/
def opMhz (op : Nat) : Nat := [2200, 2000, 1800, 1600, 1200, 800].getD op 800
/-- VDD_FR in mV by operating point (R673). -/
def opMv (op : Nat) : Nat := [780, 720, 640, 620, 580, 550].getD op 550

/-- Device time in nanoseconds. -/
def State.now (s : State) : Nat := s.time.sec.toNat * 1000000000 + s.time.ns

/-- Step-corrected device time: device time less the step sum (R386). -/
def State.deckNow (s : State) : Int := (s.now : Int) - s.time.stepSum

/-- The Frond's state. -/
def State.frond (s : State) (f : Fin 4) : Frond := s.fronds.get f
/-- Replacing a Frond's state. -/
def State.setFrond (s : State) (f : Fin 4) (x : Frond) : State := { s with fronds := s.fronds.set f.val x f.isLt }
/-- Changing a Frond's state. -/
def State.modFrond (s : State) (f : Fin 4) (g : Frond → Frond) : State := s.setFrond f (g (s.frond f))
/-- The port's state. -/
def State.port (s : State) (p : Fin 4) : Port := s.ports.get p
/-- Replacing a port's state. -/
def State.setPort (s : State) (p : Fin 4) (x : Port) : State := { s with ports := s.ports.set p.val x p.isLt }
/-- Changing a port's state. -/
def State.modPort (s : State) (p : Fin 4) (g : Port → Port) : State := s.setPort p (g (s.port p))
/-- The partition's state. -/
def State.part (s : State) (r : Fin 4) : Part := s.parts.get r
/-- Replacing a partition's state. -/
def State.setPart (s : State) (r : Fin 4) (x : Part) : State := { s with parts := s.parts.set r.val x r.isLt }
/-- Changing a partition's state. -/
def State.modPart (s : State) (r : Fin 4) (g : Part → Part) : State := s.setPart r (g (s.part r))
/-- The link's state. -/
def State.link (s : State) (l : Fin 3) : Link := s.links.get l
/-- Replacing a link's state. -/
def State.setLink (s : State) (l : Fin 3) (x : Link) : State := { s with links := s.links.set l.val x l.isLt }
/-- Changing a link's state. -/
def State.modLink (s : State) (l : Fin 3) (g : Link → Link) : State := s.setLink l (g (s.link l))
/-- A stream context's state. -/
def State.stream (s : State) (c : Nat) : Stream := (tfind s.streams c).getD Stream.reset
/-- Replacing a stream context's state. -/
def State.setStream (s : State) (c : Nat) (x : Stream) : State :=
  { s with streams := tset (fun _ => Stream.reset) s.streams c x }

/-- The ownership table entry of partition `r` (R491). -/
def State.owned (s : State) (r : Fin 4) : Option Owned := s.nor.ownerTable[r.val]?

/-- The partition that the ownership table gives Frond `f` (R18, R491). -/
def State.ownerOf (s : State) (f : Fin 4) : Option (Fin 4) :=
  (List.finRange 4).find? fun r => match s.owned r with
    | some o => o.fronds.getLsbD f.val
    | none => false

/-- Whether a claimed partition runs in EXACT (R589). -/
def State.exactClaimed (s : State) : Bool :=
  (List.finRange 4).any fun r => decide ((s.part r).st ≠ .unclaimed ∧ (s.part r).mode = .exact)

/-- State code of a half (R75). -/
def HalfSt.code : HalfSt → Nat
  | .free => 0 | .accumulating => 1 | .complete => 2 | .draining => 3

/-- Whether weight set `i` is in use: by a STREAM or GANG that names it, or any WIDE one, and has a row to deliver (R34, R42). -/
def Frond.setInUse (f : Frond) (i : Nat) : Bool :=
  f.streams.any fun r => decide (r.entered < r.total) && (r.wide || (streamF r.ins).set = i)

/-- WSET code (R75). -/
def Frond.wsetCode (f : Frond) (i : Nat) : Nat :=
  let w := if i = 0 then f.set0 else f.set1
  match w.st with
  | .empty => 0
  | .loading => 1
  | .ready => if f.setInUse i then 3 else 2

/-- FRD_STATUS (R75). -/
def frdStatus (s : State) (f : Fin 4) : Nat :=
  let x := s.frond f
  (if (s.reg (oMapout f)).getLsbD 31 then 0 else 2 ^ 31) + x.half1.st.code * 2 ^ 26 + x.half0.st.code * 2 ^ 24
    + x.wsetCode 1 * 2 ^ 18 + x.wsetCode 0 * 2 ^ 16 + (if x.drains.any fun r => decide (0 < r.read) then 4 else 0)
    + (if x.loads.isEmpty && x.streams.all (fun r => decide (r.entered = r.total)) then 0 else 2)
    + (if x.rows.isEmpty then 0 else 1)

/-- Whether a column is mapped out: FRD_MAPOUT.VALID, which reaches the array when LOCK is written 1 (R76). -/
def mapValid (s : State) (f : Fin 4) : Bool := (s.reg (oMapout f)).getLsbD 31 && (s.reg (oMapout f)).getLsbD 8
/-- FRD_MAPOUT.PCOL of a Frond, which acts with `mapValid`. -/
def mapPcol (s : State) (f : Fin 4) : Nat := s.regF (oMapout f) 0 5

/-- PIN_ID of physical Pinna `p` (R85). -/
def pinId (s : State) (f : Fin 4) (p : Nat) : Nat :=
  ((mirrorOf (mapValid s f) (mapPcol s f) (p % 17)).getD 0x1F) * 2 ^ 16 + p / 17 * 256 + p % 17

/-- Whether Quad `q` of a Pinna on row `r` carrying mirrored column `c` holds cells of a weight set (R40). -/
def quadLive (w : WeightSet) (r c q : Nat) : Bool :=
  let rows := if w.wfmt = 1 then (w.cells.length + 1) / 2 else w.cells.length
  let lc := if w.mirror then 15 - c else c
  decide (32 * r + 16 * (q / 2) < rows ∧ 32 * lc + 16 * (q % 2) < w.n)

/-- PIN_STATUS of physical Pinna `p` (R86): Quads clocked for a running STREAM. DESIGN CHOICE (notes/assumptions/79): a STREAM
runs, for R40, from its issue until its last row has entered. -/
def pinStatus (s : State) (f : Fin 4) (p : Nat) : Nat :=
  let x := s.frond f
  match mirrorOf (mapValid s f) (mapPcol s f) (p % 17) with
  | none => 0
  | some c =>
    let live := fun (i : Nat) (w : WeightSet) (q : Nat) => x.setInUse i && quadLive w (p / 17) c q
    (List.range 4).foldl (fun a q => if live 0 x.set0 q || live 1 x.set1 q then a + 2 ^ q else a) 0

/-- STP_STATUS (R158). -/
def stpStatus (x : Frond) : Nat :=
  (if x.kernel.isSome then 2 ^ 31 else 0)
    + (if x.kernel.isSome then (x.queues.filter fun q => !q.2.retired).length % 128 * 2 ^ 24 else 0)
    + x.lastKernel.toNat

/-- Kind code of the Card open on a Frond (R524): 0 in a gap. -/
def deckKind (s : State) (f : Fin 4) : Nat :=
  match s.ownerOf f, (s.frond f).card with
  | some r, some i =>
    let p := s.part r
    match p.active with
    | none => 0
    | some b => match (if b = 0 then p.bank0 else p.bank1) with
      | none => 0
      | some k => ((k.cards.filter fun c => c.frond = f.val)[i]?).elim 0 (·.kind)
  | _, _ => 0

/-- THL_DECK_STATUS (R524). -/
def deckStatus (s : State) (f : Fin 4) : Nat :=
  let a := (s.frond f).astate.val * 2 ^ 16
  match s.ownerOf f with
  | none => a
  | some r =>
    let p := s.part r
    let b := p.active.elim 0 (·.val)
    (if p.active.isSome then 2 ^ 31 else 0) + b * 2 ^ 30 + r.val * 2 ^ 28 + deckKind s f * 2 ^ 21 + a
      + ((s.frond f).card.getD 0) % 256

/-- HPC_STATUS (R451). -/
def hpcStatus (s : State) (p : Fin 4) : Nat :=
  let x := s.port p
  let hb := match x.hb with | .init => 0 | .live => 1 | .sleeping => 2 | .lost => 3
  let mode := match x.mode with | .unsettled => 0 | .lpddr5 => 1 | .lpddr4x => 2
  let bg := x.mode = .lpddr5 && Config.mr3IsBG (tget (fun m => Config.mrPowerUp true m) x.mrs 3)
  hb * 2 ^ 24 + x.fsp * 2 ^ 16 + (if x.mode = .unsettled then 0 else (Config.dataRate p.val).toNat) * 256 + (if bg then 64 else 0) + (if x.pd then 32 else 0)
    + (if x.sr then 16 else 0) + (s.otp.hpLock.getD p.val 0) * 4 + mode

/-- HZL_STATUS (R583). -/
def hzlStatus (x : Link) : Nat :=
  let st := match x.st with | .down => 0 | .detect => 1 | .train => 2 | .negotiate => 3 | .active => 4
  st * 2 ^ 29 + (if x.noReplay && x.st = .active then 2 ^ 28 else 0) + x.lanes.toNat * 2 ^ 16 + x.verMaj * 2 ^ 12
    + x.verMin * 256 + x.peer.toNat

/-- HZL_CREDIT (R583): lane 0 in the low byte. -/
def hzlCredit (x : Link) : Nat := leNat ((List.range 4).map fun v => BitVec.ofNat 8 (x.credits.getD v 0))

/-- Median decode time of the Dealer (R365). -/
def dealerMedian (l : List Nat) : Nat := (l.mergeSort (· ≤ ·)).getD (l.length / 2) 0

/-- FCOL_STATUS (R662). -/
def fcolStatus (s : State) : Nat :=
  (if s.fcol.safe then 2 ^ 31 else 0) + (if s.fcol.self then 2 ^ 30 else 0) + s.fcol.pending.length % 128 * 2 ^ 16
    + s.fcol.lastClass * 1024 + s.fcol.lastSrc.toNat

/-- PWR_STATUS (R684). -/
def pwrStatus (s : State) : Nat :=
  (if s.exactClaimed then 2 ^ 31 else 0) + (if s.power.stepped then 2 ^ 30 else 0)
    + (if 0 < s.power.tlim then 2 ^ 29 else 0) + s.power.tlim * 2 ^ 26 + s.power.vdd

/-- Temperature a sensor is read at (R680): the hotter channel; 125 °C when the channels differ by more than 4 °C. -/
def sensorTemp (t : BitVec 16 × BitVec 16) : Int :=
  let a := t.1.toInt
  let b := t.2.toInt
  if 32 < (a - b).natAbs then 1000 else max a b

/-- The hottest sensor and its temperature. -/
def hottest (l : List (BitVec 16 × BitVec 16)) : Nat × Int :=
  match l with
  | [] => (0, 0)
  | t :: r => (r.zipIdx 1).foldl (fun a (x, i) => if a.2 < sensorTemp x then (i, sensorTemp x) else a) (0, sensorTemp t)

/-- PWR_CLK_LOCK (R663, R684): a domain runs unless its PLL is stopped or has lost lock. Before boot only AOCLK and
REFCLK run. -/
def clkLock (s : State) : Nat :=
  let f := fun (n : Fin 4) => decide ((s.frond n).astate.val ≤ 1) && !(s.frond n).retired
  let sclk := fun (n : Fin 4) => decide ((s.frond n).astate.val = 0) && !(s.frond n).retired
  let up := fun (d : Fin 32) =>
    if d.val ≤ 1 then true
    else if !s.power.locked || s.power.s1 then false
    else if d.val = 3 then f 0 else if d.val = 4 then f 1 else if d.val = 5 then f 2 else if d.val = 6 then f 3
    else if d.val = 7 then sclk 0 else if d.val = 8 then sclk 1 else if d.val = 9 then sclk 2
    else if d.val = 10 then sclk 3
    else true
  (List.finRange 32).foldl (fun a d => if up d then a + 2 ^ d.val else a) 0

/-- THL_DET_STATUS (R597): CAUSE and BROKEN are stored; LOCKED and EXACT are read off. -/
def detStatus (s : State) : Nat :=
  (s.reg 0x00110000).toNat / 16 * 16 % 256 + (if s.power.brokenRound then 8 else 0)
    + (if s.exactClaimed then 4 else 0) + (if s.exactClaimed then 1 else 0)

/-- THL_SAFE_STATUS (R632). -/
def safeStatus (s : State) : Nat :=
  (if s.sys.st = .startup ∨ s.sys.st = .test ∨ s.sys.st = .recovery then 4 else 0) + (if s.safety.patPaused then 2 else 0)
    + (if s.safety.rotStart.any Option.isSome then 1 else 0)

/-- THL_FROND_CHK (R632). -/
def frondChk (s : State) (f : Fin 4) : Nat :=
  let x := s.frond f
  (if x.holds.isEmpty then 0 else 2 ^ 31) + (x.holds.head?.elim 0 (·.1)) * 2 ^ 28 + (if s.safety.overdue.getD f.val false then 2 ^ 27 else 0)
    + (match s.safety.lastRot.getD f.val none with
       | none => 0xFFFF
       | some t => min 0xFFFF ((s.deckNow.toNat - t) / 1000000))

/-- THL_SEC_STATUS (R713). -/
def secStatus (s : State) : Nat :=
  s.otp.lifecycle * 2 ^ 29 + s.dbg.level * 2 ^ 27 + s.dbg.key * 2 ^ 26 + (if s.dbg.chal.isSome then 2 ^ 25 else 0)
    + (if s.dbg.lockout then 2 ^ 24 else 0) + s.dbg.fails % 4 * 2 ^ 22 + (if s.otp.ownerPkh ≠ 0 then 2 ^ 21 else 0)
    + (if s.otp.ownerRevoked then 2 ^ 20 else 0) + s.otp.vendorRevoke.toNat % 16 * 2 ^ 16 + s.otp.srkSel * 2 ^ 15
    + s.otp.rollback

/-- RHZ_PORT_STATUS (R340): LANES, CPHY and DESKEW are stored; ENABLED is read off the started contexts; a burst is
never in progress between commands. -/
def rhzPort (s : State) (p : Nat) : Nat :=
  let en := (List.range 96).any fun c =>
    let w := (s.reg (oStrm c 0)).toNat
    bit1 w 31 && bits w 28 3 = 1 && bits w 24 4 = p
  (s.reg (0x03000000 + 4 * p)).toNat / 4 * 4 + (if en then 1 else 0)

/-- Views inside a Frond block. -/
def frondView (s : State) (f : Fin 4) (o : Nat) : Option Nat :=
  let x := s.frond f
  match o with
  | 0x4 => some (frdStatus s f)
  | 0x4000 => some (stpStatus x)
  | 0x4004 => some x.lastJob.toNat
  | 0xC010 => some x.sfu.length
  | 0x40000 => some ((if x.restore then 2 else 0) + (if x.zfill then 1 else 0))
  | o =>
    match arr 0x4400 4 256 o with
    | some t => some (tget (fun _ => (0 : BitVec 16)) x.tok t).toNat
    | none => match arr 0x4800 8 64 o with
      | some q => some (tget (fun _ => 0) x.qptr q / 16 * 16 % 2 ^ 32)
      | none => match arr 0x4804 8 64 o with
        | some q => some (tget (fun _ => 0) x.qptr q / 2 ^ 32)
        | none =>
          if 0x10000 ≤ o ∧ o < 0x21000 then
            let p := (o - 0x10000) / 0x400
            match o % 0x400 with
            | 0 => some (pinId s f p)
            | 4 => some (pinStatus s f p)
            | _ => none
          else none

/-- Views inside the device time block (R401). -/
def timeView (s : State) (o : Nat) : Option Nat :=
  match o with
  | 0x0 => some ((if s.time.coarse then 4 else 0) + (if s.time.stepPend.isSome then 2 else 0)
      + (if s.time.incPend.isSome then 1 else 0))
  | 0x4 => some s.time.ns
  | 0x8 => some (s.time.sec.toNat % 2 ^ 32)
  | 0xC => some (s.time.sec.toNat / 2 ^ 32)
  | 0x18 => some (code 64 s.time.stepSum % 2 ^ 32)
  | 0x1C => some (code 64 s.time.stepSum / 2 ^ 32)
  | o =>
    if 0x100 ≤ o ∧ o < 0x200 ∧ o % 0x20 = 0 then
      some ((s.reg (oTime o)).toNat % 4 +
        (if ((s.time.trig.getD ((o - 0x100) / 0x20) ⟨false, 0, none⟩).active) then 2 ^ 31 else 0))
    else none

/-- Views inside the power block (R684). -/
def pwrView (s : State) (o : Nat) : Option Nat :=
  match o with
  | 0x0 => some (pwrStatus s)
  | 0x4 => some (code 32 (s.power.budget / 100000))
  | 0x8 => some (s.power.pkgMw % 2 ^ 32)
  | 0x24 => let h := hottest s.power.temps; some (h.1 * 65536 + code 16 h.2)
  | 0x200 => some (clkLock s)
  | o =>
    match arr 0x10 4 4 o with
    | some f =>
      let x := s.frond ⟨f % 4, Nat.mod_lt _ (by decide)⟩
      some (x.astate.val * 2 ^ 30 + x.op * 2 ^ 27 + (s.reg (oPwr o)).toNat / 2 ^ 24 % 8 * 2 ^ 24 + opMhz x.op)
    | none => match arr 0x100 4 24 o with
      | some i => some (match s.power.temps[i]? with | some t => code 16 (sensorTemp t) | none => 0)
      | none => none

/-- Value of a register whose reading is not its stored word. -/
def regView (s : State) (o : Nat) : Option Nat :=
  if o < 0x01000000 then
    (match arr 0x00100000 0x100 4 o with
    | some f => some (deckStatus s ⟨f % 4, Nat.mod_lt _ (by decide)⟩)
    | none =>
      if o = 0x00110000 then some (detStatus s)
      else if o = 0x00120000 then some (safeStatus s)
      else if o = 0x00130000 then some (secStatus s)
      else match arr 0x00120100 4 4 o with
        | some f => some (frondChk s ⟨f % 4, Nat.mod_lt _ (by decide)⟩)
        | none => none)
  else if o < 0x02000000 then (if o = 0x01000000 then some (fcolStatus s) else none)
  else if o < 0x03000000 then (match inFrond o with
    | some (f, x) => frondView s f x
    | none => none)
  else if o < 0x03100000 then
    (match arr 0x03000000 4 12 o with
    | some p => some (rhzPort s p)
    | none =>
      if o = 0x03080000 then
        some ((if s.dealer.run then 2 ^ 31 else 0) + s.dealer.lanes.foldl (fun a l => a + 2 ^ l.1) 0)
      else if o = 0x03080004 then some s.dealer.pos
      else if o = 0x03080008 then some s.dealer.epoch
      else if o = 0x0308000C then some (dealerMedian s.dealer.times)
      else none)
  else if o < 0x04000000 then none
  else if o < 0x05000000 then
    (if o < 0x04010000 ∧ o % 0x1000 = 0 then
      let c := o - 0x04000000
      let hot := s.exactClaimed && (s.hot.contains (c / 0x800) || s.hot.contains (c / 0x800 + 1))
      some ((if hot then 2 else if s.exactClaimed then 1 else 0) * 2 ^ 30 + (s.reg o).toNat % 2 ^ 30)
    else match arr 0x04800000 0x10000 4 o with
      | some p => some (hpcStatus s ⟨p % 4, Nat.mod_lt _ (by decide)⟩)
      | none => none)
  else if o < 0x06000000 then
    (match arr 0x05000000 0x1000 3 o with
    | some l => some (hzlStatus (s.link ⟨l % 3, Nat.mod_lt _ (by decide)⟩))
    | none => match arr 0x05000004 0x1000 3 o with
      | some l => some (hzlCredit (s.link ⟨l % 3, Nat.mod_lt _ (by decide)⟩))
      | none => none)
  else if o < 0x07000000 then timeView s (o - 0x06000000)
  else pwrView s (o - 0x07000000)

/-- The value a register shows now. -/
def State.regNow (s : State) (o : Nat) : Word :=
  match regView s o with
  | some v => BitVec.ofNat 32 v
  | none => s.reg o

/-- The further words of a group whose lowest word is at `o` (R4). -/
def latchWords (s : State) (o : Nat) : List (Nat × Word) :=
  (List.range (latchGroup o)).map fun i => (o + 4 * (i + 1), s.regNow (o + 4 * (i + 1)))

/-- Reading a register: a latched word is given once, a lowest word latches the others (R4). -/
def State.readReg (s : State) (o : Nat) : Word × State :=
  match tfind s.latch o with
  | some v => (v, { s with latch := tdel s.latch o })
  | none => (s.regNow o, { s with latch := (latchWords s o).foldl (fun l e => tput l e.1 e.2) s.latch })

end Sys2Proof.Machine
end

