-- ==== Sys2Proof/Machine/PowerOps.lean ====
section
/-! DEFINITION. Operating points (R673 to R675, R682, R589): the point the limits allow, and the common rail. -/

namespace Sys2Proof.Machine

/-- The fastest operating point that no limit of R675 forbids a Frond: ceiling, budget step, thermal limit, EXACT. -/
def State.opLimit (s : State) (f : Fin 4) : Nat :=
  max (max (s.regF (oPwr (0x10 + 4 * f.val)) 24 3) (if s.power.stepped then 3 else 0))
    (max s.power.tlim (if s.exactClaimed then 2 else 0))

/-- Whether a Frond draws from VDD_FR (R674). -/
def Frond.powered (x : Frond) : Bool := decide (x.astate.val ≤ 1) && !x.retired

/-- VDD_FR for the fastest point among the Fronds in A0 or A1 (R674). -/
def State.setRail (s : State) : State :=
  match (s.fronds.toList.filter Frond.powered).map (·.op) with
  | [] => s
  | o :: t => { s with power := { s.power with vdd := opMv (t.foldl min o) } }

/-- A Frond at the point its limits allow (R675, R676); it does not speed up while AVSBus has failed (R739). -/
def State.setOp (s : State) (f : Fin 4) : State :=
  if (s.frond f).powered then
    s.modFrond f fun x => { x with op := if s.power.avsHeld then max x.op (s.opLimit f) else s.opLimit f }
  else s

/-- Every Frond at the point its limits allow. -/
def State.applyOps (s : State) : State := ((List.finRange 4).foldl State.setOp s).setRail

end Sys2Proof.Machine
end

