-- ==== Sys2Proof/Machine/MemOps.lean ====
section
/-! DEFINITION. The one memory at internal addresses (R23): reading, writing, check words, SEC-DED marks, spare rows
(R164 to R166, R171 to R178, R184, R188, R531). Plain operations that report nothing. -/

namespace Sys2Proof.Machine

/-- Base of the Mat (R23). -/
def matBase : Nat := 0x1000000000
/-- Base of Frond `f`'s scratchpad (R23). -/
def spBase (f : Fin 4) : Nat := 0x1040000000 + f.val * 0x04000000
/-- Base of port `p`'s SRAM (R23). -/
def sramBase (p : Fin 4) : Nat := 0x1080000000 + p.val * 0x01000000
/-- Base of the register space (R23). -/
def regBase : Nat := 0x1100000000
/-- End of usable DRAM (R23). -/
def dramEnd : Nat := 0xEC0000000

/-- Firmware-owned DRAM: from here to the end of usable DRAM. -/
def fwBase : Nat := 0xE80000000
/-- Save area of the Mat (R669), in firmware-owned DRAM. -/
def s1Save : Nat := fwBase + 0x2000000
/-- Place of step record `i` (R286), in firmware-owned DRAM. -/
def stepSlotAddr (i : Nat) : Nat := fwBase + 0x4000000 + i * 0x100000
/-- Step records that stand at once. -/
def stepRecords : Nat := 960

/-- What stands at an internal address (R23). -/
inductive Region where
  | dram
  | mat (off : Nat)
  | sp (f : Fin 4) (off : Nat)
  | sram (p : Fin 4) (off : Nat)
  | reg (off : Nat)
  | unpopulated
  deriving DecidableEq, Repr

/-- Region of an address (R23). -/
def region (a : Nat) : Region :=
  if a < dramEnd then .dram
  else if a < matBase then .unpopulated
  else if a < matBase + 0x1000000 then .mat (a - matBase)
  else if a < 0x1040000000 then .unpopulated
  else if a < 0x1050000000 then
    let x := a - 0x1040000000
    if x % 0x04000000 < 0x02800000 then
      .sp ⟨x / 0x04000000 % 4, Nat.mod_lt _ (by decide)⟩ (x % 0x04000000)
    else .unpopulated
  else if a < 0x1080000000 then .unpopulated
  else if a < 0x1084000000 then
    let x := a - 0x1080000000
    if x % 0x01000000 < 0x00800000 then
      .sram ⟨x / 0x01000000 % 4, Nat.mod_lt _ (by decide)⟩ (x % 0x01000000)
    else .unpopulated
  else if a < regBase then .unpopulated
  else if a < regBase + 0x09000000 then .reg (a - regBase)
  else .unpopulated

/-- Storage of spare rows lies above every internal address. -/
def spareBase : Nat := 2 ^ 48
/-- Keys of the SEC-DED standing of check-word entries lie above those of spare rows (R166). -/
def checkBase : Nat := 2 ^ 49

/-- What an unlisted byte reads as: zero, or a free value in a spare row nothing has written (R178, R189). -/
def memDefault (k : Nat) : Byte := if k < spareBase then 0 else Config.spareByte (k - spareBase)

/-- SEC-DED standing of an unlisted word: good, or free in a spare row nothing has written (R178). -/
def markDefault (k : Nat) : Upset :=
  if k < spareBase ∨ checkBase ≤ k then .none
  else
    let m := Config.spareMark ((k - spareBase) / 8)
    match m % 3 with
    | 0 => .none
    | 1 => .ce (m / 3)
    | _ => .ue

/-- The BCW of a block nothing has written: that of zeros (R189). -/
def bcwDefault (_ : Nat) : Word := BitVec.ofNat 32 zeroBcw

/-- The spare that serves row `brow` by the repair entries `l`: the lowest valid entry of the bank's table at offsets
`lo .. lo+4n-1` (R178). -/
def spareFor (l : List (Nat × Word)) (lo n w brow : Nat) : Option Nat :=
  (l.find? fun e =>
    decide (lo ≤ e.1 ∧ e.1 < lo + 4 * n) && e.2.getLsbD 31 && decide (bits e.2.toNat 0 w = brow)).map
      fun e => (e.1 - lo) / 4

/-- Storage key of the first byte of spare `sp` of scratchpad bank `b`. -/
def spSpareKey (f : Fin 4) (b sp : Nat) : Nat := spareBase + ((f.val * 320 + b) * 32 + sp) * 64

/-- Storage key of the first byte of spare `sp` of Mat bank `b`. -/
def matSpareKey (b sp : Nat) : Nat := spareBase + 0x10000000 + (b * 16 + sp) * 64

/-- Storage key of the byte at an internal address: spare storage for a repaired row, by the scratchpad repairs in force
(R180) and by DRC_MAT_REPAIR (R178, R188). -/
def physAddr (s : State) (a : Nat) : Nat :=
  match region a with
  | .sp f x =>
    let b := x / 64 % 320
    match spareFor s.repairs (oSpRepair f b 0) 32 11 (x / 64 / 320) with
    | some sp => spSpareKey f b sp + x % 64
    | none => a
  | .mat x =>
    let b := x / 256 % 64
    match spareFor s.regs (oMatRepair b 0) 16 12 (4 * (x / 16384) + x % 256 / 64) with
    | some sp => matSpareKey b sp + x % 64
    | none => a
  | _ => a

/-- The FRD_SP_REPAIR entries of a Frond come into force as its registers hold them (R180). -/
def State.applyRepairs (s : State) (f : Fin 4) : State :=
  let mine := fun (e : Nat × Word) => decide (oSpRepair f 0 0 ≤ e.1 ∧ e.1 < oSpRepair f 320 0)
  { s with repairs := (s.regs.filter mine).foldl (fun l e => tput l e.1 e.2) (s.repairs.filter fun e => !mine e) }

/-- The canonical form of memory: bytes, BCWs and SEC-DED marks listed by strictly rising key, none at what an unlisted key
reads as. -/
def Memory.wf (s : State) : Bool :=
  tcanon memDefault s.mem && tcanon bcwDefault s.bcw && tcanon markDefault s.upsets

/-- One byte of memory. -/
def State.rd (s : State) (a : Nat) : Byte := tget memDefault s.mem (physAddr s a)

/-- `n` bytes of memory. -/
def State.rdN (s : State) (a n : Nat) : List Byte := (List.range n).map fun i => s.rd (a + i)

/-- Writing one byte. -/
def State.wr (s : State) (a : Nat) (b : Byte) : State := { s with mem := tset memDefault s.mem (physAddr s a) b }

/-- Writing bytes. -/
def State.wrN (s : State) (a : Nat) : List Byte → State
  | [] => s
  | b :: t => (s.wr a b).wrN (a + 1) t

/-- Key of the protected word or unit that holds an address: 32 bytes in DRAM, 8 bytes elsewhere (R166, R529). -/
def unitKey (s : State) (a : Nat) : Nat :=
  match region a with
  | .dram => a / 32 * 32
  | _ => physAddr s a / 8 * 8

/-- SEC-DED standing of the unit that holds an address. -/
def State.mark (s : State) (a : Nat) : Upset := tget markDefault s.upsets (unitKey s a)

/-- Setting the standing of the unit that holds an address. -/
def State.setMark (s : State) (a : Nat) (u : Upset) : State :=
  { s with upsets := tset markDefault s.upsets (unitKey s a) u }

/-- Bytes of a protected unit at an address. -/
def unitSize (a : Nat) : Nat := match region a with | .dram => 32 | _ => 8

/-- First addresses of the protected units that bytes `a .. a+n-1` touch. -/
def unitsOf (a n : Nat) : List Nat :=
  if n = 0 then []
  else
    let u := unitSize a
    (List.range ((a + n - 1) / u - a / u + 1)).map fun i => (a / u + i) * u

/-- Units of a range that are marked, with their standing. -/
def State.marksIn (s : State) (a n : Nat) : List (Nat × Upset) :=
  ((unitsOf a n).map fun u => (u, s.mark u)).filter fun e => e.2 ≠ .none

/-- Clearing the marks of the units a write covers: they are written with fresh check bytes. -/
def State.cleanN (s : State) (a n : Nat) : State := (unitsOf a n).foldl (fun s u => s.setMark u .none) s

/-- The stored BCW of the block that holds an address (R165, R184, R526). -/
def State.bcwAt (s : State) (a : Nat) : Word := tget bcwDefault s.bcw (a / 256)

/-- Key of the SEC-DED standing of the check-word entry of the block that holds an address (R165, R166, R186). -/
def checkKey (a : Nat) : Nat := checkBase + a / 256

/-- SEC-DED standing of the check-word entry of the block that holds an address (R166). -/
def State.checkMark (s : State) (a : Nat) : Upset := tget markDefault s.upsets (checkKey a)

/-- Storing a BCW: its check-word entry is written with a fresh SEC-DED code (R166). -/
def State.setBcw (s : State) (a : Nat) (w : Word) : State :=
  { s with bcw := tset bcwDefault s.bcw (a / 256) w, upsets := tset markDefault s.upsets (checkKey a) .none }

/-- The bytes of the block that holds an address. -/
def State.block (s : State) (a : Nat) : List Byte := s.rdN (a / 256 * 256) 256

/-- CRC-32C of bytes as a word. -/
def crcWord (l : List Byte) : Word := BitVec.ofNat 32 (crc32c l)

/-- Whether a block agrees with its BCW (R538). -/
def State.blockOk (s : State) (a : Nat) : Bool := crcWord (s.block a) = s.bcwAt a

/-- Bytes with fresh check bytes and no BCW: host-port SRAM, check-free stores. -/
def State.put (s : State) (a : Nat) (l : List Byte) : State := (s.wrN a l).cleanN a l.length

/-- A whole-block write with the writer's BCW (R171, R530). -/
def State.putBlock (s : State) (a : Nat) (l : List Byte) (w : Word) : State := (s.put a l).setBcw a w

/-- The BCW after part of a block changes (R172, R531, R537): old BCW, old content, new content. -/
def bcwMerge (w : Word) (old new : List Byte) : Word := w ^^^ crcWord old ^^^ crcWord new

/-- A merge inside one block: the bytes and the new BCW (R172, R174, R531). -/
def State.mergeIn (s : State) (a : Nat) (l : List Byte) : State :=
  let old := s.block a
  let new := splice old (a % 256) l
  (s.put a l).setBcw a (bcwMerge (s.bcwAt a) old new)

/-- Pieces of a byte range cut at block boundaries: (address, bytes). -/
def blockPieces : Nat → Nat → List Byte → List (Nat × List Byte)
  | 0, _, _ => []
  | k + 1, a, l =>
    if l.isEmpty then []
    else
      let n := 256 - a % 256
      (a, l.take n) :: blockPieces k (a + n) (l.drop n)

/-- Writing any range: whole blocks with their own CRC, the rest merged. -/
def State.store (s : State) (a : Nat) (l : List Byte) : State :=
  (blockPieces (l.length / 256 + 2) a l).foldl
    (fun s e => if e.2.length = 256 then s.putBlock e.1 e.2 (crcWord e.2) else s.mergeIn e.1 e.2) s

/-- Zeroing a range with valid check words (R189): every listed byte, mark and BCW of the range goes. -/
def State.zeroRange (s : State) (a n : Nat) : State :=
  { s with mem := tdrop (fun k => decide (a ≤ k ∧ k < a + n)) s.mem
           upsets := tdrop (fun k => decide (a ≤ k ∧ k < a + n ∨ checkKey a ≤ k ∧ k < checkKey (a + n))) s.upsets
           bcw := tdrop (fun k => decide (a / 256 ≤ k ∧ k < (a + n) / 256)) s.bcw }

/-- Little-endian field of memory. -/
def State.rdLe (s : State) (a n : Nat) : Nat := leNat (s.rdN a n)

/-- Reader of a Frond's scratchpad by byte address. -/
def State.spReader (s : State) (f : Fin 4) : Reader := fun x => s.rd (spBase f + x)

/-- A fresh free value, and the state with the counter moved on. -/
def State.fresh (s : State) : Word × State := (Config.freeWord s.free, { s with free := s.free + 1 })

/-- `4 * n` free bytes, where the manual states none. -/
def State.freeBytes (s : State) : Nat → List Byte × State
  | 0 => ([], s)
  | n + 1 =>
    let r := s.fresh
    let t := r.2.freeBytes n
    (leBytes 4 r.1.toNat ++ t.1, t.2)

end Sys2Proof.Machine
end

