-- ==== Sys2Proof/Machine/RingOps.lean ====
section
/-! DEFINITION. Rings, packets, interrupts and notices (R426, R432, R448, R449, R453 to R470, R490). -/

namespace Sys2Proof.Machine

/-! Status codes (R478). -/

/-- Status codes of R478. -/
inductive St where
  | ok | version | state | arg | quota | nomem | nomemDeferred | busy | auth | timeout | fault | shape | withheld | late
  | skipped
  deriving DecidableEq, Repr

/-- Code of a status (R478). -/
def St.code : St → Nat
  | .ok => 0 | .version => 1 | .state => 2 | .arg => 3 | .quota => 4 | .nomem => 5 | .nomemDeferred => 6 | .busy => 7
  | .auth => 8 | .timeout => 9 | .fault => 10 | .shape => 11 | .withheld => 12 | .late => 13 | .skipped => 14

/-! CP_IRQ_STATUS bits (R429). -/
/-- A completion, result or notice entry was written. -/
def irqCompl : Nat := 0
/-- A ring stayed unread for READ_TIMEOUT. -/
def irqReadTmo : Nat := 1
/-- A ring became FULL or OVERRUN. -/
def irqRingFull : Nat := 2
/-- CP_DEV_STATE or the heartbeat state changed. -/
def irqState : Nat := 3
/-- A FAULT notice was posted. -/
def irqFault : Nat := 4
/-- A host write was dropped. -/
def irqWdrop : Nat := 5

/-- Setting a bit of CP_IRQ_STATUS (R432). -/
def State.irq (s : State) (p : Fin 4) (b : Nat) : State :=
  s.modPort p fun x => { x with irqStatus := x.irqStatus ||| BitVec.ofNat 6 (2 ^ b) }

/-- Whether HP_IRQ_N of a port is driven low (R448). -/
def Port.irqLow (x : Port) : Bool := decide (x.irqStatus &&& x.irqMask ≠ 0)

/-- Opening or closing `n` window pages of a port from page `first` (R426, R457). -/
def State.setPages (s : State) (p : Fin 4) (first n : Nat) (v : Bool) : State :=
  (List.range n).foldl (fun s i =>
    let k := first + i
    s.setRegF (oHpc p (0x100 + 4 * (k / 32))) (k % 32) 1 (if v then 1 else 0)) s

/-- Whether a window page of a port is open to host writes (R426). -/
def State.pageOpen (s : State) (p : Fin 4) (page : Nat) : Bool :=
  (s.reg (oHpc p (0x100 + 4 * (page / 32)))).getLsbD (page % 32)

/-! Rings. -/

/-- Bytes of a ring. -/
def Ring.cap (r : Ring) : Nat := r.size * 4096
/-- Bytes between HEAD and TAIL (R455). -/
def Ring.used (r : Ring) : Nat := (r.tail + 2 ^ 30 - r.head) % 2 ^ 30
/-- Whether both copies of the pointers agree (R470). -/
def Ring.agree (r : Ring) : Bool :=
  decide (r.headC = 2 ^ 32 - 1 - r.head ∧ r.tailC = 2 ^ 32 - 1 - r.tail ∧ r.nseqC = 2 ^ 16 - 1 - r.nseq)
/-- Both copies of the pointers set. -/
def Ring.setPtr (r : Ring) (h t n : Nat) : Ring :=
  { r with head := h % 2 ^ 30, tail := t % 2 ^ 30, nseq := n % 65536, headC := 2 ^ 32 - 1 - h % 2 ^ 30,
           tailC := 2 ^ 32 - 1 - t % 2 ^ 30, nseqC := 2 ^ 16 - 1 - n % 65536 }

/-- A freshly armed ring (R456). -/
def Ring.armed (base size kind part pair rtmo : Nat) : Ring :=
  Ring.setPtr
    { base := base, size := size, kind := kind, part := part, pair := pair, rtmo := rtmo, head := 0, tail := 0,
      nseq := 0, headC := 0, tailC := 0, nseqC := 0, full := false, overrun := false, reset := false, resets := 0,
      lost := 0, tmoDone := false, drop := none, taken := [], promises := [] } 0 0 0

/-- The ring of a port, if armed. -/
def State.ring (s : State) (p : Fin 4) (d : Nat) : Option Ring := tfind (s.port p).rings d

/-! The release buffer (R608): what passed through it since the last tick of device time, newest first (notes/assumptions/108). -/

/-- Noting what passes through the release buffer; what an earlier tick noted has left it. -/
def State.held (s : State) (i : Held) : State :=
  { s with release := (s.now, i) :: s.release.filter fun e => decide (e.1 = s.now) }

/-- Cells listed in a range of addresses. -/
def State.cellsIn (s : State) (a n : Nat) : List Host.Cell := s.mem.filter fun c => decide (a ≤ c.1 ∧ c.1 < a + n)

/-- A write by the management processors or the safety controller into host-port SRAM. -/
def State.hostPut (s : State) (a : Nat) (l : List Byte) : State := (s.held (.sram a l.length (s.cellsIn a l.length))).put a l

/-- Zeros written by them into host-port SRAM. -/
def State.hostZero (s : State) (a n : Nat) : State := (s.held (.sram a n (s.cellsIn a n))).zeroRange a n

/-- Taking one item back. -/
def State.unhold (s : State) (i : Held) : State :=
  match i with
  | .sram a n old =>
    { s with mem := old.foldl (fun m c => tset memDefault m c.1 c.2) (tdrop (fun k => decide (a ≤ k ∧ k < a + n)) s.mem) }
  | .ring p d old => s.modPort p fun x => { x with rings := match old with
    | some r => tput x.rings d r
    | none => tdel x.rings d }
  | .seal j old pools seqs ages =>
    { s with jobs := tput s.jobs j old, pools := pools.foldl (fun l e => tput l e.1 e.2) s.pools
             seqs := seqs.foldl (fun l e => tput l e.1 e.2) s.seqs
             ages := (s.ages.filter fun a => decide (a.job ≠ j)) ++ ages }
  | .packet l k => s.modLink l fun x => { x with outq := (x.outq.reverse.erase k).reverse }

/-- Discarding the content of the release buffer (R608). -/
def State.discardHeld (s : State) : State :=
  (s.release.filter fun e => decide (e.1 = s.now)).foldl (fun s e => s.unhold e.2) { s with release := [] }

/-- Storing a ring. -/
def State.setRing (s : State) (p : Fin 4) (d : Nat) (r : Ring) : State :=
  (s.held (.ring p d (s.ring p d))).modPort p fun x => { x with rings := tput x.rings d r }
/-- Changing a ring that is armed. -/
def State.modRing (s : State) (p : Fin 4) (d : Nat) (g : Ring → Ring) : State :=
  (s.held (.ring p d (s.ring p d))).modPort p fun x => { x with rings := tmod x.rings d g }

/-- Internal address of position `pos` of a ring (R455). -/
def ringAddr (p : Fin 4) (r : Ring) (pos : Nat) : Nat := sramBase p + r.base + pos % r.cap

/-- The 16 bytes of a ring state entry (R455). -/
def Ring.stateBytes (r : Ring) : List Byte :=
  leBytes 4 r.head ++ leBytes 4 r.tail ++ leBytes 2 r.nseq
    ++ leBytes 1 (1 + (if r.full then 2 else 0) + (if r.overrun then 4 else 0) + (if r.reset then 8 else 0))
    ++ leBytes 1 r.resets ++ leBytes 4 r.lost

/-- A packet (R458): header, payload, zeros up to LEN. -/
def packet (opc seq tag status part flags : Nat) (pl : List Byte) : List Byte :=
  let n := 16 * cdiv (16 + pl.length) 16
  padTo n (leBytes 4 n ++ leBytes 2 opc ++ leBytes 2 seq ++ leBytes 4 tag ++ leBytes 2 status ++ leBytes 1 part
    ++ leBytes 1 flags ++ pl)

/-- A PAD packet of `n` bytes (R459): LEN, SEQ and FLAGS only. -/
def padPacket (n seq part : Nat) : List Byte :=
  leBytes 4 n ++ leBytes 2 0 ++ leBytes 2 seq ++ leBytes 4 0 ++ leBytes 2 0 ++ leBytes 1 part ++ leBytes 1 1

/-- Bytes of PAD that a packet of `n` bytes needs at position `t` (R459). -/
def Ring.padAt (r : Ring) (t n : Nat) : Nat := if r.cap < t % r.cap + n then r.cap - t % r.cap else 0

/-- End of the promised completions when the first is written at `pos` (R468). -/
def Ring.promisedEnd (r : Ring) (pos : Nat) : Nat := r.promises.foldl (fun t e => t + r.padAt t e.2 + e.2) pos

/-- Setting OVERRUN, with RING_FULL when it was clear (R429, R464). -/
def State.setOverrun (s : State) (p : Fin 4) (d : Nat) : State :=
  match s.ring p d with
  | none => s
  | some r => if r.overrun then s else (s.setRing p d { r with overrun := true }).irq p irqRingFull

/-- Writing a PAD packet that reaches the end of the ring (R459). -/
def State.ringPad (s : State) (p : Fin 4) (d : Nat) : State :=
  match s.ring p d with
  | none => s
  | some r =>
    let n := r.cap - r.tail % r.cap
    (s.hostPut (ringAddr p r r.tail) (padTo n (padPacket n r.nseq r.part))).setRing p d
      { r.setPtr r.head (r.tail + n) (r.nseq + 1) with tmoDone := false }

/-- Writing a packet into a CQ or RF (R466): PAD where needed, COMPL set; lost where it does not fit. Room promised to
completions is not free for anything else (`keep`). -/
def State.ringPutIn (s : State) (keep : Bool) (p : Fin 4) (d : Nat) (opc tag status part : Nat) (pl : List Byte) : State :=
  match s.ring p d with
  | none => s
  | some r =>
    let n := 16 * cdiv (16 + pl.length) 16
    let pad := r.padAt r.tail n
    let t := r.tail + pad + n
    let promised := if keep then r.promisedEnd t - t else 0
    if r.used + pad + n + promised ≤ r.cap then
      let s1 := if pad = 0 then s else s.ringPad p d
      match s1.ring p d with
      | none => s1
      | some r1 =>
        let s2 := s1.hostPut (ringAddr p r1 r1.tail) (packet opc r1.nseq tag status part 0 pl)
        (s2.setRing p d { r1.setPtr r1.head (r1.tail + n) (r1.nseq + 1) with tmoDone := false }).irq p irqCompl
    else
      (s.setRing p d { r with full := true, overrun := true, lost := min 0xFFFFFFFF (r.lost + 1) }).irq p irqRingFull

/-- Writing a notice. -/
def State.ringPut (s : State) (p : Fin 4) (d : Nat) (opc tag status part : Nat) (pl : List Byte) : State :=
  s.ringPutIn true p d opc tag status part pl

/-- Packets that stand between two positions, by their LEN words (fuel bounds the walk). -/
def packetsIn (s : State) (p : Fin 4) (r : Ring) : Nat → Nat → Nat → Nat
  | 0, _, _ => 0
  | k + 1, pos, left =>
    let n := s.rdLe (ringAddr p r pos) 4
    if left = 0 ∨ n = 0 ∨ left < n then 0 else 1 + packetsIn s p r k (pos + n) (left - n)

/-- Resetting a ring, steps 1 to 3 of R470: what is not taken or released is dropped, the storage zeroed, the pointers
zeroed in both copies, FULL and OVERRUN cleared, RESET set, RESETS counted, the pages of an SQ reopened. -/
def State.ringClear (s : State) (p : Fin 4) (d : Nat) : State :=
  match s.ring p d with
  | none => s
  | some r =>
    let s1 := s.hostZero (sramBase p + r.base) r.cap
    let s2 := if r.kind = 1 then s1.setPages p (r.base / 4096) r.size true else s1
    s2.setRing p d { r.setPtr 0 0 0 with full := false, overrun := false, reset := true, resets := (r.resets + 1) % 256,
                                         drop := none, tmoDone := false }

/-- Packets a reset of the ring discards (R490). -/
def State.ringDiscards (s : State) (p : Fin 4) (d : Nat) : Nat :=
  match s.ring p d with
  | none => 0
  | some r => packetsIn s p r (r.cap / 16) r.head r.used

/-! Notices (R490). -/

/-- The ring that takes a partition's notices: (port, ring). -/
def State.noticeRing (s : State) (r : Fin 4) : Option (Fin 4 × Nat) :=
  let x := s.part r
  if x.st = .claimed then some (x.port, x.notice) else none

/-- Posting a notice that belongs to a partition; discarded when its ring is not armed (R494). -/
def State.noticePart (s : State) (r : Fin 4) (opc : Nat) (st : St) (pl : List Byte) : State :=
  match s.noticeRing r with
  | none => s
  | some (p, d) => s.ringPut p d opc 0 st.code r.val pl

/-- Posting a notice that involves no partition: ring 1 of every port with an open session (R490). -/
def State.noticeAll (s : State) (opc : Nat) (st : St) (pl : List Byte) : State :=
  (List.finRange 4).foldl (fun s p => if (s.port p).session.isSome then s.ringPut p 1 opc 0 st.code 0xFF pl else s) s

/-- Partitions whose holder took the management role at its claim. -/
def State.mgmtParts (s : State) : List (Fin 4) :=
  (List.finRange 4).filter fun r => decide ((s.part r).st = .claimed) && (s.part r).mgmt

/-- An 80-bit time: NS, then SEC (R480). -/
def timeBytes (ns : Nat) : List Byte := leBytes 4 (ns % 1000000000) ++ leBytes 6 (ns / 1000000000)

/-- CP_DEV_STATE code (R429). -/
def DevSt.code : DevSt → Nat
  | .startup => 0 | .test => 1 | .service => 2 | .recovery => 3 | .safe => 4 | .standby => 5

/-- A change of device state: CHG counts, STATE is set on every port (R429). -/
def State.setDev (s : State) (d : DevSt) : State :=
  if s.sys.st = d then s
  else
    let s1 := { s with sys := { s.sys with st := d, chg := (s.sys.chg + 1) % 256 } }
    (List.finRange 4).foldl (fun s p => s.irq p irqState) s1

/-- Arming rings 0 and 1 of a port (R454, R456) and opening the pages of R457. -/
def State.armSession (s : State) (p : Fin 4) : State :=
  let dir := leBytes 4 0x12000 ++ leBytes 2 2 ++ leBytes 1 1 ++ leBytes 1 0xFF ++ leBytes 1 1 ++ leBytes 7 0
    ++ leBytes 4 0x14000 ++ leBytes 2 2 ++ leBytes 1 2 ++ leBytes 1 0xFF ++ leBytes 1 0 ++ leBytes 7 0
  let s1 := s.hostPut (sramBase p + 0x10000) dir
  let s2 := (s1.setRing p 0 (Ring.armed 0x12000 2 1 0xFF 1 0)).setRing p 1 (Ring.armed 0x14000 2 2 0xFF 0 0)
  (((s2.setPages p 0x10 1 true).setPages p 0x12 2 true).setPages p 1 1 true).setPages p 4 8 true

end Sys2Proof.Machine
end

