-- ==== Sys2Proof/Machine/FaultOps.lean ====
section
/-! DEFINITION. The Fault Collector (R636 to R662): one event into a record, ERR_N, deadlines, notices, the safe state,
and what the event counts for in the health history. -/

namespace Sys2Proof.Machine

/-- What a source event brings to the Fault Collector (R637, R642). -/
structure Ev where
  src : Nat
  cause : Nat
  sub : Nat := 0
  synd : Nat := 0
  req : Nat := 0xFF
  job : Nat := 0
  part : Nat := 0xFF
  prog : Nat := 0xFFFFFFFF
  kernel : Nat := 0xFFFF
  opcode : Nat := 0xFF
  stepNo : Nat := 0xFF
  forced : Bool := false
  escal : Bool := false
  fatal : Bool := false
  deriving DecidableEq, Repr

/-- Source number of a unit and kind (R634). -/
def srcOf (unit kind : Nat) : Nat := 8 * unit + kind

/-- Class by source (R636): 0 C, 1 U, 2 F. -/
def classOf (src : Nat) : Nat :=
  match src % 8 with
  | 0 => 0
  | 5 => if src / 8 = 112 ∨ src / 8 = 113 then 2 else 1
  | 7 => 2
  | _ => 1

/-- Class of an event: an escalation is F when it starts L6 (R647, R733). -/
def Ev.cls (e : Ev) : Nat := if e.escal then (if e.fatal then 2 else 1) else classOf e.src

/-- Elements whose index R635 gives. -/
def unlocalized : Nat := 0xFFFFFFFF

/-- SYNDROME with the requesting unit in its top byte (R761). -/
def Ev.syndrome (e : Ev) : Nat := e.synd % 2 ^ 56 + (if e.job = 0 then e.req % 256 else 0xFF) * 2 ^ 56

/-- Step entries of a job that appended pages, tainted when an event of class U or F names the job (R279, R642). -/
def State.seqMask (s : State) (j : Nat) : Nat :=
  match tfind s.jobs j with
  | none => 0
  | some x => x.steps.foldl (fun m a => if 0 < a.na then m ||| 2 ^ a.entry else m) 0

/-- The record an event makes (R642). -/
def Ev.record (e : Ev) (s : State) (seq : Nat) : FaultRec :=
  let sensor := Config.nearestSensor (e.src / 8)
  { seq := seq, cls := e.cls, forced := e.forced, escalated := e.escal, src := BitVec.ofNat 10 e.src,
    cause := BitVec.ofNat 5 e.cause, subunit := BitVec.ofNat 32 e.sub, prog := BitVec.ofNat 32 e.prog,
    kernel := BitVec.ofNat 16 e.kernel, opcode := BitVec.ofNat 8 e.opcode, part := BitVec.ofNat 8 e.part,
    time := s.now,
    temp := BitVec.ofInt 16 ((s.power.temps[sensor.val]?).elim 0 sensorTemp),
    rail := Config.railMv (e.src / 8) s.free, sensor := BitVec.ofNat 8 sensor.val,
    step := BitVec.ofNat 8 e.stepNo, rep := 1, syndrome := BitVec.ofNat 64 e.syndrome, job := e.job,
    seqmask := if e.cls = 0 then 0 else BitVec.ofNat 64 (s.seqMask e.job), acked := false }

/-- The 64 bytes of a record (R642). -/
def FaultRec.bytes (r : FaultRec) : List Byte :=
  leBytes 4 r.seq
    ++ leBytes 1 (r.cls + (if r.forced then 4 else 0) + (if r.escalated then 8 else 0))
    ++ leBytes 1 (r.src.toNat % 8 + r.cause.toNat * 8) ++ leBytes 2 r.src.toNat ++ leBytes 4 r.subunit.toNat
    ++ leBytes 4 r.prog.toNat ++ leBytes 2 r.kernel.toNat ++ [r.opcode, r.part] ++ timeBytes r.time
    ++ leBytes 2 r.temp.toNat ++ leBytes 2 r.rail.toNat ++ [r.sensor, r.step] ++ leBytes 4 r.rep.toNat
    ++ leBytes 8 r.syndrome.toNat ++ leBytes 8 r.job ++ leBytes 8 r.seqmask.toNat

/-- Whether an event merges into a record (R643). -/
def FaultRec.merges (r : FaultRec) (e : Ev) : Bool :=
  decide (r.src.toNat = e.src ∧ r.cause.toNat = e.cause ∧ r.job = e.job) && !r.acked
    && (!(decide (e.cls = 0) || decide (e.cls = 1 ∧ e.job = 0)) || decide (r.subunit.toNat = e.sub % 2 ^ 32))

/-- REPEAT counts one more event, held at its top. -/
def FaultRec.again (r : FaultRec) : FaultRec := { r with rep := countUp r.rep 1 }

/-- The newest record that satisfies `p` gets one more repeat; `none` when there is none. -/
def bumpNewest (p : FaultRec → Bool) (l : List FaultRec) : Option (List FaultRec) :=
  match l.reverse.findIdx? p with
  | none => none
  | some i => some ((l.reverse.modify i FaultRec.again).reverse)

/-- Whether a bit of an FCOL array of 32 words at `base` is set for a source. -/
def State.fcolBit (s : State) (base src : Nat) : Bool :=
  (s.reg (oFcol (base + 4 * (src / 32)))).getLsbD (src % 32)

/-- Setting a bit of an FCOL array. -/
def State.setFcolBit (s : State) (base src : Nat) (v : Bool) : State :=
  s.setRegF (oFcol (base + 4 * (src / 32))) (src % 32) 1 (if v then 1 else 0)

/-- ERR_N pulse of an event (R650). -/
def State.errPulse (s : State) (cls : Nat) : State :=
  if 1 ≤ cls ∨ s.regF (oFcol 8) 10 1 = 1 then
    { s with fcol := { s.fcol with pulse := true, pulseEnd := s.deckNow.toNat + s.regF (oFcol 8) 0 10 * 1000 } }
  else s

/-- Whether ERR_N is driven low (R650). -/
def State.errLow (s : State) : Bool := s.fcol.safe || s.fcol.pulse || (s.reg (oFcol 8)).getLsbD 31

/-- Records saved to NOR when a class F record is written: it and the 63 newest class U records (R644). -/
def savedFaults (ring : List FaultRec) : List FaultRec :=
  let u := ((ring.filter fun r => r.cls = 1).reverse.take 63).reverse
  match ring.getLast? with
  | some r => if r.cls = 2 then u ++ [r] else u
  | none => u

/-! Regions of the NOR (R699, R717). -/

/-- The newest valid copy of a region: the higher write count of those whose HMAC verifies. -/
def Nor.newest (n : Nor) (srk r : Nat) : Option NorCopy :=
  (n.copies.filter fun c => decide (c.region = r ∧ c.srk = srk) && c.whole).foldl
    (fun a c => match a with
      | none => some c
      | some b => if b.count < c.count then some c else some b) none

/-- A save of a region: the half that the newest valid copy does not use takes the content, with the next write count. -/
def Nor.save (n : Nor) (srk now r : Nat) : Nor :=
  let old := n.newest srk r
  let half := old.elim 0 fun c => 1 - c.half
  let c : NorCopy := ⟨r, half, old.elim 0 (·.count) + 1, true, srk, some now, n.toNorData⟩
  { n with copies := (n.copies.filter fun x => !decide (x.region = r ∧ x.half = half)) ++ [c] }

/-- Power-on time in the parts that `onPart` counts. -/
def Power.onTime (x : Power) : Nat := x.powerOn * 307200000 + x.onPart

/-- A save of a region by firmware. -/
def State.saveNor (s : State) (r : Nat) : State := { s with nor := s.nor.save s.otp.srkSel s.power.onTime r }

/-- The boot descriptor (R716), all zeros where it is erased. -/
def Nor.descriptor (n : Nor) : List Byte :=
  if n.imageOk then
    let b := leBytes 4 0x44425343 ++ leBytes 2 1 ++ leBytes 2 0 ++ leBytes 4 n.image.length ++ leBytes 4 n.imageWrites ++ leBytes 44 0
    b ++ leBytes 4 (crc32c b)
  else leBytes 64 0

/-- Whether a save begun at `at` is complete at `now`. -/
def saved (r now : Nat) (start : Option Nat) : Bool :=
  match start with
  | some t => decide (t + Config.norSave r ≤ now)
  | none => true

/-- A power loss: a copy whose save is in progress is not whole (R717); an image that is being programmed leaves the descriptor erased
(R726). -/
def Nor.cut (n : Nor) (now : Nat) : Nor :=
  { n with imageOk := n.imageOk && saved 6 now n.imageAt
           imageAt := none
           copies := n.copies.map fun (c : NorCopy) => { c with whole := c.whole && saved c.region now c.savedAt, savedAt := none } }

/-- A region's part of what is held, from `e`. -/
def NorData.take (d e : NorData) (r : Nat) : NorData :=
  match r with
  | 0 => { d with errHold := e.errHold, vendorMaint := e.vendorMaint, ownerTable := e.ownerTable, ownerRaw := e.ownerRaw
                  serial := e.serial, rollDue := e.rollDue, pending := e.pending }
  | 1 => { d with train := e.train }
  | 2 => { d with spRepair := e.spRepair, matRepair := e.matRepair, mapout := e.mapout, retired := e.retired, withheld := e.withheld }
  | 3 => { d with health := e.health, powerOn := e.powerOn }
  | 4 => { d with faults := e.faults, nextSeq := e.nextSeq }
  | _ => { d with keys := e.keys, camera := e.camera }

/-- What the device holds of its NOR regions once boot has read them: the newest valid copy, or nothing (R699, R717). -/
def Nor.load (n : Nor) (srk : Nat) : Nor :=
  { n with toNorData := (List.range 6).foldl (fun d r => d.take ((n.newest srk r).elim NorData.blank (·.data)) r) n.toNorData }

/-- Regions of which no copy's HMAC verifies. -/
def Nor.absent (n : Nor) (srk : Nat) : List Nat := (List.range 6).filter fun r => (n.newest srk r).isNone

/-- First 4 KiB sector of a region (R715). -/
def norSector (r : Nat) : Nat := [0x1900, 0x1A00, 0x1B00, 0x1B40, 0x1BC0, 0x1BD0].getD r 0

/-! Health history (R654 to R657). -/

/-- STATE of an element at a power-on time (R655): WATCH while one of its uncorrected faults lies in the last 604,800 seconds, then OK
again. DEDUCED (notes/assumptions/113). -/
def Health.standing (h : Health) (now : Nat) : Nat :=
  if h.st = 1 ∧ (h.ueTime.any fun t => decide (now ≤ t + 604800)) = false then 0 else h.st

/-- The newest activity of an element moves its entry to the front; of a full history the entry in state OK with the oldest goes
(R654). -/
def healthTouch (now : Nat) (l : List Health) (unit elem : Nat) (g : Health → Health) : List Health :=
  let same := fun (h : Health) => decide (h.unit = unit ∧ h.elem.toNat = elem % 2 ^ 32)
  match l.find? same with
  | some h => g h :: l.filter fun x => !same x
  | none =>
    let e := g ⟨unit, BitVec.ofNat 32 elem, 0, 0, 0, 0, 0, [], none⟩
    if l.length < 4096 then e :: l
    else match l.reverse.findIdx? (fun x => decide (x.standing now = 0)) with
      | some i => e :: (l.reverse.eraseIdx i).reverse
      | none => e :: l

/-- A free spare of a repair table of `n` entries given those taken. -/
def freeSpare (n : Nat) (taken : List Nat) : Option Nat := (List.range n).find? fun i => !taken.contains i

/-- Retirement of an element (R657): the repair tables in NOR and the entry's STATE and ACTION. -/
def State.retire (s : State) (unit elem : Nat) : State × Nat × Nat :=
  let f := unit / 16
  let retF := (({ s with nor := { s.nor with retired := s.nor.retired.set f true } }).saveNor 2, 2, 4)
  if unit < 64 ∧ 9 ≤ unit % 16 ∧ unit % 16 ≤ 12 then
    let b := bits elem 16 9
    let row := bits elem 0 11
    let taken := ((s.otp.spRepair ++ s.nor.spRepair).filter fun e => decide (e.1 = f ∧ e.2.1 = b)).map (·.2.2.1)
    match freeSpare 32 taken with
    | some i => (({ s with nor := { s.nor with spRepair := s.nor.spRepair ++ [(f, b, i, row)] } }).saveNor 2, 2, 1)
    | none => retF
  else if unit < 64 ∧ unit % 16 = 2 then
    if elem % 2 ^ 32 = unlocalized then
      ({ s with safety := { s.safety with locate := if s.safety.locate.contains f then s.safety.locate
                                                    else s.safety.locate ++ [f] } }, 1, 0)
    else if (s.nor.mapout.getD f none).isSome then retF
    else
      let spare := s.nor.health.any fun h => decide (h.unit = unit ∧ h.st = 4)
      if elem = 16 then (s, 4, 0)
      else if spare then retF
      else (({ s with nor := { s.nor with mapout := s.nor.mapout.set f (some elem) } }).saveNor 2, 2, 3)
  else if unit = 92 then
    let b := bits elem 16 6
    let row := bits elem 0 12
    let taken := ((s.otp.matRepair ++ s.nor.matRepair).filter fun e => decide (e.1 = b)).map (·.2.1)
    match freeSpare 16 taken with
    | some i => (({ s with nor := { s.nor with matRepair := s.nor.matRepair ++ [(b, i, row)] } }).saveNor 2, 2, 2)
    | none =>
      let g := (row / 4 * 16384 + b * 256) / 65536
      (({ s with nor := { s.nor with withheld := s.nor.withheld ++ [g] } }).saveNor 2, 2, 5)
  else (s, 3, 0)

/-- Standing of an element after an uncorrected fault (R655): retire on the third within 604,800 power-on seconds. -/
def ueRetires (t : List Nat) : Bool :=
  match t with
  | [a, _, c] => decide (a ≤ c + 604800)
  | _ => false

/-- Whether an element can still be retired (R181, R657): one that works, or a row whose spare has failed in its turn. -/
def Health.retirable (h : Health) : Bool := decide (h.st ≤ 1 ∨ h.st = 2 ∧ (h.action = 1 ∨ h.action = 2))

/-- One fault counted against an element (R654, R655). DEDUCED (notes/assumptions/92): a row remapped to a spare starts its three
faults anew. -/
def State.healthCount (s : State) (unit elem : Nat) (ce ue hard : Bool) : State :=
  let t := s.power.powerOn
  let l := healthTouch t s.nor.health unit elem fun h =>
    { h with ce := if ce then min 0xFFFFFFFF (h.ce + 1) else h.ce
             ue := if ue then min 0xFFFFFFFF (h.ue + 1) else h.ue
             hard := if hard then min 255 (h.hard + 1) else h.hard
             ueTime := if ue then (t :: h.ueTime).take 3 else h.ueTime
             st := if h.st = 0 && ue then 1 else h.st }
  let s1 := ({ s with nor := { s.nor with health := l } }).saveNor 3
  match l with
  | [] => s1
  | h :: _ =>
    if (hard || (ue && ueRetires h.ueTime)) && h.retirable then
      let r := s1.retire unit elem
      ({ r.1 with nor := { r.1.nor with
        health := healthTouch t r.1.nor.health unit elem fun h =>
          { h with st := r.2.1, action := r.2.2, ueTime := if r.2.2 = 1 ∨ r.2.2 = 2 then [] else h.ueTime,
                   retTime := if r.2.1 = 2 then some t else h.retTime } } }).saveNor 3
    else s1

/-- What an event counts for (R655, R656): nothing when forced or CAUSE 31; a Twin record counts on both Fronds. -/
def State.charge (s : State) (e : Ev) : State :=
  if e.forced ∨ e.escal ∨ e.cause = 31 then s
  else
    let unit := e.src / 8
    if e.cls = 0 then s.healthCount unit e.sub true false false
    else if e.cause = 13 then
      (s.healthCount (16 * bits e.synd 0 2 + 2) unlocalized false true false).healthCount
        (16 * bits e.synd 8 2 + 2) unlocalized false true false
    else if e.cause = 2 ∨ e.cause = 14 then
      s.healthCount (unit / 16 * 16 + 2) unlocalized false true (e.cause = 14)
    else s.healthCount unit e.sub false true (e.cause = 16)

/-! The safe state (R652). -/

/-- A Frond whose logic and memories are off or just back: everything at reset, A-state given (R665, R666). -/
def Frond.dark (x : Frond) (a : Fin 4) : Frond :=
  { Frond.reset with astate := a, op := x.op, stPos := x.stPos, holds := x.holds, card := x.card, cardUse := x.cardUse,
                     cardEnd := x.cardEnd, late := x.late, retired := x.retired }

/-- Entry to the safe state (R652): pins, CP_DEV_STATE, every unit stopped, Fronds power-gated. -/
def State.enterSafe (s : State) : State :=
  if s.fcol.safe then s
  else
    let s1 := { s with fcol := { s.fcol with safe := true, safeLow := true } }
    let s2 := s1.setDev .safe
    let s3 := { s2 with
      fronds := Vector.ofFn fun f => { (s2.fronds.get f).dark 3 with card := none, cardUse := .none }
      streams := s2.streams.map fun (e : Nat × Stream) => (e.1, { e.2 with frame := none, done := [] })
      time := { s2.time with launch := [], trig := s2.time.trig.map fun (t : Trig) => { t with active := false, pulseEnd := none } }
      links := Vector.ofFn fun l => { Link.reset with peer := (s2.links.get l).peer } }
    let s4 := (List.finRange 4).foldl (fun s f => s.zeroRange (spBase f) 0x2800000) s3
    ({ s4 with nor := { s4.nor with faults := savedFaults s4.fcol.ring, nextSeq := (s4.reg (oFcol 0x10)).toNat } }).saveNor 4

/-! One event. -/

/-- A new record into the ring of 1,024 (R641, R644). -/
def State.pushRec (s : State) (r : FaultRec) : State :=
  let full := decide (1024 ≤ s.fcol.ring.length)
  let s1 := if full then s.count (oFcol 0x14) 1 else s
  let s2 := s1.countWrap (oFcol 0x10)
  { s2 with fcol := { s2.fcol with ring := (if full then s2.fcol.ring.drop 1 else s2.fcol.ring) ++ [r]
                                   lastClass := r.cls, lastSrc := r.src } }

/-- The class F record of an escalation and the safe state it enters (R647). -/
def State.escalateF (s : State) (src : Nat) : State :=
  let e : Ev := { src := src, cause := 28, escal := true, fatal := true, stepNo := 6 }
  ((s.pushRec (e.record s (s.reg (oFcol 0x10)).toNat)).errPulse 2).enterSafe

/-- The escalation deadline of a class U record, or the escalation of a 65th pending one (R646, R647). -/
def State.deadline (s : State) (seq src : Nat) : State :=
  if 64 ≤ s.fcol.pending.length then s.escalateF src
  else { s with fcol := { s.fcol with pending := s.fcol.pending ++ [(seq, s.deckNow.toNat + s.regF (oFcol 4) 0 17 * 1000, src)] } }

/-- Ports and rings that take the FAULT notice of a record (R645). -/
def State.faultParts (s : State) (part : Nat) : List (Fin 4) :=
  (List.finRange 4).filter fun r =>
    decide (r.val = part) || decide (r ∈ s.mgmtParts)

/-- Posting the FAULT notice of a record to one partition (R645, R429). -/
def State.faultNotice (s : State) (r : FaultRec) (q : Fin 4) : State :=
  match s.noticeRing q with
  | none => s
  | some (p, d) => (s.ringPut p d 0x4000 0 St.fault.code q.val r.bytes).irq p irqFault

/-- Notice rings about to be used whose two pointer copies disagree (R470). -/
def State.badNoticeRings (s : State) (part : Nat) : List (Fin 4 × Nat) :=
  (s.faultParts part).filterMap fun q => match s.noticeRing q with
    | some (p, d) => (match s.ring p d with
      | some r => if r.agree then none else some (p, d)
      | none => none)
    | none => none

/-- The fault of a ring reset (R470, R761). -/
def ringEv (p : Fin 4) (d : Nat) (seqCause : Bool) (part : Nat) : Ev :=
  { src := srcOf (94 + p.val) (if seqCause then 3 else 2), cause := 22, sub := 0x11000 + 16 * d,
    synd := d + (if seqCause then 256 else 0), part := part }

/-- Posting the RING_RESET notice: on the partition's notice ring, or ring 1 of the port when that was the ring reset
(R470, R490). -/
def State.ringResetNotice (s : State) (p : Fin 4) (d disc : Nat) (seqCause : Bool) : State :=
  let pl := leBytes 1 d ++ leBytes 1 (if seqCause then 1 else 0) ++ leBytes 2 disc
  match s.ring p d with
  | none => s
  | some r =>
    let to1 := s.ringPut p 1 0x4005 0 0 r.part pl
    if h : r.part < 4 then
      match s.noticeRing ⟨r.part, h⟩ with
      | some (q, n) => if q = p ∧ n = d then to1 else s.ringPut q n 0x4005 0 0 r.part pl
      | none => to1
    else to1

/-- Recording one event (R637 to R650). `fuel` bounds the ring resets that posting its notices can uncover; each
repairs one of the at most eight notice rings. -/
def State.raiseN : Nat → State → Ev → State
  | 0, s, _ => s
  | fuel + 1, s, e =>
    if s.fcolBit 0x400 e.src && !e.escal then s
    else
      let held := !e.forced && !e.escal && s.fcolBit 0x200 e.src
      let s0 := { s with free := s.free + 1 }
      match bumpNewest (fun r => if held then r.forced && decide (r.src.toNat = e.src) else r.merges e) s.fcol.ring with
      | some l =>
        let s1 := ({ s0 with fcol := { s0.fcol with ring := l } }).errPulse e.cls
        (if e.cls = 2 then s1.enterSafe else s1).charge e
      | none =>
        let seq := (s.reg (oFcol 0x10)).toNat
        let r := e.record s seq
        let s1 := (s0.pushRec r).errPulse r.cls
        let s2 := if r.cls = 1 then
            (if s1.nor.errHold then s1.setRegF (oFcol 8) 31 1 1 else s1).deadline seq e.src
          else s1
        let s3 := if r.cls = 2 then s2.enterSafe else s2
        let s4 := s3.charge e
        if s4.fcol.safe then s4
        else
          let bad := s4.badNoticeRings r.part.toNat
          let discs := bad.map fun b => s4.ringDiscards b.1 b.2
          let s5 := bad.foldl (fun s b => s.ringClear b.1 b.2) s4
          let s6 := (s5.faultParts r.part.toNat).foldl (fun s q => s.faultNotice r q) s5
          (bad.zip discs).foldl (fun s b =>
            (s.raiseN fuel (ringEv b.1.1 b.1.2 false (((s.ring b.1.1 b.1.2).map (·.part)).getD 0xFF))).ringResetNotice
              b.1.1 b.1.2 b.2 false) s6

/-- Recording one event. -/
def State.raise (s : State) (e : Ev) : State := s.raiseN 9 e

/-- Resetting a ring (R470): the ring, its fault, its notice. -/
def State.ringReset (s : State) (p : Fin 4) (d : Nat) (seqCause : Bool) : State :=
  match s.ring p d with
  | none => s
  | some r =>
    let disc := s.ringDiscards p d
    ((s.ringClear p d).raise (ringEv p d seqCause r.part)).ringResetNotice p d disc seqCause

/-- The ring after its pointer copies have been compared at a use (R470). -/
def State.ringUse (s : State) (p : Fin 4) (d : Nat) : State :=
  match s.ring p d with
  | none => s
  | some r => if r.agree then s else s.ringReset p d false

/-- Posting a notice or completion to a ring after comparing its pointers. -/
def State.post (s : State) (p : Fin 4) (d : Nat) (opc tag : Nat) (st : St) (part : Nat) (pl : List Byte) : State :=
  if s.fcol.safe then s else (s.ringUse p d).ringPut p d opc tag st.code part pl

/-- Posting a partition's notice (R490). -/
def State.notice (s : State) (r : Fin 4) (opc : Nat) (st : St) (pl : List Byte) : State :=
  match s.noticeRing r with
  | none => s
  | some (p, d) => s.post p d opc 0 st r.val pl

/-- A partition's notice when there is a partition. -/
def State.noticeTo (s : State) (r : Option (Fin 4)) (opc : Nat) (st : St) (pl : List Byte) : State :=
  match r with
  | none => s
  | some q => s.notice q opc st pl

end Sys2Proof.Machine
end

