-- ==== Sys2Proof/Machine/JobOps.lean ====
section
/-! DEFINITION. Jobs and their ledgers (R599 to R603), checked reads of every memory (R168 to R173, R186, R529, R539),
KV pages at a job's end (R275 to R279, R285), the end of an instance (R482). -/

namespace Sys2Proof.Machine

/-- On whose behalf a unit acts: its job (0: none) with program, kernel, opcode and partition, and the requesting unit
of R761. -/
structure Who where
  job : Nat
  prog : Nat
  kernel : Nat
  opcode : Nat
  part : Nat
  req : Nat
  deriving DecidableEq, Repr

/-- A requester that belongs to no job (R761). -/
def Who.unit (u : Nat) : Who := ⟨0, 0xFFFFFFFF, 0xFFFF, 0xFF, 0xFF, u⟩

/-- Firmware as requester (R761). -/
def Who.firmware : Who := Who.unit 112

/-- The requester of a Frond's unit running an instruction of class `op`. -/
def State.frondWho (s : State) (f : Fin 4) (op : Nat) : Who :=
  match (s.frond f).kernel with
  | none => { Who.unit 112 with part := (s.ownerOf f).elim 0xFF (·.val) }
  | some k => ⟨k.job, k.prog, k.kernel, op, (s.ownerOf f).elim 0xFF (·.val), 0xFF⟩

/-- The event of a unit acting for `w`. -/
def Who.ev (w : Who) (src cause sub synd : Nat) : Ev :=
  { src := src, cause := cause, sub := sub, synd := synd, req := w.req, job := w.job, part := w.part, prog := w.prog,
    kernel := w.kernel, opcode := w.opcode }

/-- The job of an identifier. -/
def State.job (s : State) (j : Nat) : Option Job := tfind s.jobs j
/-- Storing a job. -/
def State.setJob (s : State) (j : Nat) (x : Job) : State := { s with jobs := tput s.jobs j x }
/-- Changing a job that exists. -/
def State.modJob (s : State) (j : Nat) (g : Job → Job) : State := { s with jobs := tmod s.jobs j g }

/-- Adding a ledger entry: 16 are held, further ones are counted (R599). -/
def Job.enter (x : Job) (e : LedgerEntry) : Job :=
  if x.ledger.length < 16 then { x with ledger := x.ledger ++ [e] } else { x with ledgerMore := x.ledgerMore + 1 }

/-- A check failure: the entry in the job's ledger, at a location of its own, and its class U fault (R600, R601); without a job,
the fault alone. -/
def State.checkFailAt (s : State) (w : Who) (unit kind cause loc sub synd : Nat) : State :=
  let s1 := if w.job = 0 then s else s.modJob w.job fun x => x.enter ⟨unit, cause, loc, w.kernel, s.now⟩
  s1.raise (w.ev (srcOf unit kind) cause sub synd)

/-- A check failure whose ledger location is the record's element. -/
def State.checkFail (s : State) (w : Who) (unit kind cause sub synd : Nat) : State :=
  s.checkFailAt w unit kind cause sub sub synd

/-! Checked reads. -/

/-- Channel of a usable DRAM address (R526). -/
def dramChannel (a : Nat) : Nat := let b := a / 256; (b ^^^ (b / 32) ^^^ (b / 1024)) % 32
/-- Chunk of a DRAM address on its channel (R526). -/
def dramChunk (a : Nat) : Nat := a / 256 / 32 / 59
/-- Slot of a DRAM address in its chunk (R526). -/
def dramSlot (a : Nat) : Nat := a / 256 / 32 % 59

/-- Unit of R635 that watches the memory holding an address, and the element. -/
def memElem (a : Nat) : Nat × Nat :=
  match region a with
  | .dram => (76 + dramChannel a / 2, dramChannel a % 2 * 2 ^ 31 + dramChunk a)
  | .mat x => (92, x / 256 % 64 * 65536 + (4 * (x / 16384) + x % 256 / 64))
  | .sp f x => (16 * f.val + 9 + x / 64 % 320 / 80, x / 64 % 320 * 65536 + x / 64 / 320)
  | .sram p x => (94 + p.val, x)
  | _ => (112, 0)

/-- Registers that count corrected errors, uncorrectable errors and BCW mismatches of the memory at an address, and the
one that locates the last error. -/
def memRegs (a : Nat) : Nat × Nat × Nat × Nat :=
  match region a with
  | .dram => let c := dramChannel a / 2; (oDrc c 4, oDrc c 8, oDrc c 0xC, oDrc c 0x18)
  | .mat _ => (0x04F00000, 0x04F00004, 0x04F00008, 0x04F0000C)
  | .sp f _ => (oFrd f 0x40010, oFrd f 0x40014, oFrd f 0x40018, oFrd f 0x40020)
  | .sram p _ => (oHpc p 0x2C, oHpc p 0x30, oHpc p 0x30, oHpc p 0x30)
  | _ => (0, 0, 0, 0)

/-- Location word of an error (R196, R198, R549); host-port SRAM has none. -/
def errInfo (bcw : Bool) (a : Nat) : Option Nat :=
  let t := if bcw then 2 ^ 31 else 0
  match region a with
  | .dram => if bcw then none else
      some (dramChannel a % 2 * 2 ^ 31 + a % 256 / 32 * 2 ^ 28 + dramSlot a * 2 ^ 22 + dramChunk a)
  | .mat x =>
    let row := 4 * (x / 16384) + x % 256 / 64
    some (t + x / 256 % 64 * 65536 + (if bcw then row / 4 * 4 else row) * 8 + (if bcw then 0 else x % 64 / 8))
  | .sp _ x =>
    let b := x / 64 % 320
    some (t + (if bcw then b / 4 * 4 else b) * 2 ^ 14 + x / 64 / 320 * 8 + (if bcw then 0 else x % 64 / 8))
  | _ => none

/-- Setting the location register of the memory at an address. -/
def State.setErrInfo (s : State) (bcw : Bool) (a : Nat) : State :=
  match errInfo bcw a with
  | none => s
  | some v => s.setReg (memRegs a).2.2.2 (BitVec.ofNat 32 v)

/-- Whether a partition in EXACT holds the DRAM write-backs until the next refresh window (R536). -/
def State.wbHeld (s : State) : Bool := s.exactClaimed

/-- Queueing the write-back of a corrected unit (R168, R186, R529, R536); full EXACT queues drop it. -/
def State.queueWb (s : State) (a : Nat) : State :=
  match region a with
  | .dram =>
    let c := dramChannel a / 2
    let q := tget (fun _ => []) s.dramWb c
    if q.contains (a / 32 * 32) then s
    else if s.wbHeld && decide (64 ≤ q.length) then s.count (oDrc c 0x10) 1
    else { s with dramWb := tset (fun _ => []) s.dramWb c (q ++ [a / 32 * 32]) }
  | .mat x => { s with matWb := if s.matWb.contains (x / 8 * 8) then s.matWb else s.matWb ++ [x / 8 * 8] }
  | .sp f x => s.modFrond f fun y => { y with wb := if y.wb.contains (x / 8 * 8) then y.wb else y.wb ++ [x / 8 * 8] }
  | _ => s

/-- A corrected error found by a read (R168, R529, R655): counted, a class C fault, the write-back queued; the same bit
again after its write-back also counts as an uncorrected fault. -/
def State.reportCe (s : State) (w : Who) (a bit : Nat) : State :=
  let (u, el) := memElem a
  let (syn, s0) := s.fresh
  let s1 := (s0.count (memRegs a).1 1).raise (w.ev (srcOf u 0) 5 el (syn.toNat % 65536))
  let s2 := if s.wbDone.contains (unitKey s a, bit) then s1.healthCount u el false true false else s1
  s2.queueWb a

/-- An uncorrectable error found by a read (R169, R529): counted, located, entered in the job's ledger, a class U fault. -/
def State.reportUe (s : State) (w : Who) (a : Nat) : State :=
  let (u, el) := memElem a
  let (syn, s0) := s.fresh
  ((s0.count (memRegs a).2.1 1).setErrInfo false a).checkFail w u 2 6 el (syn.toNat % 65536)

/-- What SEC-DED reports for a read of `n` bytes. -/
def State.reportMarks (s : State) (w : Who) (a n : Nat) : State :=
  (s.marksIn a n).foldl (fun s e => match e.2 with
    | .none => s
    | .ce b => s.reportCe w e.1 b
    | .ue => s.reportUe w e.1) s

/-- A BCW mismatch on the block at `a` (R170, R186, R539). -/
def State.reportBcw (s : State) (w : Who) (a : Nat) : State :=
  let b := a / 256 * 256
  let (u, el) := memElem b
  ((s.count (memRegs b).2.2.1 1).setErrInfo true b).checkFail w u 2 7 el
    ((s.bcwAt b ^^^ crcWord (s.block b)).toNat)

/-- What SEC-DED reports of the check-word entry of the block at `a` when it is read (R166, R168, R169). DESIGN CHOICE
(notes/assumptions/91): its errors count as those of the block's first row, and a corrected entry is written back at once. -/
def State.reportCheckWord (s : State) (w : Who) (a : Nat) : State :=
  let b := a / 256 * 256
  match s.checkMark b with
  | .none => s
  | .ce _ =>
    let s1 := s.setBcw b (s.bcwAt b)
    (s1.count (memRegs b).1 1).raise (w.ev (srcOf (memElem b).1 0) 5 (memElem b).2 0)
  | .ue => s.reportUe w b

/-- What reading the BCW of the block at `a` beside its content reports: the entry's SEC-DED and a mismatch that stands
(R166, R170). -/
def State.checkBlock (s : State) (w : Who) (a : Nat) : State :=
  if (s.reportCheckWord w a).blockOk a then s.reportCheckWord w a else (s.reportCheckWord w a).reportBcw w a

/-- What a read of `n` bytes reports: SEC-DED, and the BCW of every block read whole (R168 to R170). -/
def State.reportRead (s : State) (w : Who) (a n : Nat) : State :=
  let s1 := s.reportMarks w a n
  (blockPieces (n / 256 + 2) a (List.replicate n 0)).foldl
    (fun s e => if e.2.length = 256 then s.checkBlock w e.1 else s) s1

/-- A checked read: the bytes, and the state after what the read reports. -/
def State.readChecked (s : State) (w : Who) (a n : Nat) : List Byte × State := (s.rdN a n, s.reportRead w a n)

/-- What reading scratchpad rows reports: SEC-DED per row, and BCW for every block whose four rows are all read by the
one instruction (R168 to R170). -/
def State.reportRows (s : State) (w : Who) (f : Fin 4) (rows : List Nat) : State :=
  let s1 := rows.foldl (fun s r => s.reportMarks w (spBase f + 64 * r) 64) s
  let blocks := (rows.map (· / 4)).dedup
  blocks.foldl (fun s b => if (List.range 4).all (fun i => rows.contains (4 * b + i)) then
    s.checkBlock w (spBase f + 256 * b) else s) s1

/-- A merge with its reports (R172 to R174): the rest of the block is read and the old BCW checked first. -/
def State.mergeChecked (s : State) (w : Who) (a : Nat) (l : List Byte) : State :=
  let s1 := s.reportMarks w (a / 256 * 256) 256
  let s2 := match region a with
    | .dram => s1
    | _ => s1.checkBlock w a
  s2.mergeIn a l

/-- A write by a unit of any range (R171 to R174, R530, R531). -/
def State.storeChecked (s : State) (w : Who) (a : Nat) (l : List Byte) : State :=
  (blockPieces (l.length / 256 + 2) a l).foldl
    (fun s e => if e.2.length = 256 then s.putBlock e.1 e.2 (crcWord e.2) else s.mergeChecked w e.1 e.2) s

/-! KV pages. -/

/-- Count and taint of a page; a page not listed is free. -/
def Pool.page (p : Pool) (id : Nat) : Option Page := tfind p.pages id

/-- Whether a page can be taken by an admission (R276, R281). -/
def Pool.isFree (p : Pool) (id : Nat) : Bool := (p.page id).isNone && !p.reserved.contains id

/-- Pages of a list of spans. -/
def spanPages (l : List Span) : List Nat := l.flatMap fun sp => sp.flatMap fun e => [e.1, e.2]

/-- One more reference to each page of a list; `t` taints them. -/
def Pool.incr (p : Pool) (l : List Nat) (t : Bool) : Pool :=
  { p with pages := l.foldl (fun m id =>
      let old := (tfind m id).getD ⟨0, false⟩
      tput m id ⟨old.count + 1, old.taint || t⟩) p.pages }

/-- One reference less to each page of a list; a page with none stays listed as pending free until it is swept; its
taint goes with its last reference (R279). -/
def Pool.decr (p : Pool) (l : List Nat) : Pool :=
  { p with pages := l.foldl (fun m id => tmod m id fun x =>
      ⟨x.count - 1, x.taint && decide (1 < x.count)⟩) p.pages }

/-- Pages that pinned generations of admitted, unfinished jobs hold (R276). -/
def State.pinnedPages (s : State) (pool : Nat) : List Nat :=
  s.jobs.flatMap fun e => if e.2.pool = pool then e.2.steps.flatMap fun a => spanPages a.oldSpans else []

/-- Freeing pending-free pages that no pin holds (R276, R285). -/
def State.sweepPool (s : State) (pool : Nat) : State :=
  let pins := s.pinnedPages pool
  { s with pools := tmod s.pools pool fun p =>
      { p with pages := p.pages.filter fun e => decide (e.2.count ≠ 0) || pins.contains e.1 } }

/-- Whether an admitted, unfinished job pins a sequence. -/
def State.pinned (s : State) (q : Nat) : Bool := s.jobs.any fun e => e.2.steps.any fun a => decide (a.seq = q)

/-- Retiring a sequence (R278, R282): its pages become pending free, the identifier admits nothing more. -/
def State.retireSeq (s : State) (q : Nat) : State :=
  match tfind s.seqs q with
  | none => s
  | some x =>
    if x.retired then s
    else
      let s1 := { s with seqs := tput s.seqs q { x with retired := true, spans := [] }
                         pools := tmod s.pools x.pool fun p => p.decr (spanPages x.spans) }
      s1.sweepPool x.pool

/-- Giving a sequence new spans: references follow (R274, R275). `t` taints pages that were not in its table. -/
def State.reSpan (s : State) (q : Nat) (new : List Span) (len : Nat) (t : Bool) : State :=
  match tfind s.seqs q with
  | none => s
  | some x =>
    let old := spanPages x.spans
    let nw := spanPages new
    let add := nw.filter fun i => !old.contains i
    let del := old.filter fun i => !nw.contains i
    { s with seqs := tput s.seqs q { x with spans := new, len := len, gen := x.gen + 1 }
             pools := tmod s.pools x.pool fun p => (p.incr add t).decr del }

/-- Whether the appends of an admitted entry commit: the sequence's generation is still the pinned one (R277, R278). -/
def State.commits (s : State) (a : Admit) : Bool :=
  match tfind s.seqs a.seq with
  | none => false
  | some x => !x.retired && decide (x.gen = a.gen)

/-- Spans of a sequence that its last `na` positions up to `len` lie in (R271). -/
def tailSpans (base len na : Nat) (l : List Span) : List Span :=
  (l.take ((len - 1 - base) / 64 + 1)).drop ((len - na - base) / 64)

/-- Tainting the pages that an admitted entry appended to, those it already held among them (R279). -/
def State.taintAppends (s : State) (a : Admit) : State :=
  match tfind s.seqs a.seq with
  | none => s
  | some x => { s with pools := tmod s.pools x.pool fun p =>
      { p with pages := (spanPages (tailSpans x.basePos a.newLen a.na a.newSpans)).foldl
                          (fun m id => tmod m id fun y => { y with taint := true }) p.pages } }

/-- Committing one admitted sequence (R277, R279, R285). A sequence that appends nothing keeps its generation (R273). -/
def State.commitOne (s : State) (a : Admit) (unsealed : Bool) : State :=
  if 0 < a.na ∧ s.commits a then
    let s1 := s.reSpan a.seq a.newSpans a.newLen unsealed
    if unsealed then s1.taintAppends a else s1
  else s

/-- Step entries whose appends are discarded at the job's end (R482). -/
def State.discards (s : State) (x : Job) (cancelled : Bool) : Nat :=
  x.steps.foldl (fun m a => if 0 < a.na ∧ (cancelled ∨ s.commits a = false) then m ||| 2 ^ a.entry else m) 0

/-- Everything R285 does at a job's end, before its completion: commits (but for a cancelled job), LEAVE retirements,
pins and reservations released, pending-free pages freed. -/
def State.endCommit (s : State) (j : Nat) (x : Job) (unsealed cancelled : Bool) : State :=
  let s1 := if cancelled then s else x.steps.foldl (fun s a => s.commitOne a unsealed) s
  let s2 := x.steps.foldl (fun s a => if a.leave then s.retireSeq a.seq else s) s1
  let fresh := x.steps.flatMap (·.fresh)
  let s3 := { s2 with pools := tmod s2.pools x.pool fun p =>
      { p with reserved := p.reserved.filter fun i => !fresh.contains i } }
  (s3.modJob j fun y => { y with steps := [] }).sweepPool x.pool

/-! The end of an instance. -/

/-- INFLAGS of JOB_DONE (R482). -/
def Job.inflags (x : Job) (cancelled : Bool) : Nat :=
  (if x.nonfinite then 1 else 0) + (if x.degraded then 2 else 0) + (if cancelled then 4 else 0)
    + (if x.replayed then 8 else 0)

/-- Age of a result in nanoseconds (R382). -/
def State.ageNs (s : State) (x : Job) : Int := s.deckNow - ((x.sens : Int) - x.sensStep)

/-- JOB_DONE payload (R482). -/
def State.jobDonePayload (s : State) (j : Nat) (x : Job) (cancelled : Bool) (disc : Nat) : List Byte :=
  padTo 64 (leBytes 8 j ++ leBytes 4 x.inst ++ leBytes 4 (x.inflags cancelled) ++ timeBytes x.sens ++ leBytes 2 0
    ++ timeBytes s.now ++ leBytes 2 0 ++ leBytes 4 (s.ageNs x / 1000).toNat ++ leBytes 8 x.sidx ++ leBytes 4 0
    ++ leBytes 8 disc)

/-- Writing JOB_DONE to the job's ring (R482); discarded while the partition is orphaned (R494). -/
def State.jobDone (s : State) (j : Nat) (x : Job) (st : Nat) (cancelled : Bool) (disc : Nat) : State :=
  if s.fcol.safe ∨ (s.part x.part).st ≠ .claimed then s
  else
    let p := (s.part x.part).port
    (s.ringUse p x.ring).ringPut p x.ring 0x4008 0 st x.part.val (s.jobDonePayload j x cancelled disc)

/-- Slots a job's instance holds are given back (R325). -/
def State.freeSlots (s : State) (j : Nat) : State :=
  { s with streams := s.streams.map fun (e : Nat × Stream) =>
      (e.1, { e.2 with held := e.2.held.filter fun h => decide (h.1 ≠ j) }) }

/-- A fresh instance of a job of KIND STREAM (R324). -/
def Job.next (x : Job) (now : Nat) : Job :=
  { x with inst := x.inst + 1, st := .waiting, kernel := 0, readySince := now, started := [], ended := [], ranOn := [],
           ledger := [], ledgerMore := 0, nonfinite := false, degraded := false, replayed := false, tricks := [],
           voided := false, signals := [], digestA := [], digestB := [], sidx := 0 }

/-- Remote signals held for a job go with its instance. -/
def State.dropSignals (s : State) (j : Nat) : State :=
  { s with fronds := s.fronds.map fun x =>
      { x with remote := x.remote.filter fun r => decide (r.job ≠ j)
               inbound := x.inbound.filter fun r => decide (r.job ≠ j) } }

/-- The end of a job's instance (R285, R482): commits, JOB_DONE, slots freed, an unsealed one counted (R603, R633); a STREAM job waits for its next frame,
any other leaves the table. -/
def State.endInstance (s : State) (j : Nat) (st : Nat) (sealed cancelled : Bool) : State :=
  match s.job j with
  | none => s
  | some x =>
    let disc := s.discards x cancelled
    let s1 := s.endCommit j x (!sealed) cancelled
    let s1 := if sealed then s1 else s1.count (oSafe 0xC) 1
    let s2 := (((s1.jobDone j x st cancelled disc).freeSlots j).dropSignals j)
    if x.kind = 1 ∧ !cancelled ∧ x.golden = none then s2.setJob j ({ x with steps := [] }.next s.now)
    else { s2 with jobs := tdel s2.jobs j }

/-- Jobs of a partition that are unfinished. -/
def State.partJobs (s : State) (r : Fin 4) : List Nat :=
  (s.jobs.filter fun e => decide (e.2.part = r)).map (·.1)

end Sys2Proof.Machine
end

