-- ==== Sys2Proof/Machine/SecOps.lean ====
section
/-! DEFINITION. Signed objects and provisioning (R686 to R700): checking an object, applying a package, extending a
measurement bank. -/

namespace Sys2Proof.Machine

/-- A digest in output byte order (R691). -/
def digestBytes (d : BitVec 256) : List Byte := beBytes 32 d.toNat

/-- A big-endian field as a bit vector (R691). -/
def beField (w : Nat) (l : List Byte) (o n : Nat) : BitVec w := BitVec.ofNat w (fldBE l o n)

/-- DEVICE_ID: the first 16 bytes of SM3 of IDKEY_PUB (R690). -/
def State.deviceId (s : State) : List Byte := (digestBytes (Config.sm3 (beBytes 64 s.otp.idkeyPub.toNat))).take 16

/-- Extending bank `k` with the SM3 of an event (R700). -/
def State.extendMb (s : State) (k : Nat) (event : List Byte) : State :=
  let v := Config.sm3 (digestBytes (s.mbs.getD k 0) ++ digestBytes (Config.sm3 event))
  { s with mbs := s.mbs.set k v }

/-- Whether a public key is a usable vendor key (R692). -/
def State.vendorUsable (s : State) (pub : BitVec 512) : Bool :=
  (List.range 4).any fun k => !s.otp.vendorRevoke.getLsbD k && decide (s.otp.vendorPkh.getD k 0 ≠ 0) &&
    decide (Config.sm3 (beBytes 64 pub.toNat) = s.otp.vendorPkh.getD k 0)

/-- Slot of a vendor key. -/
def State.vendorSlot (s : State) (pub : BitVec 512) : Option Nat :=
  (List.range 4).find? fun k => decide (Config.sm3 (beBytes 64 pub.toNat) = s.otp.vendorPkh.getD k 0)

/-- Whether an owner is enrolled and in force (R692). -/
def State.ownerInForce (s : State) : Bool := decide (s.otp.ownerPkh ≠ 0) && !s.otp.ownerRevoked

/-- Whether a public key is the usable owner provisioning key (R692). -/
def State.ownerUsable (s : State) (pub : BitVec 512) : Bool :=
  s.ownerInForce && decide (Config.sm3 (beBytes 64 pub.toNat) = s.otp.ownerPkh)

/-! Objects (R693, R694). -/

/-- LEN of a staged header. -/
def objLen (o : List Byte) : Nat := fld o 8 4
/-- KIND: 0 firmware, 1 provisioning. -/
def objKind (o : List Byte) : Nat := fld o 6 1
/-- RELEASE or SERIAL. -/
def objRelease (o : List Byte) : Nat := fld o 12 4
/-- ROLLBACK. -/
def objRollback (o : List Byte) : Nat := fld o 16 1
/-- PUBKEY. -/
def objKey (o : List Byte) : BitVec 512 := beField 512 o 64 64
/-- Body between header and signature. -/
def objBody (o : List Byte) : List Byte := (o.drop 128).take (o.length - 192)

/-- Records of a provisioning body (R697); `none` where the structure fails. -/
def records : Nat → List Byte → Option (List (Nat × List Byte))
  | 0, l => if l.isEmpty then some [] else none
  | k + 1, l =>
    if l.isEmpty then some []
    else
      let n := fld l 4 4
      let m := 8 + 8 * cdiv n 8
      if l.length < m ∨ fld l 2 2 ≠ 0 ∨ ((l.drop (8 + n)).take (m - 8 - n)).any (· != 0) then none
      else (records k (l.drop m)).map fun r => (fld l 0 2, (l.drop 8).take n) :: r

/-- Records of an object's body. -/
def objRecords (o : List Byte) : Option (List (Nat × List Byte)) := records ((objBody o).length / 8 + 1) (objBody o)

/-- Whether a byte range is zero. -/
def zerosAt (l : List Byte) (o n : Nat) : Bool := (slice l o n).all (· == 0)

/-- One entry of the ownership table (R698). -/
def ownedOf (e : List Byte) : Owned :=
  { fronds := BitVec.ofNat 4 (fld e 0 1), claim := BitVec.ofNat 4 (fld e 1 1), mgmt := BitVec.ofNat 4 (fld e 2 1),
    policy := if fld e 3 1 = 0 then .continue else if fld e 3 1 = 1 then .stop else .reset,
    hb := fld e 4 2, trigs := BitVec.ofNat 8 (fld e 6 1), signing := bit1 (fld e 7 1) 0, cap := fld e 8 1,
    macs := BitVec.ofNat 8 (fld e 9 1), dram := fld e 12 4, dramMax := fld e 16 4, mat := fld e 20 2,
    matMax := fld e 22 2, time := fld e 24 4, timeMax := fld e 28 4 }

/-- Whether an entry is in range (R18, R698): it owns at least one Frond. -/
def ownedOk (e : List Byte) : Bool :=
  decide (1 ≤ fld e 0 1 ∧ fld e 0 1 < 16 ∧ fld e 1 1 < 16 ∧ fld e 2 1 < 16 ∧ fld e 3 1 ≤ 2 ∧ 8 ≤ fld e 4 2 ∧ fld e 4 2 ≤ 1000
    ∧ fld e 7 1 ≤ 1 ∧ fld e 8 1 ≤ 5 ∧ fld e 12 4 ≤ fld e 16 4 ∧ fld e 20 2 ≤ fld e 22 2 ∧ fld e 24 4 ≤ fld e 28 4)
    && zerosAt e 10 2 && zerosAt e 32 16

/-- Entries of an ownership table; `none` where R698 rejects it. -/
def ownership (d : List Byte) : Option (List Owned) :=
  let n := fld d 0 1
  let es := (List.range n).map fun i => slice d (16 + 48 * i) 48
  let masks := es.map fun e => fld e 0 1
  let apart := (List.range n).all fun i => (List.range n).all fun j =>
    decide (i = j) || decide (masks.getD i 0 &&& masks.getD j 0 = 0)
  if 1 ≤ n ∧ n ≤ 4 ∧ d.length = 16 + 48 * n ∧ fld d 1 1 < 4 ∧ zerosAt d 2 14 = true ∧ es.all ownedOk = true ∧ apart = true then
    some (es.map ownedOf)
  else none

/-- Records that only a package bound to the device may hold (R686, R697). -/
def recBound (r : Nat × List Byte) : Bool := decide (r.1 = 8 ∨ (r.1 = 1 ∧ 3 ≤ fld r.2 0 1))

/-- Whether the signer of a record may sign it (R686, R697). `own` is SIGNER 1; `pub` the key carried. -/
def State.recSigner (s : State) (own : Bool) (pub : BitVec 512) (r : Nat × List Byte) : Bool :=
  let lc := s.otp.lifecycle
  match r.1 with
  | 1 => let t := fld r.2 0 1
         !own || (decide (t = 2) && decide (lc = 1)) || (decide (t = 4) && decide (lc = 1 ∨ lc = 2))
  | 2 => !own
  | 3 => if own then decide (lc = 1 ∨ lc = 2) else decide (lc ≤ 1)
  | 4 => if s.otp.ownerPkh = 0 then !own else own
  | 5 => own
  | 6 => true
  | 7 => !own && decide (s.vendorSlot pub ≠ some (fld r.2 0 1))
  | _ => !own

/-- Whether a record may be applied: allowed in the lifecycle, its data in range, its OTP field not yet written (R686,
R695, R697). `enrol` says that the package also holds an OWNER_ENROL record. -/
def State.recAllowed (s : State) (enrol : Bool) (r : Nat × List Byte) : Bool :=
  let lc := s.otp.lifecycle
  match r.1 with
  | 1 =>
    let t := fld r.2 0 1
    decide (r.2.length = 1) &&
      (match t with
       | 1 => decide (lc = 0)
       | 2 => decide (lc ≤ 1) && (enrol || decide (s.otp.ownerPkh ≠ 0))
       | 3 => decide (lc = 1 ∨ lc = 2)
       | 4 => decide (lc ≠ 4)
       | _ => false)
  | 2 => decide (r.2.length = 64 ∧ lc ≤ 1 ∧ s.otp.ownerPkh = 0)
  | 3 => decide (r.2.length = 128 ∧ lc ≤ 2)
  | 4 => (ownership r.2).isSome && decide (lc ≤ 3)
  | 5 => decide (lc = 1 ∨ lc = 2)
  | 6 => decide (r.2.length = 4 ∧ lc ≤ 2) && (List.range 4).all fun p =>
      decide (fld r.2 p 1 ≤ 2) && (decide (fld r.2 p 1 = 0) || decide (s.otp.hpLock.getD p 0 = 0))
  | 7 =>
    let k := fld r.2 0 1
    decide (r.2.length = 1 ∧ k < 4 ∧ lc ≠ 4) && !s.otp.vendorRevoke.getLsbD k &&
      (List.range 4).any fun i => decide (i ≠ k ∧ s.otp.vendorPkh.getD i 0 ≠ 0) && !s.otp.vendorRevoke.getLsbD i
  | 8 => decide (r.2.length = 0 ∧ lc = 3)
  | _ => false

/-- The checks of R694, then those of R695 on a package's records. -/
def State.checkObject (s : State) (o : List Byte) (len : Nat) : St :=
  let kind := objKind o
  let rs := objRecords o
  let l := rs.getD []
  let own := fld o 7 1 = 1
  if fld o 0 4 ≠ 0x424F5343 ∨ fld o 4 2 ≠ 1 ∨ 1 < kind ∨ 1 < fld o 7 1 ∨ !zerosAt o 19 1 ∨ !zerosAt o 36 28
      ∨ objLen o ≠ len ∨ o.length ≠ len ∨ len < 192 ∨ 64 < objRollback o ∨ (kind = 1 ∧ rs.isNone) then .arg
  else if fld o 17 1 ≠ 0xB0 ∨ !bit1 (fld o 18 1) s.otp.lifecycle
      ∨ !(zerosAt o 20 16 || decide (slice o 20 16 = s.deviceId))
      ∨ (kind = 1 ∧ l.any recBound ∧ slice o 20 16 ≠ s.deviceId) then .state
  else if !(if own then decide (kind = 1) && s.ownerUsable (objKey o) else s.vendorUsable (objKey o))
      ∨ (kind = 1 ∧ !(l.all (s.recSigner own (objKey o)))) then .auth
  else if !Config.sm2Verify (objKey o) (Config.sm3 (o.take (len - 64))) (beField 512 o (len - 64) 64) then .auth
  else if objRollback o < s.otp.rollback ∨ (kind = 1 ∧ objRelease o ≤ s.nor.serial) then .auth
  else if kind = 1 ∧ !(decide ((l.map (·.1)).Nodup) && l.all (s.recAllowed (l.any fun r => decide (r.1 = 2)))) then .arg
  else .ok

/-- Applying a lifecycle target (R686, R688, R690): at RMA the owner is revoked and SRK1 generated, so every region in NOR
reads as absent, its HMAC being of SRK0; at END the keys are overwritten with ones. -/
def State.setLifecycle (s : State) (t : Nat) : State :=
  match t with
  | 3 =>
    { s with otp := { s.otp with lifecycle := 3, ownerRevoked := true, srk1 := Config.trng s.free, srkSel := 1 }
             nor := { s.nor with toNorData := NorData.blank, image := [], pack := [] }, free := s.free + 1 }
  | 4 => { s with otp := { s.otp with lifecycle := 4, idkeyPriv := -1, srk0 := -1, srk1 := -1 } }
  | _ => { s with otp := { s.otp with lifecycle := t } }

/-- Applying one record (R697). -/
def State.applyRec (s : State) (r : Nat × List Byte) : State :=
  match r.1 with
  | 1 => s.setLifecycle (fld r.2 0 1)
  | 2 => { s with otp := { s.otp with ownerPkh := Config.sm3 r.2 } }
  | 3 => ({ s with nor := { s.nor with keys := r.2 } }).saveNor 5
  | 4 => { s with nor := { s.nor with ownerTable := (ownership r.2).getD [], ownerRaw := r.2,
                                      errHold := bit1 (fld r.2 1 1) 0, vendorMaint := bit1 (fld r.2 1 1) 1 } }
  | 5 =>
    match Config.sm2Decrypt s.otp.idkeyPriv r.2 with
    | none => s
    | some k => ({ s with nor := { s.nor with camera := (List.range 16).map fun i => slice k (16 * i) 16 } }).saveNor 5
  | 6 =>
    let locks := (List.range 4).map fun p => if fld r.2 p 1 = 0 then s.otp.hpLock.getD p 0 else fld r.2 p 1
    { s with otp := { s.otp with hpLock := locks } }
  | 7 => { s with otp := { s.otp with vendorRevoke := s.otp.vendorRevoke ||| BitVec.ofNat 8 (2 ^ fld r.2 0 1) } }
  | 8 => (({ s with nor := { s.nor with spRepair := [], matRepair := [], mapout := [none, none, none, none],
                                        retired := [false, false, false, false], withheld := [],
                                        health := s.nor.health.map fun (h : Health) => { h with st := 0, action := 0, retTime := none } } }).saveNor 2).saveNor 3
  | _ => s

/-- Whether a pending object can be applied now: it is a package, it still passes its checks, and its camera keys decrypt. -/
def State.packageOk (s : State) (o : List Byte) : Bool :=
  decide (objKind o = 1 ∧ s.checkObject o o.length = .ok) && ((objRecords o).getD []).all fun r =>
    r.1 != 5 || (match Config.sm2Decrypt s.otp.idkeyPriv r.2 with
      | some k => decide (k.length = 256)
      | none => false)

/-- Applying a pending package at boot (R687, R695, R696, R700): all of its records or none, a lifecycle change last; its
SERIAL is recorded and MB1 extended; the rollback count follows at the entry to SERVICE. -/
def State.applyPending (s : State) : State :=
  let o := s.nor.pending
  if o.isEmpty then s
  else
    let s0 := ({ s with nor := { s.nor with pending := [] } }).saveNor 0
    if s.packageOk o then
      let rs := (objRecords o).getD []
      let s1 := (rs.filter fun r => decide (r.1 ≠ 1)).foldl State.applyRec s0
      let s2 := { s1 with nor := { s1.nor with serial := objRelease o, rollDue := max s1.nor.rollDue (objRollback o) } }
      (((rs.filter fun r => decide (r.1 = 1)).foldl State.applyRec s2).saveNor 0).extendMb 1 o
    else s0

/-- The bytes MB2 measures (R700). -/
def otpBytes (o : Otp) : List Byte :=
  leBytes 1 o.lifecycle ++ leBytes 1 o.rollback ++ [o.vendorRevoke] ++ digestBytes o.ownerPkh
    ++ leBytes 1 o.ownerRevoked.toNat ++ leBytes 1 o.srkSel

/-- Closing the debug level (R705); TEST keeps FULL. A unit that is halted stays so. -/
def State.closeDebug (s : State) : State :=
  { s with dbg := { s.dbg with level := if s.otp.lifecycle = 0 then 2 else 0, key := 0, pend := none } }

/-- Every halted unit runs again: its logic was reset. -/
def State.dropHalts (s : State) : State := { s with dbg := { s.dbg with halted := [], stepped := [], replay := [], held := none } }

end Sys2Proof.Machine
end

