-- ==== Sys2Proof/Machine/BootOps.lean ====
section
/-! DEFINITION. Zero-fill and restore of the memories (R189 to R190), the warm reset and the boot sequence (R719 to R732),
up to SERVICE, TEST or RECOVERY. -/

namespace Sys2Proof.Machine

/-! Memories. -/

/-- Zeroing the 64 bytes stored at key `k`. -/
def State.zeroKey (s : State) (k : Nat) : State :=
  { s with mem := (List.range 64).foldl (fun m i => tset memDefault m (k + i) 0) s.mem
           upsets := (List.range 8).foldl (fun m i => tset markDefault m (k + 8 * i) .none) s.upsets }

/-- Storage keys of the spares that the valid repair entries `lo .. lo+4n-1` of `l`, `k` to a bank with rows of `w` bits, map
to rows that satisfy `p` (R178). -/
def usedSpares (l : List (Nat × Word)) (lo n k w base : Nat) (p : Nat → Nat → Bool) : List Nat :=
  l.filterMap fun e =>
    if lo ≤ e.1 ∧ e.1 < lo + 4 * n ∧ e.2.getLsbD 31 = true then
      let i := (e.1 - lo) / 4
      let row := bits e.2.toNat 0 w
      if p i row ∧ spareFor l (lo + 4 * (i / k * k)) k w row = some (i % k) then some (base + 64 * i) else none
    else none

/-- Zeroing rows of Frond `f`'s scratchpad from byte `a` on, for `n` bytes, their spares included. -/
def State.zeroSpRange (s : State) (f : Fin 4) (a n : Nat) : State :=
  let keys := fun (l : List (Nat × Word)) => usedSpares l (oSpRepair f 0 0) 10240 32 11 (spSpareKey f 0 0)
    fun i row => let r := 64 * (row * 320 + i / 32); decide (a ≤ r ∧ r < a + n)
  (keys s.repairs ++ keys s.regs).foldl State.zeroKey (s.zeroRange (spBase f + a) n)

/-- Zeroing a whole scratchpad (R189). -/
def State.zeroSp (s : State) (f : Fin 4) : State := s.zeroSpRange f 0 0x2800000

/-- Byte offset of the resident area (R175). -/
def State.resByte (s : State) (f : Fin 4) : Nat := 64 * s.regF (oResbase f) 0 20

/-- Zeroing the working area (R189). -/
def State.zeroWork (s : State) (f : Fin 4) : State := s.zeroSpRange f 0 (min (s.resByte f) 0x2800000)

/-- Zeroing a range of the Mat and its spares (R189). -/
def State.zeroMat (s : State) (a n : Nat) : State :=
  let keys := usedSpares s.regs (oMatRepair 0 0) 1024 16 12 (matSpareKey 0 0)
    fun i row => let r := row / 4 * 16384 + i / 16 * 256 + row % 4 * 64; decide (a ≤ r ∧ r < a + n)
  keys.foldl State.zeroKey (s.zeroRange (matBase + a) n)

/-- Programs whose resident image stands in Frond `f`'s scratchpad (R175). -/
def State.residents (s : State) (f : Fin 4) : List Prog :=
  (s.progs.filter fun e => decide (s.ownerOf f = some e.2.part) && decide (0 < e.2.resLen)).map (·.2)

/-- Restoring a resident block from the program's copy in DRAM (R190); a block no program holds is left. -/
def State.restoreBlock (s : State) (f : Fin 4) (off : Nat) : State :=
  match (s.residents f).find? fun g => decide (64 * g.resRow ≤ off ∧ off < 64 * g.resRow + g.resLen) with
  | none => s
  | some g =>
    let o := off - 64 * g.resRow
    let d := padTo 256 (s.rdN (g.base + g.res + o) (min 256 (g.resLen - o)))
    s.putBlock (spBase f + off) d (crcWord d)

/-- Offsets of the resident blocks of a scratchpad. -/
def State.resBlocks (s : State) (f : Fin 4) : List Nat :=
  let r := s.resByte f
  (List.range ((0x2800000 - r) / 256)).map fun i => r + 256 * i

/-- Resident blocks whose BCW fails: each is counted without a ledger entry (R190). -/
def State.scanResident (s : State) (f : Fin 4) : State :=
  (s.resBlocks f).foldl (fun s o => if s.blockOk (spBase f + o) then s
    else ((s.count (oFrd f 0x40018) 1).setErrInfo true (spBase f + o)).raise (Who.firmware.ev (srcOf (memElem (spBase f + o)).1 2) 7
      (memElem (spBase f + o)).2 ((s.bcwAt (spBase f + o) ^^^ crcWord (s.block (spBase f + o))).toNat))) s

/-- Restoring every resident block that fails (R190). -/
def State.restoreFailing (s : State) (f : Fin 4) : State :=
  (s.resBlocks f).foldl (fun s o => if s.blockOk (spBase f + o) then s else s.restoreBlock f o) s

/-- Restoring the whole resident area after it was zeroed (R189, R666). -/
def State.restoreAll (s : State) (f : Fin 4) : State :=
  (s.residents f).foldl (fun s g => s.store (spBase f + 64 * g.resRow) (s.rdN (g.base + g.res) g.resLen)) s

/-- Entries of a bank's repair table at offsets `lo .. lo+4n-1` that name row `row`, but for entry `sp`, lose VALID: the spares
before a further one that has replaced them (R181). DEDUCED (notes/assumptions/92). -/
def State.dropSpares (s : State) (lo n w sp row : Nat) : State :=
  (List.range n).foldl (fun s i =>
    let o := lo + 4 * i
    if i ≠ sp ∧ (s.reg o).getLsbD 31 = true ∧ bits (s.reg o).toNat 0 w = row then s.setRegF o 31 1 0 else s) s

/-- Repair entry `sp` of the table at `lo` loaded with a row, the field bit given (R179, R181). -/
def State.loadRepair (s : State) (lo n w fld sp row : Nat) : State :=
  (s.dropSpares lo n w sp row).setReg (lo + 4 * sp) (BitVec.ofNat 32 (2 ^ 31 + fld * 2 ^ 30 + row))

/-- Factory and field repairs of a scratchpad loaded into FRD_SP_REPAIR, in force at once (R179). -/
def State.loadSpRepair (s : State) (f : Fin 4) : State :=
  let put := fun (fld : Nat) (s : State) (e : Nat × Nat × Nat × Nat) =>
    if e.1 = f.val then s.loadRepair (oSpRepair f e.2.1 0) 32 11 fld e.2.2.1 e.2.2.2 else s
  (s.nor.spRepair.foldl (put 1) (s.otp.spRepair.foldl (put 0) s)).applyRepairs f

/-- Factory and field repairs of the Mat loaded into DRC_MAT_REPAIR (R188). -/
def State.loadMatRepair (s : State) : State :=
  let put := fun (fld : Nat) (s : State) (e : Nat × Nat × Nat) => s.loadRepair (oMatRepair e.1 0) 16 12 fld e.2.1 e.2.2
  s.nor.matRepair.foldl (put 1) (s.otp.matRepair.foldl (put 0) s)

/-- FRD_MAPOUT written from the repair table and locked (R77). -/
def State.loadMapout (s : State) (f : Fin 4) : State :=
  s.setReg (oMapout f) (BitVec.ofNat 32 (2 ^ 31 + (match s.nor.mapout.getD f.val none with
    | some c => 256 + c
    | none => 0)))

/-- Frond registers back to reset; FRD_SP_REPAIR and FRD_SP_RESBASE too where `all` says so (R77, R194, R195). -/
def State.clearFrondRegs (s : State) (f : Fin 4) (all : Bool) : State :=
  s.clearRegs fun o => decide (oFrd f 0 ≤ o ∧ o < oFrd f 0x100000) &&
    (all || !(decide (o = oResbase f) || decide (oSpRepair f 0 0 ≤ o)))

/-- FCOL_BROKEN bits of sources `a .. b` cleared (R638). -/
def State.clearBroken (s : State) (a b : Nat) : State :=
  (List.range (b + 1 - a)).foldl (fun s i => s.setFcolBit 0x400 (a + i) false) s

/-! Boot. -/

/-- Registers that a warm reset keeps (R386, R661, R452, R713). -/
def warmKeeps (o : Nat) : Bool :=
  decide (0x06000000 ≤ o ∧ o < 0x07000000)
    || (decide (0x01000000 ≤ o ∧ o < 0x02000000) &&
        !(decide (0x01000200 ≤ o ∧ o < 0x01000280) || decide (0x01000400 ≤ o ∧ o < 0x01000480)))
    || decide (o = oHpc 0 0x18 ∨ o = oHpc 1 0x18 ∨ o = oHpc 2 0x18 ∨ o = oHpc 3 0x18)
    || decide (o = 0x00130004 ∨ o = 0x00130008)

/-- A port after its subsystem reset (R446, R452): SRAM, window pages, mask, doorbells, rings and session go. -/
def Port.clear (x : Port) : Port :=
  { x with fifo := [], sqDb := [], cqDb := [], rings := [], session := none, irqMask := 0x3F, aperSeq := [0, 0, 0, 0],
           apers := [] }

/-- Fields of the state that a reset of the device returns to their reset values. -/
def State.cleared (s : State) : State :=
  { s with latch := [], fronds := Vector.replicate 4 Frond.reset, parts := Vector.replicate 4 Part.reset,
           links := Vector.replicate 3 Link.reset, streams := [], dealer := Dealer.reset, allocs := [], pools := [],
           seqs := [], progs := [], jobs := [], groups := [], tricks := [], ages := [], safety := Safety.reset,
           dramWb := [], matWb := [], wbDone := [], hot := [], patrol := [], i2c := ⟨0⟩ }

/-- HB_TIMEOUT of each port: the smallest of the partitions whose claim mask names it (R698). -/
def State.loadHb (s : State) : State :=
  (List.finRange 4).foldl (fun s p =>
    match (s.nor.ownerTable.filter fun o => o.claim.getLsbD p.val).map (·.hb) with
    | [] => s
    | h :: t => s.setRegF (oHpc p 4) 0 16 (t.foldl min h)) s

/-- Partitions as the ownership table starts them: UNCLAIMED, with initial quotas (R491, R492). -/
def State.loadParts (s : State) : State :=
  { s with parts := Vector.ofFn fun r => match s.owned r with
      | none => Part.reset
      | some o => { Part.reset with dramQ := o.dram, matQ := o.mat, timeQ := o.time, timeNext := o.time } }

/-- Fronds as boot leaves them: running in A0 at OP 0, or off when retired (R658, R719). -/
def State.bootFronds (s : State) : State :=
  { s with fronds := Vector.ofFn fun f =>
      let r := s.nor.retired.getD f.val false
      { Frond.reset with zfill := false, retired := r, astate := if r then 3 else 0 } }

/-- PWR_FRD.CAP of every Frond from its partition's ceiling (R675, R684, R698). -/
def State.loadCaps (s : State) : State :=
  (List.finRange 4).foldl (fun s f =>
    let cap := ((s.ownerOf f).bind fun r => (s.owned r).map (·.cap)).getD 0
    s.setRegF (oPwr (0x10 + 4 * f.val)) 24 3 cap) s

/-- PLLs locked and memories filled at the end of a boot (R719). -/
def State.booted (s : State) : State :=
  { s with sys := { s.sys with zfillMat := false }, power := { s.power with locked := true } }

/-- Entry to SERVICE: the rollback count follows the image that proved itself and the packages applied (R696; DEDUCED,
notes/assumptions/114), the boot-failure count is cleared
(R722) and SAFE_N released (R651). -/
def State.inService (s : State) (img : List Byte) : State :=
  { s with otp := { s.otp with rollback := max (max s.otp.rollback s.nor.rollDue) (objRollback img) }
           sys := { s.sys with bootFail := 0 }
           fcol := { s.fcol with safeLow := false } }

/-- Measurements of the boot (R700). -/
def State.measureBoot (s : State) (img : List Byte) : State :=
  ((s.extendMb 0 img).extendMb 1 s.nor.ownerRaw).extendMb 2 (otpBytes s.otp)

/-- The image that runs. -/
def State.setImage (s : State) (img : List Byte) : State := { s with sys := { s.sys with image := img } }

/-- Repair registers and FRD_MAPOUT of every Frond in service (R179, R77). -/
def State.loadRepairs (s : State) : State :=
  (List.finRange 4).foldl (fun s f => if s.nor.retired.getD f.val false then s else (s.loadSpRepair f).loadMapout f)
    s.loadMatRepair

/-- Zeroing the Mat and every scratchpad at boot (R189). -/
def State.zeroAll (s : State) : State := (List.finRange 4).foldl State.zeroSp (s.zeroMat 0 0x1000000)

/-- After a full training the cache is rewritten within 1 s of entering SERVICE (R721), here at once. -/
def State.keepTraining (s : State) : State :=
  if s.sys.fullTrain then
    let t := if s.power.temps.isEmpty then s.sys.bootHot.toInt else (hottest s.power.temps).2
    ({ s with nor := { s.nor with train := some ⟨t, ~~~s.sys.dramBad⟩ }, sys := { s.sys with fullTrain := false } }).saveNor 1
  else s

/-- The CHECK rotation that boot runs on a Frond before SERVICE, which passes (R719: "no fault"): it counts as the rotations of SELFTEST
Cards do (R626, R631, R632). DEDUCED (notes/assumptions/116). -/
def State.bootCheck (s : State) (f : Fin 4) : State :=
  if (s.frond f).retired then s
  else
    let n := f.val
    let t := s.deckNow.toNat
    let s1 := s.count (oSafe 0x18) 1
    { s1 with safety := { s1.safety with
      rotBegan := s1.safety.rotBegan.set n (some t), lastRot := s1.safety.lastRot.set n (some t),
      rotations := s1.safety.rotations.modify n (· + 1),
      passAt := (List.range 20).foldl (fun l k => tput l (32 * n + k) t) s1.safety.passAt } }

/-- Firmware's part of the boot (R700, R719): measurements, repairs, partitions; SERVICE, or TEST in lifecycle TEST. -/
def State.bootFirmware (s : State) (img : List Byte) : State :=
  let s1 := ((s.setImage img).measureBoot img).loadRepairs.zeroAll.bootFronds.loadParts.loadHb.loadCaps.applyOps.booted
  if s1.otp.lifecycle = 0 then s1.setDev .test
  else
    let s2 := (List.finRange 4).foldl State.bootCheck (s1.inService img)
    (List.finRange 4).foldl State.armSession (s2.setDev .service).keepTraining

/-- Entry to RECOVERY (R723): Fronds in A3, SAFE_N low, rings 0 and 1 of every port armed. -/
def State.enterRecovery (s : State) : State :=
  let s1 := { s with
    fronds := Vector.ofFn fun f => { Frond.reset with astate := 3, retired := s.nor.retired.getD f.val false }
    fcol := { s.fcol with safeLow := true }
    power := { s.power with locked := true }
    sys := { s.sys with zfillMat := false, image := [], bootFail := 0 } }
  (List.finRange 4).foldl State.armSession (s1.setDev .recovery)

/-- Whether boot goes to RECOVERY without looking at the image (R722, R723). -/
def State.bootRecovery (s : State) : Bool := decide (3 ≤ s.sys.bootFail ∨ s.otp.lifecycle = 4)

/-- Programming an image into NOR (R716, R725): the descriptor is erased before and written after. -/
def State.programImage (s : State) (obj : List Byte) : State :=
  { s with nor := { s.nor with image := obj, imageOk := true, imageWrites := s.nor.imageWrites + 1, imageAt := some s.power.onTime } }

/-- The boot sequence (R719, R723, R725) over a device already cleared. -/
def State.boot (s : State) : State :=
  let obj := s.sys.stage
  let commit := s.sys.commit
  let fw := commit && decide (objKind obj = 0)
  let s1 := if commit && decide (objKind obj = 1) then ({ s with nor := { s.nor with pending := obj } }).saveNor 0 else s
  let s2 := if fw && decide (s.sys.bootSrc = 0) then s1.programImage obj else s1
  let s3 := { s2.applyPending with sys := { s2.sys with commit := false, stage := [], stageOk := false } }
  let s4 := s3.closeDebug.dropHalts
  if s4.bootRecovery then s4.enterRecovery
  else if fw && decide (s.sys.bootSrc = 2) then s4.bootFirmware obj
  else if s4.sys.bootSrc ≠ 0 ∨ s4.nor.imageOk = false then s4.enterRecovery
  else if s4.checkObject s4.nor.image s4.nor.image.length ≠ .ok ∨ objKind s4.nor.image ≠ 0 then s4.enterRecovery
  else s4.bootFirmware s4.nor.image

/-- Everything a warm reset returns to its reset value (R446, R705, R727, R732, R386, R661). -/
def State.warmClear (s : State) : State :=
  let s1 := s.cleared.clearRegs fun o => !warmKeeps o
  { s1 with
    mem := [], upsets := [], bcw := [], repairs := [], matHeld := [], matWait := [], dramWait := []
    ports := Vector.ofFn fun p => (s.port p).clear
    time := { s.time with launch := [], fwd := [] }
    mbs := (List.range 8).map fun k => if k = 7 then s.mbs.getD 7 0 else 0
    power := { Power.reset with powerOn := s.power.powerOn, onPart := s.power.onPart, restoreUs := s.power.restoreUs, temps := s.power.temps, pkgMw := s.power.pkgMw }
    dbg := { s.dbg with chal := none }
    tap := { s.tap with accData := 0, accStatus := 0 }
    sys := { s.sys with zfillMat := true, packRead := false } }

/-- Boot reads the NOR regions (R699, R717, R719): one of which no copy's HMAC verifies is absent and a class U fault on unit 116, its
kind open (DESIGN CHOICE, notes/assumptions/109). -/
def State.readNor (s : State) : State :=
  (s.nor.absent s.otp.srkSel).foldl (fun s r => s.raise { src := srcOf 116 1, cause := 30, sub := norSector r })
    { s with nor := s.nor.load s.otp.srkSel }

/-- A warm reset, through boot (R728, R729). -/
def State.warm (s : State) : State := (s.setDev .startup).warmClear.readNor.boot

end Sys2Proof.Machine
end

