-- ==== Sys2Proof/Machine/LinkOps.lean ====
section
/-! DEFINITION. Hezor flits and packets (R553 to R565), collective groups and their exchange areas (R566 to R580): what every
command of chapter 16 shares. -/

namespace Sys2Proof.Machine

/-! Flits. -/

/-- One bit step of the flit CRC (R553). -/
def crc16Bit (c : Nat) : Nat := if c.testBit 15 then (2 * c % 65536) ^^^ 0x8BB7 else 2 * c

/-- CRC-16 of a flit's first 254 bytes: polynomial 0x8BB7, initial value 0, most significant bit first (R553). -/
def crc16 (l : List Byte) : Nat :=
  l.foldl (fun c b => (List.range 8).foldl (fun c _ => crc16Bit c) (c ^^^ (b.toNat * 256))) 0

/-- A flit (R553). -/
def flit (ft vl seq ack cvl ccnt : Nat) (pl : List Byte) : List Byte :=
  let b := padTo 254 (leBytes 1 ft ++ leBytes 1 vl ++ leBytes 2 seq ++ leBytes 2 ack ++ leBytes 1 cvl ++ leBytes 1 ccnt ++ pl)
  b ++ leBytes 2 (crc16 b)

/-! Lanes. -/

/-- Active lanes in lane order. -/
def laneList (m : BitVec 8) : List Nat := (List.range 8).filter fun i => m.getLsbD i

/-- The bytes of lane `k` of a flit whose first byte is byte `pos` of the stream (R552): byte `i` of the stream goes on the
(i mod n)-th active lane. -/
def stripeLane (lanes : List Nat) (pos : Nat) (b : List Byte) (k : Nat) : List Byte :=
  (b.zipIdx.filter fun e => decide (lanes[(pos + e.2) % lanes.length]? = some k)).map (·.1)

/-- A flit striped over its link's lanes, all eight listed (R552). -/
def stripe (m : BitVec 8) (pos : Nat) (b : List Byte) : List (List Byte) := (List.range 8).map (stripeLane (laneList m) pos b)

/-- The `n` bytes that lanes bring, in stream order (R552). -/
def unstripe (m : BitVec 8) (pos n : Nat) (on : List (List Byte)) : List Byte :=
  let ls := laneList m
  (List.range n).map fun i => (on.getD (ls.getD ((pos + i) % ls.length) 0) []).getD (i / ls.length) 0

/-- A flit on the wire: its bytes on the lanes, and the stream that much longer (R552). -/
def Link.onWire (x : Link) (b : List Byte) : Link :=
  { x with lastTx := b, txLanes := stripe x.lanes x.txPos b, txPos := x.txPos + b.length }

/-- Whether `a` is at or before `b` among 12-bit sequence numbers. -/
def seqLe (a b : Nat) : Bool := decide ((b + 4096 - a) % 4096 < 2048)

/-- SEQ of the last flit received in order: the ACK a flit carries. -/
def Link.ack (x : Link) : Nat := (x.rxSeq + 4095) % 4096

/-- Credits to return: lane and count of the first lane that owes some (R553, R557). -/
def Link.owes (x : Link) : Nat × Nat :=
  match (x.owed.zipIdx.find? fun e => decide (0 < e.1)) with
  | some (n, v) => (v, min n 255)
  | none => (0, 0)

/-- The link after a flit that returned credits. -/
def Link.repaid (x : Link) : Link :=
  let (v, n) := x.owes
  { x with owed := x.owed.modify v fun m => m - n }

/-- Acknowledged flits leave the replay buffer, and their tags go. -/
def Link.acked (x : Link) (ack : Nat) : Link :=
  let r := x.replay.filter fun e => !seqLe e.seq ack
  { x with replay := r, resend := min x.resend r.length, tags := x.tags.filter fun e => !seqLe e.2 ack }

/-- Tag of a Frond's queue. -/
def queueTag (f : Fin 4) (q : Nat) : Nat := 1 + 64 * f.val + q

/-- Flits of a queue waiting or in flight on any link (R513). -/
def State.flitsOut (s : State) (f : Fin 4) (q : Nat) : Bool :=
  (List.finRange 3).any fun l => ((s.link l).tags.any fun e => decide (e.1 = queueTag f q)) ||
    (s.link l).outq.any fun e => decide (e.tag = queueTag f q)

/-- Payload of the next flit of lane `v`: bytes of its packets in order, at most 246, with the tags they carry and what
stays queued (R556). A PAD packet, zeros, fills the rest (R565). -/
def takePayload (v : Nat) : Nat → List OutPkt → List Byte × List Nat × List OutPkt
  | _, [] => ([], [], [])
  | room, p :: t =>
    if p.vl ≠ v ∨ room = 0 then
      let r := takePayload v room t
      (r.1, r.2.1, p :: r.2.2)
    else if p.bytes.length ≤ room then
      let r := takePayload v (room - p.bytes.length) t
      (p.bytes ++ r.1, p.tag :: r.2.1, r.2.2)
    else
      (p.bytes.take room, [p.tag], { p with bytes := p.bytes.drop room } :: t)

/-! Packets. -/

/-- Link that is wired to a module (R21): Hk of module m reaches m + k + 1 mod 4. -/
def State.linkTo (s : State) (m : Nat) : Option (Fin 3) :=
  let k := (m + 7 - s.sys.modId.toNat) % 4
  if h : k < 3 then some ⟨k, h⟩ else none

/-- Queueing a packet for a module; nothing travels on a link that is not ACTIVE. A COMMIT or a group packet,
those of lanes 0 and 1 (R555), passes through the release buffer (R608). -/
def State.sendTo (s : State) (m vl tag : Nat) (b : List Byte) : State :=
  match s.linkTo m with
  | none => s
  | some l =>
    if (s.link l).st ≠ .active then s
    else
      let s1 := if vl ≤ 1 then s.held (.packet l ⟨vl, tag, b⟩) else s
      s1.modLink l fun x => { x with outq := x.outq ++ [⟨vl, tag, b⟩] }

/-- DATA packet (R565). -/
def dataPkt (entry blk key inst src : Nat) (data : List Byte) (bcw : Word) : List Byte :=
  leBytes 1 1 ++ leBytes 1 entry ++ leBytes 2 blk ++ leBytes 4 key ++ leBytes 4 inst ++ leBytes 1 src ++ leBytes 3 0
    ++ padTo 256 data ++ leBytes 4 bcw.toNat

/-- CLOSE packet (R565). -/
def closePkt (entry nblk key inst src etype : Nat) (tally : DWord) : List Byte :=
  padTo 32 (leBytes 1 2 ++ leBytes 1 entry ++ leBytes 2 nblk ++ leBytes 4 key ++ leBytes 4 inst ++ leBytes 1 src
    ++ leBytes 1 etype ++ leBytes 2 0 ++ leBytes 8 tally.toNat)

/-- COMMIT packet (R565). -/
def commitPkt (entry key inst src : Nat) (void : Bool) : List Byte :=
  padTo 16 (leBytes 1 3 ++ leBytes 1 entry ++ leBytes 1 void.toNat ++ leBytes 1 src ++ leBytes 4 key ++ leBytes 4 inst)

/-- DET_MODE code (R585). -/
def DetMode.code : DetMode → Nat
  | .relaxed => 0 | .strict => 1 | .exact => 2

/-- GCTL packet (R565). -/
def gctlPkt (op src key mode kind mask : Nat) (crc : Word) : List Byte :=
  padTo 32 (leBytes 1 4 ++ leBytes 1 op ++ leBytes 1 0 ++ leBytes 1 src ++ leBytes 4 key ++ leBytes 1 mode
    ++ leBytes 1 kind ++ leBytes 1 mask ++ leBytes 5 0 ++ leBytes 4 crc.toNat)

/-- Bytes of a packet by type (R565); 0 for a type the table does not give. -/
def pktLen (pt : Nat) : Nat :=
  match pt with
  | 1 => 276 | 2 => 32 | 3 => 16 | 4 => 32 | 5 => 16 | _ => 0

/-- The received bytes of a lane with PAD packets at their head stripped: PAD, or a type R565 does not give, takes the rest
of its flit, and the bytes held always end at a flit's end. -/
def stripPad : Nat → List Byte → List Byte
  | 0, l => l
  | k + 1, l =>
    if l.isEmpty ∨ pktLen (fld l 0 1) ≠ 0 then l
    else stripPad k (l.drop (if l.length % 246 = 0 then 246 else l.length % 246))

/-- The first complete packet of lane `v`, and what follows it. -/
def Link.headPkt (x : Link) (v : Nat) : Option (List Byte × List Byte) :=
  let r := (tfind x.rx v).getD []
  let l := stripPad (r.length / 246 + 1) r
  let n := pktLen (fld l 0 1)
  if l.isEmpty ∨ l.length < n then none else some (l.take n, l.drop n)

/-- The first of a link's lanes whose first packet has type `pt`. -/
def Link.nextPkt (x : Link) (pt : Nat) : Option (Nat × List Byte × List Byte) :=
  (List.range 4).findSome? fun v => match x.headPkt v with
    | some (p, rest) => if fld p 0 1 = pt then some (v, p, rest) else none
    | none => none

/-- A packet taken from a lane. -/
def State.tookPkt (s : State) (l : Fin 3) (v : Nat) (rest : List Byte) : State :=
  s.modLink l fun x => { x with rx := tput x.rx v rest }

/-! Groups and exchange areas. -/

/-- A Trick entry (R567). -/
structure TEntry where
  off : Nat
  slice : Nat
  etype : Nat
  chk : Bool
  arrival : Bool
  senders : BitVec 4
  dfrond : BitVec 4
  dtok : Nat
  tfrond : Nat
  deriving DecidableEq, Repr

/-- Reading a Trick entry (R567). -/
def tentryOf (b : List Byte) : TEntry :=
  { off := fld b 0 4, slice := fld b 4 4, etype := fld b 8 1, chk := decide (fld b 9 1 = 1), arrival := bit1 (fld b 10 1) 0,
    senders := BitVec.ofNat 4 (fld b 11 1), dfrond := BitVec.ofNat 4 (fld b 12 1), dtok := fld b 13 1,
    tfrond := fld b 14 1 }

/-- Base of a group's exchange area. -/
def State.areaOf (s : State) (g : Group) : Nat := (tfind s.allocs g.handle).elim 0 (·.base)

/-- Number of Trick entries of a group. -/
def State.ntrick (s : State) (g : Group) : Nat := (s.rd (s.areaOf g + 6)).toNat

/-- Trick entry `e` of a group. -/
def State.tentry (s : State) (g : Group) (e : Nat) : TEntry := tentryOf (s.rdN (s.areaOf g + 64 + 32 * e) 32)

/-- The group of a key. -/
def State.groupOf (s : State) (key : Word) : Option Group := s.groups.find? fun g => decide (g.key = key)

/-- Address of a module's slot of an entry (R567). -/
def State.slotBase (s : State) (g : Group) (t : TEntry) (m : Nat) : Nat := s.areaOf g + t.off + m * t.slice

/-- Members of a mask. -/
def maskList (m : BitVec 4) : List Nat := (List.range 4).filter fun i => m.getLsbD i

/-- Other members of a group. -/
def State.peers (s : State) (g : Group) : List Nat := (maskList g.mask).filter fun m => m != s.sys.modId.toNat

/-- Virtual lane of a group's DATA and CLOSE packets (R555). -/
def Group.lane (g : Group) : Nat := if g.replica then 3 else 2

/-- Queueing a packet for every other member of a group. -/
def State.sendPeers (s : State) (g : Group) (vl tag : Nat) (b : List Byte) : State :=
  (s.peers g).foldl (fun s m => s.sendTo m vl tag b) s

/-- The open or resolved instance of a Trick entry. -/
def State.trick (s : State) (key : Word) (e inst : Nat) : Option Trick :=
  s.tricks.find? fun t => decide (t.key = key ∧ t.entry = e ∧ t.inst = inst)

/-- Changing an instance. -/
def State.modTrick (s : State) (key : Word) (e inst : Nat) (g : Trick → Trick) : State :=
  { s with tricks := s.tricks.map fun (t : Trick) => if t.key = key ∧ t.entry = e ∧ t.inst = inst then g t else t }

/-- An empty slot. -/
def SlotSt.empty (m : Nat) : SlotSt := ⟨m, [], false, none, false, none, false⟩

/-- The instance opened by its first local event (R576). -/
def State.openTrick (s : State) (g : Group) (e inst : Nat) : State :=
  match s.trick g.key e inst with
  | some _ => s
  | none => { s with tricks := s.tricks ++
      [⟨g.key, e, inst, none, (maskList (s.tentry g e).senders).map SlotSt.empty, none⟩] }

/-- Changing a sender's slot. -/
def Trick.modSlot (t : Trick) (m : Nat) (g : SlotSt → SlotSt) : Trick :=
  { t with slots := t.slots.map fun (q : SlotSt) => if q.src = m then g q else q }

/-- A sender's slot. -/
def Trick.slot (t : Trick) (m : Nat) : Option SlotSt := t.slots.find? fun q => decide (q.src = m)

/-- Whether a program declares collectives (R489). -/
def State.collective (s : State) (x : Job) : Bool :=
  match tfind s.progs x.prog with
  | none => false
  | some g => bit1 g.needs 3

/-- Fronds that a job's kernels name. -/
def State.jobFronds (s : State) (x : Job) : BitVec 4 :=
  match tfind s.progs x.prog with
  | none => 0
  | some g => g.kernels.foldl (fun m k => m ||| k.fronds) 0

/-- The receiving job of an instance (R577): the one that wrote the own slot, or the oldest unfinished job of the partition
whose program declares collectives and has a kernel on a Frond of DFROND. -/
def State.receiver (s : State) (g : Group) (t : Trick) : Option Nat :=
  match t.job with
  | some j => some j
  | none => (s.jobs.find? fun e => decide (e.2.part = g.part) && e.2.golden.isNone && s.collective e.2 &&
      decide (s.jobFronds e.2 &&& (s.tentry g t.entry).dfrond ≠ 0)).map (·.1)

/-- Elements of one INT32 or BYTE block summed for a Tally (R572). -/
def tallyBlock (etype : Nat) (b : List Byte) : Int :=
  if etype = 0 then ((List.range 64).map fun i => sext 32 (fld b (4 * i) 4)).foldl (· + ·) 0
  else b.foldl (fun a x => a + (x.toNat : Int)) 0

/-- The sum S over a slot's blocks that pass their BCW check (R572). EAF elements may cross blocks; an EAF element counts when
every block it lies in passes. -/
def State.tallyOf (s : State) (t : TEntry) (base : Nat) : DWord :=
  let ok := fun (a n : Nat) => s.blockOk a && s.blockOk (a + n - 1)
  if t.etype = 1 then
    BitVec.ofInt 64 (((List.range (t.slice / 1024)).flatMap fun b => (List.range 64).map fun i =>
      let a := base + 1024 * b + 12 * i
      if ok a 12 then sext 96 (s.rdLe a 12) else 0).foldl (· + ·) 0)
  else
    BitVec.ofInt 64 (((List.range (t.slice / 256)).map fun b =>
      let a := base + 256 * b
      if s.blockOk a then tallyBlock t.etype (s.rdN a 256) else 0).foldl (· + ·) 0)

/-- Whether an earlier instance of an entry is unresolved (R580). -/
def State.earlierOpen (s : State) (key : Word) (e inst : Nat) : Bool :=
  s.tricks.any fun t => decide (t.key = key ∧ t.entry = e ∧ t.inst < inst) && t.done.isNone

/-- Sending one block of the own slot to every other member (R571). -/
def State.sendBlock (s : State) (g : Group) (e inst blk tag : Nat) : State :=
  let own := s.sys.modId.toNat
  let a := s.slotBase g (s.tentry g e) own + 256 * blk
  s.sendPeers g g.lane tag (dataPkt e blk g.key.toNat inst own (s.block a) (s.bcwAt a))

/-- Sending CLOSE for the own slot (R574). -/
def State.sendClose (s : State) (g : Group) (e inst : Nat) (tally : DWord) : State :=
  let t := s.tentry g e
  s.sendPeers g g.lane 0 (closePkt e (t.slice / 256) g.key.toNat inst s.sys.modId.toNat t.etype tally)

/-- Blocks of the next instance that waited for this one go out (R580). -/
def State.forwardNext (s : State) (key : Word) (e inst : Nat) : State :=
  match s.groupOf key, s.trick key e (inst + 1) with
  | some g, some t =>
    match t.slot s.sys.modId.toNat with
    | none => s
    | some q =>
      let s1 := q.blocks.foldl (fun s b => s.sendBlock g e (inst + 1) b 0) s
      (match q.closed with
      | some c => s1.sendClose g e (inst + 1) c.2
      | none => s1)
  | _, _ => s

/-- The verdict of the own contribution to every other member, taken as received locally (R574). -/
def State.sendVerdict (s : State) (g : Group) (t : Trick) (void : Bool) : State :=
  let own := s.sys.modId.toNat
  (s.sendPeers g 1 0 (commitPkt t.entry g.key.toNat t.inst own void)).modTrick t.key t.entry t.inst
    fun u => u.modSlot own fun q => { q with commit := some (!void) }

/-- A job that ends or is cancelled before its contributions close sends VOID (R574), and the instances are voided here too
(R576); the job's own end needs no further step. -/
def State.voidOpenOf (s : State) (j : Nat) : State :=
  let own := s.sys.modId.toNat
  (s.tricks.filter fun t => decide (t.job = some j) && t.done.isNone && (match t.slot own with
    | some q => q.closed.isNone && q.commit.isNone
    | none => false)).foldl (fun s t => match s.groupOf t.key with
      | some g =>
        let s1 := (s.sendVerdict g t true).modTrick t.key t.entry t.inst fun u => { u with done := some false }
        (s1.count (oHzl 0x4004) 1).forwardNext t.key t.entry t.inst
      | none => s) s

end Sys2Proof.Machine
end

