-- ==== Sys2Proof/Machine/DrainMath.lean ====
section
/-! DEFINITION. The drain's arithmetic (R104 to R110, R205, R212 to R215), pure. -/

namespace Sys2Proof.Machine

/-- Exact BIAS of a record: INT32 in integer modes, FP32 otherwise, non-finite as 0 with the indication (R105, R106). -/
def biasVal (fp : Bool) (b : Nat) : Exact × Bool :=
  if fp then fp32Val b else (exactInt (sext 32 b), false)

/-- `z = (V + BIAS) * MULT * 2^-SHIFT`, exact (R106); the flag is NONFINITE. DESIGN CHOICE (notes/assumptions/85): a z that is
exactly zero carries the sign of the product, so a float output of it can be -0. -/
def requant (fp : Bool) (r : Requant) (v : Exact) : Exact × Bool :=
  let (b, nf) := biasVal fp r.bias
  (((v.add b).mul (exactInt r.mult)).scale (-(r.shift : Int)), nf)

/-- A value of the Activation stage: exact, or the infinity a limit of CLAMP stands for, `true` negative (R108). -/
abbrev Ext := Sum Bool Exact

/-- An FP32 limit of CLAMP (R108). -/
def limitOf (c : Nat) : Ext :=
  match decodeFloat .fp32 c with
  | some x => .inr x
  | none => .inl (c.testBit 31)

/-- Order of values with the infinities as themselves, `-0` and `+0` equal (R108). -/
def extLe : Ext → Ext → Bool
  | .inl true, _ => true
  | _, .inl false => true
  | .inr x, .inr y => x.le y
  | .inl false, y => decide (y = .inl false)
  | x, .inl true => decide (x = .inl true)

/-- CLAMP with floating limits, exact: `min (max x lo) hi` (R108). -/
def clampExact (lo hi : Nat) (x : Exact) : Ext :=
  let a : Ext := if extLe (limitOf lo) (.inr x) then .inr x else limitOf lo
  if extLe a (limitOf hi) then a else limitOf hi

/-- Activation on an integer output (R108). -/
def actInt (d : DrainD) (zp y : Int) : Int :=
  match d.act with
  | 1 => max y zp
  | 2 => min (max y (sext 32 d.clampLo)) (sext 32 d.clampHi)
  | 3 => if y < zp then zp + rneDiv (y - zp) (2 ^ d.slope) else y
  | _ => y

/-- Activation on a floating or EAF output (R108). -/
def actFloat (d : DrainD) (z : Exact) : Ext :=
  match d.act with
  | 1 => .inr (if z.neg then ⟨false, 0, 1, 0⟩ else z)
  | 2 => clampExact d.clampLo d.clampHi z
  | 3 => .inr (if z.neg then z.scale (-(d.slope : Int)) else z)
  | _ => .inr z

/-- A floating output: an infinity saturates to the largest finite value with its sign (R109). -/
def roundExt (f : Fmt) : Ext → Nat
  | .inr x => (roundFloat f x).1
  | .inl neg => (if neg then 2 ^ (f.width - 1) else 0) + f.float.2.2

/-- Output code of one element of a non-EAF format (R107 to R109). -/
def drainCode (fp : Bool) (d : DrainD) (r : Requant) (v : Exact) : Nat × Bool :=
  let (z, nf) := requant fp r v
  match Fmt.ofCode d.outfmt with
  | none => (0, nf)
  | some f =>
    if f.isFloat then (roundExt f (actFloat d z), nf)
    else
      let y := actInt d r.zp (z.rne + r.zp)
      let (lo, hi) := f.range
      (code f.width (clampInt lo hi y), nf)

/-- Element of an EAF output (R110, R115). -/
def drainEaf (fp : Bool) (d : DrainD) (r : Requant) (v : Exact) : (Int × EafFlags) × Bool :=
  let (z, nf) := requant fp r v
  (toEaf (match actFloat d z with | .inr x => some x | .inl _ => none) d.eafExp, nf)

/-- Pack element codes of a non-EAF format, little-endian, two INT4 to a byte, even index low. -/
def packCodes (f : Fmt) : List Nat → List Byte
  | [] => []
  | a :: t =>
    if f = .int4 then
      match t with
      | [] => [BitVec.ofNat 8 (a % 16)]
      | b :: u => BitVec.ofNat 8 (a % 16 + 16 * (b % 16)) :: packCodes f u
    else leBytes (f.width / 8) a ++ packCodes f t

/-- An EAF output row: blocks of 64 elements, COUNT 1 (R110, R115). DESIGN CHOICE (notes/assumptions/86): elements of the last
block past NCOLS are 0. -/
def eafBlocks (e : Int) : Nat → List (Int × EafFlags) → List Eaf
  | 0, _ => []
  | k + 1, l =>
    if l.isEmpty then []
    else
      let h := l.take 64
      Eaf.ofElems (h.map (·.1)) e (h.any (·.2.inexact)) (h.any (·.2.range)) (h.any (·.2.nonfinite)) 1 :: eafBlocks e k (l.drop 64)

/-- Map entries of an output pixel: floor log2 of the largest finite nonzero magnitude of each group of 32 (R90, R91). -/
def mapEntries (f : Fmt) : Nat → List Nat → List Byte
  | 0, _ => []
  | k + 1, l =>
    if l.isEmpty then []
    else
      let es := (l.take 32).map fun c => match decodeFloat f c with
        | some x => if x.num = 0 then none else some x.ilog2
        | none => none
      leBytes 2 (match maxExp es with | none => 0x8000 | some e => code 16 e) ++ mapEntries f k (l.drop 32)

/-- Element `(a, b)` of Y = Aᵀ M A for one output channel (R205). `m` gives the 16 products. -/
def winoOut (m : Nat → Int) (a b : Nat) : Int := sandwich winoA (fun u v => m (4 * u + v)) a b

/-- FMT code of a compressed slot for OUTFMT (R212). -/
def slotFmtOut (outfmt : Nat) : Nat :=
  match outfmt with
  | 1 => 0 | 2 => 1 | 5 => 2 | _ => 3

/-- ZCODE of a compressed output (R213). -/
def zcodeOf (d : DrainD) (zp : Int) : Nat :=
  match Fmt.ofCode d.outfmt with
  | some f => if f.isFloat then 0 else code 8 (clampInt f.range.1 f.range.2 zp)
  | none => 0

/-- Header block of a compressed slot (R212, R215). -/
def slotHeader (d : DrainD) (zc first : Nat) (codes : List Nat) : List Byte :=
  let bm := codes.zipIdx.foldl (fun a (c, i) => if c = zc then a else a + 2 ^ i) 0
  let nnz := (codes.filter (· != zc)).length
  padTo 256 (leBytes 2 codes.length ++ leBytes 2 nnz ++ leBytes 1 (slotFmtOut d.outfmt) ++ leBytes 1 zc
    ++ leBytes 2 d.ncols ++ leBytes 4 first ++ leBytes 4 0 ++ leBytes 224 bm)

end Sys2Proof.Machine
end

