-- ==== Sys2Proof/Machine/VecMath.lean ====
section
/-! DEFINITION. Element arithmetic of the vector unit and the special functions (R240 to R259), pure. -/

namespace Sys2Proof.Machine

/-- A widened element (R240): INT32 or FP32 code. -/
inductive Elem where
  | int (v : Int)
  | fp (c : Nat)
  deriving DecidableEq, Repr

/-- Widening an element code exactly (R240): a non-finite code becomes an FP32 infinity, which later reads as 0. -/
def widen (f : Fmt) (c : Nat) : Elem :=
  if f.isFloat then
    match decodeFloat f c with
    | some x => .fp (toFp32 x)
    | none => .fp 0x7F800000
  else .int (if f = .uint8 then (c % 256 : Nat) else sext f.width c)

/-- The element as FP32, INT32 converted by RNE (R240). -/
def Elem.toFp : Elem → Nat
  | .int v => toFp32 (exactInt v)
  | .fp c => c

/-- Exact value with non-finite taken as 0, and whether it was (R243). -/
def Elem.val : Elem → Exact × Bool
  | .int v => (exactInt v, false)
  | .fp c => fp32Val c

/-- A result element with what it counts: saturated results, non-finite inputs taken as 0. -/
structure ElemRes where
  e : Elem
  sat : Nat
  nonfin : Nat
  deriving DecidableEq, Repr

/-- Result of an FP32 operation on exact inputs (R243). -/
def fpRes (x : Exact) (nf : Nat) (count : Bool) : ElemRes :=
  let (c, s) := roundFloat .fp32 x
  ⟨.fp c, if s && count then 1 else 0, nf⟩

/-- Result of an INT32 operation, saturating and counted (R244). -/
def intRes (v : Int) : ElemRes :=
  let (lo, hi) := Fmt.int32.range
  ⟨.int (clampInt lo hi v), if v < lo ∨ hi < v then 1 else 0, 0⟩

/-- FP32 order with −0 below +0 (R243, R247). -/
def fpLt (x y : Exact) : Bool :=
  if x.num = 0 && y.num = 0 then x.neg && !y.neg else x.le y && !(y.le x)

/-- Operand B of SHL and SHRA modulo 32. -/
def shAmt (v : Int) : Nat := (v % 32).toNat

/-- One two-operand operation of R242 on widened elements, VOP 0x00 to 0x0E without the one-operand ones; `free` is
the free value of an INT32 result the manual does not state. -/
def vecOp2 (vop : Nat) (a b : Elem) : ElemRes :=
  match a, b with
  | .int x, .int y =>
    match vop with
    | 0x00 => intRes (x + y)
    | 0x01 => intRes (x - y)
    | 0x02 => intRes (x * y)
    | 0x03 => ⟨.int (min x y), 0, 0⟩
    | 0x04 => ⟨.int (max x y), 0, 0⟩
    | 0x0A => ⟨.int (sext 32 (code 32 x &&& code 32 y)), 0, 0⟩
    | 0x0B => ⟨.int (sext 32 (code 32 x ||| code 32 y)), 0, 0⟩
    | 0x0C => ⟨.int (sext 32 (code 32 x ^^^ code 32 y)), 0, 0⟩
    | 0x0D => intRes (x * 2 ^ shAmt y)
    | _ => ⟨.int (x / 2 ^ shAmt y), 0, 0⟩
  | a, b =>
    let (x, nx) := fp32Val a.toFp
    let (y, ny) := fp32Val b.toFp
    let nf := nx.toNat + ny.toNat
    match vop with
    | 0x00 => fpRes (x.add y) nf true
    | 0x01 => fpRes (x.add y.neg') nf true
    | 0x02 => fpRes (x.mul y) nf true
    | 0x03 => fpRes (if fpLt y x then y else x) nf true
    | _ => fpRes (if fpLt x y then y else x) nf true

/-- One one-operand operation of R242 (ABS, NEG, CVT, SCALE2). An INT32 ABS or NEG of the most negative value is a
result R244 does not state: the free value `free`. -/
def vecOp1 (vop : Nat) (imm : Int) (free : Word) (a : Elem) : ElemRes :=
  match a with
  | .int x =>
    match vop with
    | 0x05 => ⟨.int (if x = -2147483648 then sext 32 free.toNat else x.natAbs), 0, 0⟩
    | 0x06 => ⟨.int (if x = -2147483648 then sext 32 free.toNat else -x), 0, 0⟩
    | _ => ⟨.int x, 0, 0⟩
  | .fp c =>
    let (x, nf) := fp32Val c
    match vop with
    | 0x05 => fpRes { x with neg := false } nf.toNat false
    | 0x06 => fpRes x.neg' nf.toNat false
    | 0x08 => fpRes (x.scale imm) nf.toNat false
    | _ => fpRes x nf.toNat false

/-- Converting a result element to DFMT (R109, R240). -/
def narrow (f : Fmt) (e : Elem) : Nat := (convert f e.val.1).1

/-- Exact value of an element for EAF conversion: `none` for non-finite (R115, R245). -/
def Elem.forEaf : Elem → Option Exact
  | .int v => some (exactInt v)
  | .fp c => decodeFloat .fp32 c

/-- RMAX, RMIN and ARGMAX order on widened elements (R247). -/
def elemLt (a b : Elem) : Bool :=
  match a, b with
  | .int x, .int y => decide (x < y)
  | a, b => fpLt a.val.1 b.val.1

/-- Index of the largest (or smallest) element, lowest index among equals (R247). -/
def bestIdx (lt : Elem → Elem → Bool) (l : List Elem) : Nat :=
  (l.zipIdx.foldl (fun (acc : Option (Elem × Nat)) (e, i) =>
    match acc with
    | none => some (e, i)
    | some (b, j) => if lt b e then some (e, i) else some (b, j)) none).elim 0 (·.2)

/-! Special functions (R255 to R259). -/

/-- Header of a segment table (R255). -/
structure SfuHdr where
  scheme : Nat
  interp : Nat
  nseg : Nat
  mono : Bool
  sym : Nat
  loId : Bool
  hiId : Bool
  xlo : Nat
  invw : Nat
  scale : Nat
  loVal : Nat
  hiVal : Nat
  negVal : Nat
  zeroVal : Nat
  keysel : Nat
  deriving DecidableEq, Repr

/-- Reading a header (R255). -/
def sfuHdrOf (b : List Byte) : SfuHdr :=
  let fl := fld b 3 1
  { scheme := fld b 0 1, interp := fld b 1 1, nseg := 2 ^ fld b 2 1, mono := bit1 fl 0, sym := bits fl 1 2,
    loId := bit1 fl 3, hiId := bit1 fl 4, xlo := fld b 4 4, invw := fld b 8 4, scale := fld b 12 4,
    loVal := fld b 16 4, hiVal := fld b 20 4, negVal := fld b 24 4, zeroVal := fld b 28 4, keysel := fld b 32 1 }

/-- Headers of the built-in tables (R259); domain ends, SCALE and outside values as the table states. -/
def sfuBuiltinHdr (func : Nat) : SfuHdr :=
  let big := 0x7F7FFFFF
  let nbig := 0xFF7FFFFF
  let one := 0x3F800000
  let mk (scheme sym : Nat) (mono loId hiId : Bool) (xlo invw scale lo hi neg zer : Nat) : SfuHdr :=
    ⟨scheme, 1, 256, mono, sym, loId, hiId, xlo, invw, scale, lo, hi, neg, zer, 0⟩
  match func with
  | 0 => mk 3 0 true false false 0 0 0x3FB8AA3B 0 big 0 0
  | 1 => mk 4 0 true false false 0 0 0x3F317218 0 0 nbig nbig
  | 2 => mk 1 1 true false false 0 0 0 0 0 0 big
  | 3 => mk 2 0 true false false 0 0 0 0 0 0 big
  | 4 => mk 0 0 true false false 0xC1800000 0x41000000 0 0 one 0 0
  | 5 => mk 0 0 true false false 0xC1000000 0x41800000 0 0xBF800000 one 0 0
  | 6 => mk 0 0 false false true 0xC1000000 0x41800000 0 0 0 0 0
  | 7 => mk 0 0 false false true 0xC1800000 0x41000000 0 0 0 0 0
  | 8 => mk 0 0 true false true 0xC1800000 0x41000000 0 0 0 0 0
  | _ => mk 0 0 true false false 0xC0800000 0x42000000 0 0xBF800000 one 0 0

/-- FP32 rounding of an exact value, back as an exact value. -/
def rnd (x : Exact) : Exact := (fp32Val (toFp32 x)).1

/-- Value of an FP32 field. -/
def fpv (c : Nat) : Exact := (fp32Val c).1

/-- Table value in a segment at fraction `t` (R257), every operation rounded by RNE (R256). -/
def segValue (quad : Bool) (y0 y1 c2 : Nat) (t : Exact) : Exact :=
  let a := fpv y0
  let b := fpv y1
  let d := rnd (b.add a.neg')
  let q := if quad then rnd ((fpv c2).mul (rnd (t.add (exactInt (-1))))) else ⟨false, 0, 1, 0⟩
  let y := rnd (a.add (rnd (t.mul (rnd (d.add q)))))
  let (lo, hi) := if a.le b then (a, b) else (b, a)
  if !(lo.le y) then lo else if !(y.le hi) then hi else y

/-- Location of an argument (R256): below, above, or segment, fraction and the power of two to apply. -/
inductive SfuLoc where
  | below
  | above
  | seg (s : Nat) (t : Exact) (e : Int)
  deriving DecidableEq, Repr

/-- Segment of `u * 1` with `n` segments, `u` exact and nonnegative. -/
def segAt (u : Exact) : Nat × Exact :=
  let s := u.floor
  (s.toNat, u.add (exactInt (-s)))

/-- Location of argument `x` (a finite FP32 value; nonzero and taken by magnitude under MANT, MANT2, LOG2) (R256). DEDUCED
(notes/assumptions/89): where the rounding of f × NSEG under EXP2 reaches NSEG itself, past the last segment, the argument stands on
the seam to the next binade. -/
def sfuLocate (h : SfuHdr) (x : Exact) : SfuLoc :=
  match h.scheme with
  | 0 =>
    let u := rnd ((rnd (x.add (fpv h.xlo).neg')).mul (fpv h.invw))
    if u.neg && u.num != 0 then .below
    else let (s, t) := segAt u; if h.nseg ≤ s then .above else .seg s t 0
  | 3 =>
    let u := rnd (x.mul (fpv h.scale))
    let n := u.floor
    if !((exactInt (-150)).le u) then .below
    else if (exactInt 128).le u then .above
    else
      let (s, t) := segAt (rnd ((u.add (exactInt (-n))).mul (exactInt h.nseg)))
      if s < h.nseg then .seg s t n else .seg 0 t (n + 1)
  | sch =>
    let e := x.ilog2
    let m1 := ({ x with neg := false }.scale (-e)).add (exactInt (-1))
    if sch = 2 then
      let o := e % 2
      let (s, t) := segAt (m1.mul (exactInt (h.nseg / 2 : Nat)))
      .seg (o.toNat * (h.nseg / 2) + s) t (e - o)
    else
      let (s, t) := segAt (m1.mul (exactInt h.nseg))
      .seg s t e

/-- Result from the table value by scheme (R256). -/
def sfuFinish (h : SfuHdr) (y : Exact) (e : Int) : Nat :=
  match h.scheme with
  | 0 => toFp32 y
  | 1 => toFp32 (y.scale (-e))
  | 2 => toFp32 (y.scale (-(e / 2)))
  | 3 => toFp32 (y.scale e)
  | _ => toFp32 ((rnd ((exactInt e).add y)).mul (fpv h.scale))

/-- Value at an argument: `seg s` gives (Y0, Y1, C2) of a segment; `fix` is applied to a value taken from the table. -/
def sfuCore (h : SfuHdr) (seg : Nat → Nat × Nat × Nat) (fix : Exact → Nat → Nat) (xc : Nat) (x : Exact) : Nat :=
  match sfuLocate h x with
  | .below => if h.loId then xc else h.loVal
  | .above => if h.hiId then xc else h.hiVal
  | .seg s t e => let r := seg s; fix x (sfuFinish h (segValue (h.interp = 1) r.1 r.2.1 r.2.2 t) e)

/-- Sign flip of an FP32 code. -/
def fpNeg (c : Nat) : Nat := c ^^^ 0x80000000

/-- One special-function evaluation of an FP32 argument (R256): result code, whether NEG_VAL was given. -/
def sfuEval (h : SfuHdr) (seg : Nat → Nat × Nat × Nat) (fix : Exact → Nat → Nat) (xc0 : Nat) : Nat × Bool :=
  let (x, nf) := fp32Val xc0
  let xc := if nf then 0 else xc0
  let mant : Bool := h.scheme = 1 || h.scheme = 2 || h.scheme = 4
  if mant && x.num = 0 then (if h.sym = 1 then h.zeroVal % 2 ^ 31 + (if x.neg then 2 ^ 31 else 0) else h.zeroVal, false)
  else if x.neg && x.num != 0 then
    let ax := { x with neg := false }
    match h.sym with
    | 1 => (fpNeg (sfuCore h seg fix (fpNeg xc) ax), false)
    | 2 => (sfuCore h seg fix (fpNeg xc) ax, false)
    | _ => if mant then (h.negVal, true) else (sfuCore h seg fix xc x, false)
  else (sfuCore h seg fix xc x, false)

/-- Segment that an argument reads, under SYM by its magnitude; none outside the domain and for the values of the header (R256). -/
def sfuSegOf (h : SfuHdr) (xc : Nat) : Option Nat :=
  let x := (fp32Val xc).1
  let mant : Bool := h.scheme = 1 || h.scheme = 2 || h.scheme = 4
  let y : Exact := if h.sym = 1 || h.sym = 2 then { x with neg := false } else x
  if mant && (x.num = 0 || y.neg) then none
  else match sfuLocate h y with
    | .seg s _ _ => some s
    | _ => none

/-- Numeric order of two FP32 codes. -/
def fpLe (a b : Nat) : Bool := (fp32Val a).1.le (fp32Val b).1
/-- Numeric equality of an FP32 code and an exact value. -/
def fpEq (a : Nat) (x : Exact) : Bool := (fp32Val a).1.le x && x.le (fp32Val a).1

/-- Whether a list of FP32 codes does not fall, or does not rise. -/
def monotoneBy (le : Nat → Nat → Bool) : List Nat → Bool
  | a :: b :: r => le a b && monotoneBy le (b :: r)
  | _ => true

/-- Whether a list of FP32 codes is monotone in one direction. -/
def monotone (l : List Nat) : Bool := monotoneBy fpLe l || monotoneBy (fun a c => fpLe c a) l

/-- Whether `z` is `y × 2^(−1/2)` rounded once by RNE: four times `y²/2` lies between the squared sums of `z` with its
neighbours (R258). -/
def halfRoot (y z : Nat) : Bool :=
  let v := fun (c : Nat) => (fp32Val (c % 2 ^ 31)).1
  let m := z % 2 ^ 31
  let yy := ((v y).mul (v y)).scale 1
  let lo := (v m).add (v (m - 1))
  let hi := (v m).add (v (m + 1))
  if (v y).num = 0 then decide (m = 0)
  else (y.testBit 31 == z.testBit 31) && (decide (m = 0) || (lo.mul lo).le yy) && yy.le (hi.mul hi)

/-- Seams of a table: between neighbouring segments, and between binades by scheme (R258). -/
def seamsOk (h : SfuHdr) (y0 y1 : Nat → Nat) : Bool :=
  let first := y0 0
  let last := y1 (h.nseg - 1)
  ((List.range (h.nseg - 1)).all fun i => decide (y1 i = y0 (i + 1)))
    && (match h.scheme with
      | 1 => fpEq last ((fp32Val first).1.scale (-1))
      | 2 => fpEq last ((fp32Val first).1.scale (-1)) && halfRoot first (y0 (h.nseg / 2))
      | 3 => fpEq last ((fp32Val first).1.scale 1)
      | 4 => fpEq first (exactInt 0) && fpEq last (exactInt 1)
      | _ => true)

/-- Segment records of a built-in table: free but for segment 130 of the sigmoid, whose values the example of R259 gives to
seven and four digits; the FP32 values nearest to them (notes/assumptions/5). -/
def builtinSeg (func s : Nat) : Nat × Nat × Nat :=
  let r := Config.sfuBuiltin func s
  if func = 4 ∧ s = 130 then (0x3F0FEACD, 0x3F17B900, 0xB99AD27F) else (r.1.toNat, r.2.1.toNat, r.2.2.toNat)

/-- Segment records of a user table's bytes (R255). -/
def userSeg (b : List Byte) (s : Nat) : Nat × Nat × Nat :=
  (fld b (64 + 16 * s) 4, fld b (68 + 16 * s) 4, fld b (72 + 16 * s) 4)

/-! Sampler arithmetic (R224 to R230). -/

/-- FP32 operations on codes, saturating like every FP32 result here. -/
def fadd (a b : Nat) : Nat := toFp32 ((fpv a).add (fpv b))
/-- FP32 subtraction. -/
def fsub (a b : Nat) : Nat := toFp32 ((fpv a).add (fpv b).neg')
/-- FP32 product. -/
def fmul (a b : Nat) : Nat := toFp32 ((fpv a).mul (fpv b))
/-- FP32 quotient by a positive integer. -/
def fdivn (a n : Nat) : Nat := toFp32 ((fpv a).div (exactInt n))

/-- Sample coordinate `i` of `n` along an axis of length `len` (R224). -/
def sampleCoord (norm : Bool) (len n i : Nat) (c1 c2 : Nat) : Nat :=
  let l := toFp32 (exactInt ((len : Int) - 1))
  let a := if norm then fmul c1 l else c1
  let b := if norm then fmul c2 l else c2
  if n ≤ 1 then fmul (fadd a b) 0x3F000000
  else fadd a (fmul (toFp32 (exactInt i)) (fdivn (fsub b a) (n - 1)))

/-- Whether a coordinate lies outside `0 .. len-1` (R225). -/
def outside (len c : Nat) : Bool :=
  let x := fpv c
  (x.neg && x.num != 0) || !(x.le (exactInt ((len : Int) - 1)))

/-- Interpolation base, neighbour and weight of a coordinate inside the image (R226). -/
def interp (len c : Nat) : Nat × Nat × Nat :=
  let x := fpv c
  let i := x.floor.toNat
  (i, min (i + 1) (len - 1), ((x.add (exactInt (-(i : Int)))).scale 8).rne.toNat)

/-- Bilinear sum, RNE over 65,536 (R226). -/
def bilinear (p : Nat → Nat → Int) (y x : Nat × Nat × Nat) : Int :=
  let (ya, yb, fy) := y
  let (xa, xb, fx) := x
  rneDiv ((256 - fy) * (256 - fx) * p ya xa + (256 - fy) * fx * p ya xb + fy * (256 - fx) * p yb xa
    + fy * fx * p yb xb) 65536

end Sys2Proof.Machine
end

