-- ==== Sys2Proof/Machine/IngestMath.lean ====
section
/-! DEFINITION. The pixel and point pipelines of Rhizoid (R328 to R336, R485, R486), pure. -/

namespace Sys2Proof.Machine

/-! Camera parameter block (R485). -/

/-- Bits of a raw sample of a CSI-2 data type (R309). -/
def dtBits : Nat → Nat
  | 0x2B => 10 | 0x2C => 12 | 0x2D => 14 | 0x2E => 16 | _ => 8

/-- Bytes of a line of `w` pixels of a data type. -/
def dtBytes (dt w : Nat) : Nat := if dt = 0x1E then 2 * w else cdiv (w * dtBits dt) 8

/-- Pixels that `n` bytes of a data type hold. -/
def dtPixels (dt n : Nat) : Nat := if dt = 0x1E then n / 2 else n * 8 / dtBits dt

/-- Raw samples of a CSI-2 payload, one per pixel; YUV422 gives two samples per pixel (R328 stage 1). -/
def unpackRaw (dt : Nat) (l : List Byte) : List Nat :=
  let b := fun (i : Nat) => fld l i 1
  match dt with
  | 0x2B => (List.range (l.length * 4 / 5)).map fun i => b (i / 4 * 5 + i % 4) * 4 + bits (b (i / 4 * 5 + 4)) (2 * (i % 4)) 2
  | 0x2C => (List.range (l.length * 2 / 3)).map fun i => b (i / 2 * 3 + i % 2) * 16 + bits (b (i / 2 * 3 + 2)) (4 * (i % 2)) 4
  | 0x2D => (List.range (l.length * 4 / 7)).map fun i =>
      b (i / 4 * 7 + i % 4) * 64 + bits (fld l (i / 4 * 7 + 4) 3) (6 * (i % 4)) 6
  | 0x2E => (List.range (l.length / 2)).map fun i => b (2 * i) * 256 + b (2 * i + 1)
  | _ => (List.range l.length).map b

/-- Colour of a pixel: 0 red, 1 green, 2 blue. -/
def cfaColour (cfa y x : Nat) : Nat :=
  (match cfa with
  | 0 => [0, 1, 1, 2]
  | 1 => [2, 1, 1, 0]
  | 2 => [1, 0, 2, 1]
  | _ => [1, 2, 0, 1]).getD (2 * (y % 2) + x % 2) 1

/-- Sample of an image held as lines. -/
def imgAt (im : List (List Int)) (y x : Nat) : Int := (im.getD y []).getD x 0

/-- Black level and gain (R328 stage 2). -/
def blackGain (blk : List Byte) (e : Nat) (s : Nat) : Int :=
  ((s - fld blk (4 + 2 * (e % 4)) 2) * fld blk (12 + 2 * (e % 4)) 2 / 1024 : Nat)

/-- Coordinate brought back inside `0 .. n-1` at the nearest sample of its own colour (R328 stage 3). -/
def sameColour (n : Nat) (i : Int) : Nat :=
  if i < 0 then (-i).toNat % max 1 n else if i < n then i.toNat else 2 * (n - 1) - min (2 * (n - 1)) i.toNat

/-- Four times the value of colour `c` at a pixel, bilinear (R328 stage 3). -/
def demosaic4 (cfa : Nat) (im : List (List Int)) (h w y x c : Nat) : Int :=
  let p := fun (dy dx : Int) => imgAt im (sameColour h (y + dy)) (sameColour w (x + dx))
  let own := cfaColour cfa y x
  if own = c then 4 * p 0 0
  else if c = 1 then p (-1) 0 + p 1 0 + p 0 (-1) + p 0 1
  else if own = 1 then
    if cfaColour cfa y (x + 1) = c then 2 * (p 0 (-1) + p 0 1) else 2 * (p (-1) 0 + p 1 0)
  else p (-1) (-1) + p (-1) 1 + p 1 (-1) + p 1 1

/-- Colour matrix on values at scale 4, RNE and saturation to 16 bits (R328 stage 4). -/
def colour (blk : List Byte) (v : List Int) (c : Nat) : Int :=
  let m := fun (k : Nat) => sext 16 (fld blk (20 + 2 * (3 * c + k)) 2)
  clampInt 0 65535 (rneDiv (m 0 * v.getD 0 0 + m 1 * v.getD 1 0 + m 2 * v.getD 2 0) (4 * 4096))

/-- Tone table lookup, exact at scale 64 (R328 stage 5). -/
def tone (rd : Nat → Nat) (c : Nat) (v : Int) : Int :=
  let i := v.toNat / 64
  let fr := v.toNat % 64
  let t := fun (k : Nat) => rd (1024 * c + k)
  if fr = 0 then 64 * t i
  else if i = 1023 then (Config.toneEnd (t i) fr : Int)
  else 64 * t i + ((t (i + 1) : Int) - t i) * fr

/-- Coordinate with `k` fraction bits: base, neighbour, weight out of 256 (R226). -/
def interpQ (len k : Nat) (c : Int) : Nat × Nat × Nat :=
  let i := (c / 2 ^ k).toNat
  (i, min (i + 1) (len - 1), (rneDiv (c % 2 ^ k * 256) (2 ^ k)).toNat)

/-- Bilinear sum of values at scale `d`, rounded once (R226). -/
def bilinearQ (d : Nat) (p : Nat → Nat → Int) (y x : Nat × Nat × Nat) : Int :=
  let (ya, yb, fy) := y
  let (xa, xb, fx) := x
  rneDiv (((256 : Int) - fy) * (256 - fx) * p ya xa + ((256 : Int) - fy) * fx * p ya xb + (fy : Int) * (256 - fx) * p yb xa
    + (fy : Int) * fx * p yb xb) (65536 * d)

/-- Source coordinate of an output pixel, with 8 fraction bits, from the mesh (R328 stage 6). -/
def meshAt (vert : Nat → Nat → Int × Int) (y x : Nat) : Int × Int :=
  let cy := y / 32
  let cx := x / 32
  let fy : Int := (y % 32 : Nat)
  let fx : Int := (x % 32 : Nat)
  let mix := fun (g : Int × Int → Int) =>
    rneDiv ((32 - fy) * (32 - fx) * g (vert cy cx) + (32 - fy) * fx * g (vert cy (cx + 1))
      + fy * (32 - fx) * g (vert (cy + 1) cx) + fy * fx * g (vert (cy + 1) (cx + 1))) 1024
  (mix (·.2), mix (·.1))

/-- Resize coordinate in Q16.16 over the whole axis: divide, then multiply (R328 stage 7, R224). -/
def resizeCoord (len n i : Nat) : Int :=
  if n ≤ 1 then ((len - 1) * 32768 : Nat) else (i : Int) * rneDiv (((len - 1) * 65536 : Nat) : Int) (n - 1)

/-- Vertex of a camera block's mesh; past its last row or column the last one stands (R328 stage 6, R485). -/
def meshVert (blk : List Byte) (y x : Nat) : Int × Int :=
  let mw := fld blk 76 2
  let o := fld blk 72 4 + 8 * (min y (fld blk 78 2) * (mw + 1) + min x mw)
  (sext 32 (fld blk o 4), sext 32 (fld blk (o + 4) 4))

/-- Whether a camera block has a mesh. -/
def hasMesh (blk : List Byte) : Bool := decide (fld blk 76 2 ≠ 0 ∧ fld blk 78 2 ≠ 0)

/-- Output format of a camera block (R485). -/
def camFmt : Nat → Fmt
  | 0 => .uint8 | 1 => .int8 | 2 => .fp16 | _ => .e4m3

/-- A tensor with its channel count and format. -/
structure Tensor where
  fmt : Fmt
  chans : Nat
  codes : List Nat
  drops : Nat
  deriving DecidableEq, Repr

/-- Bytes of a tensor. -/
def Tensor.bytes (t : Tensor) : List Byte := t.codes.flatMap fun c => leBytes (t.fmt.width / 8) c

/-- Group exponent map of a floating-point tensor (R90). -/
def Tensor.map (t : Tensor) : List Byte :=
  if t.fmt.isFloat then
    (List.range (t.codes.length / max 1 t.chans)).flatMap fun p => mapEntries t.fmt (t.chans / 32 + 1) ((t.codes.drop (p * t.chans)).take t.chans)
  else []

/-- One frame through a pixel pipeline (R328). `blk` is the parameter block, `w` and `h` the frame bounds. -/
def cameraTensor (blk : List Byte) (dt w h : Nat) (lines : List (List Byte)) : Tensor :=
  let cfa := fld blk 1 1
  let yuv := cfa = 4
  let place := fun (v : Nat) => v * 2 ^ (Config.rawShift (dtBits dt) % 17)
  let raw := lines.map fun l => (unpackRaw dt l).map place
  let s2 : List (List Int) := raw.zipIdx.map fun (l, y) => l.zipIdx.map fun (v, x) =>
    blackGain blk (if yuv then Config.cfaEntry 4 0 (x % 4) else Config.cfaEntry cfa (y % 2) (x % 2)) v
  let at3 := fun (y x : Nat) => if yuv then
      [4 * imgAt s2 y (2 * x + 1), 4 * imgAt s2 y (x / 2 * 4), 4 * imgAt s2 y (x / 2 * 4 + 2)]
    else (List.range 3).map (demosaic4 cfa s2 h w y x)
  let tone64 := fun (c y x : Nat) =>
    tone (fun k => fld blk (fld blk 68 4 + 2 * k) 2) c (colour blk (at3 y x) c)
  let und := fun (c y x : Nat) =>
    let q := meshAt (meshVert blk) y x
    if q.1 < 0 ∨ q.2 < 0 ∨ ((h - 1) * 256 : Nat) < q.1 ∨ ((w - 1) * 256 : Nat) < q.2 then (fld blk 38 2 : Int)
    else bilinearQ 64 (tone64 c) (interpQ h 8 q.1) (interpQ w 8 q.2)
  let oh := fld blk 40 2
  let ow := fld blk 42 2
  let val := fun (c y x : Nat) =>
    let cy := resizeCoord h oh y
    let cx := resizeCoord w ow x
    let py := interpQ h 16 cy
    let px := interpQ w 16 cx
    if ((h - 1) * 65536 : Nat) < cy ∨ ((w - 1) * 65536 : Nat) < cx then (Config.resizePast (fld blk 38 2) : Int)
    else if hasMesh blk then bilinearQ 1 (und c) py px else bilinearQ 64 (tone64 c) py px
  let order := match fld blk 3 1 with
    | 0 => [0, 1, 2]
    | 1 => [2, 1, 0]
    | _ => [Config.monoChannel % 3]
  let fm := camFmt (fld blk 2 1)
  let norm := fun (c : Nat) (x : Int) =>
    (convert fm (((exactInt (x - sext 32 (fld blk (44 + 4 * c) 4)))).mul (fp32Val (fld blk (56 + 4 * c) 4)).1)).1
  { fmt := fm, chans := order.length, drops := 0,
    codes := (List.range (oh * ow)).flatMap fun k => order.map fun c => norm c (val c (k / ow) (k % ow)) }

/-! Point pipelines (R333 to R336, R486). -/

/-- A field of a point packet: field number, offset. -/
def pointField (blk pkt : List Byte) (i o : Nat) : Nat :=
  let n := Config.pointWidth i % 8 + 1
  if bit1 (fld blk 2 1) 1 then fldBE pkt o n else fld pkt o n

/-- The same field read as signed. -/
def pointSigned (blk pkt : List Byte) (i o : Nat) : Int := sext (8 * (Config.pointWidth i % 8 + 1)) (pointField blk pkt i o)

/-- Offset `i` of the profile: 0 count, 1 first record, 2 scan counter, 3 timestamp, 4 range or x, 5 azimuth or y,
6 channel or z, 7 intensity. -/
def profOff (blk : List Byte) (i : Nat) : Nat := fld blk (16 + 2 * i) 2

/-- Scan counter of a packet. -/
def scanOf (blk pkt : List Byte) : Nat := pointField blk pkt 2 (profOff blk 2)

/-- A decoded point: range, azimuth, channel (polar), or x, y, z; intensity; time offset. -/
structure Pt where
  polar : Bool
  a : Int
  b : Int
  c : Int
  inten : Nat
  toff : Nat
  deriving DecidableEq, Repr

/-- Points of a packet (R333). -/
def packetPts (blk pkt : List Byte) : List Pt :=
  let cart := bit1 (fld blk 2 1) 0
  (List.range (pointField blk pkt 0 (profOff blk 0))).map fun k =>
    let o := profOff blk 1 + k * fld blk 32 2
    let f := fun (i : Nat) => if cart then pointSigned blk pkt i (o + profOff blk i) else (pointField blk pkt i (o + profOff blk i) : Nat)
    ⟨!cart, f 4, f 5, f 6, pointField blk pkt 7 (o + profOff blk 7), pointField blk pkt 8 (o + fld blk 34 2)⟩

/-- Range image and channel of the profile. -/
def profCh (blk : List Byte) : Nat := fld blk 3 1 + 1
/-- Azimuth columns of the profile. -/
def profAz (blk : List Byte) : Nat := fld blk 14 2

/-- Whether a point is dropped at decode (R333): its range is 0, or its channel is past the profile's. A Cartesian point's range
is 0 at the origin; it has a channel where a range image gives it one. -/
def Pt.dropped (p : Pt) (blk : List Byte) : Bool :=
  if p.polar then decide (p.a = 0 ∨ (profCh blk : Int) ≤ p.c)
  else decide (p.a = 0 ∧ p.b = 0 ∧ p.c = 0) ||
    (decide (fld blk 1 1 = 0) && decide (profCh blk ≤ (Config.polarOf p.a p.b p.c).2.2))

/-- Column of an azimuth (R334). -/
def azCol (blk : List Byte) (az : Int) : Nat := (az * profAz blk / 36000).toNat

/-- Range image (R334): range and intensity per cell, the smallest range first come. -/
def rangeImage (blk : List Byte) (pts : List Pt) : Tensor :=
  let polar := pts.map fun p => if p.polar then (p.a.toNat, p.b.toNat, p.c.toNat, p.inten)
    else let q := Config.polarOf p.a p.b p.c; (q.1, q.2.1, q.2.2, p.inten)
  let cell := fun (ch az : Nat) =>
    (polar.filter fun p => decide (p.2.2.1 = ch ∧ azCol blk (p.2.1 : Nat) = az)).foldl
      (fun (a : Option (Nat × Nat)) p => match a with
        | none => some (p.1, p.2.2.2)
        | some b => if p.1 < b.1 then some (p.1, p.2.2.2) else a) none
  { fmt := .uint8, chans := 3, drops := 0,
    codes := (List.range (profCh blk * profAz blk)).flatMap fun k =>
      let v := (cell (k / profAz blk) (k % profAz blk)).getD (0, 0)
      [v.1 % 256, v.1 / 256 % 256, v.2 % 256] }

/-- Cartesian form of a point (R335). -/
def Pt.xyz (p : Pt) (blk : List Byte) : Int × Int × Int :=
  if p.polar then
    let o := fld blk 64 4 + 6 * (p.c.toNat * profAz blk + azCol blk p.b)
    let u := fun (i : Nat) => p.a * sext 16 (fld blk (o + 2 * i) 2) / 16384
    (u 0, u 1, u 2)
  else (p.a, p.b, p.c)

/-- Voxel of a point; `none` outside the grid (R335). -/
def voxelOf (blk : List Byte) (q : Int × Int × Int) : Option Nat :=
  let x := (q.1 - sext 32 (fld blk 36 4)) / (fld blk 48 2 : Int)
  let y := (q.2.1 - sext 32 (fld blk 40 4)) / (fld blk 50 2 : Int)
  let z := (q.2.2 - sext 32 (fld blk 44 4)) / (fld blk 52 2 : Int)
  let nx := fld blk 54 2
  let ny := fld blk 56 2
  let nz := fld blk 58 1
  if 0 ≤ x ∧ x < nx ∧ 0 ≤ y ∧ y < ny ∧ 0 ≤ z ∧ z < nz then some ((z.toNat * ny + y.toNat) * nx + x.toNat) else none

/-- Voxel list (R336) with the points and voxels dropped, those outside the grid among them (R335, R350). -/
def voxelList (blk : List Byte) (pts : List Pt) : Tensor :=
  let maxv := fld blk 60 4
  let placed := pts.filterMap fun p => let q := p.xyz blk; (voxelOf blk q).map fun v => (v, (q.1, q.2.1, q.2.2, p.inten, p.toff))
  let order := placed.foldl (fun (l : List Nat) e => if l.contains e.1 then l else l ++ [e.1]) []
  let vox := (order.take maxv).map fun v => (v, (placed.filter fun e => e.1 = v).map (·.2))
  let lost := vox.foldl (fun n e => n + (e.2.length - 32)) 0 + (order.length - maxv) + (pts.length - placed.length)
  { fmt := .uint8, chans := 1, drops := lost,
    codes := (vox.flatMap fun e => Config.voxelBytes e.1 (e.2.take 32)).map (·.toNat) }

/-- One scan through a point pipeline (R333 to R336); `jit` changes a decoded point (R363). -/
def pointTensor (blk : List Byte) (pkts : List (List Byte)) (jit : Nat → Pt → Pt) : Tensor :=
  let all := pkts.flatMap (packetPts blk)
  let kept := (all.filter fun p => !p.dropped blk).zipIdx.map fun (p, i) => jit i p
  let t := if fld blk 1 1 = 0 then rangeImage blk kept else voxelList blk kept
  { t with drops := t.drops + (all.length - (all.filter fun p => !p.dropped blk).length) }

end Sys2Proof.Machine
end

