-- ==== Sys2Proof/Machine/DealerMath.lean ====
section
/-! DEFINITION. Philox4x32-10, the Dealer's order and augmentation (R360 to R363), pure. The generator's constants are those of
its publication (PRESUMED, notes/assumptions/21). -/

namespace Sys2Proof.Machine

/-- One round of Philox4x32. -/
def philoxRound (k0 k1 : Nat) (c : Nat × Nat × Nat × Nat) : Nat × Nat × Nat × Nat :=
  let p0 := 0xD2511F53 * c.1
  let p1 := 0xCD9E8D57 * c.2.2.1
  ((p1 / 2 ^ 32) ^^^ c.2.1 ^^^ k0, p1 % 2 ^ 32, (p0 / 2 ^ 32) ^^^ c.2.2.2 ^^^ k1, p0 % 2 ^ 32)

/-- Ten rounds, the key bumped between them. -/
def philox (k0 k1 : Nat) (c : Nat × Nat × Nat × Nat) : Nat × Nat × Nat × Nat :=
  (List.range 10).foldl (fun c i => philoxRound ((k0 + i * 0x9E3779B9) % 2 ^ 32) ((k1 + i * 0xBB67AE85) % 2 ^ 32) c) c

/-- Word `i` of a Philox output. -/
def philoxWord (i : Nat) (c : Nat × Nat × Nat × Nat) : Nat :=
  match i % 4 with
  | 0 => c.1 | 1 => c.2.1 | 2 => c.2.2.1 | _ => c.2.2.2

/-- Half-width `h` of the permutation (R360). -/
def halfBits (n : Nat) : Nat := max 1 (((Nat.log2 (n - 1) + (if n ≤ 1 then 0 else 1)) + 1) / 2)

/-- One pass of the Feistel network (R360). -/
def permStep (seed epoch h x : Nat) : Nat :=
  let p := (List.range 4).foldl (fun (p : Nat × Nat) r =>
    let f := philoxWord 0 (philox (seed % 2 ^ 32) (seed / 2 ^ 32) (p.2, 0x00F00000 ||| r, epoch, 0))
    (p.2, p.1 ^^^ (f % 2 ^ h))) (x / 2 ^ h, x % 2 ^ h)
  p.1 * 2 ^ h + p.2

/-- Cycle walking (R360); fuel bounds the walk by the size of the permuted set. -/
def permWalk (seed epoch h n : Nat) : Nat → Nat → Nat
  | 0, x => x
  | k + 1, x => let y := permStep seed epoch h x; if y < n then y else permWalk seed epoch h n k y

/-- π(i) (R360). -/
def perm (seed epoch n i : Nat) : Nat := let h := halfBits n; permWalk seed epoch h n (2 ^ (2 * h)) i

/-- Draw `k` of an operation for a sample on a channel (R362). -/
def draw (seed epoch sidx chan op k : Nat) : Nat :=
  philoxWord k (philox (seed % 2 ^ 32) (seed / 2 ^ 32)
    (sidx % 2 ^ 32, sidx / 2 ^ 32 % 65536 ||| chan * 65536 ||| op * 1048576, epoch, k / 4))

/-- A value in `lo .. hi` (R362). -/
def pick (lo hi : Int) (u : Nat) : Int := lo + (u * (hi - lo + 1)) / 2 ^ 32

/-- Whether operation `op` is enabled. -/
def DealerCfg.has (g : DealerCfg) (op : Nat) : Bool := g.ops.testBit op

/-- Dropout (R363). -/
def DealerCfg.dropout (g : DealerCfg) (epoch sidx chan : Nat) : Bool :=
  g.has 0 && decide (draw g.seed epoch sidx chan 0 0 < g.probDrop)

/-- Gain and offset (R363). -/
def DealerCfg.gain (g : DealerCfg) (epoch sidx chan : Nat) (top : Int) (im : List (List Int)) : List (List Int) :=
  if g.has 1 then
    let a := pick g.glo g.ghi (draw g.seed epoch sidx chan 1 0)
    let o := pick g.olo g.ohi (draw g.seed epoch sidx chan 1 1)
    im.map fun l => l.map fun v => clampInt 0 top (v * a / 4096 + o)
  else im

/-- Blur over same-colour neighbours at distance 2 (R363); for YUV422 a sample's neighbours in a line stand 4 components
away. A neighbour past the edge is the nearest sample of the same colour, the sample itself. -/
def DealerCfg.blur (g : DealerCfg) (epoch sidx chan : Nat) (dx : Nat) (im : List (List Int)) : List (List Int) :=
  if g.has 2 && decide (draw g.seed epoch sidx chan 2 0 < g.probBlur) then
    let h := im.length
    let w := (im.headD []).length
    let edge := fun (n i : Nat) (d : Int) => if (i : Int) + d < 0 ∨ (n : Int) ≤ (i : Int) + d then i else ((i : Int) + d).toNat
    im.zipIdx.map fun (l, y) => (List.range l.length).map fun x =>
      let p := fun (a b : Int) => imgAt im (edge h y (2 * a)) (edge w x (dx * b))
      rneDiv (p (-1) (-1) + 2 * p (-1) 0 + p (-1) 1 + 2 * p 0 (-1) + 4 * p 0 0 + 2 * p 0 1 + p 1 (-1) + 2 * p 1 0 + p 1 1) 16
  else im

/-- Noise, samples numbered in line order (R363). -/
def DealerCfg.noise (g : DealerCfg) (epoch sidx chan : Nat) (top : Int) (im : List (List Int)) : List (List Int) :=
  if g.has 3 then
    let w := (im.headD []).length
    im.zipIdx.map fun (l, y) => l.zipIdx.map fun (v, x) =>
      clampInt 0 top (v + pick (-(g.namp : Int)) g.namp (draw g.seed epoch sidx chan 3 (y * w + x)))
  else im

/-- Packing raw samples of a data type back into a payload. -/
def packRaw (dt : Nat) (l : List Nat) : List Byte :=
  let v := fun (i : Nat) => l.getD i 0
  match dt with
  | 0x2B => (List.range (l.length / 4)).flatMap fun k =>
      ((List.range 4).flatMap fun i => leBytes 1 (v (4 * k + i) / 4)) ++
        leBytes 1 (((List.range 4).map fun i => v (4 * k + i) % 4 * 4 ^ i).foldl (· + ·) 0)
  | 0x2C => (List.range (l.length / 2)).flatMap fun k =>
      leBytes 1 (v (2 * k) / 16) ++ leBytes 1 (v (2 * k + 1) / 16) ++ leBytes 1 (v (2 * k) % 16 + v (2 * k + 1) % 16 * 16)
  | 0x2D => (List.range (l.length / 4)).flatMap fun k =>
      ((List.range 4).flatMap fun i => leBytes 1 (v (4 * k + i) / 64)) ++
        leBytes 3 (((List.range 4).map fun i => v (4 * k + i) % 64 * 64 ^ i).foldl (· + ·) 0)
  | 0x2E => l.flatMap fun x => leBytes 1 (x / 256) ++ leBytes 1 x
  | _ => l.flatMap fun x => leBytes 1 x

/-- Camera augmentation of the lines of a record (R363); with none of its operations enabled the lines stay as they are. Bytes
past the last whole packing group of a line stay too. -/
def DealerCfg.camera (g : DealerCfg) (epoch sidx chan dt : Nat) (lines : List (List Byte)) : List (List Byte) :=
  if !(g.has 1 || g.has 2 || g.has 3) then lines
  else
    let top : Int := 2 ^ dtBits dt - 1
    let im := lines.map fun l => (unpackRaw dt l).map fun v => (v : Int)
    let out := g.noise epoch sidx chan top (g.blur epoch sidx chan (if dt = 0x1E then 4 else 2) (g.gain epoch sidx chan top im))
    out.zipWith (fun l old => let n := packRaw dt (l.map Int.toNat); n ++ old.drop n.length) lines

/-- Point jitter (R363). -/
def DealerCfg.jitter (g : DealerCfg) (epoch sidx chan i : Nat) (p : Pt) : Pt :=
  if g.has 4 && p.polar then
    let j := pick (-(g.jr : Int)) g.jr (draw g.seed epoch sidx chan 4 (2 * i))
    let a := pick (-(g.ja : Int)) g.ja (draw g.seed epoch sidx chan 4 (2 * i + 1))
    { p with a := max 1 (p.a + j), b := (p.b + a) % 36000 }
  else p

end Sys2Proof.Machine
end

