-- ==== Sys2Proof/Machine/StreamOps.lean ====
section
/-! DEFINITION. Stream contexts: their fields, their state register, the tensor of a frame, and how a context stops, restarts and
is released (R308, R320 to R327, R347 to R350). -/

namespace Sys2Proof.Machine

/-! Fields of a context. -/

/-- STRM_CFG of a context. -/
def State.strmCfg (s : State) (c : Nat) : Nat := (s.reg (oStrm c 0)).toNat
/-- Whether a context is started. -/
def State.strmOn (s : State) (c : Nat) : Bool := (s.strmCfg c).testBit 31
/-- KIND of a context: 1 CAMERA, 2 POINT, 3 AUX, 4 DEALER. -/
def State.strmKind (s : State) (c : Nat) : Nat := bits (s.strmCfg c) 28 3
/-- State code of a context: 0 ABSENT, 1 SYNCING, 2 LIVE, 3 DEGRADED, 4 QUARANTINED. -/
def State.strmSt (s : State) (c : Nat) : Nat := s.regF (oStrm c 0x10) 29 3
/-- Started contexts. -/
def State.strmStarted (s : State) : List Nat := (s.streams.map (·.1)).filter s.strmOn
/-- Changing a context. -/
def State.modStream (s : State) (c : Nat) (g : Stream → Stream) : State := s.setStream c (g (s.stream c))
/-- Parameter block of a context. -/
def State.paramBlk (s : State) (c : Nat) : List Byte := let x := s.stream c; s.rdN x.param x.paramLen
/-- Bytes of one slot (R349). -/
def State.slotSize (s : State) (c : Nat) : Nat := s.regF (oStrm c 0x1C) 16 16 * 4096
/-- Address of a slot (R349). -/
def State.slotAddr (s : State) (c i : Nat) : Nat :=
  (s.reg (oStrm c 0x18)).toNat + s.regF (oStrm c 0x1C) 0 16 * 2 ^ 32 + i * s.slotSize c

/-- A capture (R383): time of the last tick with `phase` 1/32 of the increment added, rounded down. -/
def State.capture (s : State) (phase : Nat) : Nat :=
  s.now + (s.time.frac.toNat + s.time.inc.toNat * phase / 32) / 2 ^ 32

/-! STRM_STATE. -/

/-- Errored frames among the last 16 as STRM_STATE shows them (R347). -/
def State.showErrs (s : State) (c : Nat) : State :=
  s.setRegF (oStrm c 0x10) 0 5 ((s.stream c).hist.filter id).length

/-- STRM_STATE written with a state code and a cause; an entry to QUARANTINED counts, and the owning host gets its notice
(R320, R347). -/
def State.streamTo (s : State) (c : Nat) (st cause : Nat) : State :=
  let o := oStrm c 0x10
  let s1 := (s.setRegF o 29 3 st).setRegF o 16 8 cause
  let s2 := if st = 4 then s1.count (oStrm c 0x30) 1 else s1
  match (s.stream c).owner with
  | none => s2
  | some r => s2.notice r 0x4001 .ok (leBytes 1 c ++ leBytes 1 st ++ leBytes 2 cause ++ timeBytes s.now)

/-- A change of state (R316, R320); nothing where the state stays the same. -/
def State.streamState (s : State) (c : Nat) (st cause : Nat) : State :=
  if s.strmSt c = st then s else s.streamTo c st cause

/-! The tensor of a frame. -/

/-- Sub-kind of a context's frames: 1 camera, 2 point, 3 message. -/
def State.frameKind (s : State) (c : Nat) : Nat := if s.strmKind c = 4 then bits (s.strmCfg c) 16 4 else s.strmKind c

/-- Tensor of a frame. -/
def State.frameTensor (s : State) (c : Nat) (jit : Nat → Pt → Pt) (r : FrameRun) : Tensor :=
  match s.frameKind c with
  | 1 => cameraTensor (s.paramBlk c) (bits (s.strmCfg c) 10 6) (s.regF (oStrm c 4) 0 16) (s.regF (oStrm c 4) 16 16) r.lines
  | 2 => pointTensor (s.paramBlk c) r.lines jit
  | _ => { fmt := .uint8, chans := 1, drops := 0, codes := r.lines.flatten.map (·.toNat) }

/-- Jitter of a Dealer frame's points (R363); none on a live context. -/
def State.jitterOf (s : State) (c : Nat) (r : FrameRun) : Nat → Pt → Pt :=
  match s.dealer.cfg with
  | some g => if s.strmKind c = 4 then g.jitter r.epoch r.sidx r.chan else fun _ p => p
  | none => fun _ p => p

/-- Points and voxels that a point frame loses (R333, R335, R336, R350). -/
def State.frameLost (s : State) (c : Nat) (r : FrameRun) : Nat :=
  if s.frameKind c = 2 then (s.frameTensor c (s.jitterOf c r) r).drops else 0

/-- A frame that will not be delivered: the points and voxels its pipeline dropped are counted all the same (R350). -/
def State.countLost (s : State) (c : Nat) (r : FrameRun) : State :=
  let n := s.frameLost c r
  if n = 0 then s else s.count (oStrm c 0x2C) n

/-- The frame in progress is discarded. -/
def State.dropRun (s : State) (c : Nat) : State :=
  match (s.stream c).frame with
  | none => s
  | some r => (s.countLost c r).modStream c fun x => { x with frame := none }

/-- Frames that wait for delivery are discarded. -/
def State.dropDone (s : State) (c : Nat) : State :=
  ((s.stream c).done.foldl (fun s d => s.countLost c d.run) s).modStream c fun x => { x with done := [] }

/-! Stopping, restarting, releasing. -/

/-- STREAM_STOP's effect (R316, R326): no frame goes on, held slots stay held, and the stop is reported whatever the state was. -/
def State.stopStream (s : State) (c : Nat) : State :=
  (((s.dropRun c).dropDone c).setRegF (oStrm c 0) 31 1 0).streamTo c 0 14

/-- A stream context restarted in ABSENT by a partition reset (R308, R732): its frames, slots and history go, the last verified
FCNT stays (R338), and the partition owns it no longer (DEDUCED, notes/assumptions/98). -/
def Stream.restart (x : Stream) : Stream :=
  { x with owner := none, hist := [], good := 0, short := 0, frame := none, done := [], slots := [], held := [], taken := [],
           scan := none }

/-- The restart of a context, noticed by its former owner. -/
def State.restartStream (s : State) (c : Nat) : State :=
  ((((s.dropRun c).dropDone c).streamState c 0 0).modStream c Stream.restart).showErrs c

/-- A stream context given back: its registers at reset; slots that a job holds stay held (R325, R326). -/
def State.releaseStream (s : State) (c : Nat) : State :=
  (s.setStream c { Stream.reset with held := (s.stream c).held }).clearRegs fun o => decide (oStrm c 0 ≤ o ∧ o < oStrm c 0x1000)

end Sys2Proof.Machine
end

