-- ==== Sys2Proof/Machine/RecoveryOps.lean ====
section
/-! DEFINITION. The recovery ladder (R732 to R734, R762): L1 to L6 and their escalation, golden failures (R616), retired
Fronds (R658), voided Tricks (R578), lost hosts (R441, R494). -/

namespace Sys2Proof.Machine

/-! Counting steps (R733, R762). -/

/-- Clock of the step counts: step-corrected device time in ns. -/
def State.ladderNow (s : State) : Nat := s.deckNow.toNat

/-- Steps of a level on a scope within the last `win`. -/
def State.recentSteps (s : State) (lvl key win now : Nat) : Nat :=
  (s.sys.steps.filter fun e => decide (e.1 = lvl ∧ e.2.1 = key ∧ now ≤ e.2.2 + win)).length

/-- Counting a step. -/
def State.noteStep (s : State) (lvl key now : Nat) : State :=
  { s with sys := { s.sys with steps := s.sys.steps ++ [(lvl, key, now)] } }

/-- Steps that caused an escalation stop counting (R762). -/
def State.forgetSteps (s : State) (lvl key : Nat) : State :=
  { s with sys := { s.sys with steps := s.sys.steps.filter fun e => !decide (e.1 = lvl ∧ e.2.1 = key) } }

/-- The record of an escalation to level `lvl` (R733): `kind` 1, or 4 when a step overran. -/
def State.escalate (s : State) (unit kind lvl : Nat) : State :=
  s.raise { src := srcOf unit (if lvl = 6 then 7 else kind), cause := 28, escal := true, fatal := decide (lvl = 6), stepNo := lvl }

/-! L6 and L5. -/

/-- L6: the safe state through an escalation record of class F (R652, R733). -/
def State.l6 (s : State) (kind : Nat) : State := s.escalate 113 kind 6

/-- L5: a warm reset (R728). Those of WARM_N and FW_COMMIT are not counted; the third within 600 power-on seconds starts L6. -/
def State.l5 (s : State) (counted : Bool) : State :=
  if s.fcol.safe then s
  else if !counted then s.warm
  else if 2 ≤ s.recentSteps 5 0 600 s.power.powerOn then (s.forgetSteps 5 0).l6 1
  else (s.noteStep 5 0 s.power.powerOn).warm

/-- A wider step that an escalation starts as L5. -/
def State.escalateL5 (s : State) (kind : Nat) : State := (s.escalate 113 kind 5).l5 true

/-! Ending instances. -/

/-- A half whose tile is thrown away: FREE, its rows as they stand. -/
def Half.free (h : Half) : Half := { h with st := .free, closing := false }

/-- A Frond whose kernel is stopped (R65, R132): nothing in flight. R61 names no transition of sets and halves for it: the weight sets
are emptied, the halves set FREE with their rows kept (DESIGN CHOICE, notes/assumptions/105). -/
def Frond.stopKernel (x : Frond) : Frond :=
  { x with kernel := none, queues := [], loads := [], streams := [], rows := [], drains := [], dma := [], heldRows := [], spWait := [], switching := none,
           set0 := WeightSet.reset, set1 := WeightSet.reset, half0 := x.half0.free, half1 := x.half1.free }

/-- Whether a Frond runs a kernel of an instance. -/
def Frond.runs (x : Frond) (j : Nat) : Bool := match x.kernel with | some k => decide (k.job = j) | none => false

/-- Stopping every kernel of an instance. -/
def State.stopJob (s : State) (j : Nat) : State :=
  { s with fronds := s.fronds.map fun x => if x.runs j then x.stopKernel else x }

/-- Jobs whose unsealed instance ran a kernel on Frond `f` at or after `since`, or runs one (R616, R627). -/
def State.ranSince (s : State) (f : Fin 4) (since : Nat) : List Nat :=
  (s.jobs.filter fun e => e.2.golden.isNone &&
    ((s.frond f).runs e.1 || (match tfind e.2.ranOn f.val with | some t => decide (since ≤ t) | none => false))).map (·.1)

/-- One ledger entry in each of a list of jobs. -/
def State.enterAll (s : State) (l : List Nat) (unit cause loc : Nat) : State :=
  l.foldl (fun s j => s.modJob j fun x => x.enter ⟨unit, cause, loc, x.kernel, s.now⟩) s

/-- JOB Cards of a Frond run as IDLE until L2 and a passing test of the same kind (R616, R622, R627). -/
def State.holdFrond (s : State) (f : Fin 4) (cause seg : Nat) : State :=
  s.modFrond f fun x =>
    { x with holds := (cause, seg, false) :: x.holds.filter fun h => !decide (h.1 = cause ∧ h.2.1 = seg) }

/-- A Frond reset has followed every hold. -/
def Frond.resetHolds (x : Frond) : List (Nat × Nat × Bool) := x.holds.map fun (h : Nat × Nat × Bool) => (h.1, h.2.1, true)

/-- What an open Card goes on with after a Frond reset: a golden run does not (R516). -/
def Frond.useAfter (x : Frond) : CardUse := if x.cardUse = .golden then .none else x.cardUse

/-- A passing test ends its hold once L2 has followed the failure. -/
def State.endHold (s : State) (f : Fin 4) (cause seg : Nat) : State :=
  s.modFrond f fun x => { x with holds := x.holds.filter fun h => !(decide (h.1 = cause ∧ h.2.1 = seg) && h.2.2) }

/-- Time of the last pass of golden run (31) or segment `k` on Frond `f`. -/
def State.passTime (s : State) (f : Fin 4) (k : Nat) : Nat := tget (fun _ => 0) s.safety.passAt (32 * f.val + k)

/-- A failed golden run (R616). -/
def State.goldenFail (s : State) (f : Fin 4) : State :=
  let u := 16 * f.val + 14
  (((s.enterAll (s.ranSince f (s.passTime f 31)) u 14 0).raise
    { src := srcOf u 6, cause := 14, part := (s.ownerOf f).elim 0xFF (·.val) }).holdFrond f 1 0)

/-- The instance a golden run made leaves the table; nothing of it is released (R516). -/
def State.dropGolden (s : State) (j : Nat) : State := { (s.dropSignals j) with jobs := tdel s.jobs j }

/-- An instance ended by a recovery step with a status (R603, R732): its kernels stop; a golden run fails. -/
def State.abortJob (s : State) (j st : Nat) : State :=
  match s.job j with
  | none => s
  | some x =>
    let s1 := (s.stopJob j).voidOpenOf j
    match x.golden with
    | some f => (s1.dropGolden j).goldenFail f
    | none => s1.endInstance j st false false

/-- Jobs with a kernel running on a Frond. -/
def State.jobsOn (s : State) (f : Fin 4) : List Nat := match (s.frond f).kernel with | some k => [k.job] | none => []

/-- The effect of L2 on a Frond (R189, R190, R638, R732). -/
def State.frondResetL2 (s : State) (f : Fin 4) : State :=
  let x := s.frond f
  if x.retired then s
  else
    let s1 := (s.jobsOn f).foldl (fun s j => s.abortJob j St.fault.code) s
    let y := s1.frond f
    let s2 := s1.setFrond f { Frond.reset with op := y.op, astate := y.astate, card := y.card,
                                               cardEnd := y.cardEnd, cardUse := y.useAfter, stPos := y.stPos,
                                               holds := y.resetHolds, zfill := true, restore := true }
    ((((s2.clearFrondRegs f false).zeroWork f).scanResident f).loadMapout f).clearBroken (128 * f.val) (128 * f.val + 127)

/-! Retired Fronds (R658). -/

/-- Power-gating a Frond that the repair table names as retired, at a kernel boundary: jobs with kernels on it end at L1
with ST_FAULT. -/
def State.retireFrond (s : State) (f : Fin 4) : State :=
  if s.nor.retired.getD f.val false && !(s.frond f).retired && (s.frond f).kernel.isNone then
    let jobs := (s.jobs.filter fun e => e.2.golden.isNone && (s.jobFronds e.2).getLsbD f.val).map (·.1)
    let s1 := (s.setFrond f { (s.frond f).dark 3 with retired := true }).clearFrondRegs f true
    jobs.foldl (fun s j => s.abortJob j St.fault.code) (s1.zeroSp f)
  else s

/-- Whether a column retired since the last Frond reset waits to be mapped out (R657): FRD_MAPOUT does not show it yet. -/
def State.mapPending (s : State) (f : Fin 4) : Bool :=
  (s.nor.mapout.getD f.val none).isSome && !mapValid s f && !(s.frond f).retired && decide ((s.frond f).astate.val ≤ 1)

/-- The L2 reset that maps a column out, once no kernel runs (R657). -/
def State.mapFrond (s : State) (f : Fin 4) : State :=
  if s.mapPending f && (s.frond f).kernel.isNone && decide (s.sys.st = .service) then s.frondResetL2 f else s

/-- Retirements whose Frond runs no kernel take effect. -/
def State.sweepRetired (s : State) : State :=
  (List.finRange 4).foldl (fun s f => (s.retireFrond f).mapFrond f) s

/-- Recording an event, with the retirement it may cause. -/
def State.fault (s : State) (e : Ev) : State := (s.raise e).sweepRetired

/-! Host-port SRAM. -/

/-- The control page word at a window address (R427 to R429, R432). -/
def State.cpWord (s : State) (p : Fin 4) (x : Nat) : Nat :=
  match x with
  | 0x0 => 0x47391000 + p.val
  | 0x4 => s.sys.chg * 256 + s.sys.st.code
  | 0x8 => 0x01040100
  | 0xC => 0x03020000 + Config.fwBuild.toNat
  | 0x10 => min 0xFFFF (s.reg (oHpc p 0x18)).toNat * 65536 + s.regF (oHpc p 4) 0 16
  | 0x14 => (s.reg (oHpc p 0x10)).toNat
  | 0x18 => (s.reg (oHpc p 0x1C)).toNat
  | 0x20 => (s.port p).irqStatus.toNat
  | 0x1040 => (s.port p).irqMask.toNat
  | x => match arr 0x40 4 4 x with
    | some a => (s.port p).aperSeq.getD a 0 % 2 ^ 32
    | none => 0

/-- One byte of host-port SRAM (R24, R425, R455): the control page, the ring state page and the reserved ranges hold what the device
keeps there, everything else what was stored. -/
def State.sramByte (s : State) (p : Fin 4) (x : Nat) : Byte :=
  if x < 0x10000 then BitVec.ofNat 8 (s.cpWord p (x / 4 * 4) / 256 ^ (x % 4))
  else if 0x11000 ≤ x ∧ x < 0x12000 then
    match s.ring p ((x - 0x11000) / 16) with
    | some r => r.stateBytes.getD (x % 16) 0
    | none => 0
  else if (0x16000 ≤ x ∧ x < 0x20000) ∨ 0x610000 ≤ x then 0
  else s.rd (sramBase p + x)

/-- Mode that MODE_LOCK gives a port (R405). -/
def State.lockedMode (s : State) (p : Fin 4) : PortMode :=
  match s.otp.hpLock.getD p.val 0 with
  | 1 => .lpddr5
  | 2 => .lpddr4x
  | _ => .unsettled

/-! L3. -/

/-- Stream contexts of a partition. -/
def State.streamsOf (s : State) (r : Fin 4) : List Nat :=
  (s.streams.filter fun e => decide (e.2.owner = some r)).map (·.1)

/-- Mat allocations of a partition, as (offset, size), hot ranges of pools included. -/
def State.matOf (s : State) (r : Fin 4) : List (Nat × Nat) :=
  s.allocs.filterMap fun e =>
    if e.2.part ≠ r then none
    else if e.2.region = 1 then some (e.2.base - matBase, e.2.size)
    else if e.2.region = 2 ∧ 0 < e.2.matSize then some (e.2.matBase - matBase, e.2.matSize) else none

/-- Whether a sequence holds a page in the Mat (R267, R732): a page identifier below the pool's hot count. -/
def State.seqInMat (s : State) (q : Seq) : Bool :=
  match tfind s.pools q.pool with
  | none => false
  | some p => (spanPages q.spans).any fun id => decide (id < p.nhot)

/-- A Frond after a partition reset (R189, R194): FRD_SP_REPAIR and FRD_SP_RESBASE kept, the scratchpad zeroed, the resident
area of the programs that stay loaded restored. -/
def State.resetFrondWhole (s : State) (f : Fin 4) : State :=
  let x := s.frond f
  if x.retired then s
  else
    let s1 := s.setFrond f { Frond.reset with op := x.op, card := x.card, cardEnd := x.cardEnd, cardUse := x.useAfter, stPos := x.stPos,
                                              holds := x.resetHolds, zfill := false }
    (((s1.clearFrondRegs f false).loadMapout f).zeroSp f).restoreAll f

/-- The effect of L3 on a partition (R525, R732): every instance ends, Fronds and Mat are zeroed, Deck counters cleared,
streams restart in ABSENT, sequences with pages in the Mat retire. -/
def State.partReset (s : State) (r : Fin 4) : State :=
  let fs := (List.finRange 4).filter fun f => decide (s.ownerOf f = some r)
  let s1 := (s.partJobs r).foldl (fun s j => s.abortJob j St.fault.code) s
  let s2 := fs.foldl (fun s f => (s.resetFrondWhole f).clearRegs fun o => decide (oDeck f 0 ≤ o ∧ o < oDeck f 0x100)) s1
  let s3 := fs.foldl (fun s f => s.clearBroken (128 * f.val) (128 * f.val + 127)) s2
  let s4 := (s.matOf r).foldl (fun s m => s.zeroMat m.1 m.2) s3
  let s5 := s4.seqs.foldl (fun s e => if e.2.part = r ∧ s4.seqInMat e.2 then s.retireSeq e.1 else s) s4
  (s.streamsOf r).foldl State.restartStream s5

/-- L3 of a partition, or the L5 that a second one within 60 s starts (R733). -/
def State.l3 (s : State) (r : Fin 4) : State :=
  if s.fcol.safe then s
  else
    let now := s.ladderNow
    if 1 ≤ s.recentSteps 3 r.val 60000000000 now then (s.forgetSteps 3 r.val).escalateL5 1
    else (s.noteStep 3 r.val now).partReset r

/-! L2. -/

/-- L2 of a Frond, or the L3 that a second one within 10 s starts; a further L2 when no partition owns the Frond (R733). -/
def State.l2 (s : State) (f : Fin 4) : State :=
  if s.fcol.safe then s
  else
    let now := s.ladderNow
    if 1 ≤ s.recentSteps 2 f.val 10000000000 now then
      match s.ownerOf f with
      | some r => ((s.forgetSteps 2 f.val).escalate 113 1 3).l3 r
      | none => (((s.forgetSteps 2 f.val).escalate (16 * f.val) 1 2).noteStep 2 f.val now).frondResetL2 f
    else (s.noteStep 2 f.val now).frondResetL2 f

/-! L1. -/

/-- L1 on Frond `f` for the instance of job `j`, ended with status `st`; `kind` is that of its fault: three of kinds 1, 2
or 4 within 1 s start L2, which ends the instance as L1 does (R732, R733). -/
def State.l1On (s : State) (f : Fin 4) (kind j st : Nat) : State :=
  if s.fcol.safe then s
  else
    let now := s.ladderNow
    let esc := decide (kind ≠ 3 ∧ 2 ≤ s.recentSteps 1 f.val 1000000000 now)
    let s1 := if esc then ((s.forgetSteps 1 f.val).escalate (16 * f.val) 1 2).l2 f
      else if kind = 3 then s else s.noteStep 1 f.val now
    (s1.abortJob j st).sweepRetired

/-- L1 of the kernel that Frond `f` runs. -/
def State.l1 (s : State) (f : Fin 4) (kind : Nat) : State :=
  match (s.frond f).kernel with
  | none => s
  | some k => s.l1On f kind k.job St.fault.code

/-- A program fault on Frond `f` (R65): a class U fault of kind 3 naming program, kernel and opcode, then L1. -/
def State.progFault (s : State) (f : Fin 4) (op sub : Nat) : State :=
  let w := s.frondWho f op
  let e := { w.ev (srcOf (16 * f.val) 3) 20 sub 0 with stepNo := 1 }
  (s.raise e).l1 f 3

/-! Tricks and links. -/

/-- One void in the ledger of a job, with its class U fault (R578, R601). -/
def State.voidEntry (s : State) (j entry inst : Nat) : State :=
  let w : Who := match s.job j with
    | some x => { job := j, prog := x.prog, kernel := x.kernel, opcode := 0xFF, part := x.part.val, req := 0xFF }
    | none => Who.firmware
  (s.modJob j fun x => { x with voided := true }).checkFail w 101 1 12 entry inst

/-- L1 of a job wherever it stands (R578). -/
def State.l1Job (s : State) (j : Nat) : State :=
  match (List.finRange 4).find? fun f => (s.frond f).runs j with
  | some f => s.l1On f 1 j St.fault.code
  | none => (s.abortJob j St.fault.code).sweepRetired

/-- A voided instance (R576, R578): counted, entered in the ledger of the receiving job, which is the job that wrote the own
slot where there is one; that job ends at L1, and the next instance's blocks go out (R580). -/
def State.voidTrick (s : State) (key : Word) (entry inst : Nat) : State :=
  match s.tricks.find? fun t => decide (t.key = key ∧ t.entry = entry ∧ t.inst = inst) && t.done.isNone with
  | none => s
  | some t =>
    let s1 := s.modTrick key entry inst fun u => { u with done := some false }
    let s2 := (s1.count (oHzl 0x4004) 1).forwardNext key entry inst
    match (s2.groupOf key).bind fun g => s2.receiver g t with
    | none => s2
    | some j => if (s2.job j).isSome then (s2.voidEntry j entry inst).l1Job j else s2

/-- A link going to DOWN from ACTIVE (R563, R564): counted, a class U fault, Tricks that wait on its peer voided. -/
def State.linkDown (s : State) (l : Fin 3) : State :=
  let x := s.link l
  if x.st ≠ .active then s.setLink l { Link.reset with peer := x.peer }
  else
    let s1 := (s.setLink l { Link.reset with peer := x.peer }).count (0x05000000 + 0x1000 * l.val + 0x14) 1
    let s2 := s1.fault { src := srcOf (98 + l.val) 4, cause := 25, stepNo := 4 }
    (s.tricks.filter fun t => t.done.isNone && t.slots.any fun q =>
      decide (q.src = x.peer.toNat) && (!q.verified || decide (q.commit = none))).foldl
        (fun s t => s.voidTrick t.key t.entry t.inst) s2

/-! L4. -/

/-- Whether a step of L4 on a subsystem is its third within 60 s: then the L5 it starts, else the step counted. -/
def State.l4 (s : State) (key : Nat) (act : State → State) : State :=
  if s.fcol.safe then s
  else
    let now := s.ladderNow
    if 2 ≤ s.recentSteps 4 key 60000000000 now then (s.forgetSteps 4 key).escalateL5 1
    else act (s.noteStep 4 key now)

/-- L4 of a Hezor link (R563, R564, R638). -/
def State.l4Link (s : State) (l : Fin 3) : State :=
  s.l4 (16 + l.val) fun s => (s.linkDown l).clearBroken (8 * (98 + l.val)) (8 * (98 + l.val) + 7)

/-- L4 of Rhizoid (R350, R374, R638, R732): frames in progress and the Dealer run end, counters go to reset. -/
def State.l4Rhizoid (s : State) : State :=
  s.l4 15 fun s =>
    let s1 := { s with
      streams := s.streams.map fun (e : Nat × Stream) => (e.1, { e.2 with frame := none, done := [] })
      dealer := { s.dealer with run := false, lanes := [], done := [] } }
    let s2 := s1.clearRegs fun o => decide (0x03000000 ≤ o ∧ o < 0x03100000) ||
      (match inStream o with | some (_, x) => decide (0x20 ≤ x ∧ x < 0x38) | none => false)
    s2.clearBroken 512 607

/-! Lost hosts. -/

/-- Cancelling an unfinished job (R285, R483); a golden run is dropped. -/
def State.cancelJob (s : State) (j : Nat) : State :=
  let s1 := (s.stopJob j).voidOpenOf j
  if ((s.job j).bind (·.golden)).isSome then s1.dropGolden j
  else ({ s1 with ages := s1.ages.filter fun a => decide (a.job ≠ j) }).endInstance j St.withheld.code false true

/-- Freeing an allocation: its range is zero-filled before any partition receives it again (R495). -/
def State.freeAlloc (s : State) (h : Nat) : State :=
  match tfind s.allocs h with
  | none => s
  | some a =>
    let s1 := if a.region = 1 then s.zeroMat (a.base - matBase) a.size else s.zeroRange a.base a.size
    let s2 := if a.region = 2 ∧ 0 < a.matSize then s1.zeroMat (a.matBase - matBase) a.matSize else s1
    { s2 with allocs := tdel s2.allocs h, pools := if a.region = 2 then tdel s2.pools a.pool else s2.pools,
              seqs := if a.region = 2 then s2.seqs.filter fun e => decide (e.2.pool ≠ a.pool) else s2.seqs }

/-- Leaving a group (R570): LEAVE to every member, its open Tricks voided. -/
def State.leaveGroup (s : State) (key : Word) : State :=
  match s.groupOf key with
  | none => s
  | some g =>
    let s1 := s.sendPeers g 0 0 (gctlPkt 2 s.sys.modId.toNat key.toNat (s.part g.part).mode.code g.replica.toNat g.mask.toNat g.crc)
    let s2 := (s1.tricks.filter fun t => decide (t.key = key) && t.done.isNone).foldl
      (fun s t => s.voidTrick t.key t.entry t.inst) s1
    { s2 with groups := s2.groups.filter fun g => decide (g.key ≠ key)
              tricks := s2.tricks.filter fun t => decide (t.key ≠ key) }

/-- FRD_SP_RESBASE at the lowest row of the resident images that stand (R175); there is no resident area without one. -/
def State.setResbase (s : State) (f : Fin 4) : State :=
  s.setReg (oResbase f) (BitVec.ofNat 32 ((s.residents f).foldl (fun a g => min a g.resRow) 655360))

/-- Unloading a program: its resident rows are zeroed and given back, its SFU tables leave (R175, R260). -/
def State.unloadProg (s : State) (g : Nat) : State :=
  match tfind s.progs g with
  | none => s
  | some x =>
    let fs := (List.finRange 4).filter fun f => decide (s.ownerOf f = some x.part)
    let s1 := fs.foldl (fun s f =>
      let s0 := if 0 < x.resLen then s.zeroSpRange f (64 * x.resRow) (256 * cdiv x.resLen 256) else s
      s0.modFrond f fun y => { y with sfu := y.sfu.filter fun e => decide (e.2.1 ≠ g) }) s
    let s2 := { s1 with progs := tdel s1.progs g }
    if 0 < x.resLen then fs.foldl State.setResbase s2 else s2

/-- Disarming a partition's rings; the pages of its submission rings close (R457). -/
def State.disarmPart (s : State) (r : Fin 4) : State :=
  (List.finRange 4).foldl (fun s p =>
    let mine := (s.port p).rings.filter fun e => decide (e.2.part = r.val)
    let s1 := mine.foldl (fun s e => s.setPages p (e.2.base / 4096) e.2.size false) s
    s1.modPort p fun x => { x with rings := x.rings.filter fun e => decide (e.2.part ≠ r.val) }) s

/-- Window pages of an aperture and of its shadow, opened or closed (R425, R426, R433). -/
def State.aperPages (s : State) (p : Fin 4) (a : Nat) (v : Bool) : State :=
  (s.setPages p (0x200 + 0x100 * a) 0x100 v).setPages p (0x600 + 4 * a) 4 v

/-- Unmapping an aperture (R480). -/
def State.unmapAper (s : State) (p : Fin 4) (a : Nat) : State :=
  (s.aperPages p a false).modPort p fun x => { x with apers := tdel x.apers a }

/-- Whether an aperture is mapped on an allocation of a partition. -/
def State.aperOwner (s : State) (m : Aper) : Option (Fin 4) := (tfind s.allocs m.handle).map (·.part)

/-- Unmapping every aperture of a partition. -/
def State.unmapPart (s : State) (r : Fin 4) : State :=
  (List.finRange 4).foldl (fun s p =>
    ((s.port p).apers.filter fun e => decide (s.aperOwner e.2 = some r)).foldl (fun s e => s.unmapAper p e.1) s) s

/-- Fronds of a partition without an open Card. -/
def State.noCards (s : State) (r : Fin 4) : State :=
  ((List.finRange 4).filter fun f => decide (s.ownerOf f = some r)).foldl
    (fun s f => s.modFrond f fun x => { x with card := none, cardUse := .none }) s

/-- Open Cards of a partition run on as IDLE (R494). -/
def State.idleCards (s : State) (r : Fin 4) : State :=
  ((List.finRange 4).filter fun f => decide (s.ownerOf f = some r)).foldl
    (fun s f => s.modFrond f fun x => { x with cardUse := .none, late := false, swFrom := none, switching := none }) s

/-- Everything a release of a partition gives back (R495); its apertures are unmapped, its rings disarmed. -/
def State.releaseAll (s : State) (r : Fin 4) : State :=
  let s1 := (s.partJobs r).foldl State.cancelJob s
  let s2 := (s1.streamsOf r).foldl (fun s c => (if s.strmOn c then s.stopStream c else s).releaseStream c) s1
  let s3 := ((s2.groups.filter fun g => decide (g.part = r)).map (·.key)).foldl State.leaveGroup s2
  let s4 := ((s3.progs.filter fun e => decide (e.2.part = r)).map (·.1)).foldl State.unloadProg s3
  let s5 := (((s4.seqs.filter fun e => decide (e.2.part = r)).map (·.1)).foldl State.retireSeq s4).unmapPart r
  let s6 := ((s5.allocs.filter fun e => decide (e.2.part = r)).map (·.1)).foldl State.freeAlloc s5
  let s7 := { (s6.disarmPart r).noCards r with
    seqs := s6.seqs.filter fun e => decide (e.2.part ≠ r)
    dealer := match s6.dealer.cfg with
      | some c => if c.part = r then Dealer.reset else s6.dealer
      | none => s6.dealer
    ages := s6.ages.filter fun a => decide (a.part ≠ r) }
  s7.modPart r fun x => { Part.reset with dramQ := x.dramQ, matQ := x.matQ, timeQ := x.timeQ, timeNext := x.timeNext }

/-- The lost-host policy of a partition (R494). -/
def State.lostPolicy (s : State) (r : Fin 4) : State :=
  match s.owned r with
  | none => s
  | some o =>
    match o.policy with
    | .continue => s.modPart r fun x => { x with st := .orphaned }
    | .stop =>
      let s1 := (s.partJobs r).foldl State.cancelJob s
      let s2 := (s1.streamsOf r).foldl (fun s c => if s.strmOn c then s.stopStream c else s) s1
      (s2.idleCards r).modPart r fun x => { x with st := .orphaned, idleAll := true }
    | .reset => (s.l3 r).releaseAll r

/-- Partitions that a port holds. -/
def State.heldBy (s : State) (p : Fin 4) : List (Fin 4) :=
  (List.finRange 4).filter fun r => decide ((s.part r).st = .claimed ∧ (s.part r).port = p)

/-- A session closing (R472): rings other than 0 and 1 disarmed with their pages closed, then 0 and 1 armed afresh. -/
def State.closeSession (s : State) (p : Fin 4) : State :=
  let s1 := (s.port p).rings.foldl (fun s e => if e.1 ≤ 1 then s else s.setPages p (e.2.base / 4096) e.2.size false) s
  let s2 := s1.modPort p fun x => { x with rings := [], session := none }
  if s2.sys.st = .service ∨ s2.sys.st = .recovery ∨ s2.sys.st = .standby then s2.armSession p else s2

/-- A port entering LOST (R20, R441, R472, R494): nothing in the safe state but the heartbeat (R653). -/
def State.enterLost (s : State) (p : Fin 4) : State :=
  let s1 := s.modPort p fun x => { x with hb := .lost, irqStatus := 0 }
  let s2 := (s1.setRegF (oHpc p 0x18) 0 32 (min 0xFFFFFFFF ((s1.reg (oHpc p 0x18)).toNat + 1)))
  if s2.fcol.safe then s2
  else
    let held := s2.heldBy p
    held.foldl State.lostPolicy (s2.closeSession p)

/-- L4 of a host port (R446, R638). -/
def State.l4Port (s : State) (p : Fin 4) : State :=
  s.l4 (20 + p.val) fun s =>
    let s1 := (s.zeroRange (sramBase p) 0x00800000).modPort p Port.clear
    let s2 := s1.clearRegs fun o => decide (oHpc p 0 ≤ o ∧ o < oHpc p 0x10000 ∧ o ≠ oHpc p 0x18 ∧ o ≠ oHpc p 4)
    let s3 := (s.heldBy p).foldl State.lostPolicy s2
    ((s3.armSession p).irq p irqState).clearBroken (8 * (94 + p.val)) (8 * (94 + p.val) + 7)

end Sys2Proof.Machine
end

