-- ==== Sys2Proof/Machine/RegOps.lean ====
section
/-! DEFINITION. Writing registers with the behaviour their writes have (R5, R76, R87, R180, R194, R379, R401, R646, R649),
and access through group and all windows (R80 to R83, R341). -/

namespace Sys2Proof.Machine

/-! Registers with a behaviour of their own. -/

/-- A write that the fields of register `o` take by their access codes (R5, R8, R757). -/
def State.writeFields (s : State) (o : Nat) (v : Word) : State :=
  match regSpec o with
  | none => s
  | some r => s.setReg o (BitVec.ofNat 32 (regAfter r (s.reg o).toNat v.toNat))

/-- FRD_MAPOUT (R76): the fields take the write until LOCK stands. -/
def State.writeMapout (s : State) (f : Fin 4) (v : Word) : State := s.writeFields (oMapout f) v

/-- PIN_CTRL (R87): a 1 in INJ_RES marks the Pinna for the next operand row. -/
def State.writePinCtrl (s : State) (f : Fin 4) (p : Nat) (v : Word) : State :=
  if h : v.getLsbD 0 = true ∧ p < 68 then s.modFrond f fun x => { x with inj := x.inj ++ [⟨p, h.2⟩] } else s

/-- FRD_SP_REPAIR (R180): ignored while the Frond runs a kernel; what it writes is in force from the next kernel start. -/
def State.writeSpRepair (s : State) (f : Fin 4) (b sp : Nat) (v : Word) : State :=
  if (s.frond f).kernel.isSome then s else s.writeFields (oSpRepair f b sp) v

/-- Bytes written into spare storage from key `k` on, with fresh check bytes. -/
def State.putKeys (s : State) (k : Nat) : List Byte → State
  | [] => s
  | b :: t => ({ s with mem := tset memDefault s.mem k b, upsets := tset markDefault s.upsets (k / 8 * 8) .none }).putKeys (k + 1) t

/-- A field repair (R180, R197): firmware first copies the failing row into the spare's own storage, the row itself when it
reads back correctable, else the program's copy of a resident row or zeros, then the entry takes the write; nothing happens
while the Frond runs a kernel. -/
def State.repairSpRow (s : State) (f : Fin 4) (b sp : Nat) (v : Word) : State :=
  if (s.frond f).kernel.isSome then s
  else if v.getLsbD 31 then
    let a := 64 * (bits v.toNat 0 11 * 320 + b)
    let row := s.rdN (spBase f + a) 64
    let good := (s.marksIn (spBase f + a) 64).all fun e => e.2 ≠ .ue
    let copy := match (s.residents f).find? fun g => decide (64 * g.resRow ≤ a ∧ a + 64 ≤ 64 * g.resRow + g.resLen) with
      | some g => s.rdN (g.base + g.res + (a - 64 * g.resRow)) 64
      | none => List.replicate 64 0
    let d := if good then row else if s.resByte f ≤ a then copy else List.replicate 64 0
    (s.putKeys (spSpareKey f b sp) d).writeSpRepair f b sp v
  else s.writeSpRepair f b sp v

/-- FRD_SP_RESBASE (R194): ignored unless ROW is a multiple of 4 not above 655,360. -/
def State.writeResbase (s : State) (f : Fin 4) (v : Word) : State :=
  let row := bits v.toNat 0 20
  if row % 4 = 0 ∧ row ≤ 655360 then s.setReg (oResbase f) (BitVec.ofNat 32 row) else s

/-- DRC_MAT_REPAIR (R188, R198). -/
def State.writeMatRepair (s : State) (b sp : Nat) (v : Word) : State := s.writeFields (oMatRepair b sp) v

/-- Byte offset of row `row` of Mat bank `b` (R184). -/
def matRowOff (b row : Nat) : Nat := row / 4 * 16384 + b * 256 + row % 4 * 64

/-- Granules of the Mat whose field repair stands in NOR and not yet in its register (R188). -/
def State.matUnrepaired (s : State) : List Nat :=
  (s.nor.matRepair.filter fun e =>
    !((s.reg (oMatRepair e.1 e.2.1)).getLsbD 31 && decide (bits (s.reg (oMatRepair e.1 e.2.1)).toNat 0 12 = e.2.2))).map
      fun e => matRowOff e.1 e.2.2 / 65536

/-- Ranges of the Mat that allocations hold, or that are withheld or wait for a repair (R188, R657). -/
def State.matTaken (s : State) : List (Nat × Nat) :=
  (s.allocs.filterMap fun e => if e.2.region = 1 then some (e.2.base, e.2.size)
    else if 0 < e.2.matSize then some (e.2.matBase, e.2.matSize) else none)
    ++ (s.nor.withheld ++ s.matUnrepaired).map fun g => (matBase + 65536 * g, 65536)

/-- Gap of `n` bytes before `hi` in a sorted list of taken ranges. -/
def fitFrom (n hi : Nat) : Nat → List (Nat × Nat) → Option Nat
  | at_, [] => if at_ + n ≤ hi then some at_ else none
  | at_, (b, k) :: t => if at_ + n ≤ b then some at_ else fitFrom n hi (max at_ (b + k)) t

/-- First fit among ranges taken in any order. -/
def firstFit (lo hi n : Nat) (taken : List (Nat × Nat)) : Option Nat :=
  fitFrom n hi lo (taken.mergeSort fun a b => decide (a.1 ≤ b.1))

/-- Where an allocation stands in the Mat, as (address, size). -/
def Alloc.mat (a : Alloc) : Nat × Nat := if a.region = 1 then (a.base, a.size) else (a.matBase, a.matSize)

/-- Base of an allocation's part of the Mat changed. -/
def Alloc.matAt (a : Alloc) (b : Nat) : Alloc := if a.region = 1 then { a with base := b } else { a with matBase := b }

/-- The allocation that covers a byte of the Mat. -/
def State.matCover (s : State) (addr : Nat) : Option (Nat × Alloc) :=
  s.allocs.find? fun e => decide (e.2.mat.1 ≤ addr ∧ addr < e.2.mat.1 + e.2.mat.2 ∧ matBase ≤ e.2.mat.1)

/-- Stream slots that lie in a moved range go with it: STRM_BASE of the contexts of the range's partition (R347). -/
def State.moveSlots (s : State) (r : Fin 4) (lo n dest : Nat) : State :=
  s.streams.foldl (fun s e =>
    let b := (s.reg (oStrm e.1 0x18)).toNat + s.regF (oStrm e.1 0x1C) 0 16 * 2 ^ 32
    if e.2.owner = some r ∧ lo ≤ b ∧ b < lo + n then
      (s.setReg (oStrm e.1 0x18) (BitVec.ofNat 32 (dest + (b - lo)))).setRegF (oStrm e.1 0x1C) 0 16 ((dest + (b - lo)) / 2 ^ 32)
    else s) s

/-- Firmware moves an allocation's part of the Mat to other granules, content and BCWs with it (R188). DESIGN CHOICE
(notes/assumptions/93): the first free granules. -/
def State.moveMat (s : State) (h : Nat) (a : Alloc) (dest : Nat) : State :=
  let lo := a.mat.1
  let s1 := (List.range (a.mat.2 / 256)).foldl (fun s i =>
    let x := (s.reportMarks Who.firmware (lo + 256 * i) 256).checkBlock Who.firmware (lo + 256 * i)
    x.putBlock (dest + 256 * i) (x.block (lo + 256 * i)) (x.bcwAt (lo + 256 * i))) s
  ({ s1 with allocs := tput s1.allocs h (a.matAt dest) }).moveSlots a.part lo a.mat.2 dest

/-- A Mat field repair by firmware (R188): a covering allocation is moved first, and nothing is written when it cannot be; the
row's content goes into the spare. -/
def State.repairMatRow (s : State) (b sp : Nat) (v : Word) : State :=
  if v.getLsbD 31 then
    let addr := matBase + matRowOff b (bits v.toNat 0 12)
    let fix := fun (s : State) => (s.putKeys (matSpareKey b sp) (s.rdN addr 64)).writeMatRepair b sp v
    match s.matCover addr with
    | none => fix s
    | some (h, a) =>
      match firstFit matBase (matBase + 0xFF0000) a.mat.2
          ((addr / 65536 * 65536, 65536) :: s.matTaken) with
      | none => s
      | some dest => fix (s.moveMat h a dest)
  else s.writeMatRepair b sp v

/-- TIME_INC_INT (R379, R401): INT and FRAC wait for the next REFCLK tick. An INT outside 25 to 27 is reserved (R8): the write then
applies nothing, not the waiting FRAC either (DESIGN CHOICE, notes/assumptions/105). -/
def State.writeIncInt (s : State) (v : Word) : State :=
  let i := bits v.toNat 0 8
  if 25 ≤ i ∧ i ≤ 27 then
    let s1 := s.writeFields (oTime 0x14) v
    { s1 with time := { s1.time with incPend := some (BitVec.ofNat 64 (i * 2 ^ 32 + (s1.reg (oTime 0x10)).toNat)) } }
  else s

/-- TIME_TRIG_CTRL of trigger `n` (R401): EN 1 arms the series from edge 0 and clears MISS_CNT; EN 0 stops it at once. -/
def State.writeTrigCtrl (s : State) (n : Nat) (v : Word) : State :=
  let s1 := s.writeFields (oTime (0x100 + 0x20 * n)) v
  if v.getLsbD 0 then
    { s1.setReg (oTime (0x11C + 0x20 * n)) 0 with time := { s1.time with trig := s1.time.trig.set n ⟨true, 0, none⟩ } }
  else { s1 with time := { s1.time with trig := s1.time.trig.set n ⟨false, 0, none⟩ } }

/-- FCOL_ACK (R646, R662): the deadline of a pending SEQ is cancelled. -/
def State.writeAck (s : State) (v : Word) : State :=
  { s with fcol := { s.fcol with pending := s.fcol.pending.filter fun e => decide (e.1 ≠ v.toNat) } }

/-- An error presented at a source's pair input (R649): its record, and the step that the source alone fixes. -/
def State.force (s : State) (src : Nat) : State :=
  let l2 := decide (src % 8 = 5 ∧ src / 8 < 64 ∧ src / 8 % 16 = 0)
  let e : Ev := { src := src, cause := 0, req := 0, forced := true,
                  stepNo := if l2 then 2 else if classOf src = 2 then 6 else 0xFF }
  let s1 := s.raise e
  if l2 && !s.fcolBit 0x400 src then s1.l2 ⟨src / 8 / 16 % 4, Nat.mod_lt _ (by decide)⟩ else s1

/-- Starting a hold (R649): nothing when the source is absent or held. -/
def State.forceHold (s : State) (src : Nat) : State :=
  if srcPresent src && !s.fcolBit 0x200 src then (s.force src).setFcolBit 0x200 src true else s

/-- Ending a hold. -/
def State.forceRelease (s : State) (src : Nat) : State := s.setFcolBit 0x200 src false

/-- One TCLK of error (R649): a held source shows no change. -/
def State.forcePulse (s : State) (src : Nat) : State :=
  if srcPresent src && !s.fcolBit 0x200 src then s.force src else s

/-- FCOL_FORCE_HOLD word `i` (R649, R662). -/
def State.writeForceHold (s : State) (i : Nat) (v : Word) : State :=
  (List.range 32).foldl (fun s b =>
    if v.getLsbD b then s.forceHold (32 * i + b) else s.forceRelease (32 * i + b)) s

/-- FCOL_FORCE_PULSE word `i` (R649, R662). -/
def State.writeForcePulse (s : State) (i : Nat) (v : Word) : State :=
  (List.range 32).foldl (fun s b => if v.getLsbD b then s.forcePulse (32 * i + b) else s) s

/-- PWR_THERM_CFG (R684). -/
def State.writeThermCfg (s : State) (v : Word) : State :=
  s.setReg (oPwr 0x20) (BitVec.ofNat 32 (thermAfter (s.reg (oPwr 0x20)).toNat v.toNat))

/-! One register. -/

/-- A write inside a Frond's block. -/
def State.writeFrondReg (s : State) (f : Fin 4) (x : Nat) (v : Word) : State :=
  if x = 0x10 then s.writeMapout f v
  else if x = 0x40004 then s.writeResbase f v
  else match arr 0x44000 4 10240 x with
    | some i => s.writeSpRepair f (i / 32) (i % 32) v
    | none =>
      if 0x10000 ≤ x ∧ x < 0x21000 ∧ x % 0x400 = 8 then s.writePinCtrl f ((x - 0x10000) / 0x400) v
      else s.writeFields (oFrd f x) v

/-- A write of one register that is not a window. -/
def State.writeReg (s : State) (o : Nat) (v : Word) : State :=
  match inFrond o with
  | some (f, x) => s.writeFrondReg f x v
  | none =>
    match arr 0x04F01000 4 1024 o with
    | some i => s.writeMatRepair (i / 16) (i % 16) v
    | none =>
      if (match inStream o with | some (_, x) => decide (x = 0) | none => false) then
        s.setReg o (BitVec.ofNat 32 (strmCfgAfter (s.reg o).toNat v.toNat))
      else if o = oTime 0x14 then s.writeIncInt v
      else if o = oFcol 0xC then s.writeAck v
      else if o = oPwr 0x20 then s.writeThermCfg v
      else match arr (oTime 0x100) 0x20 8 o with
        | some n => s.writeTrigCtrl n v
        | none => match arr (oFcol 0x200) 4 32 o with
          | some i => s.writeForceHold i v
          | none => match arr (oFcol 0x300) 4 32 o with
            | some i => s.writeForcePulse i v
            | none => s.writeFields o v

/-- A write of one register by firmware: its repairs are made as R180 and R188 have it. -/
def State.fwWriteReg (s : State) (o : Nat) (v : Word) : State :=
  match inFrond o with
  | some (f, x) => match arr 0x44000 4 10240 x with
    | some i => s.repairSpRow f (i / 32) (i % 32) v
    | none => s.writeReg o v
  | none => match arr 0x04F01000 4 1024 o with
    | some i => s.repairMatRow (i / 16) (i % 16) v
    | none => s.writeReg o v

/-! Windows. -/

/-- Whether a Frond is a member of the Frond windows for a caller (R83); `none` is firmware or a debugger. -/
def State.frondMember (s : State) (caller : Option (Fin 4)) (f : Fin 4) : Bool :=
  (match caller with | none => true | some r => decide (s.ownerOf f = some r))
    && decide ((s.frond f).astate.val ≤ 1) && !(s.frond f).retired

/-- Whether a stream context is a member of the stream windows for a caller (R341). -/
def State.streamMember (s : State) (caller : Option (Fin 4)) (c : Nat) : Bool :=
  match caller with | none => true | some r => decide ((s.stream c).owner = some r)

/-- Bit `b` of an array of mask words. -/
def State.maskBit (s : State) (o b : Nat) : Bool := (s.reg (o + 4 * (b / 32))).getLsbD (b % 32)

/-- A window: the offsets its members have for the register named, and its status register. -/
structure Window where
  members : List Nat
  status : Nat
  deriving DecidableEq, Repr

/-- The Pinna windows of a Frond (R71, R84). -/
def State.pinWindow (s : State) (o : Nat) : Option Window :=
  match inFrond o with
  | none => none
  | some (f, x) =>
    if 0x30000 ≤ x ∧ x < 0x30400 then
      some ⟨((List.range 68).filter (s.maskBit (oFrd f 0x30))).map fun p => oFrd f (0x10000 + 0x400 * p + (x - 0x30000)),
        oFrd f 0x3C⟩
    else if 0x38000 ≤ x ∧ x < 0x38400 then
      some ⟨(List.range 68).map fun p => oFrd f (0x10000 + 0x400 * p + (x - 0x38000)), oFrd f 0x3C⟩
    else none

/-- The Frond and stream windows (R25, R83, R341). -/
def State.outerWindow (s : State) (caller : Option (Fin 4)) (o : Nat) : Option Window :=
  if 0x02800000 ≤ o ∧ o < 0x02900000 then
    some ⟨((List.finRange 4).filter fun f => s.frondMember caller f && s.maskBit 0x02F00000 f.val).map
      fun f => oFrd f (o - 0x02800000), 0x02F00004⟩
  else if 0x02C00000 ≤ o ∧ o < 0x02D00000 then
    some ⟨((List.finRange 4).filter fun f => s.frondMember caller f).map fun f => oFrd f (o - 0x02C00000), 0x02F00004⟩
  else if 0x03F00000 ≤ o ∧ o < 0x03F01000 then
    some ⟨((List.range 96).filter fun c => s.streamMember caller c && s.maskBit 0x030000A0 c).map
      fun c => oStrm c (o - 0x03F00000), 0x030000AC⟩
  else if 0x03F80000 ≤ o ∧ o < 0x03F81000 then
    some ⟨((List.range 96).filter fun c => s.streamMember caller c).map fun c => oStrm c (o - 0x03F80000), 0x030000AC⟩
  else none

/-- The register that stands for an offset when it is asked whether it holds one (R27, R84). -/
def unwindow (o : Nat) : Nat :=
  let o1 := if 0x02800000 ≤ o ∧ o < 0x02900000 then o - 0x00800000
    else if 0x02C00000 ≤ o ∧ o < 0x02D00000 then o - 0x00C00000
    else if 0x03F00000 ≤ o ∧ o < 0x03F01000 then o - 0x00E00000
    else if 0x03F80000 ≤ o ∧ o < 0x03F81000 then o - 0x00E80000
    else o
  match inFrond o1 with
  | some (f, x) => if (0x30000 ≤ x ∧ x < 0x30400) ∨ (0x38000 ≤ x ∧ x < 0x38400) then oFrd f (0x10000 + x % 0x400) else o1
  | none => o1

/-- Whether an offset holds a register (R27). -/
def isReg (o : Nat) : Bool := (regSpec (unwindow o)).isSome

/-- A read through a window (R81, R82), each member read by `rd`. -/
def windowRead (rd : State → Nat → Word × State) (s : State) (w : Window) : Word × State :=
  match w.members with
  | [] => (0, s.setRegF w.status 1 1 1)
  | o :: rest =>
    let r := rd s o
    let rs := rest.foldl (fun (a : Bool × State) o => let q := rd a.2 o; (a.1 || decide (q.1 ≠ r.1), q.2)) (false, r.2)
    (r.1, if rs.1 then rs.2.setRegF w.status 0 1 1 else rs.2)

/-- A write through a window (R81, R82), each member written by `wr`. -/
def windowWrite (wr : State → Nat → State) (s : State) (w : Window) : State :=
  match w.members with
  | [] => s.setRegF w.status 1 1 1
  | l => l.foldl wr s

/-- Reading a register or a Pinna window of one Frond. -/
def State.readInner (s : State) (o : Nat) : Word × State :=
  match s.pinWindow o with
  | some w => windowRead State.readReg s w
  | none => s.readReg o

/-- Reading any register offset for a caller. -/
def State.readAny (s : State) (caller : Option (Fin 4)) (o : Nat) : Word × State :=
  match s.outerWindow caller o with
  | some w => windowRead State.readInner s w
  | none => s.readInner o

/-- Writing a register or a Pinna window of one Frond, each register written by `wr`. -/
def State.writeInner (wr : State → Nat → Word → State) (s : State) (o : Nat) (v : Word) : State :=
  match s.pinWindow o with
  | some w => windowWrite (fun s o => wr s o v) s w
  | none => wr s o v

/-- Writing any register offset for a caller, each register written by `wr`. -/
def State.writeVia (wr : State → Nat → Word → State) (s : State) (caller : Option (Fin 4)) (o : Nat) (v : Word) : State :=
  match s.outerWindow caller o with
  | some w => windowWrite (fun s o => s.writeInner wr o v) s w
  | none => s.writeInner wr o v

/-- Writing any register offset for a caller. -/
def State.writeAny (s : State) (caller : Option (Fin 4)) (o : Nat) (v : Word) : State := s.writeVia State.writeReg caller o v

/-- Writing any register offset by firmware. -/
def State.fwWrite (s : State) (o : Nat) (v : Word) : State := s.writeVia State.fwWriteReg none o v

/-! Privilege of a partition (R5, R27, R28, R83, R341, R450, R523). -/

/-- Whether a register offset is outside a partition's privilege for reading. -/
def State.noRegRead (s : State) (r : Fin 4) (o : Nat) : Bool :=
  match inFrond o with
  | some (f, _) => decide (s.ownerOf f ≠ some r)
  | none => match inStream o with
    | some (c, _) => decide ((s.stream c.val).owner ≠ some r)
    | none =>
      if 0x00100000 ≤ o ∧ o < 0x00100400 then
        decide (s.ownerOf ⟨(o - 0x00100000) / 0x100 % 4, Nat.mod_lt _ (by decide)⟩ ≠ some r)
      else if 0x04800000 ≤ o ∧ o < 0x04840000 then
        !(decide ((s.part r).port.val = (o - 0x04800000) / 0x10000) || (s.part r).mgmt)
      else decide (0x08000000 ≤ o ∧ o < 0x09000000)

/-- Whether an offset names the unicast block of an own Frond whose logic is off (R83). -/
def State.frondOff (s : State) (r : Fin 4) (o : Nat) : Bool :=
  match inFrond o with
  | some (f, _) => decide (s.ownerOf f = some r ∧ 1 < (s.frond f).astate.val) || (decide (s.ownerOf f = some r) && (s.frond f).retired)
  | none => false

/-- Who may write registers outside Ebwick: firmware that is not halted, or a debugger at FULL (R5, R702, R706). -/
def State.mayWrite (s : State) (w : Writer) : Bool :=
  match w with
  | .firmware => !s.dbg.halted.contains 4
  | .debug => decide (s.dbg.level = 2)

/-- A DEBUG entry in every unfinished instance (R706): its faults name unit 117, CAUSE 0. -/
def State.debugEntry (s : State) : State :=
  (s.jobs.map (·.1)).foldl (fun s j => match s.job j with
    | none => s
    | some x => s.checkFail ⟨j, x.prog, x.kernel, 0xFF, x.part.val, 0xFF⟩ 117 1 0 0 0) s

/-- A register write by firmware or a debugger (R5, R702, R706). -/
def State.writeAs (s : State) (w : Writer) (act : State → State) : State :=
  if s.mayWrite w then act (match w with
    | .firmware => s
    | .debug => s.debugEntry)
  else s

end Sys2Proof.Machine
end

