-- ==== Sys2Proof/Machine/StipeOps.lean ====
section
/-! DEFINITION. What every unit of a Frond shares: the instruction at a queue's issue stage, token conditions and completions
(R123 to R131, R138), writes into the scratchpad with the resident area and the race monitor (R154, R176), indications
of the running job. -/

namespace Sys2Proof.Machine

/-- A queue of the running kernel. -/
def Frond.queue (x : Frond) (q : Nat) : Option Queue := if x.kernel.isSome then tfind x.queues q else none

/-- Changing a queue. -/
def State.modQueue (s : State) (f : Fin 4) (q : Nat) (g : Queue → Queue) : State :=
  s.modFrond f fun x => { x with queues := tmod x.queues q g }

/-- Value of a token counter. -/
def Frond.token (x : Frond) (t : Nat) : BitVec 16 := tget (fun _ => 0) x.tok t

/-- Adding to a token counter (R138). -/
def Frond.addToken (x : Frond) (t n : Nat) : Frond := { x with tok := tset (fun _ => 0) x.tok t (tokAdd (x.token t) n) }

/-- Whether a debugger holds the Frond's Stipe (R706): halted, with no step left. -/
def State.stipeHalted (s : State) (f : Fin 4) : Bool :=
  s.dbg.halted.contains (BitVec.ofNat 4 f.val) && !s.dbg.stepped.contains (BitVec.ofNat 4 f.val)

/-- A step of a halted Stipe is used up by what the Stipe does. -/
def State.useStep (s : State) (f : Fin 4) : State :=
  { s with dbg := { s.dbg with stepped := s.dbg.stepped.filter fun t => decide (t ≠ BitVec.ofNat 4 f.val) } }

/-- The instruction standing at a queue's issue stage, of class `cls`. -/
def State.slotIns (s : State) (f : Fin 4) (q cls : Nat) : Option IWord :=
  match (s.frond f).queue q with
  | none => none
  | some u => match u.slot with
    | none => none
    | some w => if opc w = cls ∧ s.stipeHalted f = false then some w else none

/-- Classes that a unit which several queues can feed issues: VEC and SFU, DMA, SORUS (R120, R129). -/
def unitClass (cls : Nat) : Bool := cls = 8 || cls = 9 || cls = 0xC || cls = 0x14

/-- Whether a queue of lower number and the same kind has an instruction of its unit able to issue (R125). DEDUCED
(notes/assumptions/51): the instructions of the Stipe itself, TOK.WAIT, TOK.SIG, BAR and END, take no unit's turn. -/
def Frond.outrun (x : Frond) (q : Nat) : Bool :=
  match tfind x.queues q with
  | none => false
  | some u => x.queues.any fun e => decide (e.1 < q ∧ e.2.kind = u.kind) && (match e.2.slot with
    | some w => unitClass (opc w) && tokOk w (x.token (wtok w)).toNat
    | none => false)

/-- The same with the token condition of R131 and, for a unit's instruction, the turn of R125. -/
def State.readyIns (s : State) (f : Fin 4) (q cls : Nat) : Option IWord :=
  match s.slotIns f q cls with
  | none => none
  | some w =>
    if tokOk w ((s.frond f).token (wtok w)).toNat && !(unitClass cls && (s.frond f).outrun q) then some w else none

/-- An instruction leaves the issue stage and is in progress (R123, R127). -/
def State.issueIns (s : State) (f : Fin 4) (q : Nat) : State :=
  (s.useStep f).modQueue f q fun u => { u with slot := none, busy := u.busy + 1 }

/-- An instruction in progress completes: its completion token (R128). -/
def State.finishIns (s : State) (f : Fin 4) (q : Nat) (w : IWord) : State :=
  let s1 := s.modQueue f q fun u => { u with busy := u.busy - 1 }
  if sen w then s1.modFrond f fun x => x.addToken (stok w) 1 else s1

/-- An instruction that issues and completes at once. -/
def State.runIns (s : State) (f : Fin 4) (q : Nat) (w : IWord) : State := (s.issueIns f q).finishIns f q w

/-- The program the Frond runs. -/
def State.progOf (s : State) (f : Fin 4) : Option Prog :=
  match (s.frond f).kernel with
  | none => none
  | some k => tfind s.progs k.prog

/-- The 32 bytes of a descriptor of the running program (R136). -/
def State.desc (s : State) (f : Fin 4) (i : Nat) : List Byte :=
  match s.progOf f with
  | none => slice [] 0 32
  | some g => slice g.descs (32 * i) 32

/-- The partition whose kernel runs on a Frond. -/
def State.partOn (s : State) (f : Fin 4) : Option (Fin 4) :=
  match (s.frond f).kernel with
  | none => none
  | some k => (s.job k.job).map (·.part)

/-- Whether a Frond runs a kernel of a partition in EXACT. -/
def State.exactOn (s : State) (f : Fin 4) : Bool :=
  match s.partOn f with
  | none => false
  | some r => decide ((s.part r).mode = .exact)

/-- Changing the job whose kernel a Frond runs. -/
def State.modJobOn (s : State) (f : Fin 4) (g : Job → Job) : State :=
  match (s.frond f).kernel with
  | none => s
  | some k => s.modJob k.job g

/-- The NONFINITE indication of the running job (R95). -/
def State.setNonfinite (s : State) (f : Fin 4) (b : Bool) : State :=
  if b then s.modJobOn f fun x => { x with nonfinite := true } else s

/-- The list with its first element that satisfies `p` changed. -/
def modFirst {α : Type} (p : α → Bool) (g : α → α) : List α → List α
  | [] => []
  | a :: t => if p a then g a :: t else a :: modFirst p g t

/-! Rows reserved by the feeder. -/

/-- LOADW in wide mode fills both sets (R43). -/
def LoadwF.wide (l : LoadwF) : Bool := l.wfmt = 4 || l.wfmt = 5
/-- Whether a LOADW reads an exponent row (R93). -/
def LoadwF.fp (l : LoadwF) : Bool := decide (2 ≤ l.wfmt)
/-- Rows of cell row `i`, with the exponent row in the first FCLK (R758). -/
def LoadwF.rowsAt (l : LoadwF) (i : Nat) : List Nat :=
  let (cr, rr) := weightRows l
  if cr ≤ i then []
  else (List.range rr).map (l.src + i * rr + ·) ++ (if i = 0 && l.fp then (List.range 16).map (l.src + cr * rr + ·) else [])

/-- Rows a STREAM or GANG in flight fetches for its `i`-th next operand row (R758); the value rows that its headers leave
unused are released (R219). -/
def State.rowsAhead (s : State) (f : Fin 4) (r : StreamRun) (i : Nat) : List Nat :=
  if r.entered + i < r.total then
    let t := streamF r.ins
    instrFetch t (geoOf (s.desc f t.geo)) (some r.hdrs) ((r.entered + i) % t.m)
  else []

/-- Rows a STREAM or GANG in flight will still fetch (R51, R758). -/
def State.reservedBy (s : State) (f : Fin 4) (r : StreamRun) : List Nat :=
  (List.range (r.total - r.entered)).flatMap (s.rowsAhead f r)

/-- Rows a LOADW in flight will still fetch (R51, R758). -/
def LoadRun.reserved (r : LoadRun) : List Nat :=
  ((List.range (weightRows (loadwF r.ins)).1).drop r.fetched).flatMap (loadwF r.ins).rowsAt

/-- Rows for which the feeder holds a reservation (R51, R154). -/
def State.reserved (s : State) (f : Fin 4) : List Nat :=
  (s.frond f).streams.flatMap (s.reservedBy f) ++ (s.frond f).loads.flatMap LoadRun.reserved

/-- Operand rows still to enter, all streams in flight together: they enter one per FCLK, one stream after the other (R60). -/
def Frond.rowsLeft (x : Frond) : Nat := (x.streams.map fun r => r.total - r.entered).foldl (· + ·) 0

/-- Rows the streams of a list fetch in the `i`-th FCLK from now, one stream after the other (R60, R758). -/
def State.streamFetch (s : State) (f : Fin 4) : List StreamRun → Nat → List Nat
  | [], _ => []
  | r :: t, i =>
    if i < r.total - r.entered then s.rowsAhead f r i else s.streamFetch f t (i - (r.total - r.entered))

/-- Rows that the issued LOADW, STREAM and GANG fetch in the `i`-th FCLK from now (R51, R758). DEDUCED
(notes/assumptions/80): the FCLK that enters the next operand row is the FCLK of that row's fetches and of one cell row
of each LOADW. -/
def State.fetchAt (s : State) (f : Fin 4) (i : Nat) : List Nat :=
  s.streamFetch f (s.frond f).streams i ++ (s.frond f).loads.flatMap fun r => (loadwF r.ins).rowsAt (r.fetched + i)

/-- Whether every fetch of an instruction that would issue now finds its read slot: in each FCLK its rows with those of the
instructions issued before it, a row that two of them name taking one slot (R51). -/
def State.slotsFor (s : State) (f : Fin 4) (fetches : List (Nat × List Nat)) : Bool :=
  fetches.all fun e => slotsOk (e.2 ++ s.fetchAt f e.1).dedup

/-! Scratchpad writes of a unit. -/

/-- Counting a race and locating it (R154, R161). -/
def State.noteRace (s : State) (f : Fin 4) (win lose row : Nat) : State :=
  (s.count (oFrd f 0x4014) 1).setReg (oFrd f 0x4018)
    (BitVec.ofNat 32 (win * 2 ^ 23 + lose * 2 ^ 20 + row % 320 * 2 ^ 11 + row / 320))

/-- Counting lost accesses (R155). -/
def State.noteConflict (s : State) (f : Fin 4) (n : Nat) : State := s.count (oFrd f 0x4010) n

/-- Reserved rows that a write touches: each is a race of the second kind (R154). -/
def State.raceRows (s : State) (f : Fin 4) (p : PendWrite) : List Nat :=
  (rowsOf p.addr p.data.length).filter (s.reserved f).contains

/-- One write of a unit of a running kernel, and whether it is a program fault: into the resident area it is discarded
and counted (R176); each row of it that the feeder has reserved is a race (R154). -/
def State.spStore (s : State) (w : Who) (f : Fin 4) (unitCode : Nat) (p : PendWrite) : State × Bool :=
  if p.data.isEmpty then (s, false)
  else if s.resByte f < p.addr + p.data.length then (s.count (oFrd f 0x4001C) 1, true)
  else
    let rs := s.raceRows f p
    (rs.foldl (fun s r => s.noteRace f 0 unitCode r) (s.storeChecked w (spBase f + p.addr) p.data), !rs.isEmpty)

/-- Sub-unit of a Frond that an opcode's class drives (R635). -/
def subOfOp (op : Nat) : Nat :=
  if op = 4 then 3 else if op = 8 then 4 else if op = 9 then 5 else if op = 0x10 then 6 else 7

/-- After a unit has written the block at an address: where its overlap check has failed the BCW is the complement (R606). -/
def State.overlapEnd (s : State) (f : Fin 4) (op a : Nat) : State :=
  if (s.frond f).overlap.contains (subOfOp op) then
    (s.setBcw a (~~~(s.bcwAt a))).modFrond f fun x => { x with overlap := x.overlap.filter (· ≠ subOfOp op) }
  else s

/-- A list of writes of a unit. -/
def State.spStoreAll (s : State) (w : Who) (f : Fin 4) (unitCode : Nat) (l : List PendWrite) : State × Bool :=
  let r := l.foldl (fun (a : State × Bool) p => let r := a.1.spStore w f unitCode p; (r.1, a.2 || r.2)) (s, false)
  match l.find? fun p => !p.data.isEmpty with
  | some p => (r.1.overlapEnd f w.opcode (spBase f + p.addr), r.2)
  | none => r

/-- What a reading instruction reports of rows it reads, given those it read before: SEC-DED of each row, and the BCW of
each block whose fourth row this completes (R168 to R170). -/
def State.reportFetch (s : State) (w : Who) (f : Fin 4) (seen rows : List Nat) : State :=
  let s1 := rows.foldl (fun s r => s.reportMarks w (spBase f + 64 * r) 64) s
  let all := seen ++ rows
  let blocks := ((rows.filter fun r => !seen.contains r).map (· / 4)).dedup
  blocks.foldl (fun s b => if (List.range 4).all fun i => all.contains (4 * b + i) then
    s.checkBlock w (spBase f + 256 * b) else s) s1

/-- Ending a unit's command: with a program fault the kernel is aborted at L1 (R65, R154, R176). -/
def State.orFault (r : State × Bool) (f : Fin 4) (op : Nat) : State := if r.2 then r.1.progFault f op 0 else r.1

end Sys2Proof.Machine
end

