-- ==== Sys2Proof/Machine/DramOps.lean ====
section
/-! DEFINITION. Requests to the DRAM controllers and the refresh windows that hold them (R529 to R531, R533). -/

namespace Sys2Proof.Machine

/-- On whose behalf a requester of main memory acts (R761). -/
def State.memWho (s : State) : MemUnit → Who
  | .rhizoid u => Who.unit (64 + u.val)
  | .hezor l => Who.unit (98 + l.val)
  | .frond f _ => s.frondWho f 0xC
  | .aperture p => Who.unit (94 + p.val)
  | .firmware => Who.firmware

/-- The class C fault of a channel that asks for more than 1x while a partition runs in EXACT (R535). -/
def State.noteHot (s : State) (ch : Nat) : State := s.raise { src := srcOf (76 + ch / 2) 0, cause := 0, sub := ch % 2 * 2 ^ 31 }

/-- A partition comes to run in EXACT: every channel that asks for more than 1x enters the condition of R535. -/
def State.hotExact (s : State) : State := s.hot.foldl State.noteHot s

/-- Whether a refresh window is open (R533): a REFRESH Card runs, which it does only in EXACT. -/
def State.window (s : State) : Bool := (List.finRange 4).any fun f => decide ((s.frond f).cardUse = .refresh)

/-- A request as its controller serves it (R529 to R531): a read of 32-byte units with their ECC, which checks no BCW (R538); the
whole block that holds the address with its BCW, fewer than 256 bytes followed by zeros and no more counted; or a merge. -/
def State.dramServe (s : State) (r : DramReq) : State :=
  match r.act with
  | .read units =>
    let a := r.addr.toNat / 32 * 32
    if a + 32 * units ≤ dramEnd then
      { s.reportMarks (s.memWho r.unit) a (32 * units) with out := s.rdN a (32 * units) }
    else s
  | .write data bcw =>
    let a := r.addr.toNat / 256 * 256
    if a + 256 ≤ dramEnd then s.putBlock a (slice data 0 256) bcw else s
  | .merge data =>
    if r.addr.toNat + data.length ≤ dramEnd then
      (blockPieces (data.length / 256 + 2) r.addr.toNat data).foldl (fun s e => s.mergeChecked (s.memWho r.unit) e.1 e.2) s
    else s

/-- The requests that a window has held are served in their order of arrival once none is open (R530, R533). -/
def State.dramGoOn (s : State) : State :=
  if s.window then s else s.dramWait.foldl State.dramServe { s with dramWait := [] }

/-- A request to the controllers: one that arrives during a window waits until the window ends (R533). -/
def State.dramAccess (s : State) (r : DramReq) : State :=
  if s.window then { s with dramWait := s.dramWait ++ [r] } else s.dramGoOn.dramServe r

end Sys2Proof.Machine
end

