-- ==== Sys2Proof/Machine/Array.lean ====
section
/-! DEFINITION. The MAC array: weight loading, operand rows, accumulators, drain (R41 to R70, R90 to R110, R200 to R219). -/

namespace Sys2Proof.Machine

/-! Halves and sets. -/

/-- Weight set `i`. -/
def Frond.wset (x : Frond) (i : Nat) : WeightSet := if i = 0 then x.set0 else x.set1
/-- Replacing weight set `i`. -/
def Frond.putSet (x : Frond) (i : Nat) (w : WeightSet) : Frond := if i = 0 then { x with set0 := w } else { x with set1 := w }
/-- Accumulator half `i`. -/
def Frond.half (x : Frond) (i : Nat) : Half := if i = 0 then x.half0 else x.half1
/-- Replacing half `i`. -/
def Frond.putHalf (x : Frond) (i : Nat) (h : Half) : Frond := if i = 0 then { x with half0 := h } else { x with half1 := h }
/-- Halves of a target (R53). -/
def targetHalves (t : Nat) : List Nat := if t = 2 then [0, 1] else [t % 2]
/-- Changing every half of a target. -/
def Frond.modTarget (x : Frond) (t : Nat) (g : Half → Half) : Frond :=
  (targetHalves t).foldl (fun x i => x.putHalf i (g (x.half i))) x
/-- Whether every half of a target is in a state. -/
def Frond.targetIs (x : Frond) (t : Nat) (st : HalfSt) : Bool := (targetHalves t).all fun i => decide ((x.half i).st = st)
/-- Whether some half of a target is in a state. -/
def Frond.targetAny (x : Frond) (t : Nat) (st : HalfSt) : Bool := (targetHalves t).any fun i => decide ((x.half i).st = st)
/-- Half and row that hold entry `e` of a target: WHOLE runs on into half 1, but for a WIDE tile (R53, R102). -/
def entryAt (t e : Nat) (wide : Bool) : Nat × Nat :=
  if t = 2 then (if wide || decide (e < 1024) then (0, e) else (1, e - 1024)) else (t % 2, e)

/-- Whether FRD_MAPOUT is locked (R58, R77). -/
def State.mapLocked (s : State) (f : Fin 4) : Bool := (s.reg (oMapout f)).getLsbD 31

/-! LOADW (R41 to R44, R93 to R96, R100). -/

/-- Sets that a LOADW fills. -/
def LoadwF.sets (l : LoadwF) : List Nat := if l.wide then [0, 1] else [l.set]
/-- Whether a set is neither loading nor in use (R42). -/
def Frond.setIdle (x : Frond) (i : Nat) : Bool := decide ((x.wset i).st ≠ .loading) && !x.setInUse i

/-- Issue conditions of a LOADW (R42, R51, R77): sets idle, and a read slot for every cell row, row `i` in the `i`-th FCLK
(R758). -/
def State.loadwCan (s : State) (f : Fin 4) (l : LoadwF) : Bool :=
  s.mapLocked f && l.sets.all (s.frond f).setIdle &&
    s.slotsFor f ((List.range (weightRows l).1).map fun i => (i, l.rowsAt i))

/-- The part of an aligned weight that set `i` holds: the high or low half of a WIDE weight (R100). -/
def LoadwF.part (l : LoadwF) (i : Nat) (a : Int) : Int := if l.wide then (if i = 0 then wideHi a else wideLo a) else a

/-- A weight set as its LOADW issues: nothing placed yet. -/
def LoadwF.opened (l : LoadwF) (ys : List Int) : WeightSet :=
  { st := .loading, wfmt := l.wfmt, n := l.n, mirror := l.mirror, cells := [], ycol := ys }

/-- Aligned weights of cell row `i`: one reduction index, two in INT4 (R33, R94). -/
def cellRow (rd : Reader) (l : LoadwF) (ys : List Int) (i : Nat) : List (List Aligned) :=
  (if l.wfmt = 1 then (if 2 * i + 1 < l.k then [2 * i, 2 * i + 1] else [2 * i]) else [i]).map fun k => weightRow rd l ys k

/-- Whether a LOADW has a cell row to fetch. -/
def LoadRun.more (r : LoadRun) : Bool := decide (r.fetched < (weightRows (loadwF r.ins)).1)

/-- A LOADW with one more cell row fetched from `rows`. -/
def LoadRun.advance (r : LoadRun) (rows : List Nat) : LoadRun :=
  { r with fetched := r.fetched + 1, seen := (r.seen ++ rows).dedup }

/-- The LOADW in flight that fills set `i`: at most one by R42. -/
def Frond.loadOf (x : Frond) (i : Nat) : Option LoadRun := x.loads.find? fun r => (loadwF r.ins).sets.contains i

/-- A weight set with one cell row more. -/
def WeightSet.place (w : WeightSet) (l : LoadwF) (i : Nat) (row : List (List Aligned)) : WeightSet :=
  { w with cells := w.cells ++ row.map fun t => t.map fun a => l.part i a.v }

/-- The next cell row of a LOADW in flight is fetched, checked, aligned and placed (R41, R43 to R45, R758); the flag says that
an aligned weight passed its bound (R96). -/
def State.placeRow (s : State) (f : Fin 4) (r : LoadRun) : State × Bool :=
  let l := loadwF r.ins
  let row := cellRow (s.spReader f) l (((s.frond f).wset (l.sets.headD 0)).ycol) r.fetched
  let rows := l.rowsAt r.fetched
  let s1 := s.reportFetch (s.frondWho f 1) f r.seen rows
  let s2 := s1.setNonfinite f (row.any fun t => t.any (·.nonfinite))
  (s2.modFrond f fun x =>
    let y := l.sets.foldl (fun x i => x.putSet i ((x.wset i).place l i row)) x
    { y with loads := modFirst (fun e => decide (e = r)) (fun e => e.advance rows) y.loads },
   row.any fun t => t.any (·.past))

/-- One FCLK of the LOADW that fills set `i`. -/
def State.loadRow (s : State) (f : Fin 4) (i : Nat) : State × Bool :=
  match (s.frond f).loadOf i with
  | none => (s, false)
  | some r => if r.more then s.placeRow f r else (s, false)

/-- `n` FCLK of the LOADW that fills set `i`. -/
def State.loadRows (s : State) (f : Fin 4) (i n : Nat) : State × Bool :=
  (List.range n).foldl (fun (a : State × Bool) _ => let b := a.1.loadRow f i; (b.1, a.2 || b.2)) (s, false)

/-- One FCLK of every LOADW in flight (R758). -/
def State.loadClock (s : State) (f : Fin 4) : State × Bool :=
  ((s.frond f).loads.map fun r => (loadwF r.ins).sets.headD 0).foldl
    (fun (a : State × Bool) i => let b := a.1.loadRow f i; (b.1, a.2 || b.2)) (s, false)

/-- A LOADW issues (R43, R93): the column exponents are read with cell row 0 in this FCLK. -/
def State.doLoadw (s : State) (f : Fin 4) (q : Nat) (w : IWord) : State :=
  let l := loadwF w
  let ys := if l.fp then colExps (s.spReader f) l else []
  let s1 := (s.issueIns f q).modFrond f fun x =>
    let y := l.sets.foldl (fun x i => x.putSet i (l.opened ys)) x
    { y with loads := y.loads ++ [⟨q, w, 0, []⟩] }
  State.orFault (s1.loadRow f (l.sets.headD 0)) f 1

/-- LOADW (R41 to R44). -/
def execLoadw (f : Fin 4) (q : Fin 64) (s : State) : Host.Outcome State Fault Refusal :=
  .next (match s.readyIns f q.val 1 with
    | none => s
    | some w => if s.loadwCan f (loadwF w) then s.doLoadw f q.val w else s)

/-- A LOADW all of whose rows are placed: its sets are marked ready and it completes. -/
def State.markReady (s : State) (f : Fin 4) (r : LoadRun) : State :=
  let sets := (loadwF r.ins).sets
  (s.modFrond f fun x =>
    let y := sets.foldl (fun x i => x.putSet i { x.wset i with st := .ready }) x
    { y with loads := y.loads.eraseP fun e => (loadwF e.ins).sets = sets }).finishIns f r.q r.ins

/-- WEIGHT_SET_READY (R43): the cell rows still to come are fetched and placed, then the set, or both sets of a WIDE block, is
marked ready and the LOADW completes. -/
def execWeightSetReady (f : Fin 4) (set : Fin 2) (s : State) : Host.Outcome State Fault Refusal :=
  .next (match (s.frond f).loadOf set.val with
    | none => s
    | some r =>
      let p := s.loadRows f set.val ((weightRows (loadwF r.ins)).1 - r.fetched)
      State.orFault (p.1.markReady f r, p.2) f 1)

/-! STREAM and GANG (R46 to R59, R208 to R219). -/

/-- Compressed slots whose pixels a STREAM reads (R216, R219). -/
def streamSlots (t : StreamF) (g : Geo) : List Nat :=
  if g.compressed then
    ((List.range t.m).flatMap fun m => ((List.range (g.khb * g.kw)).map fun k =>
      tapPos g (t.p0 + m) (g.ky0 + k / g.kw) (k % g.kw)).filter g.inside |>.map fun p => g.pix p / g.pb).dedup
  else []

/-- First rows and indices of the compressed slots of every problem, each once. -/
def headerRows (t : StreamF) (g : Geo) : List (Nat × Nat) :=
  ((List.range t.g).flatMap fun i => (streamSlots t g).map fun k => (t.src + i * t.slot + 32 * k, k)).dedup

/-- Whether the stream is WIDE. -/
def streamWide (g : Geo) : Bool := g.ofmt = 5 || g.ofmt = 6

/-- What a STREAM or GANG that issues now fetches, by FCLK: slot headers from now on, then a row in each FCLK once the rows of
earlier streams have entered, all passes (R51, R60, R101, R758). -/
def State.streamPlan (s : State) (f : Fin 4) (t : StreamF) (g : Geo) : List (Nat × List Nat) :=
  let hs := hdrChunks ((headerRows t g).map (·.1)) []
  let start := max hs.length (s.frond f).rowsLeft
  hs.zipIdx.map (fun e => (e.2, e.1)) ++
    (List.range (t.m * (if streamWide g then 4 else 1))).map fun i => (start + i, instrFetch t g none (i % t.m))

/-- Issue conditions of R58 beside the token: sets ready, target, read slots, map-out. A dead instruction reads nothing (R208). -/
def State.streamCan (s : State) (f : Fin 4) (t : StreamF) (g : Geo) : Bool :=
  let x := s.frond f
  let wide := streamWide g
  s.mapLocked f && (if wide then [0, 1] else [t.set]).all (fun i => decide ((x.wset i).st = .ready))
    && x.targetIs t.target (if t.clear then .free else .accumulating)
    && (isDead t g || s.slotsFor f (s.streamPlan f t g))

/-- A target opened by CLEAR (R61). -/
def Half.opened (h : Half) (t : StreamF) (g : Geo) (mirror : Bool) : Half :=
  { h with st := .accumulating, closing := false, geo := t.geo, p0 := t.p0, e0 := t.e0, fp := (ofmtOf g.ofmt).isFloat,
           wide := streamWide g, mirror := mirror, ytag := [], ypar := [] }

/-- A STREAM or GANG issues: a compressed input's headers are read, checked and held first (R217 to R219), a dead instruction
completes without rows (R208, R209), any other joins the streams in flight. -/
def State.doStream (s : State) (f : Fin 4) (q cls : Nat) (w : IWord) : State :=
  let t := streamF w
  let g := geoOf (s.desc f t.geo)
  let rd := s.spReader f
  let s0 := s.issueIns f q
  let s1 := if t.clear then s0.modFrond f fun x => x.modTarget t.target fun h => h.opened t g (x.wset t.set).mirror else s0
  if isDead t g then
    let s2 := if t.last then s1.modFrond f fun x => x.modTarget t.target fun h => { h with closing := true } else s1
    s2.finishIns f q w
  else
    let hs := (headerRows t g).map fun e => (e.2, e.1, slotHdr rd e.1)
    let s2 := s1.reportFetch (s.frondWho f cls) f [] (hs.flatMap fun e => (List.range 4).map (e.2.1 + ·))
    if hs.all fun e => slotOk g e.1 e.2.2 then
      s2.modFrond f fun x => { x with
        streams := x.streams ++ [{ q := q, ins := w, wide := streamWide g, total := t.m * (if streamWide g then 4 else 1),
                                   entered := 0, written := 0, seen := [], hdrs := hs.map (·.2), shift := [] }] }
    else
      let who := s.frondWho f cls
      let s3 := s2.raise { who.ev (srcOf (16 * f.val + 1) 3) 20 q 0 with stepNo := 1 }
      match (s.frond f).kernel with
      | none => s3
      | some k => s3.l1On f 3 k.job St.shape.code

/-- Issue of a STREAM or GANG: without CLEAR on a FREE target it is a program fault (R65). -/
def State.tryStream (s : State) (f : Fin 4) (q cls : Nat) : State :=
  match s.slotIns f q cls with
  | none => s
  | some w =>
    let t := streamF w
    if !t.clear && (s.frond f).targetAny t.target .free then s.progFault f cls q
    else match s.readyIns f q cls with
      | none => s
      | some w => if s.streamCan f t (geoOf (s.desc f t.geo)) then s.doStream f q cls w else s

/-- STREAM (R58). -/
def execStream (f : Fin 4) (q : Fin 64) (s : State) : Host.Outcome State Fault Refusal := .next (s.tryStream f q.val 2)

/-- GANG (R56). -/
def execGang (f : Fin 4) (q : Fin 64) (s : State) : Host.Outcome State Fault Refusal := .next (s.tryStream f q.val 3)

/-! Operand rows (R47 to R50, R57, R60, R90 to R101, R112). -/

/-- Operand half of a pass (R101). -/
def passOp (wide : Bool) (pass : Nat) (a : Int) : Int :=
  if wide then (if pass < 2 then wideHi a else wideLo a) else a
/-- Weight set of a pass (R101). -/
def passSet (wide : Bool) (pass set : Nat) : Nat := if wide then pass % 2 else set
/-- Multiplier of a pass (R101). -/
def passMult (wide : Bool) (pass : Nat) : Int :=
  if wide then (match pass with | 0 => 65536 | 1 => 256 | 2 => 256 | _ => 1) else 1

/-- Operand rows of every problem of row `m` from what the shifter holds (R47, R56, R92, R201). -/
def problemRows (rd : Reader) (sh : Shifter) (t : StreamF) (g : Geo) (m k : Nat) : List OpRow :=
  (List.range t.g).map fun i =>
    if g.wino then winoRow sh g (t.p0 + m) i k
    else operandRow rd sh g i (g.expmap + i * t.slot) (t.p0 + m) k

/-- Weight `k`, `n` of a set, zero outside it (R41). -/
def WeightSet.at (w : WeightSet) (k n : Nat) : Int := (w.cells.getD k []).getD n 0

/-- Operand row that logical column `n` receives (R57). -/
def opFor (gang : Bool) (ops : List (List Int)) (n : Nat) : List Int := if gang then ops.getD (n / 32) [] else ops.getD 0 []

/-- Column sum of logical output `n` (R60). -/
def colSum (w : WeightSet) (gang : Bool) (ops : List (List Int)) (n : Nat) : Int :=
  if n < w.n then
    ((opFor gang ops n).zipIdx.map fun (a, k) => a * w.at k n).foldl (· + ·) 0
  else 0

/-- Partial row sum of weights `k` over logical columns `a .. b-1` (R44). -/
def WeightSet.rowSum (w : WeightSet) (k a b : Nat) : Int :=
  (((w.cells.getD k []).take b).drop a).foldl (· + ·) 0

/-- What the checksum column adds (R64). -/
def checkSum (w : WeightSet) (gang : Bool) (ops : List (List Int)) : Int :=
  if gang then
    (ops.zipIdx.map fun (o, g) => (o.zipIdx.map fun (a, k) => a * w.rowSum k (32 * g) (32 * g + 32)).foldl (· + ·) 0).foldl (· + ·) 0
  else ((ops.getD 0 []).zipIdx.map fun (a, k) => a * w.rowSum k 0 512).foldl (· + ·) 0

/-- What injected Pinnae add to the shadow of accumulator column `c` (R87): column lane 0 of the column each carries. DESIGN
CHOICE (notes/assumptions/81): a Pinna whose Quads are gated under R40 adds its injection all the same. -/
def injAdd (valid : Bool) (pcol : Nat) (inj : List (Fin 68)) (c : Nat) : Nat :=
  if c % 32 = 0 then (inj.filter fun p => decide (mirrorOf valid pcol (p.val % 17) = some (c / 32))).length else 0

/-- What the shifter of a stream holds once the slices of its next row have come (R50). -/
def State.nextShift (s : State) (f : Fin 4) (r : StreamRun) : Shifter :=
  let t := streamF r.ins
  let g := geoOf (s.desc f t.geo)
  let m := r.entered % t.m
  Shifter.load r.shift (s.spReader f) g r.hdrs (t.srcs g) (t.p0 + m) (decide (m = 0))

/-- The row that enters the array at step `i` of a stream: its sums, shadows, checksum and tags, and whether an element
was non-finite or passed its bound. -/
def State.buildRow (s : State) (f : Fin 4) (r : StreamRun) (sh : Shifter) : RowRun × Bool × Bool :=
  let t := streamF r.ins
  let g := geoOf (s.desc f t.geo)
  let x := s.frond f
  let wide := streamWide g
  let pass := r.entered / t.m
  let m := r.entered % t.m
  let w := x.wset (passSet wide pass t.set)
  let rows := problemRows (s.spReader f) sh t g m w.cells.length
  let ops := rows.map fun o => o.elems.map (passOp wide pass)
  let mult := passMult wide pass
  let sums := (List.range 512).map fun c => mult * colSum w t.gang ops (accCol w.mirror c)
  let shadows := sums.zipIdx.map fun (v, c) => (res7 v + injAdd (mapValid s f) (mapPcol s f) x.inj c) % 7
  ({ entry := t.e0 + m / g.mgroup, target := t.target, clear := t.clear && decide (pass = 0 ∧ m % g.mgroup = 0),
     wide := wide, sums := sums, shadows := shadows, csum := mult * checkSum w t.gang ops,
     xtag := (List.range 16).map fun c => if t.gang then (rows.map (·.x)).getD c 0 else (rows.map (·.x)).getD 0 0,
     ytag := w.ycol, fp := (ofmtOf g.ofmt).isFloat },
   rows.any (·.nonfinite), rows.any (·.past))

/-- The next stream with a row to enter. -/
def Frond.entering (x : Frond) : Option StreamRun := x.streams.find? fun r => decide (r.entered < r.total)

/-- The next row of stream `r` enters: its fetches are checked, the shifter takes its slices, the row is built and summed,
injections are used up. The flag says that an aligned magnitude passed its bound (R96). -/
def State.enterRow (s : State) (f : Fin 4) (r : StreamRun) : State × Bool :=
  let sh := s.nextShift f r
  let b := s.buildRow f r sh
  let rows := s.rowsAhead f r 0
  let s1 := (s.reportFetch (s.frondWho f (opc r.ins)) f r.seen rows).setNonfinite f b.2.1
  (s1.modFrond f fun x => { x with
     inj := []
     rows := x.rows ++ [b.1]
     streams := modFirst (fun e => decide (e.entered < e.total))
       (fun e => { e with entered := e.entered + 1, seen := (e.seen ++ rows).dedup, shift := sh }) x.streams },
   b.2.2)

/-- OPERAND_ROW_ENTER (R60, R758): the next row enters, and each LOADW in flight fetches a cell row; an aligned magnitude past its
bound is a program fault (R96). -/
def execOperandRowEnter (f : Fin 4) (s : State) : Host.Outcome State Fault Refusal :=
  .next (match (s.frond f).entering with
    | none => s
    | some r =>
      let p := s.enterRow f r
      let l := p.1.loadClock f
      if p.2 then l.1.progFault f (opc r.ins) 0 else State.orFault l f 1)

/-! Accumulators (R54, R61 to R64, R99, R102). -/

/-- The stream whose rows the oldest row in the array belongs to: the first that has rows still to be written. -/
def Frond.writing (x : Frond) : Option StreamRun := x.streams.find? fun r => decide (r.written < r.entered)

/-- Signed value of a 32-bit accumulator word. -/
def accVal (w : Word) : Int := w.toInt

/-- Cell `c` of an accumulator row: zero with shadow 0 when never written. -/
def AccRow.cell (a : AccRow) (c : Nat) : Word × BitVec 3 := a.cells.getD c (0, 0)

/-- Parity of a 16-bit exponent tag (R112). -/
def tagPar (v : Int) : Bool := decide (((List.range 16).filter fun i => (code 16 v).testBit i).length % 2 = 1)

/-- The row after one write, 32-bit entries (R54, R63); under CLEAR its tags are stored with their parities (R99). -/
def accWrite32 (a : AccRow) (r : RowRun) : AccRow :=
  let cells := (r.sums.zip r.shadows).zipIdx.map fun (p, c) =>
    let o := a.cell c
    let v := accAdd (-2147483648) 2147483647 r.clear (accVal o.1) o.2.toNat p.1 p.2
    (BitVec.ofInt 32 v.1, BitVec.ofNat 3 v.2)
  { cells := cells, csum := (if r.clear then 0 else a.csum) + BitVec.ofInt 64 r.csum,
    xtag := if r.clear then r.xtag else a.xtag, xpar := if r.clear then r.xtag.map tagPar else a.xpar }

/-- Signed value of a WIDE entry (R102). -/
def wideVal (lo hi : Word) : Int := sext 64 (lo.toNat + hi.toNat * 2 ^ 32)

/-- The two rows after one write of a WIDE entry: low words with shadows, high words with shadow 0 (R102). -/
def accWrite64 (a b : AccRow) (r : RowRun) : AccRow × AccRow :=
  let vs := (r.sums.zip r.shadows).zipIdx.map fun (p, c) =>
    accAdd (-(2 ^ 63)) (2 ^ 63 - 1) r.clear (wideVal (a.cell c).1 (b.cell c).1) (a.cell c).2.toNat p.1 p.2
  ({ cells := vs.map fun v => (BitVec.ofInt 32 v.1, BitVec.ofNat 3 v.2),
     csum := (if r.clear then 0 else a.csum) + BitVec.ofInt 64 r.csum,
     xtag := if r.clear then r.xtag else a.xtag, xpar := if r.clear then r.xtag.map tagPar else a.xpar },
   { cells := vs.map fun v => (BitVec.ofInt 32 (v.1 / 2 ^ 32), 0), csum := 0, xtag := [], xpar := [] })

/-- Row `e` of a half. -/
def Half.row (h : Half) (e : Nat) : AccRow := (tfind h.rows e).getD AccRow.zero
/-- Storing row `e` of a half. -/
def Half.putRow (h : Half) (e : Nat) (a : AccRow) : Half := { h with rows := tput h.rows e a }

/-- Whether a stored tag of an entry disagrees with its parity (R99, R182). -/
def parityBad (h : Half) (a : AccRow) : Bool :=
  decide (a.xpar ≠ a.xtag.map tagPar) || decide (h.ypar ≠ h.ytag.map tagPar)

/-- Whether a row's tags disagree with the stored ones, or a stored one with its parity (R99). -/
def tagMismatch (h : Half) (a : AccRow) (r : RowRun) : Bool :=
  r.fp && !r.clear && (decide (a.xtag ≠ r.xtag) || decide (h.ytag ≠ r.ytag) || parityBad h a)

/-- One accumulator write into the Frond: the entry, and the column tags under CLEAR. -/
def Frond.accWrite (x : Frond) (r : RowRun) : Frond :=
  let (i, e) := entryAt r.target r.entry r.wide
  let x1 := if r.wide then
      let p := accWrite64 (x.half0.row e) (x.half1.row e) r
      { x with half0 := x.half0.putRow e p.1, half1 := x.half1.putRow e p.2 }
    else x.putHalf i ((x.half i).putRow e (accWrite32 ((x.half i).row e) r))
  if r.fp && r.clear then x1.putHalf i { x1.half i with ytag := r.ytag, ypar := r.ytag.map tagPar } else x1

/-- Whether a row to be written disagrees with the tags of its entry (R99). -/
def Frond.tagBad (x : Frond) (r : RowRun) : Bool :=
  let (i, e) := entryAt r.target r.entry r.wide
  tagMismatch (x.half i) ((x.half i).row e) r

/-- The oldest row `r` in the array is written or added; the last row of its STREAM completes it, and with LAST closes its
target. -/
def State.writeRow (s : State) (f : Fin 4) (r : RowRun) (rest : List RowRun) (st : StreamRun) : State :=
  let t := streamF st.ins
  let done := decide (st.written + 1 = st.total)
  let s1 := s.modFrond f fun x =>
    let y := x.accWrite r
    let z := if done && t.last then y.modTarget t.target fun h => { h with closing := true } else y
    { z with rows := rest
             streams := if done then z.streams.eraseP fun u => decide (u.written < u.entered)
                        else modFirst (fun u => decide (u.written < u.entered))
                          (fun u => { u with written := u.written + 1 }) z.streams }
  let s2 := if done then s1.finishIns f st.q st.ins else s1
  if (s.frond f).tagBad r then s2.checkFail (s2.frondWho f (opc st.ins)) (16 * f.val + 2) 1 3 unlocalized 0 else s2

/-- ACCUMULATOR_WRITE (R60, R63, R99). -/
def execAccumulatorWrite (f : Fin 4) (s : State) : Host.Outcome State Fault Refusal :=
  .next (match (s.frond f).rows, (s.frond f).writing with
    | r :: rest, some st => s.writeRow f r rest st
    | _, _ => s)

/-- Whether a target still has rows to be written. -/
def Frond.targetBusy (x : Frond) (i : Nat) : Bool :=
  x.streams.any fun r => (targetHalves (streamF r.ins).target).contains i

/-- ACCUMULATOR_COMPLETE (R61, R62): halves whose LAST row has been written become COMPLETE. -/
def execAccumulatorComplete (f : Fin 4) (s : State) : Host.Outcome State Fault Refusal :=
  .next (s.modFrond f fun x =>
    (List.range 2).foldl (fun x i =>
      let h := x.half i
      if h.closing && decide (h.st = .accumulating) && !x.targetBusy i then
        x.putHalf i { h with st := .complete, closing := false }
      else x) x)

/-! The drain (R67 to R70, R104 to R110, R205 to R207, R212 to R215). -/

/-- Whether the ARRAY queue's END has retired (R65). -/
def Frond.arrayEnded (x : Frond) : Bool := x.queues.all fun e => decide (e.2.kind ≠ 0) || e.2.retired

/-- DRAIN (R69): it issues once the DRAIN before it has read its last entry. A half that is FREE after the ARRAY queue's
END is a program fault (R65). -/
def execDrain (f : Fin 4) (q : Fin 64) (s : State) : Host.Outcome State Fault Refusal :=
  .next (match s.readyIns f q.val 4 with
    | none => s
    | some w =>
      let d := drainF w
      if (s.frond f).drains.all fun r => decide (r.read = (drainF r.ins).ne) then
        let s1 := (s.issueIns f q.val).modFrond f fun x => { x with drains := x.drains ++ [⟨q.val, w, 0, [], [], 0⟩] }
        if (s1.frond f).targetAny d.half .free && (s1.frond f).arrayEnded then s1.progFault f 4 q.val else s1
      else s)

/-- The DRAIN that reads now. -/
def Frond.draining (x : Frond) : Option DrainRun := x.drains.find? fun r => decide (r.read < (drainF r.ins).ne)

/-- One entry row as the drain reads it: values and shadows by accumulator column, checksum entry, row tags, the column tags of
its half, and whether a tag disagrees with its parity. -/
structure DrainRow where
  vals : List Int
  shadows : List Nat
  csum : DWord
  xtag : List Int
  ytag : List Int
  tagBad : Bool
  deriving DecidableEq, Repr

/-- Reading entry `e` of a target. -/
def Frond.drainRow (x : Frond) (t e : Nat) (wide : Bool) : DrainRow :=
  let (i, k) := entryAt t e wide
  let a := (x.half i).row k
  let b := x.half1.row k
  { vals := (List.range 512).map fun c => if wide then wideVal (a.cell c).1 (b.cell c).1 else accVal (a.cell c).1,
    shadows := (List.range 512).map fun c => (a.cell c).2.toNat, csum := a.csum, xtag := a.xtag, ytag := (x.half i).ytag,
    tagBad := (x.half i).fp && parityBad (x.half i) a }

/-- Accumulator columns whose residue disagrees with the shadow (R67). -/
def DrainRow.badCols (r : DrainRow) : List Nat :=
  (List.range 512).filter fun c => decide (r.shadows.getD c 0 ≠ 7 ∧ res7 (r.vals.getD c 0) ≠ r.shadows.getD c 0)
/-- Accumulator columns with shadow code 7 (R67). -/
def DrainRow.overflows (r : DrainRow) : List Nat := (List.range 512).filter fun c => decide (r.shadows.getD c 0 = 7)
/-- Whether the values' sum disagrees with the checksum entry (R67, R103). -/
def DrainRow.sumBad (r : DrainRow) : Bool := decide (BitVec.ofInt 64 (r.vals.foldl (· + ·) 0) ≠ r.csum)

/-- Entry row and column as one location: DESIGN CHOICE (notes/assumptions/87), 65,536 × row + accumulator column, column
0xFFFF for the checksum column and the tags. -/
def rowCol (e c : Nat) : Nat := 65536 * e + c

/-- What the drain's Check reports of entry row `e` (R70, R78, R182, R656): each residue mismatch, with its physical Pinna column as
the record's element, the tags' parity, the checksum, each overflow. -/
def State.drainCheck (s : State) (f : Fin 4) (e : Nat) (r : DrainRow) : State :=
  let w := s.frondWho f 4
  let s1 := r.badCols.foldl (fun s c =>
    s.checkFailAt w (16 * f.val + 2) 1 1 (rowCol e c) (physCol (mapValid s f) (mapPcol s f) (c / 32))
      (r.shadows.getD c 0 + 256 * res7 (r.vals.getD c 0))) s
  let s2 := if r.tagBad then s1.checkFailAt w (16 * f.val + 2) 1 3 (rowCol e 0xFFFF) unlocalized 0 else s1
  let s3 := if r.sumBad then s2.checkFailAt w (16 * f.val + 2) 1 2 (rowCol e 0xFFFF) unlocalized 0 else s2
  let s4 := r.overflows.foldl (fun s c => s.checkFail w (16 * f.val + 3) 1 31 (rowCol e c) 7) s3
  s4.count (oFrd f 0x20) r.overflows.length

/-- Adding to the drain Tally that HZL_TALLY shows (R573). -/
def State.addTally (s : State) (f : Fin 4) (v : DWord) : State :=
  let o := oHzl (0x4100 + 8 * f.val)
  let t := BitVec.ofNat 64 ((s.reg o).toNat + (s.reg (o + 4)).toNat * 2 ^ 32) + v
  (s.setReg o (BitVec.ofNat 32 t.toNat)).setReg (o + 4) (BitVec.ofNat 32 (t.toNat / 2 ^ 32))

/-- Value of logical column `n` before requantization, with the tags of the entry's own half (R104). -/
def drainVal (h : Half) (r : DrainRow) (n : Nat) : Exact :=
  let v := exactInt (r.vals.getD (accCol h.mirror n) 0)
  if h.fp then v.scale (r.xtag.getD (n / 32) 0 + r.ytag.getD n 0) else v

/-- Requantization record of column `j`. -/
def State.requantAt (s : State) (f : Fin 4) (d : DrainD) (j : Nat) : Requant :=
  requantOf (s.rdN (spBase f + 64 * d.param + 16 * j) 16)

/-- A failed check of the Winograd output stage: cause, accumulator column, carried and formed residue (R112, R205). -/
structure WinoBad where
  cause : Nat
  col : Nat
  carried : Nat
  formed : Nat
  deriving DecidableEq, Repr

/-- Result of one entry: writes, codes for a compressed slot, NONFINITE, failed checks of the Winograd output stage. -/
structure DrainOut where
  writes : List PendWrite
  codes : List Nat
  nonfinite : Bool
  bad : List WinoBad
  deriving DecidableEq, Repr

/-- Codes of a row of values in a non-EAF output (R106 to R109). -/
def State.drainCodes (s : State) (f : Fin 4) (fp : Bool) (d : DrainD) (vs : List Exact) : List Nat × Bool :=
  let l := vs.zipIdx.map fun (v, j) => drainCode fp d (s.requantAt f d j) v
  (l.map (·.1), l.any (·.2))

/-- The exponent map of a row of codes at pixel `px`, for an FP8, FP16 or BF16 output (R91). -/
def mapWrites (d : DrainD) (px : Nat) (codes : List Nat) : List PendWrite :=
  match Fmt.ofCode d.outfmt with
  | none => []
  | some fm =>
    if fm = .e4m3 ∨ fm = .e5m2 ∨ fm = .fp16 ∨ fm = .bf16 then
      [⟨64 * d.mapdst + 2 * (px * cdiv d.ncols 32), mapEntries fm (cdiv d.ncols 32) codes⟩]
    else []

/-- Writes of a row of codes at a row, with its exponent map at pixel `px` (R91). -/
def codeWrites (d : DrainD) (row px : Nat) (codes : List Nat) : List PendWrite :=
  match Fmt.ofCode d.outfmt with
  | none => []
  | some fm => ⟨64 * row, packCodes fm codes⟩ :: mapWrites d px codes

/-- Output of a plain entry (R107 to R110); of a compressed one, its codes and its exponent map (R91, R215). -/
def State.plainOut (s : State) (f : Fin 4) (h : Half) (d : DrainD) (dst k : Nat) (r : DrainRow) : DrainOut :=
  let vs := (List.range d.ncols).map (drainVal h r)
  let row := dst + k * d.opitch
  if d.outfmt = 10 then
    let es := vs.zipIdx.map fun (v, j) => drainEaf h.fp d (s.requantAt f d j) v
    ⟨[⟨64 * row, (eafBlocks d.eafExp (cdiv d.ncols 64) (es.map (·.1))).flatMap Eaf.bytes⟩], [], es.any (·.2), []⟩
  else
    let c := s.drainCodes f h.fp d vs
    ⟨if d.compress then mapWrites d k c.1 else codeWrites d row k c.1, c.1, c.2, []⟩

/-- What the Winograd output stage finds at output channel `j`, element `(a, b)`: the residue carried from the entry's shadows
against the element's (R112), and a remainder of the division by 4 (R205). A saturated product carries no residue. DEDUCED
(notes/assumptions/88): the residues of a remainder error are those of Y and of 4 Q. -/
def winoBad (h : Half) (r : DrainRow) (j a b : Nat) : List WinoBad :=
  let cols := (List.range 16).map fun g => accCol h.mirror (32 * g + j)
  let y := winoOut (fun g => r.vals.getD (cols.getD g 0) 0) a b
  let c := res7 (winoOut (fun g => (r.shadows.getD (cols.getD g 0) 0 : Nat)) a b)
  let col := cols.headD 0
  (if cols.all (fun k => decide (r.shadows.getD k 0 ≠ 7)) && decide (c ≠ res7 y) then [⟨1, col, c, res7 y⟩] else []) ++
    (if y % 4 = 0 then [] else [⟨4, col, res7 y, res7 (4 * (y / 4))⟩])

/-- Output of a Winograd entry (R205 to R207). -/
def State.winoEntry (s : State) (f : Fin 4) (h : Half) (g : Geo) (d : DrainD) (dst e0 e : Nat) (r : DrainRow) : DrainOut :=
  let t := h.p0 + (e - h.e0)
  let tf := h.p0 + (e0 - h.e0)
  let pf := 2 * (tf / g.tw) * g.ow + 2 * (tf % g.tw)
  let ps := ((List.range 4).map fun i => (i / 2, i % 2)).filterMap fun (a, b) =>
    let oy := 2 * (t / g.tw) + a
    let ox := 2 * (t % g.tw) + b
    let outs := (List.range d.ncols).map fun j => winoOut (fun gi => r.vals.getD (accCol h.mirror (32 * gi + j)) 0) a b / 4
    let c := s.drainCodes f false d (outs.map exactInt)
    let px := oy * g.ow + ox - pf
    some (decide (oy < g.oh ∧ ox < g.ow), codeWrites d (dst + px * d.opitch) px c.1, c.2,
      (List.range d.ncols).flatMap fun j => winoBad h r j a b)
  ⟨(ps.filter (·.1)).flatMap (·.2.1), [], ps.any (·.2.2.1), ps.flatMap (·.2.2.2)⟩

/-- Stored bytes of a compressed slot. -/
def slotValues (zc : Nat) (codes : List Nat) : List Byte := (codes.filter (· != zc)).map (BitVec.ofNat 8)

/-- Blocks that an entry adds to a compressed slot: value blocks it fills, and at the slot's end the rest and the header
(R213 to R215). -/
def slotWrites (d : DrainD) (zc dst slot first : Nat) (before after : List Nat) (close : Bool) : List PendWrite :=
  let base := 64 * (dst + 32 * slot)
  let v := slotValues zc after
  let b0 := (slotValues zc before).length / 256
  let b1 := if close then cdiv v.length 256 else v.length / 256
  ((List.range b1).filter fun i => decide (b0 ≤ i)).map (fun i => ⟨base + 256 + 256 * i, slice v (256 * i) 256⟩)
    ++ (if close then [⟨base, slotHeader d zc first after⟩] else [])

/-- The drain after one entry: outputs queued, the compressed slot advanced (R215). -/
def DrainRun.advance (r : DrainRun) (d : DrainD) (zc p0 : Nat) (o : DrainOut) : DrainRun :=
  let f := drainF r.ins
  let read := r.read + 1
  if d.compress then
    let after := r.slot ++ o.codes
    let pb := 1792 / d.ncols
    let close := decide (read = f.ne) || decide (after.length = pb * d.ncols)
    let ws := slotWrites d zc f.dst r.slots (p0 + r.slots * pb) r.slot after close
    let all := o.writes ++ ws
    { r with read := read, outs := r.outs ++ (if all.isEmpty then [] else [all]), slot := if close then [] else after,
             slots := if close then r.slots + 1 else r.slots }
  else { r with read := read, outs := r.outs ++ [o.writes] }

/-- One entry row of a DRAIN is read, checked, transformed and converted; its checksum entry joins the Tally (R573); the half
is FREE after its last entry. -/
def State.drainEntry (s : State) (f : Fin 4) (r : DrainRun) : State :=
  let x := s.frond f
  let df := drainF r.ins
  let h := x.half ((targetHalves df.half).getD 0 0)
  let d := drainOf (s.desc f df.desc)
  let g := geoOf (s.desc f h.geo)
  let e := df.e0 + r.read
  let row := x.drainRow df.half e h.wide
  let o := if d.winoOut then s.winoEntry f h g d df.dst df.e0 e row else s.plainOut f h d df.dst r.read row
  let who := s.frondWho f 4
  let prm := if r.read = 0 then rowsOf (64 * d.param) (16 * d.ncols) else []
  let s1 := ((s.reportFetch who f [] prm).drainCheck f e row).addTally f row.csum
  let s2 := s1.setNonfinite f o.nonfinite
  let s3 := o.bad.foldl (fun s b =>
    s.checkFailAt who (16 * f.val + 3) 1 b.cause (rowCol e b.col) 0 (b.carried + 256 * b.formed)) s2
  let zc := zcodeOf d (s.requantAt f d 0).zp
  let r' := r.advance d zc (h.p0 + df.e0 - h.e0) o
  let st := if r'.read = df.ne then HalfSt.free else .draining
  s3.modFrond f fun x => { x.modTarget df.half fun h => { h with st := st } with
    drains := modFirst (fun u => decide (u.read < (drainF u.ins).ne)) (fun _ => r') x.drains }

/-- Whether the half of a DRAIN stands as its next read needs it: COMPLETE for the first, DRAINING after (R67). -/
def Frond.drainCan (x : Frond) (r : DrainRun) : Bool :=
  x.targetIs (drainF r.ins).half (if r.read = 0 then .complete else .draining)

/-- DRAIN_ENTRY_READ (R65, R67 to R70). -/
def execDrainEntryRead (f : Fin 4) (s : State) : Host.Outcome State Fault Refusal :=
  .next (match (s.frond f).draining with
    | none => s
    | some r =>
      if (s.frond f).drainCan r then s.drainEntry f r
      else if (s.frond f).targetAny (drainF r.ins).half .free && (s.frond f).arrayEnded then s.progFault f 4 r.q
      else s)

/-- DRAIN_OUTPUT_WRITE (R68, R155, R591): the oldest output row is written with its check words, or its access loses
arbitration, is counted and waits; a conflict in EXACT is a program fault. -/
def execDrainOutputWrite (f : Fin 4) (lost : Bool) (s : State) : Host.Outcome State Fault Refusal :=
  .next (match (s.frond f).drains with
    | [] => s
    | r :: rest =>
      match r.outs with
      | [] => s
      | o :: os =>
        if lost then State.orFault (s.noteConflict f 1, s.exactOn f) f 4
        else
          let s1 := s.modFrond f fun x => { x with drains := { r with outs := os } :: rest }
          State.orFault (s1.spStoreAll (s.frondWho f 4) f 1 o) f 4)

/-- DRAIN_COMPLETE (R69): with every output presented the DRAIN signals its completion token. -/
def execDrainComplete (f : Fin 4) (s : State) : Host.Outcome State Fault Refusal :=
  .next (match (s.frond f).drains with
    | [] => s
    | r :: rest =>
      if r.read = (drainF r.ins).ne ∧ r.outs = [] then
        (s.modFrond f fun x => { x with drains := rest }).finishIns f r.q r.ins
      else s)

end Sys2Proof.Machine
end

