-- ==== Sys2Proof/Machine/Kernel.lean ====
section
/-! DEFINITION. Kernels and the Stipe (R121 to R127, R131, R134, R135, R163, R179, R261, R286, R507, R510, R513, R514,
R759, R760). -/

namespace Sys2Proof.Machine

/-! Kernels of a program. -/

/-- Fronds of a partition, ascending. -/
def State.frondsOf (s : State) (r : Fin 4) : List (Fin 4) := (List.finRange 4).filter fun f => decide (s.ownerOf f = some r)

/-- Fronds that a kernel names (R759): 0 names the lowest of the partition. -/
def State.namedFronds (s : State) (r : Fin 4) (k : Kernel) : List (Fin 4) :=
  if k.fronds = 0 then (s.frondsOf r).take 1 else (List.finRange 4).filter fun f => k.fronds.getLsbD f.val

/-- The partner Frond of a Twin copy (R610): the next one of the partition in cyclic order. -/
def State.partnerOf (s : State) (r f : Fin 4) : Fin 4 :=
  let l := s.frondsOf r
  ((l.find? fun g => decide (f.val < g.val)).or l.head?).getD f

/-- The kernel a job is at. -/
def State.kernelOf (s : State) (x : Job) : Option Kernel :=
  match tfind s.progs x.prog with
  | none => none
  | some g => g.kernels[x.kernel]?

/-- Copies of a job's present kernel (R510, R610): Frond named and whether it is the Twin copy. A golden run has one copy, on the
Frond of its Card (R516). -/
def State.copies (s : State) (x : Job) : List (Fin 4 × Bool) :=
  match s.kernelOf x with
  | none => []
  | some k =>
    match x.golden with
    | some f => [(f, false)]
    | none =>
    let l := s.namedFronds x.part k
    (l.map fun f => (f, false)) ++ (if k.twin && x.twin then l.map fun f => (f, true) else [])

/-- Frond on which a copy runs. -/
def State.copyFrond (s : State) (x : Job) (c : Fin 4 × Bool) : Fin 4 := if c.2 then s.partnerOf x.part c.1 else c.1

/-- Queue table entries of a copy (R759): entry i · Q + q for the i-th named Frond; the first named one's for a golden run on a Frond
that its kernel does not name. -/
def State.copyQueues (s : State) (x : Job) (c : Fin 4 × Bool) : List (Nat × Nat × Nat) :=
  match s.kernelOf x with
  | none => []
  | some k => let l := s.namedFronds x.part k
    (k.queues.drop ((if l.contains c.1 then l.idxOf c.1 else 0) * k.nq)).take k.nq

/-- Fetch pointers at a kernel boundary (R163): the first instruction of each queue. -/
def queuePtrs (base : Nat) (l : List (Nat × Nat × Nat)) : List (Nat × Nat) :=
  (l.zipIdx.map fun (e, q) => (q, base + e.2.2)).foldl (fun t e => tput t e.1 e.2) []

/-- Fetch pointers of a queue list of a job. -/
def State.ptrsOf (s : State) (x : Job) (c : Fin 4 × Bool) : List (Nat × Nat) :=
  match tfind s.progs x.prog with
  | none => []
  | some g => queuePtrs g.base (s.copyQueues x c)

/-- A queue as the kernel starts (R760). -/
def Queue.start (base : Nat) (e : Nat × Nat × Nat) : Queue :=
  { kind := e.1, base := base + e.2.2, count := e.2.1 / 16, fetch := 0, entries := [], slot := none, busy := 0,
    retired := false }

/-! What firmware does before the first instruction. -/

/-- Field repairs recorded since the registers were loaded take effect (R179, R180). -/
def State.loadFieldRepairs (s : State) (f : Fin 4) : State :=
  s.nor.spRepair.foldl (fun s e =>
    let v := BitVec.ofNat 32 (2 ^ 31 + 2 ^ 30 + e.2.2.2)
    if e.1 = f.val ∧ (s.reg (oSpRepair f e.2.1 e.2.2.1)).toNat % 2 ^ 31 ≠ v.toNat % 2 ^ 31 then
      (s.repairSpRow f e.2.1 e.2.2.1 v).dropSpares (oSpRepair f e.2.1 0) 32 11 e.2.2.1 e.2.2.2
    else s) s

/-- Offset and length of user table `i` in a program object of R489: tables follow one another (R255). -/
def sfuTableAt (s : State) (base off : Nat) : Nat → Nat × Nat
  | 0 => (off, 128 + 16 * 2 ^ (s.rd (base + off + 2)).toNat)
  | i + 1 =>
    let p := sfuTableAt s base off i
    let o := p.1 + p.2
    (o, 128 + 16 * 2 ^ (s.rd (base + o + 2)).toNat)

/-- Bytes of user table `i` of a program. -/
def State.sfuTable (s : State) (g : Prog) (i : Nat) : List Byte :=
  let p := sfuTableAt s g.base g.sfuOff i
  s.rdN (g.base + p.1) p.2

/-- User tables of a program placed into free slots of a Frond (R260); a table already there stays. -/
def State.loadSfu (s : State) (f : Fin 4) (h : Nat) : State :=
  match tfind s.progs h with
  | none => s
  | some g =>
    (List.range g.nsfu).foldl (fun s i =>
      let x := s.frond f
      if x.sfu.any fun e => decide (e.2.1 = h ∧ e.2.2.1 = i) then s
      else match (List.range 64).find? fun k => (tfind x.sfu k).isNone with
        | none => s
        | some k => s.modFrond f fun x => { x with sfu := tput x.sfu k (h, i, s.sfuTable g i) }) s

/-- The drain Tally back to 0 (R573). -/
def State.zeroTally (s : State) (f : Fin 4) : State :=
  (s.setReg (oHzl (0x4100 + 8 * f.val)) 0).setReg (oHzl (0x4104 + 8 * f.val)) 0

/-- The step record's address for a job that has one (R286). -/
def State.loadStep (s : State) (f : Fin 4) (x : Job) : State :=
  if x.stepRec = 0 then s
  else (s.setReg (oFrd f 0x8008) (BitVec.ofNat 32 (x.stepRec / 256 * 256))).setReg (oFrd f 0x800C)
    (BitVec.ofNat 32 (x.stepRec / 2 ^ 32 % 65536))

/-- Whether a held signal is for this kernel start: its kernel, or any kernel for a Trick's increment (R134, R577). -/
def RemoteSig.isFor (r : RemoteSig) (j inst k : Nat) : Bool :=
  decide (r.job = j ∧ r.inst = inst ∧ (r.kernel = k ∨ r.kernel = 0xFFFF))

/-- Held remote signals applied at a kernel start (R126, R134, R514): those of the Frond's queue and of the job's store. -/
def State.applySignals (s : State) (f : Fin 4) (j : Nat) (x : Job) : State :=
  let mine := fun (r : RemoteSig) => r.isFor j x.inst x.kernel
  let held := (s.frond f).remote.filter mine ++ ((x.signals.filter fun e => decide (e.1 = f)).map (·.2)).filter mine
  let s1 := s.modFrond f fun y => held.foldl (fun y r => y.addToken r.ttok r.inc)
    { y with remote := y.remote.filter fun r => !mine r }
  s1.modJob j fun y => { y with signals := y.signals.filter fun e => !(decide (e.1 = f) && mine e.2) }

/-- The kernel copy begins to run (R126). -/
def State.beginKernel (s : State) (f : Fin 4) (j : Nat) (x : Job) (c : Fin 4 × Bool) (kcap : Nat) : State :=
  let base := (tfind s.progs x.prog).elim 0 (·.base)
  let qs := (s.copyQueues x c).zipIdx.map fun (e, q) => (q, Queue.start base e)
  let s1 := s.modFrond f fun y =>
    { y with kernel := some ⟨j, x.inst, x.prog, x.kernel, x.golden.isSome, c.2, c.1, kcap⟩, queues := qs,
             qptr := s.ptrsOf x c, tok := [], twinSum := 0, rr := 63, switching := none,
             lastJob := BitVec.ofNat 32 j, lastKernel := BitVec.ofNat 16 x.kernel }
  s1.modJob j fun y => { y with started := y.started ++ [c], ranOn := tput y.ranOn f.val s.deckNow.toNat }

/-- KERNEL_START (R126, R127, R163, R261, R286, R573, R759): the switch that KERNEL_SWITCH began ends with the kernel's first
instructions able to be delivered. -/
def execKernelStart (f : Fin 4) (s : State) : Host.Outcome State Fault Refusal :=
  .next (match (s.frond f).switching, (s.frond f).kernel with
    | some (j, code, cap), none =>
      match s.job j with
      | none => s.modFrond f fun y => { y with switching := none }
      | some x =>
        if (s.frond f).zfill || (s.frond f).restore then s
        else
          let c : Fin 4 × Bool := (⟨code / 2 % 4, Nat.mod_lt _ (by decide)⟩, decide (code % 2 = 1))
          let s1 := ((((s.loadFieldRepairs f).applyRepairs f).loadSfu f x.prog).zeroTally f).loadStep f x
          (s1.beginKernel f j x c cap).applySignals f j x
    | _, _ => s)

/-! Fetch and delivery. -/

/-- Instructions read from one 256-byte block of the stream: as many as it holds and the queue's 256 entries take. -/
def Queue.batch (u : Queue) : Nat :=
  let a := u.base + 16 * u.fetch
  min (min ((256 - a % 256) / 16) (u.count - u.fetch)) (256 - u.entries.length)

/-- INSTRUCTION_FETCH (R121, R122): one block of the stream is read and checked; a BCW mismatch is a class U fault of the
Stipe naming program, kernel and queue, and aborts the kernel at L1. -/
def execInstructionFetch (f : Fin 4) (q : Fin 64) (s : State) : Host.Outcome State Fault Refusal :=
  .next (match (s.frond f).queue q.val with
    | none => s
    | some u =>
      let n := u.batch
      if n = 0 then s
      else
        let a := u.base + 16 * u.fetch
        let w := s.frondWho f 0xFF
        let s1 := s.reportMarks w (a / 256 * 256) 256
        if s.blockOk a then
          let ins := (List.range n).map fun i => BitVec.ofNat 128 (s.rdLe (a + 16 * i) 16)
          let s2 := s1.modQueue f q.val fun u => { u with fetch := u.fetch + n, entries := u.entries ++ ins }
          s2.modFrond f fun x => { x with qptr := tput x.qptr q.val (a + 16 * n) }
        else
          let s2 := s1.reportBcw w a
          let e := { w.ev (srcOf (16 * f.val) 2) 7 q.val ((s.bcwAt a ^^^ crcWord (s.block a)).toNat) with stepNo := 1 }
          (s2.raise e).l1 f 2)

/-- Queues in round-robin order from the one after the queue served last (R123). -/
def rrOrder (rr : Nat) : List Nat := (List.range 64).map fun i => (rr + 1 + i) % 64

/-- One delivery: the head entry of a queue with an empty slot enters it. -/
def Frond.deliver (x : Frond) (q : Nat) : Frond :=
  { x with rr := q
           queues := tmod x.queues q fun u => match u.entries with
             | [] => u
             | w :: t => { u with slot := some w, entries := t } }

/-- Whether a queue can be served. -/
def Frond.canDeliver (x : Frond) (q : Nat) : Bool :=
  match tfind x.queues q with
  | none => false
  | some u => u.slot.isNone && !u.entries.isEmpty

/-- INSTRUCTION_DELIVER (R123): at most four instructions, each from a different queue. -/
def execInstructionDeliver (f : Fin 4) (s : State) : Host.Outcome State Fault Refusal :=
  .next (if (s.frond f).kernel.isNone ∨ s.stipeHalted f = true then s
    else
      let x := s.frond f
      (s.useStep f).setFrond f ((((rrOrder x.rr).filter x.canDeliver).take 4).foldl Frond.deliver x))

/-! Tokens and barriers. -/

/-- TOK.WAIT (R131): issues, and completes, once its counter has reached WVAL. -/
def execTokWait (f : Fin 4) (q : Fin 64) (s : State) : Host.Outcome State Fault Refusal :=
  .next (match s.readyIns f q.val 0x38 with
    | none => s
    | some w => s.runIns f q.val w)

/-- Whether a Frond runs a given kernel of an instance. -/
def Frond.runsKernel (x : Frond) (j inst k : Nat) : Bool :=
  match x.kernel with
  | some r => decide (r.job = j ∧ r.inst = inst ∧ r.kernel = k) && !r.twin
  | none => false

/-- Whether a remote signal finds room (R134): the target runs the kernel, or its queue of 64 is not full. -/
def Frond.hasRoom (x : Frond) (r : RemoteSig) : Bool :=
  x.runsKernel r.job r.inst r.kernel || decide (x.remote.length + x.inbound.length < 64)

/-- TOK.SIG (R134): a local counter gains INC, or a remote signal goes out, waiting while the target's queue is full. -/
def execTokSig (f : Fin 4) (q : Fin 64) (s : State) : Host.Outcome State Fault Refusal :=
  .next (match s.readyIns f q.val 0x39, (s.frond f).kernel with
    | some w, some k =>
      let g := sigF w
      if g.remote then
        let t : Fin 4 := ⟨g.tfrd % 4, Nat.mod_lt _ (by decide)⟩
        let r : RemoteSig := ⟨k.job, k.inst, k.kernel, g.ttok, g.inc⟩
        if (s.frond t).hasRoom r then (s.runIns f q.val w).modFrond t fun x => { x with inbound := x.inbound ++ [r] } else s
      else (s.runIns f q.val w).modFrond f fun x => x.addToken g.ttok g.inc
    | _, _ => s)

/-- Whether the kernel a remote signal is for has ended on a Frond (R134). -/
def Job.hasEnded (x : Job) (r : RemoteSig) (f : Fin 4) : Bool :=
  decide (r.inst < x.inst ∨ r.kernel < x.kernel) || (decide (r.kernel = x.kernel) && x.ended.contains (f, false))

/-- REMOTE_SIGNAL_ARRIVE (R134, R138): applied to the running kernel, held for one not yet started, a program fault of the job
for one that has ended. A signal of an instance that is gone is dropped. -/
def execRemoteSignalArrive (f : Fin 4) (s : State) : Host.Outcome State Fault Refusal :=
  .next (match (s.frond f).inbound with
    | [] => s
    | r :: rest =>
      let s1 := s.modFrond f fun x => { x with inbound := rest }
      match s.job r.job with
      | none => s1
      | some x =>
        if (s.frond f).runsKernel r.job r.inst r.kernel then s1.modFrond f fun y => y.addToken r.ttok r.inc
        else if x.hasEnded r f then
          let w : Who := ⟨r.job, x.prog, r.kernel, 0x39, x.part.val, 0xFF⟩
          let s2 := s1.raise { w.ev (srcOf (16 * f.val) 3) 20 0 0 with stepNo := 1 }
          s2.l1On f 3 r.job St.fault.code
        else s1.modFrond f fun y => { y with remote := y.remote ++ [r] })

/-- The BARs of BARID `id` that stand ready at the issue stages of queues `qs`, by queue. -/
def State.barsAt (s : State) (f : Fin 4) (id : Nat) (qs : List Nat) : List (Nat × IWord) :=
  qs.filterMap fun i => match s.readyIns f i 0x3A with
    | some v => if barId v = id then some (i, v) else none
    | none => none

/-- BAR (R135): it issues in every queue of QMASK once each holds a BAR of the same BARID and its token condition holds. -/
def execBar (f : Fin 4) (q : Fin 64) (s : State) : Host.Outcome State Fault Refusal :=
  .next (match s.slotIns f q.val 0x3A with
    | none => s
    | some w =>
      let qs := (List.range 64).filter fun i => (barQmask w).testBit i
      let bars := s.barsAt f (barId w) qs
      if qs.contains q.val && decide (bars.length = qs.length) then bars.foldl (fun s e => s.runIns f e.1 e.2) s else s)

/-! The end. -/

/-- END (R127, R513): it retires once every earlier instruction of the queue has completed and its flits are acknowledged. A
DRAIN that has issued and finds its half FREE once the ARRAY queue's END has retired is a program fault (R65). -/
def execEndQueue (f : Fin 4) (q : Fin 64) (s : State) : Host.Outcome State Fault Refusal :=
  .next (match s.readyIns f q.val 0x3F, (s.frond f).queue q.val with
    | some _, some u =>
      if u.busy = 0 ∧ s.flitsOut f q.val = false then
        let s1 := s.modQueue f q.val fun u => { u with slot := none, retired := true }
        let x := s1.frond f
        if u.kind = 0 && x.drains.any fun r => decide (r.read < (drainF r.ins).ne) && x.targetAny (drainF r.ins).half .free then
          s1.progFault f 4 q.val
        else s1
      else s
    | _, _ => s)

/-- Adding a copy's output digest (R613): its drain Tally and the transport CRCs of what it moved outside its scratchpad. -/
def State.copyDigest (s : State) (f : Fin 4) : DWord :=
  let o := oHzl (0x4100 + 8 * f.val)
  BitVec.ofNat 64 ((s.reg o).toNat + (s.reg (o + 4)).toNat * 2 ^ 32) + (s.frond f).twinSum

/-- A copy of a job's kernel has ended: its digest; with every copy ended, the next kernel is ready, or the instance is
finished (R510). -/
def State.copyEnded (s : State) (j : Nat) (k : KernelRun) (d : DWord) (f : Fin 4) : State :=
  let all := match s.job j with | some x => s.copies x | none => []
  let n := match s.job j with | some x => (tfind s.progs x.prog).elim 0 (·.kernels.length) | none => 0
  s.modJob j fun x =>
    let key := 4 * x.kernel + k.orig.val
    let ended := x.ended ++ [(k.orig, k.twin)]
    let y := { x with ended := ended, ranOn := tput x.ranOn f.val s.deckNow.toNat,
                      digestA := if k.twin then x.digestA else tput x.digestA key d,
                      digestB := if k.twin then tput x.digestB key d else x.digestB,
                      goldSum := x.goldSum + d }
    if all.all fun c => ended.contains c then
      { y with kernel := x.kernel + 1, started := [], ended := [], readySince := s.now,
               st := if x.kernel + 1 < n then y.st else .finished }
    else y

/-- Signals the kernel sent that other Fronds still hold move to the job's store (R514). -/
def State.storeSignals (s : State) (k : KernelRun) : State :=
  let mine := fun (r : RemoteSig) => r.isFor k.job k.inst k.kernel
  let held := (List.finRange 4).flatMap fun g => ((s.frond g).remote.filter mine).map fun r => (g, r)
  let s1 := { s with fronds := s.fronds.map fun (x : Frond) => { x with remote := x.remote.filter fun r => !mine r } }
  s1.modJob k.job fun x => { x with signals := x.signals ++ held }

/-- The Frond after a kernel end (R66): sets empty, queues gone. -/
def Frond.endKernel (x : Frond) (ptrs : List (Nat × Nat)) : Frond :=
  { x with kernel := none, queues := [], set0 := WeightSet.reset, set1 := WeightSet.reset, qptr := ptrs, loads := [], heldRows := [] }

/-- Whether R65 faults at the kernel's END: a half not FREE, or a STREAM, GANG or DRAIN in progress. -/
def Frond.endBad (x : Frond) : Bool :=
  decide (x.half0.st ≠ .free ∨ x.half1.st ≠ .free) || !x.streams.isEmpty || !x.drains.isEmpty

/-- Fetch pointers of the kernel after `k` of the instance on a Frond (R163), when it has one there. -/
def State.nextPtrs (s : State) (f : Fin 4) (k : KernelRun) : Option (List (Nat × Nat)) :=
  match s.job k.job with
  | none => none
  | some y =>
    if y.inst = k.inst then
      let z := { y with kernel := k.kernel + 1 }
      ((s.copies z).find? fun c => decide (s.copyFrond z c = f)).map fun c => s.ptrsOf z c
    else none

/-- Credits that flits of a Frond's queues hold go back to their links (R514). -/
def State.freeCredits (s : State) (f : Fin 4) : State :=
  let mine := fun (t : Nat) => decide (queueTag f 0 ≤ t ∧ t < queueTag f 64)
  { s with links := s.links.map fun (x : Link) =>
      { x with tags := x.tags.filter fun e => !mine e.1
               outq := x.outq.map fun (p : OutPkt) => if mine p.tag then { p with tag := 0 } else p } }

/-- KERNEL_END (R65, R66, R127, R163, R510, R514, R658): the kernel ends once the last END has retired. -/
def execKernelEnd (f : Fin 4) (s : State) : Host.Outcome State Fault Refusal :=
  .next (match (s.frond f).kernel with
    | none => s
    | some k =>
      let x := s.frond f
      if x.queues.all fun e => e.2.retired then
        if x.endBad || (List.range 64).any (s.flitsOut f) then (s.freeCredits f).progFault f 0x3F 0
        else
          let s1 := (s.storeSignals k).copyEnded k.job k (s.copyDigest f) f
          let ptrs := (s1.nextPtrs f k).getD x.qptr
          (s1.modFrond f fun y => y.endKernel ptrs).sweepRetired
      else s)

end Sys2Proof.Machine
end

