-- ==== Sys2Proof/Machine/DeckOps.lean ====
section
/-! DEFINITION. What Deck banks, Cards and the jobs they admit share (R500 to R509, R520). -/

namespace Sys2Proof.Machine

/-- Bank `b` of a partition. -/
def Part.bank (x : Part) (b : Fin 2) : Option Bank := if b = 0 then x.bank0 else x.bank1

/-- The bank in force. -/
def Part.activeBank (x : Part) : Option Bank := x.active.bind x.bank

/-- Whether some JOB Card of a bank admits a kernel on a Frond: priority and KCAP (R507, R508). -/
def Bank.admits (b : Bank) (f : Fin 4) (prio wcet : Nat) : Bool :=
  b.cards.any fun c => decide (c.kind = 1 ∧ c.frond = f.val ∧ prio ≤ c.prio ∧ wcet ≤ c.kcap)

/-- Kernels of a job's program. -/
def State.kernelsOf (s : State) (x : Job) : List Kernel := (tfind s.progs x.prog).elim [] (·.kernels)

/-- Whether a bank admits every kernel of a job from its present one on, on every Frond that runs a copy (R505, R509, R510). -/
def State.bankFits (s : State) (b : Bank) (x : Job) : Bool :=
  (s.kernelsOf x).zipIdx.all fun (e : Kernel × Nat) => decide (e.2 < x.kernel) ||
    (let y := { x with kernel := e.2 }
     (s.copies y).all fun c => b.admits (s.copyFrond y c) x.prio e.1.wcet)

/-- Whether a job has a kernel on a retired Frond (R658). -/
def State.onRetired (s : State) (x : Job) : Bool :=
  (List.range (s.kernelsOf x).length).any fun i =>
    let y := { x with kernel := i }
    (s.copies y).any fun c => s.nor.retired.getD (s.copyFrond y c).val false

/-! The Card that covers an instant (R500, R502, R503). -/

/-- Start of the present Round, in deck time. -/
def Part.roundStart (x : Part) (b : Bank) : Nat := x.t0 + x.round * (b.round * 1000)

/-- Cards of a Frond with their places among them (R524). -/
def Bank.frondCards (b : Bank) (f : Fin 4) : List (Card × Nat) := (b.cards.filter fun c => decide (c.frond = f.val)).zipIdx

/-- JOB and GOLDEN Cards in the order in which a time budget cuts them (R499). -/
def Bank.budgeted (b : Bank) : List Card :=
  (b.cards.filter fun c => decide (c.kind = 1 ∨ c.kind = 2)).mergeSort fun a c => decide (a.off < c.off ∨ (a.off = c.off ∧ a.frond ≤ c.frond))

/-- JOB and GOLDEN time of a bank (R496). -/
def Bank.workTime (b : Bank) : Nat := (b.budgeted.map (·.len)).foldl (· + ·) 0

/-- Length that a budget leaves to a Card: the one that crosses it ends early, later ones run as IDLE (R499). -/
def cutLen (c : Card) : Nat → List Card → Nat
  | _, [] => c.len
  | left, x :: r => if x.off = c.off ∧ x.frond = c.frond then min left c.len else cutLen c (left - x.len) r

/-- Length of a Card in force (R499). -/
def Part.cardLen (x : Part) (b : Bank) (c : Card) : Nat :=
  match x.cut with
  | some n => if c.kind = 1 ∨ c.kind = 2 then cutLen c n b.budgeted else c.len
  | none => c.len

/-- The Card of a Frond that covers deck time `t`, with its place; none in a gap (R502). -/
def Part.cardAt (x : Part) (b : Bank) (f : Fin 4) (t : Nat) : Option (Card × Nat) :=
  (b.frondCards f).find? fun e =>
    let o := x.roundStart b + e.1.off * 1000
    decide (o ≤ t ∧ t < o + x.cardLen b e.1 * 1000)

/-- The partition that owns a Frond with its bank in force. -/
def State.deckOf (s : State) (f : Fin 4) : Option (Fin 4 × Part × Bank) :=
  (s.ownerOf f).bind fun r => (s.part r).activeBank.map fun b => (r, s.part r, b)

/-- The Card open on a Frond. -/
def State.cardOn (s : State) (f : Fin 4) : Option (Card × Part × Bank) :=
  match s.deckOf f, (s.frond f).card with
  | some (_, x, b), some i => ((b.frondCards f)[i]?).map fun e => (e.1, x, b)
  | _, _ => none

/-- Deck time as a natural number. -/
def State.deckTime (s : State) : Nat := s.deckNow.toNat

end Sys2Proof.Machine
end

