-- ==== Sys2Proof/Machine/EbwickOps.lean ====
section
/-! DEFINITION. Ebwick commands as firmware handles them (R458, R468, R473 to R480): which packets are commands, the checks
of R475 in order, completions. -/

namespace Sys2Proof.Machine

/-- A command of R480: bytes of its payload, the byte ranges (offset, length) that the table names, the largest response. -/
structure CmdLay where
  need : Nat
  named : List (Nat × Nat)
  resp : Nat
  deriving DecidableEq, Repr

/-- Layout of a command whose payload has a fixed length. -/
def layFixed (opc : Nat) : Option CmdLay :=
  match opc with
  | 0x0001 => some ⟨8, [(0, 8)], 8⟩
  | 0x0002 => some ⟨0, [], 28⟩
  | 0x0010 => some ⟨36, [(0, 3), (4, 32)], 16⟩
  | 0x0011 => some ⟨1, [(0, 1)], 0⟩
  | 0x0012 => some ⟨16, [(0, 1), (4, 12)], 8⟩
  | 0x0018 => some ⟨20, [(0, 13), (16, 4)], 20⟩
  | 0x0019 => some ⟨4, [(0, 4)], 0⟩
  | 0x001A => some ⟨16, [(0, 2), (4, 12)], 0⟩
  | 0x001B => some ⟨12, [(0, 1), (4, 8)], 8⟩
  | 0x001C => some ⟨12, [(0, 1), (4, 8)], 12⟩
  | 0x0020 => some ⟨20, [(0, 4), (8, 12)], 13⟩
  | 0x0021 => some ⟨4, [(0, 4)], 0⟩
  | 0x0029 => some ⟨8, [(0, 8)], 0⟩
  | 0x0030 => some ⟨21, [(0, 4), (8, 13)], 4⟩
  | 0x0031 => some ⟨1, [(0, 1)], 10⟩
  | 0x0032 => some ⟨4, [(0, 4)], 1⟩
  | 0x0033 => some ⟨1, [(0, 1)], 0⟩
  | 0x0038 => some ⟨44, [(0, 30), (32, 12)], 0⟩
  | 0x0039 | 0x003A => some ⟨1, [(0, 1)], 0⟩
  | 0x0040 => some ⟨16, [(0, 3), (8, 8)], 8⟩
  | 0x0041 => some ⟨16, [(0, 4), (8, 8)], 8⟩
  | 0x0042 => some ⟨16, [(0, 5), (8, 8)], 4⟩
  | 0x0043 => some ⟨4, [(0, 4)], 0⟩
  | 0x0048 => some ⟨12, [(0, 7), (8, 4)], 1⟩
  | 0x0049 => some ⟨4, [(0, 4)], 0⟩
  | 0x0050 => some ⟨92, [(0, 33), (34, 40), (76, 16)], 0⟩
  | 0x0051 => some ⟨0, [], 8⟩
  | 0x0052 => some ⟨0, [], 8⟩
  | 0x0058 => some ⟨0, [], 28⟩
  | 0x0059 => some ⟨8, [(0, 8)], 0⟩
  | 0x005A => some ⟨8, [(0, 8)], 0⟩
  | 0x0060 => some ⟨5, [(0, 5)], 976⟩
  | 0x0061 => some ⟨4, [(0, 4)], 0⟩
  | 0x0062 => some ⟨3, [(0, 3)], 0⟩
  | 0x0063 => some ⟨4, [(0, 1), (2, 2)], 12⟩
  | 0x0064 => some ⟨20, [(0, 4), (8, 12)], 4⟩
  | 0x0065 => some ⟨2, [(0, 2)], 4080⟩
  | 0x0068 => some ⟨33, [(0, 33)], 576⟩
  | 0x0069 => some ⟨2, [(0, 2)], 32⟩
  | 0x0070 => some ⟨9, [(0, 9)], 68⟩
  | 0x0071 => some ⟨12, [(0, 12)], 0⟩
  | 0x0078 => some ⟨20, [(0, 4), (8, 12)], 32⟩
  | 0x0079 => some ⟨32, [(0, 32)], 0⟩
  | _ => none

/-- Layout of a command of R480; that of JOB_SUBMIT, LAUNCH_SET and DEBUG_AUTH_END depends on the payload (R481, R488). -/
def layOf (opc : Nat) (pl : List Byte) : Option CmdLay :=
  match opc with
  | 0x0028 =>
    let n := fld pl 40 2
    some ⟨48 + 16 * n, [(0, 9), (12, 30)] ++ (List.range (min n 256)).flatMap fun e => [(48 + 16 * e, 7), (56 + 16 * e, 8)], 16⟩
  | 0x005B => if fld pl 0 1 = 0 then let n := fld pl 14 2; some ⟨32 + n, [(0, 28), (32, n)], 0⟩ else some ⟨28, [(0, 28)], 0⟩
  | 0x006A => if pl.isEmpty then some ⟨0, [], 1⟩ else some ⟨64, [(0, 64)], 1⟩
  | _ => layFixed opc

/-- Check 1 of R475 on a command of the table: length, reserved bytes, header. -/
def Taken.wellFormed (t : Taken) (l : CmdLay) : Bool :=
  decide (l.need ≤ t.payload.length ∧ t.status = 0 ∧ t.flags / 2 = 0) &&
    (t.payload.zipIdx.all fun e => e.1 == 0 || l.named.any fun r => decide (r.1 ≤ e.2 ∧ e.2 < r.1 + r.2))

/-- Bytes of a command's largest completion (R468). -/
def largest (opc : Nat) (pl : List Byte) : Nat := 16 * cdiv (16 + (layOf opc pl).elim 0 (·.resp)) 16

/-! Completions. -/

/-- The oldest command taken from an SQ. -/
def State.takenAt (s : State) (p : Fin 4) (d : Nat) : Option Taken := (s.ring p d).bind fun r => r.taken.head?

/-- The CQ that receives a submission ring's completions. -/
def State.pairOf (s : State) (p : Fin 4) (d : Nat) : Nat := ((s.ring p d).map (·.pair)).getD 0

/-- The first promise of SQ `d` leaves a CQ. -/
def dropPromise (d : Nat) : List (Nat × Nat) → List (Nat × Nat)
  | [] => []
  | e :: t => if e.1 = d then t else e :: dropPromise d t

/-- Completing the running command of SQ `d` (R458, R476): it leaves the SQ, its promise leaves the CQ, the completion is
written. Nothing is written once the ring is disarmed (R472) or in the safe state. -/
def State.complete (s : State) (p : Fin 4) (d : Nat) (t : Taken) (st : St) (pl : List Byte) : State :=
  match s.ring p d with
  | none => s
  | some r =>
    let s1 := s.modRing p d fun r => { r with taken := r.taken.drop 1 }
    let s2 := (s1.modRing p r.pair fun r => { r with promises := dropPromise d r.promises }).ringUse p r.pair
    if s2.fcol.safe then s2
    else s2.ringPutIn false p r.pair ((t.opc + 0x8000) % 65536) t.tag st.code t.part pl

/-- What a command answers: status, response, state. -/
structure Done where
  st : St
  resp : List Byte
  s : State

/-- A command refused: no side effect, no response. -/
def refuse (st : St) (s : State) : Done := ⟨st, [], s⟩

/-- A command done without a response. -/
def accept (s : State) : Done := ⟨.ok, [], s⟩

/-- Checks in order: the first that fails names the status (R475). -/
def firstFail : List (Bool × St) → Option St
  | [] => none
  | (ok, st) :: t => if ok then firstFail t else some st

/-- Guarding a body by checks in order. -/
def checks (l : List (Bool × St)) (s : State) (act : Done) : Done :=
  match firstFail l with
  | some st => refuse st s
  | none => act

/-! Sessions and authority. -/

/-- A partition number as an index. -/
def asPart (n : Nat) : Option (Fin 4) := if h : n < 4 then some ⟨n, h⟩ else none

/-- Whether a port holds a partition (R479: "Claimed"). -/
def State.claimedBy (s : State) (p : Fin 4) (n : Nat) : Bool :=
  match asPart n with
  | none => false
  | some r => decide ((s.part r).st = .claimed ∧ (s.part r).port = p)

/-- Whether a port holds the management role (R479: "Mgmt"). -/
def State.isMgmt (s : State) (p : Fin 4) : Bool := s.mgmtParts.any fun r => decide ((s.part r).port = p)

/-- PART of a command against the ring it came from (R475 check 4). -/
def State.partFits (s : State) (p : Fin 4) (d : Nat) (t : Taken) : Bool :=
  match s.ring p d with
  | none => false
  | some r => decide (r.part = 0xFF ∨ t.part = r.part ∨ t.part = 0xFF)

/-- Lowest minor version that accepts a command (R473): a CAMERA block that names a CMAC key slot other than 0 asks for 1.4 too. -/
def State.minMinor (s : State) (t : Taken) : Nat :=
  match t.opc with
  | 0x0041 | 0x0050 | 0x0051 | 0x0052 => 2
  | 0x0064 => 3
  | 0x0038 => if bit1 (fld t.payload 6 1) 0 ∨ (fld t.payload 1 1 = 1 ∧ s.rd (fld t.payload 32 8 + 80) ≠ 0) then 4 else 0
  | _ => 0

/-- Check 2 of R475: without a session there is no session version to be newer than. -/
def State.verOk (s : State) (p : Fin 4) (t : Taken) : Bool :=
  match (s.port p).session with
  | none => true
  | some x => decide (s.minMinor t ≤ x.minor)

/-- Commands that are legal in RECOVERY (R479). -/
def inRecovery (opc : Nat) : Bool :=
  decide (opc ∈ [0x0001, 0x0002, 0x0060, 0x0065, 0x0068, 0x0069, 0x006A, 0x0078, 0x0079])

/-- Device state and session of check 3 (R475, R479, R689): HELLO needs no session; CAPS, FAULT_READ, HEALTH_READ and ATTEST_QUOTE
need none in RECOVERY. -/
def State.devOk (s : State) (p : Fin 4) (opc : Nat) : Bool :=
  let ses := (s.port p).session.isSome
  if opc = 0x0001 then (decide (s.sys.st = .service) || decide (s.sys.st = .recovery)) && !ses
  else match s.sys.st with
    | .service => ses
    | .recovery => inRecovery opc && (decide (s.otp.lifecycle ≠ 4) || decide (opc ∈ [0x0002, 0x0060, 0x0065])) && (ses || decide (opc ∈ [0x0002, 0x0060, 0x0065, 0x0068]))
    | _ => false

/-- Authority that a command needs (R475 check 4, R479). -/
inductive Auth where
  | session
  | claimed
  | mgmt
  deriving DecidableEq, Repr

/-- Whether a port has it: in RECOVERY no partition is claimed and the session is enough (R479). -/
def State.authOk (s : State) (p : Fin 4) (d : Nat) (t : Taken) (a : Auth) : Bool :=
  s.partFits p d t && (match a with
    | .session => true
    | .claimed => s.claimedBy p t.part
    | .mgmt => s.isMgmt p || decide (s.sys.st = .recovery))

/-- HELLO re-arms rings 0 and 1 whatever its status, when no session is open (R456); what was taken behind it stays. -/
def State.rearm (s : State) (p : Fin 4) : State :=
  let t0 := ((s.ring p 0).map (·.taken)).getD []
  let p1 := ((s.ring p 1).map (·.promises)).getD []
  ((s.armSession p).modRing p 0 fun r => { r with taken := t0 }).modRing p 1 fun r => { r with promises := p1 }

/-- The state in which a command is handled: HELLO's rings are armed afresh first. -/
def State.beforeCmd (s : State) (p : Fin 4) (t : Taken) : State :=
  if t.opc = 0x0001 ∧ (s.port p).session = none then s.rearm p else s

/-- Running the oldest command of SQ `d`, while firmware is not halted (R706), when it is command `opc` and satisfies `pick`: checks 1 and 2, then the object-state
checks of 3 in `obj`, the authority of 4, then the body with checks 5 to 7; then the completion. -/
def State.runCmdThen (s : State) (p : Fin 4) (d opc : Nat) (pick : List Byte → Bool) (obj : State → Taken → Bool)
    (auth : Auth) (body : State → Taken → Done) (post : Done → State → State) : State :=
  match s.takenAt p d with
  | none => s
  | some t =>
    if s.fcol.safe = false ∧ s.dbg.halted.contains 4 = false ∧ t.opc = opc ∧ pick t.payload = true then
      match layOf opc t.payload with
      | none => s
      | some l =>
        let s0 := s.beforeCmd p t
        let r := checks [(t.wellFormed l, .arg), (s0.verOk p t, .version), (s0.devOk p opc && obj s0 t, .state),
          (s0.authOk p d t auth, .auth)] s0 (body s0 t)
        post r (r.s.complete p d t r.st r.resp)
    else s

/-- The same with nothing after the completion. -/
def State.runCmd (s : State) (p : Fin 4) (d opc : Nat) (pick : List Byte → Bool) (obj : State → Taken → Bool)
    (auth : Auth) (body : State → Taken → Done) : State :=
  s.runCmdThen p d opc pick obj auth body fun _ s => s

/-- No further object state is required. -/
def anyObj (_ : State) (_ : Taken) : Bool := true
/-- Every payload. -/
def anyPl (_ : List Byte) : Bool := true

/-- The claimed partition of a command whose authority was checked. -/
def State.cmdPart (_s : State) (t : Taken) : Fin 4 := ⟨t.part % 4, Nat.mod_lt _ (by decide)⟩

end Sys2Proof.Machine
end

