-- ==== Sys2Proof/Machine/Sampler.lean ====
section
/-! DEFINITION. The Sampler (R220 to R235): crop-and-resize and pooling, whole in one command. -/

namespace Sys2Proof.Machine

/-- Element bytes of a SAMPLE format. -/
def SampleD.e (d : SampleD) : Nat := if d.fmt = 2 then 2 else 1

/-- Byte address of input pixel `(y, x)`. -/
def SampleD.pixAt (d : SampleD) (img y x : Nat) : Nat := 64 * img + (y * d.iw + x) * d.ipitch

/-- Value of channel `c` of input pixel `(y, x)`. -/
def smpVal (rd : Reader) (d : SampleD) (img y x c : Nat) : Int :=
  let v := rdLe rd (d.pixAt img y x + c * d.e) d.e
  if sampleFmt d.fmt = .uint8 then v else sext (8 * d.e) v

/-- What a SAMPLE produces: writes, pixels read, and the events it counts. -/
structure SmpOut where
  writes : List PendWrite
  pixels : List (Nat × Nat)
  samples : Nat
  oor : Nat
  nonfin : Nat
  deriving DecidableEq, Repr

/-- One output pixel's bytes. -/
def smpBytes (d : SampleD) (vs : List Int) : List Byte := vs.flatMap fun v => leBytes d.e (code (8 * d.e) v)

/-- Sample `(i, j)` of a box (R224 to R228): its bytes, the pixels it reads, whether it takes EXTRAP as out of range. -/
def cropSample (rd : Reader) (d : SampleD) (img : Nat) (box : Nat × Nat × Nat × Nat) (bad : Bool) (i j : Nat) :
    List Byte × List (Nat × Nat) × Bool :=
  let y := sampleCoord d.norm d.ih d.oh i box.1 box.2.2.1
  let x := sampleCoord d.norm d.iw d.ow j box.2.1 box.2.2.2
  let oor := !bad && (outside d.ih y || outside d.iw x)
  if bad || oor then ((List.range d.c).flatMap fun _ => leBytes d.e d.extrap, [], oor)
  else
    let iy := interp d.ih y
    let ix := interp d.iw x
    (smpBytes d ((List.range d.c).map fun c => bilinear (fun a b => smpVal rd d img a b c) iy ix),
      [(iy.1, ix.1), (iy.1, ix.2.1), (iy.2.1, ix.1), (iy.2.1, ix.2.1)], false)

/-- The four coordinates of box `b` (R223). -/
def boxAt (rd : Reader) (boxes b : Nat) : Nat × Nat × Nat × Nat :=
  let a := 64 * boxes + 16 * b
  (rdLe rd a 4, rdLe rd (a + 4) 4, rdLe rd (a + 8) 4, rdLe rd (a + 12) 4)

/-- Whether a box has a NaN or infinite coordinate (R227). -/
def boxBad (b : Nat × Nat × Nat × Nat) : Bool :=
  (decodeFloat .fp32 b.1).isNone || (decodeFloat .fp32 b.2.1).isNone || (decodeFloat .fp32 b.2.2.1).isNone
    || (decodeFloat .fp32 b.2.2.2).isNone

/-- CROP_RESIZE of every box (R223 to R228). -/
def cropOut (rd : Reader) (d : SampleD) (f : SampleF) : SmpOut :=
  let per := (List.range f.nbox).flatMap fun b =>
    let box := boxAt rd f.boxes b
    let bad := boxBad box
    (List.range (d.oh * d.ow)).map fun k =>
      (64 * f.dst + (b * d.oh * d.ow + k) * d.opitch, cropSample rd d f.img box bad (k / d.ow) (k % d.ow))
  { writes := per.map fun e => ⟨e.1, e.2.1⟩, pixels := (per.flatMap fun e => e.2.2.1).dedup, samples := per.length,
    oor := (per.filter fun e => e.2.2.2).length,
    nonfin := ((List.range f.nbox).filter fun b => boxBad (boxAt rd f.boxes b)).length }

/-- In-range window positions of output pixel `(py, px)` (R229). -/
def window (d : SampleD) (py px : Nat) : List (Nat × Nat) :=
  (List.range (d.oh * d.ow)).filterMap fun k =>
    let y : Int := (py * d.s + k / d.ow : Nat) - (d.padT : Int)
    let x : Int := (px * d.s + k % d.ow : Nat) - (d.padL : Int)
    if 0 ≤ y ∧ y < d.ih ∧ 0 ≤ x ∧ x < d.iw then some (y.toNat, x.toNat) else none

/-- Pooled value of a window (R230). -/
def poolVal (avg : Bool) (vs : List Int) : Int :=
  if avg then rneDiv (vs.foldl (· + ·) 0) (max 1 vs.length) else (vs.drop 1).foldl max (vs.getD 0 0)

/-- Pooling (R229, R230). -/
def poolOut (rd : Reader) (d : SampleD) (f : SampleF) (avg : Bool) : SmpOut :=
  let poh := (d.ih + d.padT + d.padB - d.oh) / d.s + 1
  let pow := (d.iw + d.padL + d.padR - d.ow) / d.s + 1
  let per := (List.range (poh * pow)).map fun k =>
    let w := window d (k / pow) (k % pow)
    ((64 * f.dst + k * d.opitch, smpBytes d ((List.range d.c).map fun c =>
      poolVal avg (w.map fun p => smpVal rd d f.img p.1 p.2 c))), w)
  { writes := per.map fun e => ⟨e.1.1, e.1.2⟩, pixels := (per.flatMap (·.2)).dedup, samples := per.length, oor := 0,
    nonfin := 0 }

/-- A SAMPLE runs whole from its output: reads checked, output written, counters, completion; the flag is a program fault. -/
def State.sampleRun (s : State) (f : Fin 4) (q : Nat) (w : IWord) (o : SmpOut) : State × Bool :=
  let t := sampleF w
  let d := sampleOf (s.desc f t.desc)
  let rows := ((if d.mode = 0 then rowsOf (64 * t.boxes) (16 * t.nbox) else []) ++
    o.pixels.flatMap fun p => rowsOf (d.pixAt t.img p.1 p.2) (d.c * d.e)).dedup
  let who := s.frondWho f 0x10
  let s1 := (s.issueIns f q).reportFetch who f [] rows
  let s2 := (((s1.count (oFrd f 0xE004) o.samples).count (oFrd f 0xE008) o.oor).count (oFrd f 0xE00C) o.nonfin).setNonfinite f
    (decide (0 < o.nonfin))
  let p := s2.spStoreAll who f 3 o.writes
  (p.1.finishIns f q w, p.2)

/-- The same with what the fault does. -/
def State.finishSample (s : State) (f : Fin 4) (q : Nat) (w : IWord) (o : SmpOut) : State := State.orFault (s.sampleRun f q w o) f 0x10

/-- A SAMPLE of a mode runs. -/
def State.runSample (s : State) (f : Fin 4) (q : Nat) (mode : Nat) (out : Reader → SampleD → SampleF → SmpOut) : State :=
  match s.readyIns f q 0x10 with
  | none => s
  | some w =>
    let d := sampleOf (s.desc f (sampleF w).desc)
    if d.mode = mode then s.finishSample f q w (out (s.spReader f) d (sampleF w)) else s

/-- CROP_RESIZE (R223 to R228). -/
def execCropResize (f : Fin 4) (q : Fin 64) (s : State) : Host.Outcome State Fault Refusal :=
  .next (s.runSample f q.val 0 cropOut)

/-- MAXPOOL (R229, R230). -/
def execMaxpool (f : Fin 4) (q : Fin 64) (s : State) : Host.Outcome State Fault Refusal :=
  .next (s.runSample f q.val 1 fun rd d t => poolOut rd d t false)

/-- AVGPOOL (R229, R230). -/
def execAvgpool (f : Fin 4) (q : Fin 64) (s : State) : Host.Outcome State Fault Refusal :=
  .next (s.runSample f q.val 2 fun rd d t => poolOut rd d t true)

end Sys2Proof.Machine
end

