-- ==== Sys2Proof/Machine/SfuBounds.lean ====
section
/-! DEFINITION. The built-in special functions: what R259 states of their tables. The functions themselves are formed in fixed point
with at least 60 bits more than the bounds need. -/

namespace Sys2Proof.Machine

/-- Fixed point of an exact value with `p` fraction bits. -/
def fixed (p : Int) (x : Exact) : Int := (x.scale p).floor

/-- exp of a value: Taylor series at one 256th of its magnitude, squared eight times. -/
def expX (x : Exact) : Exact :=
  let a := fixed 192 ({ x with neg := false }.scale (-8))
  let t := (List.range 40).foldl (fun (p : Int × Int) n =>
    let u := p.2 * a / (((n : Int) + 1) * 2 ^ 192)
    (p.1 + u, u)) ((2 : Int) ^ 192, (2 : Int) ^ 192)
  let y := (List.range 8).foldl (fun (v : Int) _ => v * v / 2 ^ 192) t.1
  if x.neg then ⟨false, 2 ^ 192, y.toNat, 0⟩ else ⟨false, y.toNat, 1, -192⟩

/-- Inverse hyperbolic tangent of a fixed-point value below 1/2 in magnitude, 192 fraction bits. -/
def atanhFix (z : Int) : Int :=
  ((List.range 100).foldl (fun (p : Int × Int) n =>
    (p.1 + p.2 / (2 * (n : Int) + 1), p.2 * z / 2 ^ 192 * z / 2 ^ 192)) ((0 : Int), z)).1

/-- Natural logarithm of a positive value. -/
def lnX (x : Exact) : Exact :=
  let e := x.ilog2
  let m := fixed 192 ({ x with neg := false }.scale (-e))
  let v := 2 * atanhFix ((m - 2 ^ 192) * 2 ^ 192 / (m + 2 ^ 192)) + e * (2 * atanhFix (2 ^ 192 / 3))
  ⟨decide (v < 0), v.natAbs, 1, -192⟩

/-- Sum over n of `(-u)^n / (n! (2n + 1))`, `u` with 256 fraction bits. -/
def erfSeries (u : Int) : Int :=
  ((List.range 240).foldl (fun (p : Int × Int) n =>
    (p.1 + p.2 / (2 * (n : Int) + 1), -(p.2 * u / (((n : Int) + 1) * 2 ^ 256)))) ((0 : Int), (2 : Int) ^ 256)).1

/-- `x` times a decimal constant times an erf series. -/
def erfX (x : Exact) (c : Nat) (u : Exact) : Exact :=
  let v := erfSeries (fixed 256 u)
  x.mul ⟨decide (v < 0), v.natAbs * c, 10 ^ 50, -256⟩

/-- The number one. -/
def one : Exact := exactInt 1

/-- Logistic function. -/
def sigmoidX (x : Exact) : Exact := one.div (one.add (expX x.neg'))

/-- Square root of the reciprocal of a positive value. -/
def rsqrtX (x : Exact) : Exact :=
  let o := x.exp % 2
  ⟨false, Nat.sqrt (x.den * 2 ^ 400 / (x.num * 2 ^ o.toNat)), 1, -((x.exp - o) / 2) - 200⟩

/-- The function of a built-in table (R259): 2/√π and √(2/π) stand to fifty digits. -/
def sfuExact (func : Nat) (x : Exact) : Exact :=
  let sq := x.mul x
  match func with
  | 0 => expX x
  | 1 => lnX x
  | 2 => one.div x
  | 3 => rsqrtX x
  | 4 => sigmoidX x
  | 5 => let e := expX (x.scale 1).neg'
         (one.add e.neg').div (one.add e)
  | 6 => (x.mul (one.add (erfX x 79788456080286535587989211986876373695171726232986 (sq.scale (-1))))).scale (-1)
  | 7 => x.mul (sigmoidX x)
  | 8 => lnX (one.add (expX x))
  | _ => erfX x 112837916709551257389615890312154517168810125865799 sq

/-- The error bound of a table at a value of its function (R259); `2 ^ -149` is the step of the smallest results. -/
def sfuSlack (func : Nat) (y : Exact) : Exact :=
  let tiny : Exact := ⟨false, 1, 1, -149⟩
  (if func = 0 ∨ func = 2 ∨ func = 3 then { y with neg := false }.scale (-20)
   else ⟨false, 1, 1, if func = 1 then -20 else if func = 6 ∨ func = 7 ∨ func = 8 then -14 else -15⟩).add tiny

/-- Whether a result keeps the error bound of R259. -/
def sfuWithin (func : Nat) (x : Exact) (c : Nat) : Bool :=
  let y := sfuExact func x
  let e := sfuSlack func y
  let r := fpv c
  (r.le (y.add e) || decide (c = 0xFF7FFFFF)) && ((y.add e.neg').le r || decide (c = 0x7F7FFFFF))

/-- Whether the records of a built-in table are such as R259 and R257 allow: finite, seams met, points monotone where the table is MONO. -/
def builtinOk (func : Nat) : Bool :=
  let h := sfuBuiltinHdr func
  let pts := (List.range 256).map (fun s => (builtinSeg func s).1) ++ [(builtinSeg func 255).2.1]
  ((List.range 256).all fun s => let r := builtinSeg func s
      (decodeFloat .fp32 r.1).isSome && (decodeFloat .fp32 r.2.1).isSome && (decodeFloat .fp32 r.2.2).isSome)
    && seamsOk h (fun s => (builtinSeg func s).1) (fun s => (builtinSeg func s).2.1)
    && (!h.mono || monotone (if h.scheme = 0 then [h.loVal] ++ pts ++ (if h.hiId then [] else [h.hiVal]) else pts))

/-- One evaluation of a built-in table: records that R259 rules out are no table's, and stand for the function itself
(notes/assumptions/5). -/
def builtinEval (func xc : Nat) : Nat × Bool :=
  sfuEval (sfuBuiltinHdr func) (builtinSeg func)
    (fun x c => if builtinOk func && sfuWithin func x c then c else toFp32 (sfuExact func x)) xc

end Sys2Proof.Machine
end

