-- ==== Sys2Proof/Machine/Vector.lean ====
section
/-! DEFINITION. The vector unit and the special functions (R236 to R266), each instruction whole in one command. -/

namespace Sys2Proof.Machine

/-! Operands (R237 to R240). -/

/-- Element bytes of a non-EAF format. -/
def Fmt.bytes (f : Fmt) : Nat := f.width / 8

/-- Format of a descriptor code; INT8 for a code PROG_LOAD does not admit. -/
def vfmt (c : Nat) : Fmt := (Fmt.ofCode c).getD .int8

/-- Element `(r, i)` of a non-EAF operand, widened (R238, R240). -/
def elemAt (rd : Reader) (fm : Fmt) (base pitch r i : Nat) : Elem :=
  widen fm (rdLe rd (64 * base + r * pitch + i * fm.bytes) fm.bytes)

/-- IMM as a scalar operand (R237). -/
def immElem (d : VecD) : Elem := if (vfmt d.bfmt).isFloat then .fp d.imm else .int (sext 32 d.imm)

/-- Operand B of element `(r, i)` (R239). -/
def elemB (rd : Reader) (d : VecD) (srcb r i : Nat) : Elem :=
  match d.bmode with
  | 1 => immElem d
  | 2 => elemAt rd (vfmt d.bfmt) srcb d.bpitch 0 i
  | 3 => elemAt rd (vfmt d.bfmt) srcb d.bpitch r 0
  | _ => elemAt rd (vfmt d.bfmt) srcb d.bpitch r i

/-- Rows of A as widened elements. -/
def rowA (rd : Reader) (d : VecD) (srca r : Nat) : List Elem :=
  (List.range d.len).map fun i => elemAt rd (vfmt d.afmt) srca d.apitch r i

/-- Scratchpad rows of a non-EAF operand of `rows` rows of `len` elements. -/
def opRows (fm : Fmt) (base pitch rows len : Nat) : List Nat :=
  ((List.range rows).flatMap fun r => rowsOf (64 * base + r * pitch) (len * fm.bytes)).dedup

/-- Rows that operand B occupies. -/
def rowsB (d : VecD) (srcb : Nat) : List Nat :=
  match d.bmode with
  | 1 => []
  | 2 => opRows (vfmt d.bfmt) srcb d.bpitch 1 d.len
  | 3 => opRows (vfmt d.bfmt) srcb d.bpitch d.rows 1
  | _ => opRows (vfmt d.bfmt) srcb d.bpitch d.rows d.len

/-- Rows of `n` EAF elements from a base. -/
def eafRows (base n : Nat) : List Nat := (List.range (16 * cdiv n 64)).map (base + ·)

/-- Elements that an EAF operand B holds: one for the one row of A under COLB, else as A (R239). -/
def VecD.eafLenB (d : VecD) : Nat := if d.bmode = 3 then 1 else d.len

/-- A block whose elements all are element 0 of another (R239). -/
def Eaf.spread (b : Eaf) : Eaf :=
  { b with elems := List.replicate 64 (b.elems.getD 0 0), res := List.replicate 64 (b.res.getD 0 0) }

/-- The EAF blocks of an operand of `n` elements, with whether RES disagreed (R117). -/
def eafBlocksAt (rd : Reader) (base n : Nat) : List (Eaf × Bool) :=
  (List.range (cdiv n 64)).map fun b => Eaf.parse ((List.range 1024).map fun i => rd (64 * base + 1024 * b + i))

/-- The blocks that an operation takes from EAF operand B as read: under COLB its one element for every element of A (R239). -/
def VecD.eafUse (d : VecD) (b : List (Eaf × Bool)) : List (Eaf × Bool) :=
  if d.bmode = 3 then List.replicate (cdiv d.len 64) (((b.map fun e => (e.1.spread, e.2))[0]?).getD (Eaf.empty, false)) else b

/-- Block `i / 64` of a list of EAF blocks. -/
def eafBlockOf (l : List (Eaf × Bool)) (i : Nat) : Eaf := (l.getD (i / 64) (Eaf.empty, false)).1

/-- One row of results. -/
def rowWrite (fm : Fmt) (dst pitch r : Nat) (codes : List Nat) : PendWrite :=
  ⟨64 * dst + r * pitch, codes.flatMap fun c => leBytes fm.bytes c⟩

/-- What an instruction produces: rows read, writes, and what it counts. `resBad` counts blocks whose RES disagreed, `cntBad`
blocks whose COUNTs differ, `expBad` an add of blocks of different EXP, `dom` arguments given NEG_VAL. -/
structure VecOut where
  reads : List Nat
  writes : List PendWrite
  sat : Nat := 0
  nonfin : Nat := 0
  resBad : Nat := 0
  cntBad : Nat := 0
  expBad : Bool := false
  dom : Nat := 0
  deriving DecidableEq, Repr

/-- Counters, indication and checks of an instruction (R117, R243, R244, R248, R256). -/
def State.vecReport (s : State) (f : Fin 4) (op : Nat) (o : VecOut) : State :=
  let w := s.frondWho f op
  let s1 := (((s.count (oFrd f 0xC004) o.sat).count (oFrd f 0xC008) o.nonfin).count (oFrd f 0xC00C) o.dom).setNonfinite f
    (decide (0 < o.nonfin))
  let s2 := (List.range o.resBad).foldl (fun s _ => s.checkFail w (16 * f.val + 4) 1 1 0 0) s1
  (List.range o.cntBad).foldl (fun s _ => s.checkFail w (16 * f.val + 4) 1 0 0 0) s2

/-- A VEC or SFU instruction runs whole; the flag is a program fault: a write turned down (R154, R176), blocks of different EXP. -/
def State.vecRun (s : State) (f : Fin 4) (q op : Nat) (w : IWord) (o : VecOut) : State × Bool :=
  let who := s.frondWho f op
  let s1 := ((s.issueIns f q).reportFetch who f [] o.reads.dedup).vecReport f op o
  let p := s1.spStoreAll who f 3 o.writes
  (p.1.finishIns f q w, p.2 || o.expBad)

/-- The same with what the fault does. -/
def State.finishVec (s : State) (f : Fin 4) (q op : Nat) (w : IWord) (o : VecOut) : State := State.orFault (s.vecRun f q op w o) f op

/-- The VEC instruction of an operation standing ready in a queue, with its descriptor. -/
def State.vecReady (s : State) (f : Fin 4) (q vop : Nat) : Option (IWord × VecF × VecD) :=
  match s.readyIns f q 8 with
  | none => none
  | some w => if (vecF w).vop = vop then some (w, vecF w, vecOf (s.desc f (vecF w).desc)) else none

/-- Running a VEC operation from its output function. -/
def State.runVec (s : State) (f : Fin 4) (q vop : Nat) (out : Reader → VecF → VecD → VecOut) : State :=
  match s.vecReady f q vop with
  | none => s
  | some (w, t, d) => s.finishVec f q 8 w (out (s.spReader f) t d)

/-! Element-wise operations (R242 to R244). -/

/-- Output of an element-wise operation given the result of element `(r, i)`. -/
def elemOut (rd : Reader) (t : VecF) (d : VecD) (two : Bool) (op : Nat → Nat → ElemRes) : VecOut :=
  let fd := vfmt d.dfmt
  let rows := (List.range d.rows).map fun r => (List.range d.len).map (op r)
  { reads := opRows (vfmt d.afmt) t.srca d.apitch d.rows d.len ++ (if two then rowsB d t.srcb else []),
    writes := rows.zipIdx.map fun (l, r) => rowWrite fd t.dst d.dpitch r (l.map fun e => narrow fd e.e),
    sat := (rows.map fun l => (l.map (·.sat)).foldl (· + ·) 0).foldl (· + ·) 0,
    nonfin := (rows.map fun l => (l.map (·.nonfin)).foldl (· + ·) 0).foldl (· + ·) 0 }

/-- A two-operand operation. -/
def outOp2 (vop : Nat) (rd : Reader) (t : VecF) (d : VecD) : VecOut :=
  elemOut rd t d true fun r i => vecOp2 vop (elemAt rd (vfmt d.afmt) t.srca d.apitch r i) (elemB rd d t.srcb r i)

/-- A one-operand operation; `free` is the value of an INT32 result that R244 does not state. -/
def outOp1 (vop : Nat) (free : Word) (rd : Reader) (t : VecF) (d : VecD) : VecOut :=
  elemOut rd t d false fun r i => vecOp1 vop (sext 32 d.imm) free (elemAt rd (vfmt d.afmt) t.srca d.apitch r i)

/-- Running an operation some of whose results the manual does not state, with a fresh free value for them. -/
def State.runVecFree (s : State) (f : Fin 4) (q vop : Nat) (out : Word → Reader → VecF → VecD → VecOut) : State :=
  let (v, s1) := s.fresh
  if (s.vecReady f q vop).isSome then s1.runVec f q vop (out v) else s

/-- ADD (R243, R244). -/
def execVecAdd (f : Fin 4) (q : Fin 64) (s : State) : Host.Outcome State Fault Refusal := .next (s.runVec f q.val 0x00 (outOp2 0x00))
/-- SUB (R243, R244). -/
def execVecSub (f : Fin 4) (q : Fin 64) (s : State) : Host.Outcome State Fault Refusal := .next (s.runVec f q.val 0x01 (outOp2 0x01))
/-- MUL (R243, R244). -/
def execVecMul (f : Fin 4) (q : Fin 64) (s : State) : Host.Outcome State Fault Refusal := .next (s.runVec f q.val 0x02 (outOp2 0x02))
/-- MIN (R243). -/
def execVecMin (f : Fin 4) (q : Fin 64) (s : State) : Host.Outcome State Fault Refusal := .next (s.runVec f q.val 0x03 (outOp2 0x03))
/-- MAX (R243). -/
def execVecMax (f : Fin 4) (q : Fin 64) (s : State) : Host.Outcome State Fault Refusal := .next (s.runVec f q.val 0x04 (outOp2 0x04))
/-- ABS (R242). -/
def execVecAbs (f : Fin 4) (q : Fin 64) (s : State) : Host.Outcome State Fault Refusal := .next (s.runVecFree f q.val 0x05 (outOp1 0x05))
/-- NEG (R242). -/
def execVecNeg (f : Fin 4) (q : Fin 64) (s : State) : Host.Outcome State Fault Refusal := .next (s.runVecFree f q.val 0x06 (outOp1 0x06))
/-- CVT (R240). -/
def execVecCvt (f : Fin 4) (q : Fin 64) (s : State) : Host.Outcome State Fault Refusal :=
  .next (s.runVec f q.val 0x07 (outOp1 0x07 0))
/-- SCALE2 (R242). -/
def execVecScale2 (f : Fin 4) (q : Fin 64) (s : State) : Host.Outcome State Fault Refusal :=
  .next (s.runVec f q.val 0x08 (outOp1 0x08 0))
/-- AND (R242). -/
def execVecAnd (f : Fin 4) (q : Fin 64) (s : State) : Host.Outcome State Fault Refusal := .next (s.runVec f q.val 0x0A (outOp2 0x0A))
/-- OR (R242). -/
def execVecOr (f : Fin 4) (q : Fin 64) (s : State) : Host.Outcome State Fault Refusal := .next (s.runVec f q.val 0x0B (outOp2 0x0B))
/-- XOR (R242). -/
def execVecXor (f : Fin 4) (q : Fin 64) (s : State) : Host.Outcome State Fault Refusal := .next (s.runVec f q.val 0x0C (outOp2 0x0C))
/-- SHL (R244). -/
def execVecShl (f : Fin 4) (q : Fin 64) (s : State) : Host.Outcome State Fault Refusal := .next (s.runVec f q.val 0x0D (outOp2 0x0D))
/-- SHRA (R242). -/
def execVecShra (f : Fin 4) (q : Fin 64) (s : State) : Host.Outcome State Fault Refusal := .next (s.runVec f q.val 0x0E (outOp2 0x0E))

/-! Reductions (R245 to R247). -/

/-- The square of an element under SQ, and whether it saturates (R245). -/
def squared (i : Int) : Int × Bool := if 3037000499 < i.natAbs then (2 ^ 63 - 1, true) else (i * i, false)

/-- An FP32 element of a sum, converted under R115 and squared under SQ (R245). -/
def rsumFp (d : VecD) (e : Elem) : Int × EafFlags :=
  let c := toEaf e.forEaf d.eafExp
  if d.sq then ((squared c.1).1, { c.2 with range := c.2.range || (squared c.1).2 }) else c

/-- The sum of a row of integers: exact, and brought to the block's exponent once (R245). DESIGN CHOICE (notes/assumptions/90):
where the exact sum is no multiple of the block's unit it is rounded by RNE and sets INEXACT. -/
def rsumInt (d : VecD) (l : List Elem) : Int × EafFlags :=
  let up : Int := 2 ^ (-d.eafExp).toNat
  let unit : Nat := 2 ^ (if d.sq then 2 * d.eafExp else d.eafExp).toNat
  let ts := l.map fun e =>
    let v := (match e with | .int v => v | .fp _ => 0) * up
    if d.sq then squared v else (v, false)
  let t := (ts.map (·.1)).foldl (· + ·) 0
  (rneDiv t unit, ⟨decide (t % unit ≠ 0), ts.any (·.2), false⟩)

/-- The EAF element of one row's sum (R245). -/
def rsumRow (d : VecD) (l : List Elem) : Int × EafFlags :=
  let r := if (vfmt d.afmt).isFloat then
      let cs := l.map (rsumFp d)
      ((cs.map (·.1)).foldl (· + ·) 0, cs.foldl (fun (a : EafFlags) c => a.or c.2) ⟨false, false, false⟩)
    else rsumInt d l
  let t := eafSat r.1
  (t.1, { r.2 with range := r.2.range || t.2 })

/-- Number of non-finite elements of a row of widened elements. -/
def nonfinIn (l : List Elem) : Nat := (l.filter fun e => e.val.2).length

/-- RSUM (R245). -/
def outRsum (rd : Reader) (t : VecF) (d : VecD) : VecOut :=
  let rows := (List.range d.rows).map (rowA rd d t.srca)
  let sums := rows.map (rsumRow d)
  let e : Int := if d.sq then 2 * d.eafExp else d.eafExp
  let new := (List.range (cdiv d.rows 64)).map fun b =>
    let l := (sums.drop (64 * b)).take 64
    Eaf.ofElems (l.map (·.1)) e (l.any (·.2.inexact)) (l.any (·.2.range)) (l.any (·.2.nonfinite)) d.len
  let old := eafBlocksAt rd t.dst d.rows
  let out := if d.acc then (new.zip old).map fun (n, o) => o.1.add n else new
  { reads := opRows (vfmt d.afmt) t.srca d.apitch d.rows d.len ++ (if d.acc then eafRows t.dst d.rows else []),
    writes := if d.acc && old.any (fun o => decide (o.1.exp ≠ e)) then []
      else out.zipIdx.map fun (b, i) => ⟨64 * t.dst + 1024 * i, b.bytes⟩,
    nonfin := (rows.map nonfinIn).foldl (· + ·) 0,
    resBad := if d.acc then (old.filter (·.2)).length else 0,
    expBad := d.acc && old.any fun o => decide (o.1.exp ≠ e) }

/-- RMAX, RMIN and ARGMAX (R247): one result per row. -/
def outPick (lt : Elem → Elem → Bool) (arg : Bool) (rd : Reader) (t : VecF) (d : VecD) : VecOut :=
  let fd := vfmt d.dfmt
  let rows := (List.range d.rows).map (rowA rd d t.srca)
  { reads := opRows (vfmt d.afmt) t.srca d.apitch d.rows d.len,
    writes := rows.zipIdx.map fun (l, r) =>
      let i := bestIdx lt l
      rowWrite fd t.dst d.dpitch r [if arg then code fd.width i else narrow fd (l.getD i (.int 0))],
    nonfin := (rows.map nonfinIn).foldl (· + ·) 0 }

/-- RSUM (R245, R246). -/
def execVecRsum (f : Fin 4) (q : Fin 64) (s : State) : Host.Outcome State Fault Refusal := .next (s.runVec f q.val 0x10 outRsum)
/-- RMAX (R247). -/
def execVecRmax (f : Fin 4) (q : Fin 64) (s : State) : Host.Outcome State Fault Refusal :=
  .next (s.runVec f q.val 0x11 (outPick elemLt false))
/-- RMIN (R247). -/
def execVecRmin (f : Fin 4) (q : Fin 64) (s : State) : Host.Outcome State Fault Refusal :=
  .next (s.runVec f q.val 0x12 (outPick (fun a b => elemLt b a) false))
/-- ARGMAX (R247). -/
def execVecArgmax (f : Fin 4) (q : Fin 64) (s : State) : Host.Outcome State Fault Refusal :=
  .next (s.runVec f q.val 0x13 (outPick elemLt true))

/-! The Exact Accumulation Format (R113 to R119, R248). -/

/-- EAF_ADD (R116): blocks of different EXP are a program fault. -/
def outEafAdd (rd : Reader) (t : VecF) (d : VecD) : VecOut :=
  let a := eafBlocksAt rd t.srca d.len
  let b := eafBlocksAt rd t.srcb d.eafLenB
  let p := a.zip (d.eafUse b)
  let bad := p.any fun (x, y) => decide (x.1.exp ≠ y.1.exp)
  { reads := eafRows t.srca d.len ++ eafRows t.srcb d.eafLenB,
    writes := if bad then [] else p.zipIdx.map fun (e, i) => ⟨64 * t.dst + 1024 * i, (e.1.1.add e.2.1).bytes⟩,
    resBad := ((a ++ b).filter (·.2)).length, expBad := bad }

/-- A flat result of `n` elements in DFMT. -/
def flatWrite (d : VecD) (dst : Nat) (codes : List Nat) : List PendWrite := [rowWrite (vfmt d.dfmt) dst d.dpitch 0 codes]

/-- EAF_OUT (R118). -/
def outEafOut (rd : Reader) (t : VecF) (d : VecD) : VecOut :=
  let a := eafBlocksAt rd t.srca d.len
  { reads := eafRows t.srca d.len, resBad := (a.filter (·.2)).length,
    writes := flatWrite d t.dst ((List.range d.len).map fun i =>
      let b := eafBlockOf a i
      (convert (vfmt d.dfmt) (eafVal (b.elems.getD (i % 64) 0) b.exp)).1) }

/-- MEAN_FIN (R248). -/
def outMeanFin (rd : Reader) (t : VecF) (d : VecD) : VecOut :=
  let a := eafBlocksAt rd t.srca d.len
  { reads := eafRows t.srca d.len, resBad := (a.filter (·.2)).length,
    writes := flatWrite d t.dst ((List.range d.len).map fun i =>
      let b := eafBlockOf a i
      meanFin b.count (b.elems.getD (i % 64) 0) b.exp) }

/-- VAR_FIN (R119, R248): COUNTs that differ give +0 and an entry; `free` is the value of a quotient 0 / 0. -/
def outVarFin (free : Word) (rd : Reader) (t : VecF) (d : VecD) : VecOut :=
  let a := eafBlocksAt rd t.srca d.len
  let b := eafBlocksAt rd t.srcb d.eafLenB
  let u := d.eafUse b
  { reads := eafRows t.srca d.len ++ eafRows t.srcb d.eafLenB, resBad := ((a ++ b).filter (·.2)).length,
    cntBad := ((a.zip u).filter fun (x, y) => decide (x.1.count ≠ y.1.count)).length,
    writes := flatWrite d t.dst ((List.range d.len).map fun i =>
      let x := eafBlockOf a i
      let y := eafBlockOf u i
      if x.count = y.count then varFin free x.count (x.elems.getD (i % 64) 0) (y.elems.getD (i % 64) 0) x.exp else 0) }

/-- EAF_CVT (R115): blocks of COUNT 1. -/
def outEafCvt (rd : Reader) (t : VecF) (d : VecD) : VecOut :=
  let l := rowA rd d t.srca 0
  { reads := opRows (vfmt d.afmt) t.srca d.apitch 1 d.len, nonfin := nonfinIn l,
    writes := (eafBlocks d.eafExp (cdiv d.len 64) (l.map fun e => toEaf e.forEaf d.eafExp)).zipIdx.map fun (b, i) =>
      ⟨64 * t.dst + 1024 * i, b.bytes⟩ }

/-- EXPMAP (R90, R249). -/
def outExpmap (rd : Reader) (t : VecF) (d : VecD) : VecOut :=
  let fa := vfmt d.afmt
  let g := cdiv d.len 32
  { reads := opRows fa t.srca d.apitch d.rows d.len,
    writes := (List.range d.rows).map fun r =>
      ⟨64 * t.dst + 2 * (r * g), mapEntries fa g ((List.range d.len).map fun i =>
        rdLe rd (64 * t.srca + r * d.apitch + i * fa.bytes) fa.bytes)⟩ }

/-- EAF_ADD (R116). -/
def execVecEafAdd (f : Fin 4) (q : Fin 64) (s : State) : Host.Outcome State Fault Refusal := .next (s.runVec f q.val 0x18 outEafAdd)
/-- EAF_OUT (R118). -/
def execVecEafOut (f : Fin 4) (q : Fin 64) (s : State) : Host.Outcome State Fault Refusal := .next (s.runVec f q.val 0x19 outEafOut)
/-- MEAN_FIN (R248). -/
def execVecMeanFin (f : Fin 4) (q : Fin 64) (s : State) : Host.Outcome State Fault Refusal :=
  .next (s.runVec f q.val 0x1A outMeanFin)
/-- VAR_FIN (R119, R248). -/
def execVecVarFin (f : Fin 4) (q : Fin 64) (s : State) : Host.Outcome State Fault Refusal :=
  .next (s.runVecFree f q.val 0x1B outVarFin)
/-- EAF_CVT (R115). -/
def execVecEafCvt (f : Fin 4) (q : Fin 64) (s : State) : Host.Outcome State Fault Refusal := .next (s.runVec f q.val 0x1C outEafCvt)
/-- EXPMAP (R249). -/
def execVecExpmap (f : Fin 4) (q : Fin 64) (s : State) : Host.Outcome State Fault Refusal := .next (s.runVec f q.val 0x20 outExpmap)

/-! Special functions (R253 to R261). -/

/-- An SFU over its elements, each evaluated to a code and whether NEG_VAL was given. -/
def outSfu (ev : Nat → Nat × Bool) (rd : Reader) (t : VecF) (d : VecD) : VecOut :=
  let fd := vfmt d.dfmt
  let rows := (List.range d.rows).map fun r => (rowA rd d t.srca r).map Elem.toFp
  let res := rows.map fun l => l.map ev
  { reads := opRows (vfmt d.afmt) t.srca d.apitch d.rows d.len,
    writes := res.zipIdx.map fun (l, r) => rowWrite fd t.dst d.dpitch r (l.map fun e => narrow fd (.fp e.1)),
    nonfin := (rows.map fun l => (l.filter fun c => (fp32Val c).2).length).foldl (· + ·) 0,
    dom := (res.map fun l => (l.filter (·.2)).length).foldl (· + ·) 0 }

/-- Running SFU instruction FUNC. -/
def State.runSfu (s : State) (f : Fin 4) (q func : Nat) (out : Reader → VecF → VecD → VecOut) : State :=
  match s.readyIns f q 9 with
  | none => s
  | some w =>
    if (sfuF w).vop = func then s.finishVec f q 9 w (out (s.spReader f) (sfuF w) (vecOf (s.desc f (sfuF w).desc))) else s

/-- A built-in function. -/
def State.runBuiltin (s : State) (f : Fin 4) (q func : Nat) : State :=
  s.runSfu f q func (outSfu (builtinEval func))

/-- SFU FUNC 0, exp (R259). -/
def execSfuExp (f : Fin 4) (q : Fin 64) (s : State) : Host.Outcome State Fault Refusal := .next (s.runBuiltin f q.val 0)
/-- SFU FUNC 1, log (R259). -/
def execSfuLog (f : Fin 4) (q : Fin 64) (s : State) : Host.Outcome State Fault Refusal := .next (s.runBuiltin f q.val 1)
/-- SFU FUNC 2, reciprocal (R259). -/
def execSfuReciprocal (f : Fin 4) (q : Fin 64) (s : State) : Host.Outcome State Fault Refusal := .next (s.runBuiltin f q.val 2)
/-- SFU FUNC 3, reciprocal square root (R259). -/
def execSfuRsqrt (f : Fin 4) (q : Fin 64) (s : State) : Host.Outcome State Fault Refusal := .next (s.runBuiltin f q.val 3)
/-- SFU FUNC 4, sigmoid (R259). -/
def execSfuSigmoid (f : Fin 4) (q : Fin 64) (s : State) : Host.Outcome State Fault Refusal := .next (s.runBuiltin f q.val 4)
/-- SFU FUNC 5, tanh (R259). -/
def execSfuTanh (f : Fin 4) (q : Fin 64) (s : State) : Host.Outcome State Fault Refusal := .next (s.runBuiltin f q.val 5)
/-- SFU FUNC 6, GELU (R259). -/
def execSfuGelu (f : Fin 4) (q : Fin 64) (s : State) : Host.Outcome State Fault Refusal := .next (s.runBuiltin f q.val 6)
/-- SFU FUNC 7, SiLU (R259). -/
def execSfuSilu (f : Fin 4) (q : Fin 64) (s : State) : Host.Outcome State Fault Refusal := .next (s.runBuiltin f q.val 7)
/-- SFU FUNC 8, softplus (R259). -/
def execSfuSoftplus (f : Fin 4) (q : Fin 64) (s : State) : Host.Outcome State Fault Refusal := .next (s.runBuiltin f q.val 8)
/-- SFU FUNC 9, erf (R259). -/
def execSfuErf (f : Fin 4) (q : Fin 64) (s : State) : Host.Outcome State Fault Refusal := .next (s.runBuiltin f q.val 9)

/-- The slot that holds user table `i` of a program, with its bytes (R260). -/
def Frond.userTable (x : Frond) (prog i : Nat) : Option (Nat × List Byte) :=
  (x.sfu.find? fun e => decide (e.2.1 = prog ∧ e.2.2.1 = i)).map fun e => (e.1, e.2.2.2)

/-- Words of the table memory that an SFU instruction reads: the header's and those of the segments it takes, in slot `k` (R260). -/
def sfuWords (k : Nat) (h : SfuHdr) (rd : Reader) (t : VecF) (d : VecD) : List Nat :=
  let segs := ((List.range d.rows).flatMap fun r => (rowA rd d t.srca r).filterMap fun e => sfuSegOf h e.toFp).dedup
  ((List.range 8) ++ segs.flatMap fun s => [8 + 2 * s, 9 + 2 * s]).map (1024 * k + ·)

/-- What SEC-DED reports of words of the table memory (R260): a corrected error is a class C fault, an uncorrectable one is entered
in the ledger and raises a class U fault, and the entry reads as stored. -/
def State.sfuReport (s : State) (f : Fin 4) (words : List Nat) : State :=
  words.foldl (fun s w =>
    let syn := s.fresh
    match tget (fun _ => .none) (s.frond f).sfuMarks w with
    | .none => s
    | .ce _ => syn.2.raise ((s.frondWho f 9).ev (srcOf (16 * f.val + 5) 0) 5 (w / 1024) (syn.1.toNat % 65536))
    | .ue => syn.2.checkFail (s.frondWho f 9) (16 * f.val + 5) 2 6 (w / 1024) (syn.1.toNat % 65536)) s

/-- An SFU instruction runs on a user table. -/
def State.runUserSfu (s : State) (f : Fin 4) (q : Nat) (w : IWord) (k : Nat) (b : List Byte) : State :=
  let h := sfuHdrOf b
  let d := vecOf (s.desc f (sfuF w).desc)
  (s.sfuReport f (sfuWords k h (s.spReader f) (sfuF w) d)).finishVec f q 9 w
    (outSfu (sfuEval h (userSeg b) fun _ c => c) (s.spReader f) (sfuF w) d)

/-- SFU FUNC 16 to 31, the program's user tables 0 to 15 (R254, R260). -/
def execSfuUserTable (f : Fin 4) (q : Fin 64) (s : State) : Host.Outcome State Fault Refusal :=
  .next (match s.readyIns f q.val 9, (s.frond f).kernel with
    | some w, some k =>
      if 16 ≤ (sfuF w).vop then
        match (s.frond f).userTable k.prog ((sfuF w).vop - 16) with
        | some e => s.runUserSfu f q.val w e.1 e.2
        | none => s
      else s
    | _, _ => s)

end Sys2Proof.Machine
end

