-- ==== Sys2Proof/Machine/ProgCheck.lean ====
section
/-! DEFINITION. Program-load validation (R120, R156, R489, R759, R760): the checks of a program object, pure over its bytes. -/

namespace Sys2Proof.Machine

/-! The object. -/

/-- What precedes an instruction in its queue: the LOADW that last filled the set it names, the one that last filled the other set,
and the tile it meets as target
and STREAMs: the one open before a STREAM, or the closing a DRAIN drains (R143, R144). -/
structure Note where
  load : Option LoadwF
  other : Option LoadwF
  tile : Option (Nat × List StreamF)

/-- A queue table entry with its instructions (R760). `frond` is the position of the named Frond, `num` the queue, `first` the
number of instructions before it in the queue table. -/
structure QObj where
  kind : Nat
  num : Nat
  frond : Nat
  ok : Bool
  first : Nat
  ins : List (IWord × Note)

/-- A kernel table entry (R489, R759): Fronds named by physical index. -/
structure KObj where
  ok : Bool
  twin : Bool
  nq : Nat
  fronds : List Nat
  wcet : Nat
  queues : List QObj

/-- A program object: header fields, descriptor table, kernels. -/
structure ProgObj where
  bytes : List Byte
  fmt : Nat
  needs : Nat
  ndesc : Nat
  descs : List Byte
  nsfu : Nat
  sfu : Nat
  res : Nat
  resLen : Nat
  sig : Nat
  kernels : List KObj

/-- Descriptor `i`. -/
def ProgObj.desc (o : ProgObj) (i : Nat) : List Byte := slice o.descs (32 * i) 32

/-- The tile after a STREAM or GANG (R143). -/
def tileAfter (t : Option (Nat × List StreamF)) (f : StreamF) : Option (Nat × List StreamF) :=
  if f.last then none else match t with
    | some (h, l) => some (h, l ++ [f])
    | none => some (f.target, [f])

/-- Notes of an ARRAY queue: a WIDE LOADW fills both sets (R43). -/
def noteArray (a b : Option LoadwF) (t : Option (Nat × List StreamF)) : List IWord → List (IWord × Note)
  | [] => []
  | w :: r =>
    if opc w = 1 then
      let l := loadwF w
      (w, ⟨some l, none, t⟩) :: noteArray (if l.wide || l.set = 0 then some l else a) (if l.wide || l.set = 1 then some l else b) t r
    else if opc w = 2 ∨ opc w = 3 then
      let f := streamF w
      (w, ⟨if f.set = 0 then a else b, if f.set = 0 then b else a, t⟩) :: noteArray a b (tileAfter t f) r
    else (w, ⟨none, none, t⟩) :: noteArray a b t r

/-- Closings of an ARRAY queue in order: target and STREAMs (R144). -/
def closings (l : List (IWord × Note)) : List (Nat × List StreamF) :=
  l.filterMap fun (e : IWord × Note) =>
    if opc e.1 = 2 ∨ opc e.1 = 3 then
      let f := streamF e.1
      if f.last then some (match e.2.tile with | some (h, t) => (h, t ++ [f]) | none => (f.target, [f])) else none
    else none

/-- The first closing of a target taken out of a list. -/
def takeClosing (h : Nat) : List (Nat × List StreamF) → Option (Nat × List StreamF) × List (Nat × List StreamF)
  | [] => (none, [])
  | c :: t => if c.1 = h then (some c, t) else let r := takeClosing h t; (r.1, c :: r.2)

/-- Notes of a DRAIN queue: the closing each DRAIN drains (R144). -/
def noteDrain (cl : List (Nat × List StreamF)) : List IWord → List (IWord × Note)
  | [] => []
  | w :: r =>
    if opc w = 4 then
      let c := takeClosing (drainF w).half cl
      (w, ⟨none, none, c.1⟩) :: noteDrain c.2 r
    else (w, ⟨none, none, none⟩) :: noteDrain cl r

/-- Whether every byte of a range is zero. -/
def zeroBytes (l : List Byte) (o n : Nat) : Bool := (slice l o n).all (· == 0)

/-- Whether a queue table entry is in order (R760). -/
def queueEntOk (obj e : List Byte) : Bool :=
  decide (fld e 0 1 ≤ 5 ∧ fld e 4 4 % 16 = 0 ∧ 16 ≤ fld e 4 4 ∧ fld e 8 8 % 16 = 0 ∧ fld e 8 8 + fld e 4 4 ≤ obj.length)
    && zeroBytes e 1 3

/-- Instructions of a queue. -/
def queueWords (obj e : List Byte) : List IWord :=
  let b := (obj.drop (fld e 8 8)).take (fld e 4 4)
  (List.range (fld e 4 4 / 16)).map fun j => BitVec.ofNat 128 (fld b (16 * j) 16)

/-- Queue table entries with their words, numbered from `n` instructions on. -/
def rawQueues (obj : List Byte) (nq : Nat) : Nat → Nat → List (List Byte) → List (QObj × List IWord)
  | _, _, [] => []
  | i, n, e :: r =>
    let ok := queueEntOk obj e
    let ws := if ok then queueWords obj e else []
    (⟨fld e 0 1, i % nq, i / nq, ok, n, []⟩, ws) :: rawQueues obj nq (i + 1) (n + ws.length) r

/-- Queues of a kernel with their notes: each named Frond's DRAIN queue drains what its ARRAY queue closes. -/
def notedQueues (l : List (QObj × List IWord)) : List QObj :=
  let arr := l.map fun (e : QObj × List IWord) =>
    if e.1.kind = 0 then ({ e.1 with ins := noteArray none none none e.2 }, e.2) else e
  arr.map fun (e : QObj × List IWord) =>
    if e.1.kind = 0 then e.1
    else if e.1.kind = 1 then
      let cl := match arr.find? fun (a : QObj × List IWord) => decide (a.1.kind = 0 ∧ a.1.frond = e.1.frond) with
        | some a => closings a.1.ins
        | none => []
      { e.1 with ins := noteDrain cl e.2 }
    else { e.1 with ins := e.2.map fun w => (w, ⟨none, none, none⟩) }

/-- Kernel `k` of an object; `low` is the partition's lowest Frond (R759). -/
def kernelObj (obj : List Byte) (low k : Nat) : KObj :=
  let e := slice obj (fld obj 16 8 + 32 * k) 32
  let nq := fld e 0 1
  let fs := if fld e 2 1 = 0 then [low] else (List.range 4).filter fun f => bit1 (fld e 2 1) f
  let off := fld e 8 4
  let n := nq * fs.length
  let room := decide (off + 16 * n ≤ obj.length)
  let es := if room then (List.range n).map fun i => slice obj (off + 16 * i) 16 else []
  { ok := room && decide (fld e 1 1 ≤ 1 ∧ fld e 2 1 < 16) && (decide (fld obj 4 2 = 3) || decide (fld e 2 1 = 0))
      && zeroBytes e 3 1 && zeroBytes e 12 20,
    twin := bit1 (fld e 1 1) 0, nq := nq, fronds := fs, wcet := fld e 4 4, queues := notedQueues (rawQueues obj nq 0 0 es) }

/-- Reading an object whose header is in order. -/
def progObj (obj : List Byte) (low : Nat) : ProgObj :=
  let nd := fld obj 32 2
  { bytes := obj, fmt := fld obj 4 2, needs := fld obj 12 4, ndesc := nd,
    descs := (obj.drop (fld obj 24 8)).take (32 * nd), nsfu := fld obj 34 2, sfu := fld obj 36 4, res := fld obj 40 4,
    resLen := fld obj 44 4, sig := fld obj 48 4, kernels := (List.range (fld obj 6 2)).map (kernelObj obj low) }

/-! Header (R489). -/

/-- Whether `n` bytes at an offset lie in an object. -/
def within (obj : List Byte) (o n : Nat) : Bool := decide (o + n ≤ obj.length)

/-- The header's fields and the places of what it names. -/
def headerFieldsOk (obj : List Byte) : Bool :=
  let nk := fld obj 6 2
  let nd := fld obj 32 2
  let ns := fld obj 34 2
  decide (1 ≤ nk ∧ nk ≤ 4096 ∧ nd ≤ 4096 ∧ ns ≤ 16 ∧ fld obj 12 4 < 16 ∧ fld obj 8 4 ≤ obj.length)
    && zeroBytes obj 52 8 && within obj (fld obj 16 8) (32 * nk) && within obj (fld obj 24 8) (32 * nd)
    && within obj (fld obj 40 4) (fld obj 44 4) && (decide (fld obj 48 4 = 0) || within obj (fld obj 48 4) 64)
    && (decide (ns = 0) || within obj (fld obj 36 4) 128) && (decide (fld obj 4 2 = 3) || decide (ns = 0 ∧ fld obj 48 4 = 0))

/-- Header checks in order: container, version, fields (R489). -/
def headerFail (obj : List Byte) : Option St :=
  firstFail [(decide (64 ≤ obj.length ∧ fld obj 0 4 = 0x47525043 ∧ fld obj 60 4 = crc32c (obj.take 60)), .arg),
    (decide (fld obj 4 2 = 2 ∨ fld obj 4 2 = 3), .version), (headerFieldsOk obj, .arg)]

/-! Row 1: reserved encodings. -/

/-- Bits from `lo` up of an instruction are zero. -/
def zeroAbove (w : IWord) (lo : Nat) : Bool := decide (w.toNat / 2 ^ lo = 0)

/-- Operations of R242. -/
def vops : List Nat :=
  [0, 1, 2, 3, 4, 5, 6, 7, 8, 0x0A, 0x0B, 0x0C, 0x0D, 0x0E, 0x10, 0x11, 0x12, 0x13, 0x18, 0x19, 0x1A, 0x1B, 0x1C, 0x20]

/-- Whether an instruction holds no reserved encoding and no reserved bit (R128 to R133, R242, R259, R287). -/
def insPlain (w : IWord) : Bool :=
  match opc w with
  | 0x01 => let l := loadwF w; zeroAbove w 82 && decide (l.wfmt ≤ 5) && (!l.wide || decide (l.set = 0))
  | 0x02 | 0x03 => decide ((streamF w).target ≠ 3)
  | 0x04 => zeroAbove w 97 && decide ((drainF w).half ≠ 3)
  | 0x08 => zeroAbove w 118 && decide ((vecF w).vop ∈ vops)
  | 0x09 => zeroAbove w 97 && (decide ((sfuF w).vop < 10) || decide (16 ≤ (sfuF w).vop))
  | 0x0C => zeroAbove w 124 && decide ((dmaF w).dop ≤ 4)
  | 0x10 => zeroAbove w 125 && decide (1 ≤ (sampleF w).nbox ∧ (sampleF w).nbox ≤ 4096)
  | 0x14 => zeroAbove w 116 && decide ((sorusF w).sop ≤ 2)
  | 0x38 | 0x3F => zeroAbove w 40
  | 0x39 => zeroAbove w 67
  | 0x3A => zeroAbove w 112
  | _ => false

/-- Reserved part of a DMA descriptor, its LEN, ROWS and COLS (R542). -/
def dmaPlain (b : List Byte) : Bool :=
  let d := dmaOf b
  decide (fld b 1 1 < 4 ∧ d.src % 64 = 0 ∧ d.dst % 64 = 0) && zeroBytes b 3 1 && zeroBytes b 7 1 && zeroBytes b 14 2 && zeroBytes b 22 2
    && (if d.transpose then decide (d.esize ≤ 2 ∧ d.len = 0 ∧ 1 ≤ d.rows ∧ d.rows ≤ 4096 ∧ 1 ≤ d.cols ∧ d.cols ≤ 4096)
      else decide (d.esize = 0 ∧ d.len ≠ 0))

/-- Whether a descriptor holds no reserved encoding (R136, R137, R221, R237, R288, R542). -/
def descPlain (b : List Byte) : Bool :=
  match fld b 0 1 with
  | 1 => let g := geoOf b; decide (fld b 1 1 < 16 ∧ g.ofmt ≠ 7 ∧ fld b 28 4 < 2 ^ 20 ∧ g.padVal < 2 ^ (ofmtOf g.ofmt).width)
  | 2 => decide (fld b 1 1 ≤ 10 ∧ fld b 4 4 < 2 ^ 20 ∧ fld b 24 4 < 2 ^ 20) && zeroBytes b 3 1 && zeroBytes b 22 2 && zeroBytes b 28 4
  | 3 => dmaPlain b
  | 4 => let d := vecOf b
         decide (1 ≤ d.afmt ∧ d.afmt ≤ 10 ∧ d.bfmt ≤ 10 ∧ 1 ≤ d.dfmt ∧ d.dfmt ≤ 10 ∧ fld b 4 1 < 16 ∧ d.len ≠ 0 ∧ d.rows ≠ 0) && zeroBytes b 5 1
           && zeroBytes b 11 1 && zeroBytes b 15 1 && zeroBytes b 19 1 && zeroBytes b 23 1 && zeroBytes b 27 1
  | 5 => let d := sampleOf b
         decide (d.mode ≤ 2 ∧ d.fmt ≤ 2 ∧ fld b 3 1 ≤ 1) && zeroBytes b 15 1 && zeroBytes b 24 8
  | 6 => let d := sorusOf b
         decide (d.kvfmt ≤ 1 ∧ d.qfmt ≤ 10 ∧ d.ofmt ≤ 10 ∧ fld b 20 4 < 2 ^ 20 ∧ fld b 24 4 < 2 ^ 20) && zeroBytes b 11 1
           && zeroBytes b 15 1 && zeroBytes b 30 2
  | _ => false

/-! Row 2: queues. -/

/-- Kind of queue that holds a class; `none` for the classes of every queue (R129). -/
def classKind (w : IWord) : Option Nat :=
  match opc w with
  | 1 | 2 | 3 => some 0
  | 4 => some 1
  | 8 | 9 => some 2
  | 0x0C => some 3
  | 0x10 => some 4
  | 0x14 => some 5
  | _ => none

/-- Queues of a named Frond's copy. -/
def KObj.copy (k : KObj) (i : Nat) : List QObj := k.queues.filter fun q => decide (q.frond = i)

/-- Queues of each kind that a kernel may have (R120): ARRAY, DRAIN, VEC, DMA, SAMPLE, SORUS. -/
def kindLimit : List Nat := [1, 1, 4, 52, 2, 4]

/-- Queue counts and kinds of a kernel (R120, R289, R759). -/
def KObj.countsOk (k : KObj) : Bool :=
  let kinds := (k.copy 0).map (·.kind)
  decide (1 ≤ k.nq ∧ k.nq ≤ 64) && (kindLimit.zipIdx.all fun e => decide (kinds.count e.2 ≤ e.1)) &&
    (k.queues.all fun q => decide (kinds.getD q.num 6 = q.kind)) &&
    (!(k.queues.any fun q => q.ins.any fun e => decide (opc e.1 = 0x14 ∧ (sorusF e.1).sop ≤ 1)) ||
      kinds.all fun x => decide (1 < x))

/-- Whether END stands last in a queue and nowhere else. -/
def endsOnce : List (IWord × Note) → Bool
  | [] => false
  | [e] => decide (opc e.1 = 0x3F)
  | e :: r => decide (opc e.1 ≠ 0x3F) && endsOnce r

/-- Instructions that a TWIN kernel may not hold (R612). -/
def twinBad (w : IWord) : Bool :=
  match opc w with
  | 0x14 => decide ((sorusF w).sop = 2)
  | 0x0C => decide ((dmaF w).dop = 3 ∨ (dmaF w).dop = 4)
  | 0x39 => (sigF w).remote
  | _ => false

/-! Rows 3 and 4: descriptors, tokens. -/

/-- Descriptor kind that an instruction names and its index. -/
def descUse (w : IWord) : Option (Nat × Nat) :=
  match opc w with
  | 2 | 3 => some (1, (streamF w).geo)
  | 4 => some (2, (drainF w).desc)
  | 8 => some (4, (vecF w).desc)
  | 9 => some (4, (sfuF w).desc)
  | 0x0C => if (dmaF w).dop ≤ 2 then some (3, (dmaF w).desc) else none
  | 0x10 => some (5, (sampleF w).desc)
  | 0x14 => some (6, (sorusF w).desc)
  | _ => none

/-- The instruction's descriptor stands and is of its kind; a user table exists. -/
def ProgObj.descOk (o : ProgObj) (w : IWord) : Bool :=
  (match descUse w with
    | none => true
    | some (k, i) => decide (i < o.ndesc ∧ fld (o.desc i) 0 1 = k))
  && (decide (opc w ≠ 9 ∨ (sfuF w).vop < 16) || decide ((sfuF w).vop - 16 < o.nsfu))

/-- SEN, WEN, INC and REMOTE targets (R132, R156 row 4). -/
def tokensOk (own : List Nat) (w : IWord) : Bool :=
  match opc w with
  | 0x38 => wen w && !sen w
  | 0x39 => let g := sigF w; !sen w && decide (g.inc ≠ 0) && (!g.remote || own.contains g.tfrd)
  | 0x3F => !sen w
  | _ => true

/-! Row 5: formats. -/

/-- Mode of an operand format (R89): 0 INT8, 1 INT4, 2 FP8, 3 WIDE. -/
def operandMode (ofmt : Nat) : Nat := if ofmt ≤ 1 then 0 else if ofmt = 2 then 1 else if ofmt ≤ 4 then 2 else 3
/-- Mode of a weight format (R89). -/
def weightMode (wfmt : Nat) : Nat := if wfmt = 0 then 0 else if wfmt = 1 then 1 else if wfmt ≤ 3 then 2 else 3

/-- Whether an operation of R242 has an operand B. -/
def vopB (vop : Nat) : Bool := decide (vop ∈ [0, 1, 2, 3, 4, 0x0A, 0x0B, 0x0C, 0x0D, 0x0E, 0x18, 0x1B])

/-- Whether the formats of a VEC instruction are allowed for its operation (R238, R239, R242). Codes are those of R137. -/
def vecFmtOk (vop : Nat) (d : VecD) : Bool :=
  let nonEaf := fun (c : Nat) => decide (1 ≤ c ∧ c ≤ 9)
  let fpt := fun (c : Nat) => decide (5 ≤ c ∧ c ≤ 9)
  let b := if vopB vop then (if d.bmode = 1 then decide (d.bfmt = 4 ∨ d.bfmt = 9) else decide (1 ≤ d.bfmt)) else decide (d.bfmt = 0)
  b && (match vop with
    | 0 | 1 | 2 | 3 | 4 => nonEaf d.afmt && nonEaf d.bfmt && nonEaf d.dfmt
    | 5 | 6 | 7 => nonEaf d.afmt && nonEaf d.dfmt
    | 8 => fpt d.afmt && fpt d.dfmt
    | 0x0A | 0x0B | 0x0C | 0x0D | 0x0E => decide (d.afmt = 4 ∧ d.bfmt = 4 ∧ d.dfmt = 4)
    | 0x10 => nonEaf d.afmt && decide (d.dfmt = 10)
    | 0x11 | 0x12 => nonEaf d.afmt && decide (d.dfmt = d.afmt ∨ d.dfmt = 9)
    | 0x13 => nonEaf d.afmt && decide (d.dfmt = 4)
    | 0x18 => decide (d.afmt = 10 ∧ d.bfmt = 10 ∧ d.dfmt = 10 ∧ d.rows = 1)
    | 0x19 => decide (d.afmt = 10 ∧ (d.dfmt = 9 ∨ d.dfmt = 4) ∧ d.rows = 1)
    | 0x1A => decide (d.afmt = 10 ∧ d.dfmt = 9 ∧ d.rows = 1)
    | 0x1B => decide (d.afmt = 10 ∧ d.bfmt = 10 ∧ d.dfmt = 9 ∧ d.rows = 1)
    | 0x1C => nonEaf d.afmt && decide (d.dfmt = 10 ∧ d.rows = 1)
    | _ => decide (5 ≤ d.afmt ∧ d.afmt ≤ 8))

/-- Fields of an SFU descriptor (R254). -/
def sfuFmtOk (d : VecD) : Bool :=
  decide (1 ≤ d.afmt ∧ d.afmt ≤ 9 ∧ 1 ≤ d.dfmt ∧ d.dfmt ≤ 9 ∧ d.bfmt = 0 ∧ d.bmode = 0 ∧ d.acc = false ∧ d.sq = false ∧ d.eafExp = 0
    ∧ d.bpitch = 0 ∧ d.imm = 0)

/-- Fields of a SORUS instruction that its SOP fixes (R287 to R289). -/
def sorusFmtOk (t : SorusF) (d : SorusD) : Bool :=
  match t.sop with
  | 0 => decide ((d.qfmt = 5 ∨ d.qfmt = 6) ∧ d.ofmt = 9 ∧ t.list = 0)
  | 1 => decide ((d.qfmt = 5 ∨ d.qfmt = 6) ∧ 7 ≤ d.ofmt ∧ d.ofmt ≤ 9 ∧ t.list = 0)
  | _ => decide (7 ≤ d.qfmt ∧ d.qfmt ≤ 9 ∧ d.ofmt = 0 ∧ d.tcap = 0 ∧ d.scale = 0 ∧ t.out = 0)

/-- Whether the weights last loaded into a set, if any, are of a mode (R89). -/
def loadMode (m : Nat) (l : Option LoadwF) : Bool := match l with
  | some x => decide (weightMode x.wfmt = m)
  | none => true

/-- Row 5 of an instruction (R89, R241, R254, R289); a WIDE STREAM reads both sets (R101). -/
def ProgObj.fmtOk (o : ProgObj) (e : IWord × Note) : Bool :=
  match opc e.1 with
  | 2 | 3 =>
    let m := operandMode (geoOf (o.desc (streamF e.1).geo)).ofmt
    loadMode m e.2.load && (decide (m ≠ 3) || loadMode m e.2.other)
  | 8 => vecFmtOk (vecF e.1).vop (vecOf (o.desc (vecF e.1).desc))
  | 9 => sfuFmtOk (vecOf (o.desc (sfuF e.1).desc))
  | 0x14 => sorusFmtOk (sorusF e.1) (sorusOf (o.desc (sorusF e.1).desc))
  | _ => true

/-! Row 6: barriers. -/

/-- BARs of a queue with a BARID. -/
def barsIn (q : QObj) (id : Nat) : List IWord := (q.ins.map (·.1)).filter fun w => decide (opc w = 0x3A ∧ barId w = id)

/-- Number of BARs of a BARID in queue `i` of a copy. -/
def barCount (copy : List QObj) (id i : Nat) : Nat := ((copy.filter fun x => decide (x.num = i)).flatMap fun x => barsIn x id).length

/-- Whether a BAR agrees with the others of its BARID (R135, R156 row 6). -/
def barOk (copy : List QObj) (q : QObj) (w : IWord) : Bool :=
  let m := barQmask w
  m.testBit q.num && (copy.all fun x => (barsIn x (barId w)).all fun v => decide (barQmask v = m)) &&
    (List.range 64).all fun i => !m.testBit i || decide (barCount copy (barId w) i = barCount copy (barId w) q.num)

/-! Row 7: loop order and the other ST_ARG conditions. -/

/-- Loop order of a STREAM or GANG, WIDE targets, Winograd conditions (R102, R143, R199). -/
def ProgObj.streamOrder (o : ProgObj) (e : IWord × Note) : Bool :=
  let f := streamF e.1
  let g := geoOf (o.desc f.geo)
  (match e.2.tile with | none => f.clear | some (h, _) => !f.clear && decide (f.target = h))
    && (decide (operandMode g.ofmt ≠ 3) || decide (f.target = 2))
    && (!g.wino || (f.gang && decide (f.g = 16 ∧ f.slot = 0 ∧ g.ky0 = 0 ∧ g.khb = 3 ∧ g.ofmt = 0)
      && (match e.2.load with | some l => decide (l.wfmt = 0 ∧ l.n = 512) | none => false)))

/-- A DRAIN against the closing it drains (R144, R206, R214). -/
def ProgObj.drainOrder (o : ProgObj) (e : IWord × Note) : Bool :=
  let f := drainF e.1
  let d := drainOf (o.desc f.desc)
  match e.2.tile with
  | none => false
  | some (_, l) =>
    let geo := fun (t : StreamF) => geoOf (o.desc t.geo)
    (l.all fun t => (geo t).wino == d.winoOut)
      && (!d.winoOut || (decide (d.ncols ≤ 32 ∧ d.outfmt ≠ 10 ∧ d.compress = false) && l.all fun a => l.all fun b =>
          decide (a.p0 = b.p0 ∧ a.m = b.m ∧ a.e0 = b.e0 ∧ a.geo = b.geo)))
      && (!d.compress || (decide ((d.outfmt = 1 ∨ d.outfmt = 2 ∨ d.outfmt = 5 ∨ d.outfmt = 6) ∧ d.act = 1 ∧ d.winoOut = false
            ∧ d.opitch = 32) && l.all fun t => decide ((geo t).mgroup = 1 ∧
              ((t.p0 : Int) + (f.e0 : Int) - (t.e0 : Int)) % ((1792 / d.ncols : Nat) : Int) = 0)))

/-- Whether a named Frond's copy holds as many DRAINs of each target as closings, and leaves no tile open (R143, R144). -/
def closingsOk (copy : List QObj) : Bool :=
  let arr := copy.filter fun q => decide (q.kind = 0)
  let cl := arr.flatMap fun q => closings q.ins
  let dr := (copy.flatMap fun q => q.ins).filter fun e => decide (opc e.1 = 4)
  ((List.range 3).all fun t => decide ((cl.filter fun c => decide (c.1 = t)).length =
    (dr.filter fun e => decide ((drainF e.1).half = t)).length)) &&
    arr.all fun q => q.ins.all fun e => decide (opc e.1 ≠ 0x3F) || e.2.tile.isNone

/-- The bytes an operand occupies: `rows` runs of `len` bytes, `pitch` apart, of elements of `bits` bits (R238). -/
structure Foot where
  base : Nat
  pitch : Nat
  len : Nat
  rows : Nat
  bits : Nat

/-- Footprint of a non-EAF operand. -/
def plainFoot (fmt base pitch rows len : Nat) : Foot := ⟨64 * base, pitch, len * (vfmt fmt).bytes, rows, (vfmt fmt).width⟩
/-- Footprint of `n` EAF elements. -/
def eafFoot (base n : Nat) : Foot := ⟨64 * base, 0, 1024 * cdiv n 64, 1, 96⟩

/-- Footprint of operand A. -/
def footA (t : VecF) (d : VecD) : Foot := if d.afmt = 10 then eafFoot t.srca d.len else plainFoot d.afmt t.srca d.apitch d.rows d.len

/-- Footprint of operand B, when the operation has one in scratchpad (R239). -/
def footB (t : VecF) (d : VecD) : List Foot :=
  if !vopB t.vop || d.bmode = 1 then []
  else if d.bfmt = 10 then [eafFoot t.srcb d.eafLenB]
  else if d.bmode = 2 then [plainFoot d.bfmt t.srcb d.bpitch 1 d.len]
  else if d.bmode = 3 then [plainFoot d.bfmt t.srcb d.bpitch d.rows 1]
  else [plainFoot d.bfmt t.srcb d.bpitch d.rows d.len]

/-- Footprint of the result of a VEC operation (R242 to R249). -/
def footD (t : VecF) (d : VecD) : Foot :=
  match t.vop with
  | 0x10 => eafFoot t.dst d.rows
  | 0x11 | 0x12 | 0x13 => plainFoot d.dfmt t.dst d.dpitch d.rows 1
  | 0x18 | 0x1C => eafFoot t.dst d.len
  | 0x20 => ⟨64 * t.dst, 0, 2 * d.rows * cdiv d.len 32, 1, 16⟩
  | _ => plainFoot d.dfmt t.dst d.dpitch d.rows d.len

/-- Whether some run of a footprint meets bytes `x .. x+n-1`. -/
def Foot.hits (f : Foot) (x n : Nat) : Bool :=
  let r := if x < f.base + f.len ∨ f.pitch = 0 then 0 else (x - f.base - f.len) / f.pitch + 1
  decide (r < f.rows ∧ f.base + r * f.pitch < x + n ∧ x < f.base + r * f.pitch + f.len)

/-- Whether a destination overlaps a source without coinciding with it (R241). -/
def Foot.clash (d a : Foot) : Bool :=
  !decide (d.base = a.base ∧ d.pitch = a.pitch ∧ d.bits = a.bits) &&
    (List.range d.rows).any fun r => a.hits (d.base + r * d.pitch) d.len

/-- Last byte past a footprint. -/
def Foot.stop (f : Foot) : Nat := f.base + (f.rows - 1) * f.pitch + f.len

/-- Whether a run's pitch is not below its bytes; an EAF operand and a map have none (R241). -/
def Foot.pitchOk (f : Foot) (flat : Bool) : Bool := flat || decide (f.len ≤ f.pitch)

/-- R241 and R246 of a VEC instruction. -/
def vecArgOk (t : VecF) (d : VecD) : Bool :=
  let a := footA t d
  let b := footB t d
  let r := footD t d
  a.pitchOk (decide (d.afmt = 10)) && (b.all fun x => x.pitchOk (decide (d.bfmt = 10)))
    && r.pitchOk (decide (d.dfmt = 10 ∨ t.vop = 0x20)) && (a :: b).all (fun x => !r.clash x)
    && (decide (t.vop ≠ 0x10) || !d.sq || decide (-32768 ≤ 2 * d.eafExp ∧ 2 * d.eafExp ≤ 32767))

/-- R241 of an SFU instruction. -/
def sfuArgOk (t : VecF) (d : VecD) : Bool :=
  let a := plainFoot d.afmt t.srca d.apitch d.rows d.len
  let r := plainFoot d.dfmt t.dst d.dpitch d.rows d.len
  a.pitchOk false && r.pitchOk false && !r.clash a

/-- ST_ARG of a SAMPLE (R222). -/
def sampleArgOk (t : SampleF) (d : SampleD) : Bool :=
  if d.mode = 0 then decide (d.s = 0 ∧ d.padT = 0 ∧ d.padL = 0 ∧ d.padB = 0 ∧ d.padR = 0) else decide (t.nbox = 1 ∧ t.boxes = 0)

/-- ST_ARG of a DMA descriptor beyond its reserved encodings (R542, R545). -/
def dmaArgOk (d : DmaD) : Bool :=
  (d.transpose || decide (d.rows = 0 ∧ d.cols = 0 ∧ d.spitch = 0 ∧ d.dpitch = 0)) && !(d.cslot && d.transpose)
    && (!d.cslot || decide (d.len % 32 = 0))

/-- Row 7 of an instruction. -/
def ProgObj.argOk (o : ProgObj) (e : IWord × Note) : Bool :=
  match opc e.1 with
  | 2 | 3 => o.streamOrder e
  | 4 => o.drainOrder e
  | 8 => vecArgOk (vecF e.1) (vecOf (o.desc (vecF e.1).desc))
  | 9 => sfuArgOk (sfuF e.1) (vecOf (o.desc (sfuF e.1).desc))
  | 0x10 => sampleArgOk (sampleF e.1) (sampleOf (o.desc (sampleF e.1).desc))
  | _ => true

/-! Row 8: ranges. -/

/-- `v` in `lo .. hi`. -/
def inR (v lo hi : Nat) : Bool := decide (lo ≤ v ∧ v ≤ hi)

/-- Bytes that `n` channels of a format take (R136). -/
def chanBytes (ofmt n : Nat) : Nat := if ofmt = 2 then cdiv n 2 else if operandMode ofmt = 3 then 2 * n else n

/-- Ranges of a geometry, its pads and its PPITCH (R136, R145). -/
def geoOk (g : Geo) : Bool :=
  inR g.h 1 4096 && inR g.w 1 4096 && inR g.c 1 16384 && inR g.kh 1 64 && inR g.kw 1 64 && inR g.khb 1 64 && inR g.cb 1 256
    && inR g.s 1 16 && inR g.d 1 64 && inR g.mgroup 1 65535
    && decide (g.padT ≤ (g.kh - 1) * g.d ∧ g.padB ≤ (g.kh - 1) * g.d ∧ g.padL ≤ (g.kw - 1) * g.d ∧ g.padR ≤ (g.kw - 1) * g.d
      ∧ (g.kw - 1) * g.d + 1 ≤ g.w + g.padL + g.padR ∧ (g.kh - 1) * g.d + 1 ≤ g.h + g.padT + g.padB)
    && (g.compressed || decide (chanBytes g.ofmt g.c ≤ g.ppitch))

/-- FP32 limits of CLAMP (R108): −0 equals +0, an infinite limit counts as itself. -/
def limitsOk (lo hi : Nat) : Bool :=
  let nan := fun (c : Nat) => decide (0x7F800000 < c % 2 ^ 31)
  let key := fun (c : Nat) => if c.testBit 31 then -((c % 2 ^ 31 : Nat) : Int) else ((c % 2 ^ 31 : Nat) : Int)
  !nan lo && !nan hi && decide (key lo ≤ key hi)

/-- Ranges of a drain descriptor (R108, R137). -/
def drainOk (d : DrainD) : Bool :=
  inR d.ncols 1 512 && decide (1 ≤ d.opitch) && (if d.act = 3 then decide (1 ≤ d.slope) else decide (d.slope = 0))
    && (decide (d.act ≠ 2) || (if d.outfmt ≤ 4 then decide (sext 32 d.clampLo ≤ sext 32 d.clampHi) else limitsOk d.clampLo d.clampHi))

/-- Ranges of a SAMPLE descriptor (R221, R222). -/
def sampleOk (d : SampleD) : Bool :=
  inR d.ih 1 4096 && inR d.iw 1 4096 && inR d.c 1 4096 && decide (d.c * d.e ≤ d.ipitch ∧ d.c * d.e ≤ d.opitch)
    && (if d.mode = 0 then inR d.oh 1 64 && inR d.ow 1 64 && decide (d.extrap < 2 ^ (sampleFmt d.fmt).width)
      else decide (d.norm = false ∧ d.extrap = 0) && inR d.oh 1 8 && inR d.ow 1 8 && inR d.s 1 8
        && decide (d.padT < d.oh ∧ d.padB < d.oh ∧ d.padL < d.ow ∧ d.padR < d.ow
          ∧ d.oh ≤ d.ih + d.padT + d.padB ∧ d.ow ≤ d.iw + d.padL + d.padR))

/-- Ranges of a SORUS descriptor (R288); APPEND has TCAP 0. -/
def sorusOk (d : SorusD) : Bool :=
  decide (d.hg ≤ 15) && inR d.qcap 64 1024 && decide (d.qcap % 64 = 0 ∧ d.tcap ≤ 8192 ∧ d.tcap % 64 = 0 ∧ d.stage % 4 = 0
    ∧ d.dh ∈ [32, 64, 96, 128])

/-- Row 8 of a descriptor. -/
def descRange (b : List Byte) : Bool :=
  match fld b 0 1 with
  | 1 => geoOk (geoOf b)
  | 2 => drainOk (drainOf b)
  | 5 => sampleOk (sampleOf b)
  | 6 => sorusOk (sorusOf b)
  | _ => true

/-- Bytes of a row at QROW (and LIST) and of a row at OUT of a SORUS instruction (R289). -/
def sorusRowBytes (t : SorusF) (d : SorusD) : Nat × Nat :=
  match t.sop with
  | 0 => (d.dh, 4 * d.tcap)
  | 1 => (d.tcap, d.dh * (vfmt d.ofmt).bytes)
  | _ => (d.dh * (vfmt d.qfmt).bytes, 0)

/-- Row 8 of an instruction: a SORUS descriptor's pitches and TCAP (R288, R289). -/
def ProgObj.rangeOk (o : ProgObj) (e : IWord × Note) : Bool :=
  if opc e.1 = 0x14 then
    let t := sorusF e.1
    let d := sorusOf (o.desc t.desc)
    let n := sorusRowBytes t d
    decide (n.1 ≤ d.qpitch ∧ n.2 ≤ d.opitch) && (decide (t.sop = 2) || decide (64 ≤ d.tcap))
  else true

/-! Row 9: limits of the array. -/

/-- Entries of a target (R53, R102). -/
def depthOf (target : Nat) (wide : Bool) : Nat := if target = 2 && !wide then 2048 else 1024

/-- Most scratchpad rows that one problem of a GANG reads for one operand row (R50, R146, R201). -/
def peakReads (f : StreamF) (g : Geo) : Nat :=
  (List.range f.m).foldl (fun a m => max a (instrFetch { f with g := 1 } g none m).length) 0

/-- Limits of a STREAM or GANG in the order of the rules (R49, R52, R97, R146, R200, R216). -/
def streamLimits (f : StreamF) (g : Geo) (l : Option LoadwF) : Option St :=
  let wide := decide (operandMode g.ofmt = 3)
  let fp := decide (2 ≤ operandMode g.ofmt)
  let kOk := match l with
    | some b => if g.wino then decide (g.cb ≤ b.k) else decide (g.khb * g.kw * g.cb ≤ b.k)
    | none => true
  let gangOk := !f.gang || (decide ((if g.wino then 1 else f.g) * peakReads f g ≤ 32) &&
    (match l with | some b => decide (b.k ≤ 128 ∧ 32 * f.g ≤ b.n) | none => true))
  firstFail [(kOk && decide (g.c0 + g.cb ≤ g.c ∧ g.ky0 + g.khb ≤ g.kh ∧ g.span ≤ 64 ∧ g.khb * g.span * g.cb ≤ 8192)
      && (if g.wino then decide (f.p0 + f.m ≤ g.th * g.tw) else decide (f.p0 + f.m ≤ g.oh * g.ow)), .shape),
    (decide (1 ≤ f.m ∧ f.e0 + cdiv f.m g.mgroup ≤ depthOf f.target wide), .shape),
    (!fp || decide (g.mgroup = 1), .shape), (!fp || decide (g.padVal = 0), .arg), (gangOk, .shape),
    (!g.compressed || decide (g.c ≤ 512 ∧ g.ofmt ∈ [0, 1, 3, 4] ∧ g.wino = false), .shape)]

/-- Row 9 of an instruction. -/
def ProgObj.limits (o : ProgObj) (e : IWord × Note) : Option St :=
  match opc e.1 with
  | 1 => let l := loadwF e.1; if l.k ≤ 128 ∨ l.wfmt = 1 then none else some .shape
  | 2 | 3 => let f := streamF e.1; streamLimits f (geoOf (o.desc f.geo)) e.2.load
  | 4 =>
    let f := drainF e.1
    let wide := match e.2.tile with
      | some (_, l) => l.any fun t => decide (operandMode (geoOf (o.desc t.geo)).ofmt = 3)
      | none => false
    if 1 ≤ f.ne ∧ f.ne ≤ 2048 ∧ f.e0 + f.ne ≤ depthOf f.half wide then none else some .shape
  | _ => none

/-- Row 9 of a descriptor: a transpose (R546). -/
def descLimits (b : List Byte) : Bool :=
  if fld b 0 1 = 3 then
    let d := dmaOf b
    !d.transpose || decide (d.e * d.cols ≤ 64 * d.spitch ∧ d.e * d.rows ≤ 64 * d.dpitch)
  else true

/-- Row 10 of a descriptor: Winograd shapes. -/
def descWino (b : List Byte) : Bool :=
  if fld b 0 1 = 1 then
    let g := geoOf b
    !g.wino || decide (g.s = 1 ∧ g.d = 1 ∧ g.kh = 3 ∧ g.kw = 3)
  else true

/-! Row 11: footprints in scratchpad. -/

/-- First row past byte `x`. -/
def rowPast (x : Nat) : Nat := cdiv x 64

/-- Rows past the input and the maps of a STREAM or GANG (R90, R136, R216). -/
def streamStop (f : StreamF) (g : Geo) : Nat :=
  let last := (f.g - 1) * f.slot
  let inp := if g.compressed then f.src + last + 32 * cdiv (g.h * g.w) g.pb
    else f.src + last + rowPast ((g.h * g.w - 1) * g.ppitch + chanBytes g.ofmt (g.c0 + g.cb))
  if 2 ≤ operandMode g.ofmt then max inp (g.expmap + last + rowPast (2 * g.h * g.w * cdiv g.c 32)) else inp

/-- Rows past what a DRAIN reads and writes (R91, R105, R137, R207, R215). -/
def drainStop (f : DrainF) (d : DrainD) (tile : Option (Geo × StreamF)) : Nat :=
  let nb := if d.outfmt = 10 then 1024 * cdiv d.ncols 64 else cdiv (d.ncols * (vfmt d.outfmt).width) 8
  let pix := match tile with
    | some (g, t) =>
      if d.winoOut then
        let tf := t.p0 + f.e0 - t.e0
        let tl := tf + f.ne - 1
        let px := fun (n : Nat) => (min (2 * (n / g.tw) + 1) (g.oh - 1)) * g.ow + min (2 * (n % g.tw) + 1) (g.ow - 1)
        px tl + (if tf / g.tw < tl / g.tw then g.ow else 0) - (2 * (tf / g.tw) * g.ow + 2 * (tf % g.tw)) + 1
      else f.ne
    | none => f.ne
  let out := if d.compress then f.dst + 32 * cdiv f.ne (1792 / d.ncols) else f.dst + (pix - 1) * d.opitch + rowPast nb
  let prm := d.param + rowPast (16 * d.ncols)
  let map := if d.outfmt ∈ [5, 6, 7, 8] then d.mapdst + rowPast (2 * pix * cdiv d.ncols 32) else 0
  max out (max prm map)

/-- Rows past what a SAMPLE reads and writes (R221 to R230). -/
def sampleStop (t : SampleF) (d : SampleD) : Nat :=
  let img := t.img + rowPast ((d.ih * d.iw - 1) * d.ipitch + d.c * d.e)
  let n := if d.mode = 0 then t.nbox * d.oh * d.ow
    else ((d.ih + d.padT + d.padB - d.oh) / d.s + 1) * ((d.iw + d.padL + d.padR - d.ow) / d.s + 1)
  let out := t.dst + rowPast ((n - 1) * d.opitch + d.c * d.e)
  max (max img out) (if d.mode = 0 then t.boxes + rowPast (16 * t.nbox) else 0)

/-- Areas of a SORUS instruction as (first row, row past it): staging, QROW, LIST, OUT (R289). -/
def sorusAreas (t : SorusF) (d : SorusD) : List (Nat × Nat) :=
  let n := sorusRowBytes t d
  let q := fun (b : Nat) => (b, b + rowPast ((d.qcap - 1) * d.qpitch + n.1))
  [(d.stage, d.stage + 2560), q t.qrow] ++
    (if t.sop = 2 then [q t.list] else [(t.out, t.out + rowPast ((d.qcap - 1) * d.opitch + n.2))])

/-- Row past the exponent map of a SORUS instruction (R288). -/
def sorusMapStop (t : SorusF) (d : SorusD) : Nat :=
  if t.sop = 2 then 0 else d.qmap + rowPast (2 * d.qcap * cdiv (if t.sop = 0 then d.dh else d.tcap) 32)

/-- Row past what `n` bytes from an internal address on take of a Frond's scratchpad window (R23, R156): 0 outside the windows. -/
def windowStop (a n : Nat) : Nat :=
  if 0x1040000000 ≤ a ∧ a < 0x1050000000 ∧ 0 < n then rowPast ((a - 0x1040000000) % 0x04000000 + n) else 0

/-- Row past the scratchpad footprint of a transfer (R156, R542, R545, R546); an idx of 0 stands for the data of a GATHER or
SCATTER. -/
def dmaStop (f : DmaF) (d : DmaD) : Nat :=
  let src := d.src + (if f.dop = 1 then 0 else 64 * f.soff)
  let dst := d.dst + (if f.dop = 2 then 0 else 64 * f.doff)
  if d.transpose then
    max (windowStop src (64 * d.spitch * (d.rows - 1) + d.e * d.cols)) (windowStop dst (64 * d.dpitch * (d.cols - 1) + d.e * d.rows))
  else max (windowStop src (64 * d.len)) (windowStop dst (64 * d.len))

/-- Row past the scratchpad footprint of an instruction, and whether a SORUS area lies in the resident area of the program. -/
def ProgObj.stopRow (o : ProgObj) (e : IWord × Note) : Nat :=
  match opc e.1 with
  | 1 => let l := loadwF e.1; l.src + (weightRows l).1 * (weightRows l).2 + (if l.fp then 16 else 0)
  | 2 | 3 => let f := streamF e.1; streamStop f (geoOf (o.desc f.geo))
  | 4 => let f := drainF e.1
         drainStop f (drainOf (o.desc f.desc)) (match e.2.tile with
           | some (_, t :: _) => some (geoOf (o.desc t.geo), t)
           | _ => none)
  | 8 => let t := vecF e.1; let d := vecOf (o.desc t.desc)
         rowPast ((footA t d :: footD t d :: footB t d).foldl (fun a f => max a f.stop) 0)
  | 9 => let t := sfuF e.1; let d := vecOf (o.desc t.desc)
         rowPast (max (plainFoot d.afmt t.srca d.apitch d.rows d.len).stop (plainFoot d.dfmt t.dst d.dpitch d.rows d.len).stop)
  | 0x0C => let f := dmaF e.1
            if f.dop = 3 then f.doff + 4
            else if f.dop ≤ 2 then max (dmaStop f (dmaOf (o.desc f.desc))) (if f.dop = 0 then 0 else f.idx + 1)
            else 0
  | 0x10 => let t := sampleF e.1; sampleStop t (sampleOf (o.desc t.desc))
  | 0x14 => let t := sorusF e.1; let d := sorusOf (o.desc t.desc)
            max (sorusMapStop t d) ((sorusAreas t d).foldl (fun a f => max a f.2) 0)
  | _ => 0

/-- First row of the resident area that a program's own image takes (R175). -/
def ProgObj.resRow (o : ProgObj) : Nat := 655360 - 4 * cdiv o.resLen 256

/-- Row 11 of an instruction. -/
def ProgObj.footOk (o : ProgObj) (e : IWord × Note) : Bool :=
  decide (o.stopRow e ≤ 655360) && (decide (opc e.1 ≠ 0x14) ||
    (let t := sorusF e.1; (sorusAreas t (sorusOf (o.desc t.desc))).all fun a => decide (a.2 ≤ o.resRow)))

/-! User tables (R255, R258). -/

/-- Offset and length of user table `i` in an object: tables follow one another. -/
def sfuAt (o : ProgObj) : Nat → Nat × Nat
  | 0 => (o.sfu, 128 + 16 * 2 ^ fld o.bytes (o.sfu + 2) 1)
  | i + 1 =>
    let p := sfuAt o i
    (p.1 + p.2, 128 + 16 * 2 ^ fld o.bytes (p.1 + p.2 + 2) 1)

/-- Whether a user table passes the ST_ARG checks of R258. -/
def userTableOk (b : List Byte) : Bool :=
  let h := sfuHdrOf b
  let seg := (List.range h.nseg).map fun i => slice b (64 + 16 * i) 16
  let y0 := seg.map fun e => fld e 0 4
  let y1 := seg.map fun e => fld e 4 4
  let last := y1.getD (h.nseg - 1) 0
  let pts := (if h.loId then [] else [h.loVal]) ++ y0 ++ [last] ++ (if h.hiId then [] else [h.hiVal])
  let reals := [h.xlo, h.invw, h.scale, h.loVal, h.hiVal, h.negVal, h.zeroVal] ++ seg.flatMap fun e => [fld e 0 4, fld e 4 4, fld e 8 4]
  decide (h.scheme ≤ 4 ∧ h.interp ≤ 1 ∧ fld b 3 1 < 32 ∧ h.sym ≠ 3 ∧ h.keysel ≤ 1) && zeroBytes b 33 31
    && (seg.all fun e => zeroBytes e 12 4) && (reals.all fun c => (decodeFloat .fp32 c).isSome)
    && seamsOk h (y0.getD · 0) (y1.getD · 0) && (!h.mono || monotone pts)

/-- User tables that fail: their index, or one that reaches past the object. -/
def ProgObj.badTable (o : ProgObj) : Option Nat :=
  (List.range o.nsfu).find? fun i =>
    let p := sfuAt o i
    !(decide (fld o.bytes (p.1 + 2) 1 ≤ 8) && decide (p.1 + p.2 ≤ o.bytes.length)) || !userTableOk (slice o.bytes p.1 p.2)

/-! The table of R156. -/

/-- A failing check: status, kernel (0xFFFF for none), instruction or descriptor index, row (R480). -/
structure BadCheck where
  st : St
  kernel : Nat
  index : Nat
  row : Nat

/-- The first failure among the kernels: by kernel, then by instruction in the order of the queue table. -/
def ProgObj.scanKernels (o : ProgObj) (row : Nat) (kern : KObj → Option St) (ins : KObj → QObj → IWord × Note → Option St) :
    Option BadCheck :=
  o.kernels.zipIdx.findSome? fun (e : KObj × Nat) =>
    match kern e.1 with
    | some st => some ⟨st, e.2, 0, row⟩
    | none => e.1.queues.findSome? fun q => q.ins.zipIdx.findSome? fun (w : (IWord × Note) × Nat) =>
        (ins e.1 q w.1).map fun st => ⟨st, e.2, q.first + w.2, row⟩

/-- The first failure among the descriptors. -/
def ProgObj.scanDescs (o : ProgObj) (row : Nat) (ok : List Byte → Bool) (st : St) : Option BadCheck :=
  ((List.range o.ndesc).find? fun i => !ok (o.desc i)).map fun i => ⟨st, 0xFFFF, i, row⟩

/-- A check as its failing status. -/
def orFail (ok : Bool) (st : St) : Option St := if ok then none else some st

/-- No check of this kind. -/
def noCheck {α : Type} (_ : α) : Option St := none

/-- Rows 1 to 11 of R156 in order; `own` are the Fronds of the partition. -/
def ProgObj.checkRows (o : ProgObj) (own : List Nat) : Option BadCheck :=
  let only := fun (f : IWord × Note → Option St) (_ : KObj) (_ : QObj) (e : IWord × Note) => f e
  let r1 := (o.scanKernels 1 (fun k => orFail (k.ok && k.queues.all (·.ok)) .arg) (only fun e => orFail (insPlain e.1) .arg)).or
    (o.scanDescs 1 descPlain .arg)
  let r2 := o.scanKernels 2 (fun k => orFail (k.countsOk && k.queues.all fun q => endsOnce q.ins) .arg)
    fun k q e => orFail ((match classKind e.1 with | some c => decide (c = q.kind) | none => true) && !(k.twin && twinBad e.1)) .arg
  let r3 := (o.scanKernels 3 noCheck (only fun e => orFail (o.descOk e.1) .arg)).or
    (o.badTable.map fun i => ⟨.arg, 0xFFFF, i, 3⟩)
  let r4 := o.scanKernels 4 (fun k => orFail (k.fronds.all own.contains) .arg) (only fun e => orFail (tokensOk own e.1) .arg)
  let r5 := o.scanKernels 5 noCheck (only fun e => orFail (o.fmtOk e) .arg)
  let r6 := o.scanKernels 6 noCheck fun k q e =>
    orFail (decide (opc e.1 ≠ 0x3A) || barOk (k.copy q.frond) q e.1) .arg
  let r7 := (o.scanKernels 7 (fun k => orFail ((List.range k.fronds.length).all fun i => closingsOk (k.copy i)) .arg)
    (only fun e => orFail (o.argOk e) .arg)).or
    (o.scanDescs 7 (fun b => decide (fld b 0 1 ≠ 3) || dmaArgOk (dmaOf b)) .arg)
  let r8 := (o.scanKernels 8 noCheck (only fun e => orFail (o.rangeOk e) .shape)).or (o.scanDescs 8 descRange .shape)
  let r9 := (o.scanKernels 9 noCheck (only o.limits)).or (o.scanDescs 9 descLimits .shape)
  let r10 := o.scanDescs 10 descWino .shape
  let r11 := o.scanKernels 11 noCheck (only fun e => orFail (o.footOk e) .shape)
  r1.or (r2.or (r3.or (r4.or (r5.or (r6.or (r7.or (r8.or (r9.or (r10.or r11)))))))))

/-- Row 12: what the mode forbids (R586, R587). -/
def ProgObj.checkMode (o : ProgObj) (m : DetMode) : Option BadCheck :=
  if m = .relaxed then none
  else if bit1 o.needs 1 || (decide (m = .exact) && !bit1 o.needs 2) then some ⟨.state, 0xFFFF, 0, 12⟩
  else o.scanKernels 12 noCheck fun _ _ e => orFail (!(decide (opc e.1 = 0x0C) && decide (3 ≤ (dmaF e.1).dop))) .state

end Sys2Proof.Machine
end

