-- ==== Sys2Proof/Machine/Rings.lean ====
section
/-! DEFINITION. Doorbells and rings (R432, R453 to R470): what a host's doorbell does, taking packets, the read timer. -/

namespace Sys2Proof.Machine

/-- Whether firmware or the boot ROM takes doorbells now (R445, R653). -/
def State.takes (s : State) : Bool := decide (s.sys.st = .service ∨ s.sys.st = .recovery) && !s.fcol.safe

/-- A value's position bits (R463). -/
def dbPos (v : Word) : Nat := v.toNat % 2 ^ 30

/-- HEAD of an SQ moved to `h`: FULL clears and the pages reopen (R465). -/
def State.advanceHead (s : State) (p : Fin 4) (d h : Nat) : State :=
  match s.ring p d with
  | none => s
  | some r =>
    let s1 := if r.full then s.setPages p (r.base / 4096) r.size true else s
    s1.setRing p d { r.setPtr h r.tail r.nseq with full := false }

/-- What stands at HEAD of an SQ. -/
inductive AtHead where
  | nothing
  | bad
  | pad (n : Nat)
  | cmd (n : Nat)
  deriving DecidableEq, Repr

/-- Bytes from HEAD that packets may be taken from: to TAIL, or under DROP to the value of that doorbell (R463). -/
def Ring.limit (r : Ring) : Nat :=
  match r.drop with
  | none => r.used
  | some v => (v + 2 ^ 30 - r.head) % 2 ^ 30

/-- Reading the packet at HEAD (R458, R459, R461 to R463). -/
def State.atHead (s : State) (p : Fin 4) (r : Ring) : AtHead :=
  let a := ringAddr p r r.head
  let n := s.rdLe a 4
  let pad := bit1 (s.rd (a + 15)).toNat 0
  let room := r.cap - r.head % r.cap
  if r.limit = 0 ∨ n = 0 then .nothing
  else if 4096 < n ∨ n % 16 ≠ 0 ∨ room < n ∨ (pad = true ∧ n ≠ room) then .bad
  else if r.limit < n then (if r.drop.isSome then .bad else .nothing)
  else if s.rdLe (a + 6) 2 ≠ r.nseq then .bad
  else if pad then .pad n else .cmd n

/-- The command in the packet at HEAD. -/
def State.packetAt (s : State) (p : Fin 4) (r : Ring) (n : Nat) : Taken :=
  let b := s.rdN (ringAddr p r r.head) n
  ⟨fld b 4 2, fld b 8 4, fld b 14 1, fld b 12 2, fld b 15 1, b.drop 16⟩

/-- The packet at HEAD leaves the ring: its LEN word is zeroed, NSEQ and HEAD move on (R461). -/
def State.consume (s : State) (p : Fin 4) (d n : Nat) : State :=
  match s.ring p d with
  | none => s
  | some r =>
    let s1 := s.hostPut (ringAddr p r r.head) (List.replicate 4 0)
    (s1.setRing p d (r.setPtr r.head r.tail (r.nseq + 1))).advanceHead p d (r.head + n)

/-- Bytes that a completion of `n` bytes needs beyond what is used and promised, PAD included (R468). -/
def Ring.needs (c : Ring) (n : Nat) : Nat :=
  let e := c.promisedEnd c.tail
  e - c.tail + c.padAt e n + n

/-- A packet whose code is no command completes with ST_ARG once it is the oldest taken (R475, R476). -/
def State.flushUnknown (s : State) (p : Fin 4) (d : Nat) : State :=
  match s.takenAt p d with
  | some t => if (layOf t.opc t.payload).isNone then s.complete p d t .arg [] else s
  | none => s

/-- Taking the command at HEAD when its CQ has room (R468); an empty CQ that lacks room for a PAD alone gets it at once. -/
def State.takeCmd (s : State) (p : Fin 4) (d n : Nat) : State :=
  match s.ring p d with
  | none => s
  | some r =>
    match s.ring p r.pair with
    | none => s
    | some c =>
      let t := s.packetAt p r n
      let m := largest t.opc t.payload
      if c.used + c.needs m ≤ c.cap then
        let s1 := (s.consume p d n).modRing p d fun r => { r with taken := r.taken ++ [t] }
        let s2 := s1.modRing p r.pair fun c => { c with promises := c.promises ++ [(d, m)] }
        s2.flushUnknown p d
      else if c.used = 0 ∧ c.promises = [] ∧ c.padAt c.tail m ≠ 0 then s.ringPad p r.pair
      else s

/-- The abandoned span of a DROP doorbell: zeroed and consumed without a SEQ (R463). -/
def State.abandon (s : State) (p : Fin 4) (d : Nat) : State :=
  match s.ring p d with
  | none => s
  | some r =>
    match r.drop with
    | none => s
    | some v =>
      let n := r.limit
      let h := r.head % r.cap
      let k := min n (r.cap - h)
      let s1 := (s.hostZero (sramBase p + r.base + h) k).hostZero (sramBase p + r.base) (n - k)
      (s1.modRing p d fun r => { r with drop := none }).advanceHead p d v

/-- Whether a ring is the partner of a started AUX context (R315): its packets are messages, which firmware does not take as commands
(DEDUCED, notes/assumptions/98). -/
def State.auxPartner (s : State) (p : Fin 4) (d : Nat) : Bool :=
  s.streams.any fun e => decide (e.2.owner.any fun o => decide ((s.part o).port = p)) &&
    (let g := (s.reg (oStrm e.1 0)).toNat; decide (g.testBit 31 = true ∧ bits g 28 3 = 3 ∧ bits g 20 8 = d))

/-- One packet at HEAD: taken, skipped, abandoned, or the ring reset; nothing where it cannot go on. -/
def State.takeOne (s : State) (p : Fin 4) (d : Nat) : State :=
  match s.ring p d with
  | none => s
  | some r =>
    match s.atHead p r with
    | .bad => s.ringReset p d true
    | .pad n => s.consume p d n
    | .cmd n => if s.auxPartner p d then s else s.takeCmd p d n
    | .nothing => if r.drop.isSome then s.abandon p d else s

/-- Packets of a DROP doorbell taken in order, up to `fuel` of them. -/
def State.takeAll : Nat → State → Fin 4 → Nat → State
  | 0, s, _, _ => s
  | k + 1, s, p, d =>
    match s.ring p d with
    | none => s
    | some r => if r.drop.isNone then s else State.takeAll k (s.takeOne p d) p d

/-- A submission doorbell of value `v` (R463 to R465): TAIL moves, or OVERRUN is set; FULL closes the pages. -/
def State.sqDoorbell (s : State) (p : Fin 4) (d : Nat) (v : Word) : State :=
  match s.ring p d with
  | none => s
  | some r =>
    let t := dbPos v
    let r1 := r.setPtr r.head t r.nseq
    if r.kind ≠ 1 then s
    else if t % 16 ≠ 0 ∨ r1.cap < r1.used then s.setOverrun p d
    else
      let r2 := if v.getLsbD 31 then { r1 with drop := some t } else r1
      if r2.used = r2.cap ∧ r2.full = false then
        (((s.setRing p d { r2 with full := true }).setPages p (r.base / 4096) r.size false).irq p irqRingFull)
      else s.setRing p d r2

/-- A latched submission doorbell whose DROP bit is `drop`, taken by firmware after its ring's pointers are compared. -/
def State.takeSqDb (s : State) (p : Fin 4) (d : Nat) (drop : Bool) : State :=
  match tfind (s.port p).sqDb d with
  | none => s
  | some v =>
    if s.takes && v.getLsbD 31 == drop then
      let s1 := s.modPort p fun x => { x with sqDb := tdel x.sqDb d }
      match s1.ring p d with
      | none => s1
      | some r =>
        if r.agree then
          let s2 := s1.sqDoorbell p d v
          if drop then s2.takeAll (r.cap / 16 + 1) p d else s2
        else s1.ringReset p d false
    else s

/-- CP_SQ_DB (R463 to R465). -/
def execCpSqDb (p : Fin 4) (d : Fin 256) (s : State) : Host.Outcome State Fault Refusal := .next (s.takeSqDb p d.val false)

/-- CP_SQ_DB with DROP (R463). -/
def execCpSqDbDrop (p : Fin 4) (d : Fin 256) (s : State) : Host.Outcome State Fault Refusal := .next (s.takeSqDb p d.val true)

/-- Packet boundaries of a ring from `pos` on, each with its LEN (R467). -/
def State.boundaries (s : State) (p : Fin 4) (r : Ring) : Nat → Nat → Nat → List Nat
  | 0, pos, _ => [pos % 2 ^ 30]
  | k + 1, pos, left =>
    let n := s.rdLe (ringAddr p r pos) 4
    if left = 0 ∨ n = 0 ∨ left < n then [pos % 2 ^ 30]
    else (pos % 2 ^ 30) :: s.boundaries p r k (pos + n) (left - n)

/-- A completion doorbell of value `v` on a CQ or RF (R461, R466, R467, R469, R470). -/
def State.cqDoorbell (s : State) (p : Fin 4) (d : Nat) (v : Word) : State :=
  match s.ring p d with
  | none => s
  | some r =>
    let h := dbPos v
    let bs := s.boundaries p r (r.cap / 16) r.head r.used
    if bs.contains h then
      let s1 := (bs.takeWhile (· ≠ h)).foldl (fun s b => s.hostPut (ringAddr p r b) (List.replicate 4 0)) s
      let clr := v.getLsbD 30
      s1.setRing p d { r.setPtr h r.tail r.nseq with
        full := r.full && decide (h = r.head), overrun := r.overrun && !clr, reset := r.reset && !clr, tmoDone := false }
    else s.setOverrun p d

/-- Whether a CP_CQ_DB doorbell clears the flags of an armed SQ (R464). -/
def State.clearsSq (s : State) (p : Fin 4) (d : Nat) (v : Word) : Bool :=
  match s.ring p d with
  | none => false
  | some r => decide (r.kind = 1) && v.getLsbD 30

/-- CP_CQ_DB (R464, R467). -/
def execCpCqDb (p : Fin 4) (d : Fin 256) (s : State) : Host.Outcome State Fault Refusal :=
  .next (match tfind (s.port p).cqDb d.val with
    | none => s
    | some v =>
      if s.takes && !s.clearsSq p d.val v then
        let s1 := s.modPort p fun x => { x with cqDb := tdel x.cqDb d.val }
        match s1.ring p d.val with
        | none => s1
        | some r => if r.kind = 1 then s1 else if r.agree then s1.cqDoorbell p d.val v else s1.ringReset p d.val false
      else s)

/-- CP_CQ_DB naming an armed SQ, with v[30] (R464, R470). -/
def execCpCqDbSqFlagClear (p : Fin 4) (d : Fin 256) (s : State) : Host.Outcome State Fault Refusal :=
  .next (match tfind (s.port p).cqDb d.val with
    | none => s
    | some v =>
      if s.takes && s.clearsSq p d.val v then
        (s.modPort p fun x => { x with cqDb := tdel x.cqDb d.val }).modRing p d.val fun r =>
          { r with reset := false, overrun := false }
      else s)

/-- CP_IRQ_CLEAR (R432). -/
def execCpIrqClear (p : Fin 4) (v : Word) (s : State) : Host.Outcome State Fault Refusal :=
  .next (s.modPort p fun x => { x with irqStatus := x.irqStatus &&& ~~~(BitVec.ofNat 6 v.toNat) })

/-- CP_IRQ_MASK (R432, R448). -/
def execCpIrqMaskWrite (p : Fin 4) (v : Word) (s : State) : Host.Outcome State Fault Refusal :=
  .next (s.modPort p fun x => { x with irqMask := BitVec.ofNat 6 v.toNat })

/-- SQ_PACKET_TAKE (R458 to R463, R465, R468, R470). -/
def execSqPacketTake (p : Fin 4) (d : Fin 256) (s : State) : Host.Outcome State Fault Refusal :=
  .next (match s.ring p d.val with
    | none => s
    | some r =>
      if s.takes && decide (r.kind = 1) then
        if r.agree then (s.flushUnknown p d.val).takeOne p d.val else s.ringReset p d.val false
      else s)

/-- READ_TIMEOUT (R469). -/
def execReadTimeout (p : Fin 4) (d : Fin 256) (s : State) : Host.Outcome State Fault Refusal :=
  .next (match s.ring p d.val with
    | none => s
    | some r =>
      if r.kind ≠ 1 ∧ 0 < r.used ∧ r.tmoDone = false then
        (s.setRing p d.val { r with tmoDone := true }).irq p irqReadTmo
      else s)

end Sys2Proof.Machine
end

