-- ==== Sys2Proof/Machine/Session.lean ====
section
/-! DEFINITION. Sessions, partitions, quotas, allocations, apertures and registers over Ebwick (R27, R267, R471 to R480, R491
to R498, R540, R541, R585 to R590). -/

namespace Sys2Proof.Machine

/-! HELLO and CAPS. -/

/-- The highest version in both ranges, as 256 × major + minor (R471). -/
def chooseVersion (lo hi : Nat) : Option Nat :=
  let a := max lo 0x100
  let b := min hi 0x104
  if a ≤ b then some b else none

/-- HELLO (R456, R471). -/
def State.doHello (s : State) (p : Fin 4) (t : Taken) : Done :=
  let b := t.payload
  match chooseVersion (fld b 1 1 * 256 + fld b 0 1) (fld b 3 1 * 256 + fld b 2 1) with
  | none => refuse .version s
  | some v =>
    let n := s.sys.sessions + 1
    let s1 := s.modPort p fun x => { x with session := some ⟨v % 256, BitVec.ofNat 32 (fld b 4 4)⟩ }
    ⟨.ok, [BitVec.ofNat 8 v, BitVec.ofNat 8 (v / 256), BitVec.ofNat 8 p.val, BitVec.ofNat 8 s.sys.modId.toNat] ++ leBytes 4 n,
      { s1 with sys := { s1.sys with sessions := n } }⟩

/-- HELLO. -/
def execHello (p : Fin 4) (d : Fin 256) (s : State) : Host.Outcome State Fault Refusal :=
  .next (s.runCmd p d.val 0x0001 anyPl anyObj .session fun s t => s.doHello p t)

/-- A mask of those of `n` indices that satisfy `q`. -/
def maskOf (n : Nat) (q : Nat → Bool) : Nat := (List.range n).foldl (fun a i => if q i then a + 2 ^ i else a) 0

/-- Bytes of DRAM that allocations hold (R496): DRAM regions and the DRAM ranges of KV pools. -/
def State.dramUsed (s : State) (own : Fin 4 → Bool) : Nat :=
  s.allocs.foldl (fun a e => if own e.2.part && decide (e.2.region ≠ 1) then a + e.2.size else a) 0

/-- Granules of the Mat that allocations hold (R496): Mat regions and hot ranges of KV pools. -/
def State.matUsed (s : State) (own : Fin 4 → Bool) : Nat :=
  s.allocs.foldl (fun a e => if own e.2.part then a + (if e.2.region = 1 then e.2.size / 65536 else e.2.matSize / 65536) else a) 0

/-- FEAT of CAPS (R474). -/
def State.feat (s : State) (p : Fin 4) : Nat :=
  let up := (List.range 4).filter fun f => !s.nor.retired.getD f false
  let links := (List.finRange 3).any fun l => decide ((s.link l).st = .active)
  let trig := (List.finRange 4).any fun r => s.claimedBy p r.val && (match s.owned r with | some o => decide (o.trigs ≠ 0) | none => false)
  (if 2 ≤ up.length then 1 else 0) + 2 + (if links then 4 else 0) + 8 + 16 + (if s.nor.camera.isEmpty then 0 else 32)
    + (if s.ownerInForce then 64 else 0) + 128 + 256 + (if trig then 512 else 0)

/-- Partitions whose ownership entry satisfies `q`. -/
def State.ownedMask (s : State) (q : Owned → Bool) : Nat :=
  maskOf 4 fun r => match s.nor.ownerTable[r]? with | some o => q o | none => false

/-- Modules in the mesh: this one and the peers of links in service (R562). -/
def State.meshMask (s : State) : Nat :=
  maskOf 4 fun m => decide (m = s.sys.modId.toNat) || (List.finRange 3).any fun l =>
    decide ((s.link l).st = .active ∧ (s.link l).peer.toNat = m)

/-- Mat granules a partition may be given (R185, R657). -/
def State.matGranules (s : State) : Nat := 255 - (s.nor.withheld.dedup.filter (· < 255)).length

/-- CAPS response (R474, R480). -/
def State.capsResp (s : State) (p : Fin 4) : List Byte :=
  leBytes 8 (s.feat p) ++ leBytes 1 (maskOf 4 fun f => !s.nor.retired.getD f false) ++ leBytes 1 s.meshMask
    ++ leBytes 1 (s.ownedMask fun o => o.claim.getLsbD p.val) ++ leBytes 1 (s.ownedMask fun o => o.mgmt.getLsbD p.val)
    ++ leBytes 4 ((fwBase - s.dramUsed fun _ => true) / 1048576) ++ leBytes 4 (s.matGranules - s.matUsed fun _ => true)
    ++ leBytes 1 0xB0 ++ leBytes 1 2 ++ leBytes 1 3 ++ leBytes 1 s.dbg.level
    ++ leBytes 4 (0x03020000 + Config.fwBuild.toNat)

/-- CAPS (R474). -/
def execCaps (p : Fin 4) (d : Fin 256) (s : State) : Host.Outcome State Fault Refusal :=
  .next (s.runCmd p d.val 0x0002 anyPl anyObj .session fun s _ => ⟨.ok, s.capsResp p, s⟩)

/-! PART_CLAIM. -/

/-- A directory entry (R454). -/
structure DirEnt where
  base : Nat
  size : Nat
  kind : Nat
  part : Nat
  pair : Nat
  rtmo : Nat
  zero : Bool
  deriving DecidableEq, Repr

/-- Directory entry `d` of a port. -/
def State.dirEnt (s : State) (p : Fin 4) (d : Nat) : DirEnt :=
  let b := s.rdN (sramBase p + 0x10000 + 16 * d) 16
  ⟨fld b 0 4, fld b 4 2, fld b 6 1, fld b 7 1, fld b 8 1, fld b 9 1, zerosAt b 10 6⟩

/-- Whether an entry's own fields are in range (R454). -/
def DirEnt.ok (e : DirEnt) (r : Nat) : Bool :=
  decide (e.base % 4096 = 0 ∧ 0x20000 ≤ e.base ∧ e.base + e.size * 4096 ≤ 0x200000 ∧ e.size ∈ [1, 2, 4, 8, 16, 32, 64]
    ∧ 1 ≤ e.kind ∧ e.kind ≤ 3 ∧ e.part = r) && e.zero

/-- Whether two byte ranges meet. -/
def meets (a n b m : Nat) : Bool := decide (a < b + m ∧ b < a + n)

/-- Rings that a bitmap arms. -/
def armedBits (b : List Byte) : List Nat := (List.range 256).filter fun d => (b.getD (d / 8) 0).getLsbD (d % 8)

/-- Whether ring `d` is, or is about to be, a ring of partition `r` of a kind that satisfies `q`. -/
def State.ringIs (s : State) (p : Fin 4) (es : List (Nat × DirEnt)) (r d : Nat) (q : Nat → Bool) : Bool :=
  (es.any fun e => decide (e.1 = d) && q e.2.kind) ||
    (match s.ring p d with | some x => decide (x.part = r) && q x.kind | none => false)

/-- Whether the entries a PART_CLAIM arms satisfy R454 and R456. -/
def State.armOk (s : State) (p : Fin 4) (r : Nat) (es : List (Nat × DirEnt)) : Bool :=
  (es.all fun e => decide (2 ≤ e.1) && e.2.ok r && (decide (e.2.kind ≠ 1) || s.ringIs p es r e.2.pair (· == 2))) &&
    (es.all fun e => (es.all fun f => decide (e.1 = f.1) || !meets e.2.base (e.2.size * 4096) f.2.base (f.2.size * 4096)) &&
      ((s.port p).rings.all fun x => decide (x.1 = e.1) || !meets e.2.base (e.2.size * 4096) x.2.base x.2.cap))

/-- Rings of kind `k` that partition `r` would hold (R456). -/
def State.ringCount (s : State) (r : Nat) (es : List (Nat × DirEnt)) (k : Nat) : Nat :=
  (es.filter fun e => decide (e.2.kind = k)).length +
    ((List.finRange 4).map fun p => ((s.port p).rings.filter fun x => decide (x.2.part = r ∧ x.2.kind = k)).length).foldl (· + ·) 0

/-- Arming a ring from its directory entry (R454, R457). -/
def State.armRing (s : State) (p : Fin 4) (d : Nat) (e : DirEnt) : State :=
  let s1 := s.setRing p d (Ring.armed e.base e.size e.kind e.part e.pair e.rtmo)
  if e.kind = 1 then s1.setPages p (e.base / 4096) e.size true else s1

/-- Determinism mode of a code (R480). -/
def detOf (n : Nat) : DetMode := if n = 0 then .relaxed else if n = 1 then .strict else .exact

/-- Object state of PART_CLAIM (R479, R493, R658). -/
def State.claimable (s : State) (t : Taken) : Bool :=
  let m := fld t.payload 1 1
  match asPart t.part with
  | none => true
  | some r =>
    let x := s.part r
    decide (x.st ≠ .claimed) && (decide (x.st = .unclaimed) || decide (x.mode = detOf m)) &&
      (decide (m ≠ 2) || ((match s.owned r with | some o => decide (o.fronds = 0xF) | none => true) && s.nor.retired.all (!·)))

/-- PART_CLAIM (R19, R491 to R493, R520, R589, R590, R597). -/
def State.doClaim (s : State) (p : Fin 4) (t : Taken) : Done :=
  let b := t.payload
  let mg := bit1 (fld b 0 1) 0
  match (asPart t.part).bind fun r => (s.owned r).map fun o => (r, o) with
  | none => refuse .auth s
  | some (r, o) =>
    let ds := armedBits ((b.drop 4).take 32)
    let es := ds.map fun d => (d, s.dirEnt p d)
    let n := fld b 2 1
    checks [(o.claim.getLsbD p.val && (!mg || o.mgmt.getLsbD p.val), .auth),
      (decide (fld b 0 1 ≤ 1 ∧ fld b 1 1 ≤ 2) && s.armOk p r.val es &&
        (decide (n = 1) || s.ringIs p es r.val n (fun k => k == 2 || k == 3)), .arg),
      ((List.range 3).all fun k => decide (s.ringCount r.val es (k + 1) ≤ 64), .quota),
      (ds.all fun d => (s.ring p d).isNone, .busy)] s (
      let s1 := es.foldl (fun s e => s.armRing p e.1 e.2) s
      let s2 := s1.modPart r fun x => { x with st := .claimed, port := p, mgmt := mg, mode := detOf (fld b 1 1), notice := n,
                                               tol := 2, hint := 0, idling := false, idleAll := false }
      let s3 := if fld b 1 1 = 2 then
          (if s.exactClaimed then s2 else (s2.setReg 0x00110004 0).hotExact).applyOps
        else s2
      let x := s3.part r
      ⟨.ok, leBytes 1 o.fronds.toNat ++ leBytes 1 mg.toNat ++ leBytes 2 0 ++ leBytes 4 x.dramQ ++ leBytes 4 x.matQ
        ++ leBytes 4 x.timeNext, s3⟩)

/-- PART_CLAIM. -/
def execPartClaim (p : Fin 4) (d : Fin 256) (s : State) : Host.Outcome State Fault Refusal :=
  .next (s.runCmd p d.val 0x0010 anyPl (fun s t => s.claimable t) .session fun s t => s.doClaim p t)

/-- Jobs of a partition that hosts submitted and that are unfinished. -/
def State.unfinished (s : State) (r : Fin 4) : Bool := s.jobs.any fun e => decide (e.2.part = r) && e.2.golden.isNone

/-- Object state of PART_RELEASE (R479): without FORCE no job is unfinished. -/
def State.releasable (s : State) (t : Taken) : Bool :=
  bit1 (fld t.payload 0 1) 0 || (match asPart t.part with | some r => !s.unfinished r | none => true)

/-- Whether a port may release a partition (R479, R493). -/
def State.mayRelease (s : State) (p : Fin 4) (t : Taken) : Bool :=
  s.claimedBy p t.part || (bit1 (fld t.payload 0 1) 0 && (match asPart t.part with
    | none => false
    | some r => decide ((s.part r).st = .orphaned) && (match s.owned r with | some o => o.mgmt.getLsbD p.val | none => false)))

/-- PART_RELEASE (R495). -/
def State.doRelease (s : State) (p : Fin 4) (t : Taken) : Done :=
  checks [(s.mayRelease p t, .auth), (decide (fld t.payload 0 1 ≤ 1), .arg)] s (accept (s.releaseAll (s.cmdPart t)))

/-- PART_RELEASE. -/
def execPartRelease (p : Fin 4) (d : Fin 256) (s : State) : Host.Outcome State Fault Refusal :=
  .next (s.runCmd p d.val 0x0011 anyPl (fun s t => s.releasable t) .session fun s t => s.doRelease p t)

/-! Quotas and allocations. -/

/-- DRAM in use by a partition, in MiB. -/
def State.dramMib (s : State) (r : Fin 4) : Nat := cdiv (s.dramUsed fun x => x = r) 1048576

/-- OVER_QUOTA (R498, R499). -/
def State.overQuota (s : State) (r : Fin 4) : State :=
  s.notice r 0x4007 .ok (leBytes 4 (s.dramMib r) ++ leBytes 4 (s.part r).dramQ ++ leBytes 4 (s.matUsed fun x => x = r)
    ++ leBytes 4 (s.part r).matQ)

/-- A quota field of QUOTA_SET: 0xFFFF_FFFF leaves it (R480). -/
def newQuota (v old : Nat) : Nat := if v = 0xFFFFFFFF then old else v

/-- QUOTA_SET (R498, R499). -/
def State.doQuota (s : State) (t : Taken) : Done :=
  let b := t.payload
  match (asPart (fld b 0 1)).bind fun r => (s.owned r).map fun o => (r, o) with
  | none => refuse .arg s
  | some (r, o) =>
    let x := s.part r
    let dq := newQuota (fld b 4 4) x.dramQ
    let mq := newQuota (fld b 8 4) x.matQ
    let tq := newQuota (fld b 12 4) x.timeNext
    checks [((decide (fld b 4 4 = 0xFFFFFFFF) || decide (dq ≤ o.dramMax)) && (decide (fld b 8 4 = 0xFFFFFFFF) || decide (mq ≤ o.matMax))
        && (decide (fld b 12 4 = 0xFFFFFFFF) || decide (tq ≤ o.timeMax)), .quota)] s (
      let s1 := s.modPart r fun x => { x with dramQ := dq, matQ := mq, timeNext := tq }
      let low := (decide (fld b 4 4 ≠ 0xFFFFFFFF ∧ dq * 1048576 < s.dramUsed fun y => y = r)) ||
        decide (fld b 8 4 ≠ 0xFFFFFFFF ∧ mq < s.matUsed fun y => y = r)
      let s2 := if low then s1.overQuota r else s1
      ⟨.ok, leBytes 4 (s.dramMib r) ++ leBytes 4 (s.matUsed fun y => y = r), s2⟩)

/-- QUOTA_SET. -/
def execQuotaSet (p : Fin 4) (d : Fin 256) (s : State) : Host.Outcome State Fault Refusal :=
  .next (s.runCmd p d.val 0x0012 anyPl anyObj .mgmt fun s t => s.doQuota t)

/-- Ranges of DRAM that allocations hold. -/
def State.dramTaken (s : State) : List (Nat × Nat) := s.allocs.filterMap fun e =>
  if e.2.region ≠ 1 ∧ 0 < e.2.size then some (e.2.base, e.2.size) else none

/-- A place for `n` bytes of DRAM; none are wanted at 0. -/
def State.fitDram (s : State) (n : Nat) : Option Nat := if n = 0 then some 0 else firstFit 0 fwBase n s.dramTaken
/-- A place for `n` bytes of the Mat, below the firmware area (R185). -/
def State.fitMat (s : State) (n : Nat) : Option Nat := if n = 0 then some 0 else firstFit matBase (matBase + 0xFF0000) n s.matTaken

/-- Blocks of a page slot (R267). -/
def slotb (dh kvfmt : Nat) : Nat := 3 + dh * (if kvfmt = 0 then 8 else 4) / 32

/-- Bytes that KV pools hold (R267). -/
def State.poolBytes (s : State) : Nat :=
  s.allocs.foldl (fun a e => if e.2.region = 2 then a + e.2.size + e.2.matSize else a) 0

/-- Whether `n` bytes of DRAM and `g` bytes of the Mat stay within a partition's quotas (R497). -/
def State.withinQuota (s : State) (r : Fin 4) (n g : Nat) : Bool :=
  decide ((n = 0 ∨ s.dramUsed (fun x => x = r) + n ≤ (s.part r).dramQ * 1048576)
    ∧ (g = 0 ∨ (s.matUsed fun x => x = r) + g / 65536 ≤ (s.part r).matQ))

/-- Key of a partition's KV pool. -/
def poolKey (r : Fin 4) (n : Nat) : Nat := 4 * r.val + n

/-- MEM_ALLOC (R267, R480, R497): handle, address, MATBASE. -/
def State.doAlloc (s : State) (t : Taken) : Done :=
  let b := t.payload
  let r := s.cmdPart t
  let region := fld b 8 1
  let sz := cdiv (fld b 0 8) 65536 * 65536
  let kv := decide (region = 2)
  let dh := fld b 11 1
  let nhot := fld b 16 4
  let pk := poolKey r (fld b 10 1)
  let hot := if kv then cdiv (nhot * slotb dh (fld b 12 1) * 256) 65536 * 65536 else 0
  let dram := if region = 1 then 0 else sz
  let mat := if region = 1 then sz else hot
  checks [(decide (region ≤ 2 ∧ fld b 9 1 ≤ 1) && (if kv then
        decide (fld b 10 1 < 4 ∧ dh ∈ [32, 64, 96, 128] ∧ fld b 12 1 ≤ 1 ∧ 0 < sz + nhot)
      else decide (0 < sz) && zerosAt b 10 3 && decide (nhot = 0)), .arg),
    (s.withinQuota r dram mat && (!kv || decide (s.poolBytes + sz + hot ≤ 2 ^ 34)), .quota),
    ((s.fitDram dram).isSome && (s.fitMat mat).isSome, .nomem),
    (!kv || (tfind s.pools pk).isNone, .busy)] s (
    let da := (s.fitDram dram).getD 0
    let ma := (s.fitMat mat).getD 0
    let h := s.nextId
    let base := if region = 1 then ma else da
    let a : Alloc := ⟨r, region, base, sz, if kv then ma else 0, hot, if kv then pk else 0⟩
    let s1 := { s with nextId := h + 1, allocs := tput s.allocs h a }
    let pl : Pool := ⟨h, dh, fld b 12 1, nhot, nhot + sz / (slotb dh (fld b 12 1) * 256), [], []⟩
    let s2 := if kv then { s1 with pools := tput s1.pools pk pl } else s1
    let s3 := if fld b 9 1 = 1 then (if region = 1 then s2.zeroMat (ma - matBase) sz else
        (if 0 < hot then s2.zeroMat (ma - matBase) hot else s2).zeroRange da sz) else s2
    ⟨.ok, leBytes 4 h ++ leBytes 4 0 ++ leBytes 8 base ++ leBytes 4 (if 0 < hot then ma - matBase else 0), s3⟩)

/-- MEM_ALLOC. -/
def execMemAlloc (p : Fin 4) (d : Fin 256) (s : State) : Host.Outcome State Fault Refusal :=
  .next (s.runCmd p d.val 0x0018 anyPl anyObj .claimed fun s t => s.doAlloc t)

/-- An allocation of a partition. -/
def State.allocOf (s : State) (r : Fin 4) (h : Nat) : Option Alloc :=
  match tfind s.allocs h with
  | some a => if a.part = r then some a else none
  | none => none

/-- Whether an address lies in an allocation. -/
def Alloc.holds (a : Alloc) (x : Nat) : Bool :=
  decide ((a.base ≤ x ∧ x < a.base + a.size) ∨ (0 < a.matSize ∧ a.matBase ≤ x ∧ x < a.matBase + a.matSize))

/-- Address of a stream context's slots (R349). -/
def State.strmSlots (s : State) (c : Nat) : Nat := (s.reg (oStrm c 0x18)).toNat + s.regF (oStrm c 0x1C) 0 16 * 2 ^ 32

/-- Whether a loaded program, a stream, a pool, an aperture or the Dealer uses an allocation (R371, R479). -/
def State.inUse (s : State) (h : Nat) (a : Alloc) : Bool :=
  (s.progs.any fun e => a.holds e.2.base) ||
    (s.streams.any fun e => (e.2.owner.isSome || s.strmOn e.1) && (a.holds (s.strmSlots e.1) || (decide (0 < e.2.paramLen) && a.holds e.2.param))) ||
    (decide (a.region = 2) && s.seqs.any fun e => decide (e.2.pool = a.pool) && (!e.2.retired || s.pinned e.1)) ||
    ((List.finRange 4).any fun p => (s.port p).apers.any fun e => decide (e.2.handle = h)) ||
    (match s.dealer.cfg with | some c => a.holds c.base || (decide (0 < c.logN) && a.holds c.logBase) | none => false)

/-- MEM_FREE (R479, R495, R570). -/
def execMemFree (p : Fin 4) (d : Fin 256) (s : State) : Host.Outcome State Fault Refusal :=
  .next (s.runCmd p d.val 0x0019 anyPl
    (fun s t => match (asPart t.part).bind fun r => s.allocOf r (fld t.payload 0 4) with
      | some a => !s.inUse (fld t.payload 0 4) a
      | none => true) .claimed
    fun s t => checks [((s.allocOf (s.cmdPart t) (fld t.payload 0 4)).isSome, .arg),
      (s.groups.all fun g => decide (g.handle ≠ fld t.payload 0 4), .busy)] s (accept (s.freeAlloc (fld t.payload 0 4))))

/-! Apertures (R433 to R437, R540, R541). -/

/-- APERTURE_MAP (R480): an aperture that another partition's allocation holds is in use. -/
def State.doMap (s : State) (p : Fin 4) (t : Taken) : Done :=
  let b := t.payload
  let r := s.cmdPart t
  let a := fld b 0 1
  let h := fld b 4 4
  let off := fld b 8 8
  let un := decide (h = 0xFFFFFFFF)
  checks [(decide (a < 4 ∧ fld b 1 1 ≤ 1) && (un || (match s.allocOf r h with
      | some x => decide (off % 256 = 0 ∧ off < x.size)
      | none => false)), .arg),
    ((match tfind (s.port p).apers a with | some m => decide (s.aperOwner m = some r) | none => true), .busy)] s (
    let s1 := if (tfind (s.port p).apers a).isSome then s.unmapAper p a else s
    if un then accept s1
    else
      let s2 := s1.modPort p fun x => { x with apers := tput x.apers a ⟨h, off, bit1 (fld b 1 1) 0⟩ }
      accept (if bit1 (fld b 1 1) 0 then s2.aperPages p a true else s2))

/-- APERTURE_MAP. -/
def execApertureMap (p : Fin 4) (d : Fin 256) (s : State) : Host.Outcome State Fault Refusal :=
  .next (s.runCmd p d.val 0x001A anyPl anyObj .claimed fun s t => s.doMap p t)

/-- SRAM address of block `j` of aperture `a`, and of its shadow word (R425, R433). -/
def aperAddr (p : Fin 4) (a j : Nat) : Nat := sramBase p + 0x200000 + a * 0x100000 + 256 * j
/-- SRAM address of the shadow word. -/
def shadowAddr (p : Fin 4) (a j : Nat) : Nat := sramBase p + 0x600000 + a * 0x4000 + 4 * j

/-- A port as requester of aperture blocks (R761). -/
def aperWho (p r : Fin 4) : Who := { Who.unit (94 + p.val) with part := r.val }

/-- One block of a fill (R434, R540). -/
def State.fillBlock (s : State) (p r : Fin 4) (a j addr : Nat) : State :=
  let s1 := s.reportRead (aperWho p r) addr 256
  (s1.hostPut (aperAddr p a j) (s.block addr)).hostPut (shadowAddr p a j) (leBytes 4 (s.bcwAt addr).toNat)

/-- One more step of CP_APER_SEQ (R435). -/
def State.stepAperSeq (s : State) (p : Fin 4) (a : Nat) : State :=
  s.modPort p fun x => { x with aperSeq := x.aperSeq.modify a fun n => (n + 1) % 2 ^ 32 }

/-- `n` blocks of a fill from aperture block `j` on (R435, R540). -/
def State.fillRun (s : State) (p r : Fin 4) (a j addr n : Nat) : State :=
  if n = 0 then s
  else ((List.range n).foldl (fun s i => s.fillBlock p r a (j + i) (addr + 256 * i)) (s.stepAperSeq p a)).stepAperSeq p a

/-- The memory of an aperture command: its allocation, mapping offset and address of the first block. -/
def State.aperSpan (s : State) (p : Fin 4) (t : Taken) : Option (Fin 4 × Nat × Nat) :=
  match tfind (s.port p).apers (fld t.payload 0 1) with
  | none => none
  | some m => (tfind s.allocs m.handle).map fun x => (x.part, x.size - m.off, x.base + m.off + fld t.payload 4 4)

/-- Checks 4 and 5 of FILL and FLUSH around their work on (partition, address). -/
def State.aperCmd (s : State) (p : Fin 4) (t : Taken) (act : Nat → Done) : Done :=
  match s.aperSpan p t with
  | none => refuse .state s
  | some (own, room, addr) =>
    let off := fld t.payload 4 4
    let n := fld t.payload 8 4
    checks [(decide (own = s.cmdPart t), .auth),
      (decide (off % 256 = 0 ∧ n % 256 = 0 ∧ off + n ≤ 0x100000 ∧ off + n ≤ room), .arg)] s (act addr)

/-- Whether the aperture of a command is mapped (R479). -/
def State.aperMapped (s : State) (p : Fin 4) (t : Taken) : Bool := (s.aperSpan p t).isSome

/-- APERTURE_FILL (R435, R540). -/
def State.doFill (s : State) (p : Fin 4) (t : Taken) : Done :=
  s.aperCmd p t fun addr =>
    let a := fld t.payload 0 1
    let n := fld t.payload 8 4 / 256
    let s1 := s.fillRun p (s.cmdPart t) a (fld t.payload 4 4 / 256) addr n
    ⟨.ok, leBytes 4 n ++ leBytes 4 ((s1.port p).aperSeq.getD a 0), s1⟩

/-- APERTURE_FILL. -/
def execApertureFill (p : Fin 4) (d : Fin 256) (s : State) : Host.Outcome State Fault Refusal :=
  .next (s.runCmd p d.val 0x001B anyPl (fun s t => s.aperMapped p t) .claimed fun s t => s.doFill p t)

/-- One block of a flush (R541): it goes to memory with its shadow word as its BCW. -/
def State.flushBlock (s : State) (p : Fin 4) (a j addr : Nat) : State :=
  let w := Who.unit (94 + p.val)
  let s1 := (s.reportMarks w (aperAddr p a j) 256).reportMarks w (shadowAddr p a j) 4
  s1.putBlock addr (s.rdN (aperAddr p a j) 256) (BitVec.ofNat 32 (s.rdLe (shadowAddr p a j) 4))

/-- Whether a block agrees with its shadow word. -/
def State.shadowOk (s : State) (p : Fin 4) (a j : Nat) : Bool :=
  decide (crc32c (s.rdN (aperAddr p a j) 256) = s.rdLe (shadowAddr p a j) 4)

/-- APERTURE_FLUSH (R434, R541). -/
def State.doFlush (s : State) (p : Fin 4) (t : Taken) : Done :=
  s.aperCmd p t fun addr =>
    let a := fld t.payload 0 1
    let n := fld t.payload 8 4 / 256
    let j := fld t.payload 4 4 / 256
    let bad := (List.range n).filter fun i => !s.shadowOk p a (j + i)
    let s1 := (List.range n).foldl (fun s i => s.flushBlock p a (j + i) (addr + 256 * i)) s
    ⟨.ok, leBytes 4 n ++ leBytes 4 bad.length ++ leBytes 4 (match bad with | i :: _ => j + i | [] => 0xFFFFFFFF), s1⟩

/-- APERTURE_FLUSH. -/
def execApertureFlush (p : Fin 4) (d : Fin 256) (s : State) : Host.Outcome State Fault Refusal :=
  .next (s.runCmd p d.val 0x001C anyPl (fun s t => s.aperMapped p t) .claimed fun s t => s.doFlush p t)

/-! REG_READ and REG_WRITE (R3, R8, R27, R28, R83, R341, R450, R523). -/

/-- Register offsets that a REG_READ or REG_WRITE of `n` words names. -/
def regNames (t : Taken) (n : Nat) : List Nat := (List.range n).map fun i => fld t.payload 0 8 + 4 * i - regBase

/-- Whether an internal address is a word of the register space. -/
def regAddrOk (a n : Nat) : Bool := decide (a % 4 = 0 ∧ regBase ≤ a ∧ a + 4 * n ≤ regBase + 0x09000000)

/-- Object state of a register command: no own Frond named is off (R83). An offset that holds no register, inside the block of a
foreign, off or retired Frond too, is left to the field check, which answers ST_ARG (DESIGN CHOICE, notes/assumptions/105). -/
def State.regState (s : State) (t : Taken) (n : Nat) : Bool :=
  match asPart t.part with
  | none => true
  | some r => !regAddrOk (fld t.payload 0 8) n || (regNames t n).all fun o => !isReg o || !s.frondOff r o

/-- Words read in order, each as REG_READ reads it. -/
def State.readWords (s : State) (r : Fin 4) : List Nat → List Byte × State
  | [] => ([], s)
  | o :: t =>
    let x := s.readAny (some r) o
    let y := x.2.readWords r t
    (leBytes 4 x.1.toNat ++ y.1, y.2)

/-- REG_READ (R3, R4, R27, R28). -/
def State.doRegRead (s : State) (t : Taken) : Done :=
  let r := s.cmdPart t
  let n := fld t.payload 8 1
  let a := fld t.payload 0 8
  let os := regNames t n
  checks [(!regAddrOk a n || os.all (fun o => !s.noRegRead r o || !isReg o && decide (o < 0x08000000)), .auth),
    (decide (1 ≤ n ∧ n ≤ 16) && regAddrOk a n && os.all isReg, .arg)] s (
    let x := s.readWords r os
    ⟨.ok, leBytes 4 n ++ x.1, x.2⟩)

/-- REG_READ. -/
def execRegRead (p : Fin 4) (d : Fin 256) (s : State) : Host.Outcome State Fault Refusal :=
  .next (s.runCmd p d.val 0x0070 anyPl (fun s t => s.regState t (fld t.payload 8 1)) .claimed fun s t => s.doRegRead t)

/-- REG_WRITE (R3, R8, R27, R28). -/
def State.doRegWrite (s : State) (t : Taken) : Done :=
  let r := s.cmdPart t
  let a := fld t.payload 0 8
  let o := a - regBase
  let v := fld t.payload 8 4
  checks [(!regAddrOk a 1 || !isReg o && !decide (0x08000000 ≤ o) || (!s.noRegRead r o && !noRegWrite o), .auth),
    (regAddrOk a 1 && isReg o && (match regSpec (unwindow o) with | some g => encOk g v | none => false), .arg)] s
    (accept (s.writeAny (some r) o (BitVec.ofNat 32 v)))

/-- REG_WRITE. -/
def execRegWrite (p : Fin 4) (d : Fin 256) (s : State) : Host.Outcome State Fault Refusal :=
  .next (s.runCmd p d.val 0x0071 anyPl (fun s t => s.regState t 1) .claimed fun s t => s.doRegWrite t)

end Sys2Proof.Machine
end

