-- ==== Sys2Proof/Machine/Programs.lean ====
section
/-! DEFINITION. Loading and unloading programs over Ebwick (R156, R175, R260, R489, R700, R759, R760). -/

namespace Sys2Proof.Machine

/-! Signatures (R258, R489, R692). -/

/-- The owner model-signing key of the NOR key region (R697): after the debug key. -/
def State.modelKey (s : State) : Option (BitVec 512) := if 128 ≤ s.nor.keys.length then some (beField 512 s.nor.keys 64 64) else none

/-- Whether an SM2 signature over the SM3 of a message verifies under a key. -/
def sigOk (k : BitVec 512) (msg sig : List Byte) : Bool := Config.sm2Verify k (Config.sm3 msg) (beField 512 sig 0 64)

/-- Whether a partition requires model signing (R698). -/
def State.modelSign (s : State) (r : Fin 4) : Bool := match s.owned r with | some o => o.signing | none => false

/-- Whether a model signature that the object carries verifies over the bytes before it, and one stands where the partition
requires it (R156, R489). -/
def State.modelOk (s : State) (r : Fin 4) (obj : List Byte) : Bool :=
  let sig := if fld obj 4 2 = 3 then fld obj 48 4 else 0
  if sig = 0 then !s.modelSign r
  else match s.modelKey with
    | some k => sigOk k (obj.take sig) (slice obj sig 64)
    | none => false

/-- Whether the signature of a user table verifies under the key that KEYSEL names. -/
def State.tableSigned (s : State) (b : List Byte) : Bool :=
  let n := b.length - 64
  if fld b 32 1 = 0 then s.vendorUsable Config.vendorTableKey && sigOk Config.vendorTableKey (b.take n) (b.drop n)
  else match s.modelKey with
    | some k => sigOk k (b.take n) (b.drop n)
    | none => false

/-- The first user table whose signature does not verify. -/
def State.badSig (s : State) (o : ProgObj) : Option Nat :=
  (List.range o.nsfu).find? fun i => let p := sfuAt o i; !s.tableSigned (slice o.bytes p.1 p.2)

/-- User table slots that a partition's programs hold on each of its Fronds (R260). -/
def State.sfuHeld (s : State) (r : Fin 4) : Nat := s.progs.foldl (fun a e => if e.2.part = r then a + e.2.nsfu else a) 0

/-! Placing. -/

/-- Kernel `k` of an object as the device keeps it (R759, R760). -/
def loadedKernel (obj : List Byte) (low k : Nat) : Kernel :=
  let e := slice obj (fld obj 16 8 + 32 * k) 32
  let x := kernelObj obj low k
  { twin := x.twin, fronds := BitVec.ofNat 4 (x.fronds.foldl (fun a f => a + 2 ^ f) 0), wcet := x.wcet, nq := x.nq,
    queues := (List.range (x.nq * x.fronds.length)).map fun i =>
      let q := slice obj (fld e 8 4 + 16 * i) 16
      (fld q 0 1, fld q 4 4, fld q 8 8) }

/-- First row of a resident image of `n` bytes on a partition's Fronds: below every image that stands (R175). -/
def State.resPlace (s : State) (r : Fin 4) (n : Nat) : Option Nat :=
  let low := (s.frondsOf r).foldl (fun a f => min a (s.regF (oResbase f) 0 20)) 655360
  let m := 4 * cdiv n 256
  if m ≤ low then some (low / 4 * 4 - m) else none

/-- The resident image written to a Frond's scratchpad, whole blocks (R171, R176). -/
def State.placeImage (s : State) (f : Fin 4) (row : Nat) (img : List Byte) : State :=
  (s.store (spBase f + 64 * row) (padTo (256 * cdiv img.length 256) img)).setResbase f

/-- What a load or its refusal answers: PROG, kernels, failing kernel, index and row (R480). -/
def loadResp (prog kernels kernel index row : Nat) : List Byte :=
  leBytes 4 prog ++ leBytes 2 kernels ++ leBytes 2 kernel ++ leBytes 4 index ++ leBytes 1 row

/-- A load refused with the check that failed; nothing is loaded. -/
def loadFail (b : BadCheck) (s : State) : Done := ⟨b.st, loadResp 0 0 b.kernel b.index b.row, s⟩

/-- Everything R156 checks of an object, in its order. -/
def State.loadCheck (s : State) (r : Fin 4) (obj : List Byte) (low : Nat) : Option BadCheck :=
  let zero := fun (st : St) (i : Nat) => (⟨st, 0xFFFF, i, 0⟩ : BadCheck)
  match headerFail obj with
  | some st => some (zero st 0)
  | none =>
    if s.modelOk r obj then
      let o := progObj obj low
      let own := (s.frondsOf r).map (·.val)
      (o.checkRows own).or ((o.checkMode (s.part r).mode).or (((s.badSig o).map (zero .auth)).or
        (if s.sfuHeld r + o.nsfu ≤ 64 then none else some (zero .nomem 0))))
    else some (zero .auth 0)

/-- A checked program enters the device: its entry, resident image, user tables and measurement. -/
def State.enterProg (s : State) (r : Fin 4) (base low row : Nat) (h : Nat) (obj : List Byte) : State :=
  let o := progObj obj low
  let n := s.nextId
  let g : Prog := { part := r, handle := h, base := base, len := obj.length, needs := o.needs,
                    kernels := (List.range (fld obj 6 2)).map (loadedKernel obj low), descs := o.descs, nsfu := o.nsfu,
                    sfuOff := o.sfu, res := o.res, resLen := o.resLen, resRow := row }
  let s1 := { s with nextId := n + 1, progs := tput s.progs n g }
  let img := slice obj o.res o.resLen
  let s2 := if 0 < o.resLen then (s.frondsOf r).foldl (fun s f => s.placeImage f row img) s1 else s1
  ((s.frondsOf r).foldl (fun s f => s.loadSfu f n) s2).extendMb 4 (BitVec.ofNat 8 r.val :: obj)

/-- PROG_LOAD (R156, R175, R260, R489, R700). -/
def State.doProgLoad (s : State) (t : Taken) : Done :=
  let b := t.payload
  let r := s.cmdPart t
  let off := fld b 8 8
  let len := fld b 16 4
  match s.allocOf r (fld b 0 4) with
  | none => loadFail ⟨.arg, 0xFFFF, 0, 0⟩ s
  | some a =>
    if 64 ≤ len ∧ off + len ≤ a.size then
      let base := a.base + off
      let full := s.rdN base len
      let obj := full.take (fld full 8 4)
      let low := ((s.frondsOf r).head?.map (·.val)).getD 0
      let s1 := s.reportRead Who.firmware base len
      match s.loadCheck r obj low, s.resPlace r (fld obj 44 4) with
      | some bad, _ => loadFail bad s1
      | none, none => loadFail ⟨.nomem, 0xFFFF, 0, 0⟩ s1
      | none, some row =>
        ⟨.ok, loadResp s1.nextId (fld obj 6 2) 0xFFFF 0 0, s1.enterProg r base low row (fld b 0 4) obj⟩
    else loadFail ⟨.arg, 0xFFFF, 0, 0⟩ s

/-- PROG_LOAD. -/
def execProgLoad (p : Fin 4) (d : Fin 256) (s : State) : Host.Outcome State Fault Refusal :=
  .next (s.runCmd p d.val 0x0020 anyPl anyObj .claimed fun s t => s.doProgLoad t)

/-- A program of a partition. -/
def State.progOfPart (s : State) (r : Fin 4) (g : Nat) : Option Prog :=
  match tfind s.progs g with
  | some x => if x.part = r then some x else none
  | none => none

/-- PROG_UNLOAD (R260, R479). -/
def execProgUnload (p : Fin 4) (d : Fin 256) (s : State) : Host.Outcome State Fault Refusal :=
  .next (s.runCmd p d.val 0x0021 anyPl
    (fun s t => !(s.jobs.any fun e => decide (e.2.prog = fld t.payload 0 4 ∧ e.2.part.val = t.part))) .claimed
    fun s t => checks [((s.progOfPart (s.cmdPart t) (fld t.payload 0 4)).isSome, .arg)] s
      (accept (s.unloadProg (fld t.payload 0 4))))

end Sys2Proof.Machine
end

