-- ==== Sys2Proof/Machine/RhizoidOps.lean ====
section
/-! DEFINITION. The state machine of streams (R316 to R320, R369), frames from start to delivery. -/

namespace Sys2Proof.Machine

/-! The state machine. -/

/-- Entering QUARANTINED (R316, R319): the frame in progress is discarded; nothing when already there. -/
def State.quarantine (s : State) (c cause : Nat) : State :=
  if s.strmSt c = 4 then s
  else ((s.dropRun c).modStream c fun x => { x with good := 0, short := 0, quarAt := s.now }).streamState c 4 cause

/-- Errored frame history: the newest first, 16 kept. -/
def Stream.push (x : Stream) (err : Bool) : Stream := { x with hist := (err :: x.hist).take 16 }

/-- In LIVE, ERR_THR or more errored frames among the last 16 degrade the stream (R316). -/
def State.degrade (s : State) (c : Nat) : State :=
  if s.strmSt c = 2 ∧ s.regF (oStrm c 0xC) 20 4 ≤ ((s.stream c).hist.filter id).length then s.streamState c 3 5 else s

/-- A frame becomes errored (R316, R318): counted once; in LIVE it may degrade the stream at once. -/
def State.errFrame (s : State) (c : Nat) : State :=
  match (s.stream c).frame with
  | none => s
  | some r =>
    if r.errored then s
    else
      let s1 := s.modStream c fun x => { (x.push true) with good := 0, frame := some { r with errored := true } }
      ((s1.count (oStrm c 0x28) 1).showErrs c).degrade c

/-- Slots that a new frame may not take (R325): held, or with a complete frame that waits. -/
def Stream.busySlots (x : Stream) : List Nat := x.held.map (·.2.2) ++ x.done.map (·.run.slot)

/-- Next slot in ring order for a new frame. -/
def Stream.pickSlot (x : Stream) (n : Nat) : Option Nat :=
  ((List.range n).map fun i => (x.nextSlot + i) % n).find? fun i => !x.busySlots.contains i

/-- An empty frame. -/
def FrameRun.start (no sof : Nat) (sum : Int) (slot : Option Nat) (bad : Bool) : FrameRun :=
  { no := no, sof := sof, stepSum := sum, lines := [], sums := [], front := none, back := none, corr := 0, errored := false,
    dropped := slot.isNone, slot := slot.getD 0, sens := none, sensCnt := 0, icheck := false, icheckAt := 0, bad := bad,
    msec := false, sidx := 0, epoch := 0, chan := 0 }

/-- Whether a period in ns is below PMIN or above PMAX (R345). -/
def State.periodOff (s : State) (c p : Nat) : Bool × Bool :=
  (decide (p < s.regF (oStrm c 8) 0 16 * 10000), decide (s.regF (oStrm c 8) 16 16 * 10000 < p))

/-- A frame start at device time `t` (R316, R318, R325, R347): the errored frames among the last 16 are remembered through every
change of state. `timed` says that the period conditions apply; without them the first start is LIVE at once (R369). -/
def State.frameStart (s : State) (c t : Nat) (timed : Bool) : State :=
  let x := s.stream c
  let st := s.strmSt c
  let n := x.starts + 1
  let off := match x.lastStart with
    | some u => if timed && decide (st ≠ 0) then s.periodOff c (t - u) else (false, false)
    | none => (false, false)
  let short := if off.1 then x.short + 1 else 0
  let s1 := (s.modStream c fun y => { y with starts := n, lastStart := some t, short := short }).count
    (oStrm c 0x20) 1
  if st = 4 then s1
  else if 2 ≤ (s1.stream c).short then s1.quarantine c 6
  else
    let s2 := if st = 0 then
        let s2 := s1.modStream c fun y => { y with good := 0 }
        if !timed && x.lastStart.isNone then s2.streamState c 2 2 else s2.streamState c 1 1
      else if st = 2 ∧ off.2 then (s1.modStream c fun y => { y with good := 0 }).streamState c 3 7 else s1
    let slot := x.pickSlot (s.regF (oStrm c 0) 0 4)
    let s3 := if slot.isNone then s2.count (oStrm c 0x2C) 1 else s2
    s3.modStream c fun y => { y with frame := some (FrameRun.start n t s.time.stepSum slot (off.1 || off.2)) }

/-- A complete, error-free frame ends (R316, R321): it counts toward lock and recovery, and waits for delivery when the
stream is LIVE or DEGRADED then; the errored frames that a stream has at its lock degrade it at the next frame's end
(DEDUCED, notes/assumptions/98). -/
def State.goodEnd (s : State) (c : Nat) (cmac : Bool) : State :=
  match (s.stream c).frame with
  | none => s
  | some r =>
    let st := s.strmSt c
    let g := if r.bad then (if st = 1 then 1 else 0) else (s.stream c).good + 1
    let s1 := (s.modStream c fun x => let y := x.push false; { y with good := g, frame := none }).showErrs c
    let s2 := if st = 1 ∧ 3 ≤ g then (s1.modStream c fun x => { x with good := 0 }).streamState c 2 2
      else if st = 3 ∧ 16 ≤ g then (s1.modStream c fun x => { x with good := 0 }).streamState c 2 13 else if st = 2 then s1.degrade c else s1
    let now := s2.strmSt c
    if (now = 2 ∨ now = 3) ∧ !r.dropped then
      s2.modStream c fun x => { x with done := x.done ++ [⟨r, s.now, now, cmac⟩],
                                       nextSlot := (r.slot + 1) % max 1 (s.regF (oStrm c 0) 0 4) }
    else s2.countLost c r

/-- An errored frame ends. -/
def State.badEnd (s : State) (c : Nat) : State := (s.errFrame c).dropRun c

/-! Camera frames. -/

/-- Whether an FCNT follows the last one verified, modulo 2^32 in the sense of R131 (R338). -/
def fcntAfter (last : Option Nat) (n : Nat) : Bool :=
  match last with
  | none => true
  | some l => decide (0 < (n + 2 ^ 32 - l) % 2 ^ 32 ∧ (n + 2 ^ 32 - l) % 2 ^ 32 < 2 ^ 31)

/-- Camera tag of a frame (R337, R338): FCNT when it verifies. -/
def State.cmacOk (s : State) (c : Nat) (r : FrameRun) : Option Nat :=
  match r.front, r.back with
  | some a, some b =>
    let n := fld a 0 4
    let key := BitVec.ofNat 128 (beNat (s.nor.camera.getD (fld (s.paramBlk c) 80 1) []))
    let tag := Config.cmacSm4 key (a.take 4 ++ r.lines.flatten)
    if tag = BitVec.ofNat 128 (fldBE b 16 16) ∧ fcntAfter (s.stream c).fcnt n then some n else none
  | _, _ => none

/-- Whether a frame's lines or packets make it errored (R316). -/
def State.frameBad (s : State) (c : Nat) (r : FrameRun) : Bool :=
  r.errored || decide (r.lines.length < s.regF (oStrm c 4) 16 16)

/-- The end of a camera frame: too few lines make it errored; with CMAC_REQ the tag of every frame is verified here, and one that
fails quarantines (R316, R338). -/
def State.cameraEnd (s : State) (c : Nat) : State :=
  match (s.stream c).frame with
  | none => s
  | some r =>
    if bit1 (s.strmCfg c) 6 then
      match s.cmacOk c r with
      | none => s.quarantine c 11
      | some n =>
        let s1 := s.modStream c fun x => { x with fcnt := some n, frame := some { r with sensCnt := n } }
        if s.frameBad c r then s1.badEnd c else s1.goodEnd c true
    else if s.frameBad c r then s.badEnd c
    else s.goodEnd c false

/-- BCWs of a payload, one for each 256 bytes (R328 stage 1, R367). -/
def payloadSums (l : List Byte) : List Word := (List.range (cdiv l.length 256)).map fun i => crcWord (slice l (256 * i) 256)

/-- One image line (R316, R317), into the line buffers with its BCWs (R328): an embedded line before it is not the trailing one. -/
def State.cameraLine (s : State) (c dt : Nat) (crcOk : Bool) (pl : List Byte) : State :=
  match (s.stream c).frame with
  | none => s
  | some r =>
    if s.regF (oStrm c 4) 0 16 < dtPixels dt pl.length ∨ s.regF (oStrm c 4) 16 16 ≤ r.lines.length then s.quarantine c 9
    else
      let s1 := s.modStream c fun x => { x with
        frame := some { r with lines := r.lines ++ [pl], sums := r.sums ++ [payloadSums pl], back := none } }
      if crcOk ∧ s.regF (oStrm c 4) 0 16 ≤ dtPixels dt pl.length then s1 else s1.errFrame c

/-- A line of embedded data (R337): the first of the frame, or one after the image lines. -/
def State.embedded (s : State) (c : Nat) (crcOk : Bool) (pl : List Byte) : State :=
  match (s.stream c).frame with
  | none => s
  | some r =>
    let s1 := s.modStream c fun x => { x with
      frame := some (if r.lines.isEmpty then { r with front := some (r.front.getD pl) } else { r with back := some pl }) }
    if crcOk then s1 else s1.errFrame c

/-- Contexts of a CSI-2 port. -/
def State.camerasOn (s : State) (p : Nat) : List Nat :=
  s.strmStarted.filter fun c => decide (s.strmKind c = 1 ∧ bits (s.strmCfg c) 24 4 = p)

/-- The context of a virtual channel. -/
def State.cameraOf (s : State) (p vc : Nat) : Option Nat :=
  (s.camerasOn p).find? fun c => decide (bits (s.strmCfg c) 20 4 = vc)

/-! Point packets. -/

/-- A packet taken by a POINT context at SFD stamp `t` (R316, R317, R327, R333): a scan counter that differs from the previous
packet's opens a scan, in every state of the stream. -/
def State.pointPacket (s : State) (c t : Nat) (msec : Bool) (pl : List Byte) : State :=
  let blk := s.paramBlk c
  let n := scanOf blk pl
  let s1 := if (s.stream c).scan ≠ some n then
      let e := match (s.stream c).frame with
        | none => s
        | some r => if s.frameBad c r then s.badEnd c else s.goodEnd c false
      (e.frameStart c t true).modStream c fun x => { x with scan := some n }
    else s
  if s1.regF (oStrm c 4) 0 16 < pl.length then s1.quarantine c 9
  else match (s1.stream c).frame with
    | none => s1
    | some r =>
      if s1.regF (oStrm c 4) 16 16 ≤ r.lines.length then s1.quarantine c 9
      else
        let sens := if bit1 (fld blk 2 1) 2 && r.lines.isEmpty then some (Config.pointTime (pointField blk pl 3 (profOff blk 3)))
          else r.sens
        s1.modStream c fun x => { x with frame := some { r with lines := r.lines ++ [pl], sens := sens, sensCnt := n, msec := msec } }

/-! Ethernet frames. -/

/-- A frame split behind its addresses: VLAN ID, EtherType, and the offset of what follows. -/
def ethType (fr : List Byte) (o : Nat) : Option Nat × Nat × Nat :=
  if fldBE fr o 2 = 0x8100 then (some (bits (fldBE fr (o + 2) 2) 0 12), fldBE fr (o + 4) 2, o + 6) else (none, fldBE fr o 2, o + 2)

/-- UDP destination port and payload of an IP packet: IPv6? and both (R312). -/
def udpOf (ty : Nat) (p : List Byte) : Option (Bool × Nat × List Byte) :=
  let cut := fun (v6 : Bool) (o : Nat) => some (v6, fldBE p (o + 2) 2, (p.drop (o + 8)).take (fldBE p (o + 4) 2 - 8))
  if ty = 0x0800 ∧ fld p 9 1 = 17 then cut false (fld p 0 1 % 16 * 4)
  else if ty = 0x86DD ∧ fld p 6 1 = 17 then cut true 40
  else none

/-- Whether a context's parameter block matches a frame: VLAN, source address, IP version and port (R312, R486). -/
def pointMatches (blk : List Byte) (vlan : Option Nat) (src : List Byte) (u : Bool × Nat × List Byte) : Bool :=
  decide ((if bit1 (fld blk 2 1) 4 then some (bits (fld blk 4 2) 0 12) else none) = vlan) && decide (slice blk 6 6 = src) &&
    decide (u.1 = bit1 (fld blk 2 1) 3) && decide (fld blk 12 2 = u.2.1)

/-- POINT contexts of a MAC. -/
def State.pointsOn (s : State) (m : Nat) : List Nat :=
  s.strmStarted.filter fun c => decide (s.strmKind c = 2 ∧ bits (s.strmCfg c) 24 4 = m)

/-- Whether a context requires MACsec. -/
def State.needsMsec (s : State) (c : Nat) : Bool := bit1 (s.strmCfg c) 5

/-- SCI of a MACsec frame (IEEE 802.1AE): the explicit one where the SC bit of the SecTAG is set, else the source address with
port identifier 1 (PRESUMED, notes/assumptions/98). -/
def secSci (fr : List Byte) : Nat := if bit1 (fld fr 14 1) 5 then fldBE fr 20 8 else fldBE fr 6 6 * 65536 + 1

/-- The context of a frame's receive secure channel (R313). -/
def State.msecCtx (s : State) (m : Nat) (fr : List Byte) : Option Nat :=
  (s.pointsOn m).find? fun c => s.needsMsec c && decide (fld (s.paramBlk c) 80 8 = secSci fr)

/-- MACsec verification on a context (R313, R314): the frame behind its addresses, or a failure. -/
def State.msecOpen (s : State) (c : Nat) (fr : List Byte) : Option (List Byte × State) :=
  let blk := s.paramBlk c
  let an := fld fr 14 1 % 4
  let pn := fldBE fr 16 4
  match (s.stream c).sas.find? fun a => decide (a.an = an) with
  | none => none
  | some a =>
    if pn + fld blk 72 4 < a.next then none
    else match Config.gcmOpen a.key (fld blk 77 1 = 1) (BitVec.ofNat 64 (fld blk 80 8)) (BitVec.ofNat 32 pn) fr with
      | none => none
      | some pl => some (pl, s.modStream c fun x =>
          { x with sas := x.sas.map fun b => if b.an = an then { b with next := max b.next (pn + 1) } else b })

/-! PTP (R384, R388 to R393). -/

/-- Ring of an AUX context (R315). -/
def State.auxRing (s : State) (c : Nat) : Nat := bits (s.strmCfg c) 20 8
/-- Whether a context is a started AUX context. -/
def State.auxOn (s : State) (c : Nat) : Bool := s.strmOn c && decide (s.strmKind c = 3)

/-- Ingress stamp of a MAC (R384). -/
def State.ingress (s : State) (m phase : Nat) : Nat :=
  ((s.capture phase : Int) - sext 16 (s.regF (oTime (0x40 + 4 * m)) 0 16)).toNat

/-- A PTP message on a MAC (R388, R389, R391, R393); `forward` says that it may be forwarded. -/
def State.ptpReceive (s : State) (m : Fin 8) (phase : Nat) (forward : Bool) (fr : List Byte) : State :=
  let tc := (s.reg (oTime (0x20 + 4 * m.val))).getLsbD 0
  let mask := s.regF (oTime (0x20 + 4 * m.val)) 8 8
  let dst := fldBE fr 0 6
  let stamp := s.ingress m.val phase
  if fld fr 15 1 % 16 ≠ 2 ∨ 1 < fld fr 15 1 / 16 then s.count (0x03000080 + 4 * m.val) 1
  else if dst = 0x0180C200000E ∨ !tc then
    s.mgmtParts.foldl (fun s r =>
      s.notice r 0x4002 .ok (leBytes 1 m.val ++ leBytes 1 0 ++ leBytes 2 fr.length ++ timeBytes stamp ++ leBytes 2 0 ++ fr)) s
  else if dst = 0x011B19000000 ∧ forward = true then
    let corr := decide (fld fr 14 1 % 16 ≤ 3)
    { s with time := { s.time with
      fwd := s.time.fwd ++ ((List.finRange 8).filter fun k => decide (k ≠ m) && mask.testBit k.val).map fun k => ⟨k, stamp, corr, fr⟩ } }
  else s

/-- A received frame whose contents are in the clear (R311, R312, R388, R393): EtherType 0x88F7 in an untagged frame goes to the
time unit, and on a MAC with MACSEC_REQ is forwarded only when it came verified. -/
def State.ethClear (s : State) (m : Fin 8) (phase : Nat) (opened : Option Nat) (fr : List Byte) : State :=
  let (vlan, ty, o) := ethType fr 12
  if ty = 0x88F7 ∧ vlan = none then s.ptpReceive m phase (opened.isSome || !(s.pointsOn m.val).any s.needsMsec) fr
  else match udpOf ty (fr.drop o) with
    | none => s.count (0x03000080 + 4 * m.val) 1
    | some u =>
      match (s.pointsOn m.val).find? fun c => pointMatches (s.paramBlk c) vlan (slice fr 6 6) u with
      | none => s.count (0x03000080 + 4 * m.val) 1
      | some c => if s.needsMsec c && decide (opened ≠ some c) then s.quarantine c 10 else s.pointPacket c (s.ingress m.val phase) opened.isSome u.2.2

/-! Delivery (R321, R322). -/

/-- Sensor time of a frame (R327): the sensor's or host's own where there is one, else the latch plus STRM_TS_ADJ. -/
def State.sensTime (s : State) (c : Nat) (r : FrameRun) : Nat :=
  r.sens.getD (((r.sof : Int) + (s.reg (oStrm c 0x14)).toInt).toNat)

/-- The descriptor of a frame (R322). -/
def frameDesc (c : Nat) (d : FrameDone) (st sens bytes : Nat) : List Byte :=
  padTo 256 (leBytes 1 c ++ leBytes 1 d.run.icheck.toNat ++ leBytes 1 st
    ++ leBytes 1 (d.cmac.toNat + 2 * d.run.msec.toNat + 4 * d.run.sens.isSome.toNat) ++ leBytes 4 d.run.no
    ++ timeBytes sens ++ leBytes 2 0 ++ timeBytes d.eof ++ leBytes 2 0 ++ leBytes 4 bytes ++ leBytes 4 d.run.slot
    ++ leBytes 4 d.run.sensCnt ++ leBytes 4 d.run.corr)

/-- Whole blocks written with their BCW; from block `bad` on with its complement (R321, R331). -/
def State.writeBlocks (s : State) (a : Nat) (bad : Option Nat) (l : List Byte) : State :=
  (List.range (cdiv l.length 256)).foldl (fun s i =>
    let b := slice l (256 * i) 256
    s.putBlock (a + 256 * i) b (if bad.any (· ≤ i) then ~~~(crcWord b) else crcWord b)) s

/-- Whether the BCWs of a frame's lines in the line buffers match them (R328 stage 1). -/
def FrameRun.sumsOk (r : FrameRun) : Bool := decide (r.sums = r.lines.map payloadSums) || decide (r.sums = [])

/-- The line buffers read for delivery (R328, R331): a BCW that fails makes the frame ICHECK and raises the class U fault of the
pipeline. -/
def State.readLines (s : State) (c : Nat) (r : FrameRun) : FrameRun × State :=
  if r.sumsOk then (r, s)
  else
    let n := s.fresh
    ({ r with icheck := true, icheckAt := n.1.toNat },
      n.2.raise { src := srcOf (72 + bits (s.strmCfg c) 7 3 / 4) 2, cause := 7, sub := bits (s.strmCfg c) 7 3,
                  part := ((s.stream c).owner).elim 0xFF (·.val) })

/-- Delivering a frame into its slot (R321, R322, R331, R351); one that does not fit its slot is dropped and counted. -/
def State.deliverFrame (s : State) (c : Nat) (d : FrameDone) (t : Tensor) : State :=
  let sens := s.sensTime c d.run
  let body := t.bytes
  let all := padTo (256 * cdiv body.length 256) body ++ t.map
  let a := s.slotAddr c d.run.slot
  let s0 := if 0 < t.drops then s.count (oStrm c 0x2C) t.drops else s
  if s0.slotSize c < 256 + 256 * cdiv all.length 256 then s0.count (oStrm c 0x2C) 1
  else
    let st := s0.strmSt c
    let from' := if d.run.icheck then some (d.run.icheckAt % (cdiv all.length 256 + 1)) else none
    let s1 := (s0.writeBlocks (a + 256) from' all).writeBlocks a (from'.map fun _ => 0) (frameDesc c d st sens body.length)
    let s2 := s1.countWrap (oStrm c 0x24)
    let s3 := ((s2.setReg (oStrm c 0x40) (BitVec.ofNat 32 (sens % 1000000000))).setReg (oStrm c 0x44)
      (BitVec.ofNat 32 (sens / 1000000000))).setReg (oStrm c 0x48) (BitVec.ofNat 32 (sens / 1000000000 / 2 ^ 32 % 65536))
    let f : SlotFrame := ⟨d.run.slot, d.run.no, sens, d.run.stepSum, d.run.icheck, st = 3, d.run.sidx⟩
    s3.modStream c fun x => { x with slots := (x.slots.filter fun e => decide (e.slot ≠ d.run.slot)) ++ [f] }

end Sys2Proof.Machine
end

