-- ==== Sys2Proof/Machine/Rhizoid.lean ====
section
/-! DEFINITION. Rhizoid's commands: packets, frames, gaps, delivery, and the instances that frames start (R309 to R341). -/

namespace Sys2Proof.Machine

/-- A packet whose header ECC error was corrected (R309, R350): counted, and in its frame too where one is open (R322). -/
def State.noteCorrected (s : State) (c : Nat) (corrected : Bool) : State :=
  if corrected then
    (s.count (oStrm c 0x34) 1).modStream c fun x => { x with frame := x.frame.map fun (r : FrameRun) => { r with corr := r.corr + 1 } }
  else s

/-- Discarding what a CSI-2 port receives for no context (R310). -/
def State.portLost (s : State) (port : Nat) : State := s.count (0x03000040 + 4 * port) 1

/-- CSI2_PACKET (R309, R310, R316, R317, R337). -/
def execCsi2Packet (port : Fin 12) (pkt : Csi2Packet) (s : State) : Host.Outcome State Fault Refusal :=
  .next (match pkt with
    | .unparsable => (s.camerasOn port.val).foldl State.badEnd (s.portLost port.val)
    | .line vc corrected => match s.cameraOf port.val vc.val with
      | none => s.portLost port.val
      | some c => s.noteCorrected c corrected
    | .badHeader vc => match s.cameraOf port.val vc.val with
      | none => s.portLost port.val
      | some c => s.errFrame c
    | .long vc dt corrected crcOk pl => match s.cameraOf port.val vc.val with
      | none => s.portLost port.val
      | some c =>
        let s1 := s.noteCorrected c corrected
        if s1.strmSt c = 4 then s1
        else if dt.toNat = bits (s1.strmCfg c) 10 6 then s1.cameraLine c dt.toNat crcOk pl
        else if dt = 0x12 ∧ bit1 (s1.strmCfg c) 6 = true then s1.embedded c crcOk pl
        else s1.quarantine c 8)

/-- CSI2_FRAME_START (R309, R316, R325, R327): a frame still open ends as an errored one. -/
def execCsi2FrameStart (port : Fin 12) (head : Csi2Head) (phase : Fin 32) (s : State) :
    Host.Outcome State Fault Refusal :=
  .next (match s.cameraOf port.val head.vc.val with
    | none => s.portLost port.val
    | some c => ((s.badEnd c).frameStart c (s.capture phase.val) true).noteCorrected c head.corrected)

/-- CSI2_FRAME_END (R309, R316, R338). -/
def execCsi2FrameEnd (port : Fin 12) (head : Csi2Head) (s : State) : Host.Outcome State Fault Refusal :=
  .next (match s.cameraOf port.val head.vc.val with
    | none => s.portLost port.val
    | some c => (s.noteCorrected c head.corrected).cameraEnd c)

/-- ETH_FRAME_RECEIVE (R311 to R314, R333, R384, R389, R391): the frame is given without its FCS. -/
def execEthFrameReceive (mac : Fin 8) (fcsOk : Bool) (phase : Fin 32) (frame : List Byte) (s : State) :
    Host.Outcome State Fault Refusal :=
  let disc := s.count (0x03000080 + 4 * mac.val) 1
  .next (
    if !fcsOk ∨ frame.length < 14 ∨ 9216 < frame.length + 4 then disc
    else if fldBE frame 12 2 = 0x88E5 then
      match s.msecCtx mac.val frame with
      | none => disc
      | some c => match s.msecOpen c frame with
        | none => s.quarantine c 10
        | some (pl, s1) => s1.ethClear mac phase.val (some c) (frame.take 12 ++ pl)
    else s.ethClear mac phase.val none frame)

/-- One message of an AUX stream, one frame (R315, R317, R327): its sensor time is the host's. -/
def State.auxFrame (s : State) (c t : Nat) (m : List Byte × Nat) : State :=
  let s1 := s.frameStart c t true
  if s1.strmSt c = 4 then s1
  else if 240 < m.1.length then s1.quarantine c 9
  else
    (s1.modStream c fun x => { x with frame := x.frame.map fun (r : FrameRun) =>
      { r with lines := [m.1], sens := some m.2 } }).goodEnd c false

/-- Whether ring `d` of port `p` is the partner of an AUX context (R315). -/
def State.auxPair (s : State) (c : Nat) (p : Fin 4) (d : Nat) : Bool :=
  (s.stream c).owner.any fun o => decide ((s.part o).port = p ∧ s.auxRing c = d)

/-- AUX_MESSAGE (R315, R327, R458 to R463) of context `ctx` at its partner, ring `d` of port `p`: the packet at HEAD leaves the ring;
one that carries a message is a frame. -/
def execAuxMessage (ctx : Fin 96) (p : Fin 4) (d : Fin 256) (phase : Fin 32) (s : State) : Host.Outcome State Fault Refusal :=
  let c := ctx.val
  .next (match s.ring p d.val with
    | none => s
    | some r =>
      if s.auxPair c p d.val && s.auxOn c && decide (r.kind = 1 ∧ (s.stream c).owner.map (·.val) = some r.part) then
        if r.agree then
          match s.atHead p r with
          | .cmd n => (s.consume p d.val n).auxFrame c (s.capture phase.val) (Config.auxEntry (s.packetAt p r n).payload)
          | _ => s.takeOne p d.val
        else s.ringReset p d.val false
      else s)

/-- A stream falls to ABSENT (R316): its frame in progress is not delivered. -/
def State.absent (s : State) (c cause : Nat) : State :=
  ((s.dropRun c).modStream c fun x => { x with good := 0, short := 0 }).streamState c 0 cause

/-- FRAME_START_GAP (R316): no frame start for GAP after the last one. -/
def execFrameStartGap (ctx : Fin 96) (s : State) : Host.Outcome State Fault Refusal :=
  let c := ctx.val
  .next (match (s.stream c).lastStart with
    | none => s
    | some t =>
      if s.strmOn c && decide (s.strmKind c ≠ 4 ∧ s.strmSt c ≠ 4 ∧ t + s.regF (oStrm c 0xC) 0 16 * 10000 ≤ s.now) then
        s.absent c 4
      else s)

/-- ETH_LINK_LOSS (R316): PCS block lock lost for 1 ms. -/
def execEthLinkLoss (mac : Fin 8) (s : State) : Host.Outcome State Fault Refusal :=
  .next (((s.pointsOn mac.val).filter fun c => decide (s.strmSt c ≠ 4)).foldl (fun s c => s.absent c 3) s)

/-- QUAR_HOLD_EXPIRE (R316, R319). -/
def execQuarHoldExpire (ctx : Fin 96) (s : State) : Host.Outcome State Fault Refusal :=
  let c := ctx.val
  let h := s.regF (oStrm c 0xC) 24 8
  .next (if s.strmOn c && decide (s.strmSt c = 4 ∧ h ≠ 0 ∧ (s.stream c).quarAt + h * 10000000 ≤ s.now) then s.absent c 12 else s)

/-- FRAME_DELIVER (R321 to R323, R331): the oldest complete frame that waits. -/
def execFrameDeliver (ctx : Fin 96) (s : State) : Host.Outcome State Fault Refusal :=
  let c := ctx.val
  .next (match (s.stream c).done with
    | [] => s
    | d :: rest =>
      let s1 := s.modStream c fun x => { x with done := rest }
      if s.strmOn c && decide (s.strmSt c = 2 ∨ s.strmSt c = 3) then
        let q := s1.readLines c d.run
        q.2.deliverFrame c { d with run := q.1 } (s.frameTensor c (s.jitterOf c d.run) d.run)
      else s1.countLost c d.run)

/-! Instances (R324). -/

/-- Slots that Rhizoid is writing, or will write next: those of the frame in progress and of the frames that wait (R325). -/
def Stream.writing (x : Stream) : List Nat := x.done.map (·.run.slot) ++ x.frame.toList.filterMap fun r => if r.dropped then none else some r.slot

/-- The newest frame of a context that a job may take (R324): its slot is not one that a new frame already has. -/
def State.frameFor (s : State) (j c : Nat) : Option SlotFrame :=
  let x := s.stream c
  x.slots.reverse.find? fun e => !e.icheck && !x.taken.contains (j, e.no) && !x.writing.contains e.slot

/-- A frame taken by a job's instance: held, and never taken again. -/
def State.takeFrame (s : State) (j inst c : Nat) (e : SlotFrame) : State :=
  s.modStream c fun x => { x with held := x.held ++ [(j, inst, e.slot)]
                                  taken := (x.taken.filter fun t => x.slots.any fun u => u.no = t.2) ++ [(j, e.no)] }

/-- The instance becomes ready with its inputs' time, flags and sample index (R482). -/
def Job.begin (x : Job) (now : Nat) (replay : Bool) (fs : List SlotFrame) : Job :=
  let old := fs.foldl (fun (a : Option SlotFrame) e => match a with
    | none => some e
    | some b => if e.sens < b.sens then some e else a) none
  { x with st := .ready, kernel := 0, readySince := now, sens := old.elim x.sens (·.sens),
           sensStep := old.elim x.sensStep (·.stepSum), degraded := fs.any (·.degraded), replayed := replay,
           sidx := ((fs.map (·.sidx)).find? fun i => decide (i ≠ 0)).getD 0 }

/-- JOB_INSTANCE_START (R324, R325): an instance of a job of any KIND with bound streams starts when every one of them holds a frame
the job has not taken; the slot indices are written at the pick address. -/
def execJobInstanceStart (job : Nat) (s : State) : Host.Outcome State Fault Refusal :=
  .next (match s.job job with
    | none => s
    | some x =>
      if x.streams ≠ [] ∧ x.st = .waiting ∧ x.golden = none ∧ !s.fcol.safe then
        let fs := x.streams.map fun c => (c, s.frameFor job c)
        if fs.all fun e => e.2.isSome then
          let got := fs.filterMap fun e => e.2.map fun f => (e.1, f)
          let s1 := got.foldl (fun s e => s.takeFrame job x.inst e.1 e.2) s
          let s2 := got.zipIdx.foldl (fun s (e, i) =>
            let b := padTo 256 (leBytes 4 e.2.slot)
            s.putBlock (x.pick + 256 * i) b (crcWord b)) s1
          s2.setJob job (x.begin s.now (got.any fun e => decide (s.strmKind e.1 = 4)) (got.map (·.2)))
        else s
      else s)

/-- DESKEW_CALIBRATION_SEQUENCE (R309, R340): a D-PHY port notes it. -/
def execDeskewCalibrationSequence (port : Fin 12) (s : State) : Host.Outcome State Fault Refusal :=
  let o := 0x03000000 + 4 * port.val
  .next (if (s.reg o).getLsbD 3 then s else s.setRegF o 2 1 1)

end Sys2Proof.Machine
end

