-- ==== Sys2Proof/Machine/Sequences.lean ====
section
/-! DEFINITION. Sequences over Ebwick (R267, R272 to R279). -/

namespace Sys2Proof.Machine

/-- A sequence of a partition. -/
def State.seqOf (s : State) (r : Fin 4) (q : Nat) : Option Seq :=
  match tfind s.seqs q with
  | some x => if x.part = r then some x else none
  | none => none

/-- Sequences that stand, by owner. -/
def State.liveSeqs (s : State) (own : Fin 4 → Bool) : Nat := (s.seqs.filter fun e => own e.2.part && !e.2.retired).length

/-- Whether a partition and the device take one more sequence (R272). -/
def State.seqRoom (s : State) (r : Fin 4) : Bool :=
  decide (s.liveSeqs (fun x => x = r) < 16384 ∧ s.liveSeqs (fun _ => true) < 65536)

/-- A new sequence at generation 1 and its response (R273, R480). -/
def State.addSeq (s : State) (x : Seq) : Done :=
  let q := s.nextId
  ⟨.ok, leBytes 4 q ++ leBytes 4 x.gen.toNat, { s with nextId := q + 1, seqs := tput s.seqs q x }⟩

/-- SEQ_CREATE (R267, R272, R273). -/
def execSeqCreate (p : Fin 4) (d : Fin 256) (s : State) : Host.Outcome State Fault Refusal :=
  .next (s.runCmd p d.val 0x0040 anyPl anyObj .claimed fun s t =>
    let b := t.payload
    let r := s.cmdPart t
    let k := poolKey r (fld b 0 1)
    checks [(decide (fld b 0 1 < 4 ∧ 1 ≤ fld b 1 1 ∧ fld b 1 1 ≤ 16 ∧ fld b 2 1 ≤ 1 ∧ fld b 8 8 % 64 = 0) && (tfind s.pools k).isSome, .arg),
      (s.seqRoom r, .quota)] s
      (s.addSeq { part := r, pool := k, nhg := fld b 1 1, hot := bit1 (fld b 2 1) 0, gen := 1, basePos := fld b 8 8,
                  len := fld b 8 8, spans := [], retired := false }))

/-- Whether the sequence a command names stands, or is unknown (R479). -/
def State.seqStands (s : State) (t : Taken) : Bool :=
  match (asPart t.part).bind fun r => s.seqOf r (fld t.payload 0 4) with
  | some x => !x.retired
  | none => true

/-- Spans that `n` tokens from the base take. -/
def Seq.prefix (x : Seq) (n : Nat) : List Span := x.spans.take (cdiv n 64)

/-- Count and taint of a page of a pool. -/
def State.pageOf (s : State) (pool id : Nat) : Page := (((tfind s.pools pool).bind fun p => p.page id)).getD ⟨0, false⟩

/-- SEQ_FORK (R272 to R274, R279). -/
def State.doFork (s : State) (t : Taken) : Done :=
  let n := fld t.payload 8 8
  let r := s.cmdPart t
  match s.seqOf r (fld t.payload 0 4) with
  | none => refuse .arg s
  | some x =>
    let sp := x.prefix n
    let pages := spanPages sp
    checks [(decide (x.basePos + n ≤ x.len), .arg), (pages.all fun i => !(s.pageOf x.pool i).taint, .withheld),
      (pages.all (fun i => decide ((s.pageOf x.pool i).count < 65535)) && s.seqRoom r, .quota)] s (
      let s1 := { s with pools := tmod s.pools x.pool fun p => p.incr pages false }
      s1.addSeq { x with gen := 1, len := x.basePos + n, spans := sp })

/-- SEQ_FORK. -/
def execSeqFork (p : Fin 4) (d : Fin 256) (s : State) : Host.Outcome State Fault Refusal :=
  .next (s.runCmd p d.val 0x0041 anyPl (fun s t => s.seqStands t) .claimed fun s t => s.doFork t)

/-- Whether the sequence a command names accepts an edit (R273, R479). -/
def State.seqEdits (s : State) (t : Taken) : Bool :=
  s.seqStands t && (match (asPart t.part).bind fun r => s.seqOf r (fld t.payload 0 4) with
    | some x => decide (x.gen.toNat ≠ 0xFFFFFFFF)
    | none => true)

/-- A SEQ_EDIT that gives a sequence a new base, length and table when `ok` (R273, R277). -/
def State.doEdit (s : State) (t : Taken) (ok : Seq → Bool) (base len : Seq → Nat) (sp : Seq → List Span) : Done :=
  let q := fld t.payload 0 4
  match s.seqOf (s.cmdPart t) q with
  | none => refuse .arg s
  | some x =>
    checks [(ok x, .arg)] s (
      let s1 := (s.reSpan q (sp x) (len x) false)
      let s2 := { s1 with seqs := tmod s1.seqs q fun y => { y with basePos := base x } }
      ⟨.ok, leBytes 4 (x.gen.toNat + 1), s2.sweepPool x.pool⟩)

/-- SEQ_EDIT TRUNCATE, or with an edit that is not listed (R277, R480). -/
def execSeqEditTruncate (p : Fin 4) (d : Fin 256) (s : State) : Host.Outcome State Fault Refusal :=
  .next (s.runCmd p d.val 0x0042 (fun b => fld b 4 1 ≠ 1) (fun s t => s.seqEdits t) .claimed fun s t =>
    let pos := fld t.payload 8 8
    s.doEdit t (fun x => decide (fld t.payload 4 1 = 0 ∧ x.basePos ≤ pos ∧ pos ≤ x.len)) (·.basePos) (fun _ => pos)
      fun x => x.prefix (pos - x.basePos))

/-- SEQ_EDIT DROP_BELOW (R277, R480). -/
def execSeqEditDropBelow (p : Fin 4) (d : Fin 256) (s : State) : Host.Outcome State Fault Refusal :=
  .next (s.runCmd p d.val 0x0042 (fun b => fld b 4 1 = 1) (fun s t => s.seqEdits t) .claimed fun s t =>
    let pos := fld t.payload 8 8
    s.doEdit t (fun x => decide (pos % 64 = 0 ∧ x.basePos ≤ pos ∧ pos ≤ x.len)) (fun _ => pos) (·.len)
      fun x => x.spans.drop ((pos - x.basePos) / 64))

/-- SEQ_RETIRE (R278). -/
def execSeqRetire (p : Fin 4) (d : Fin 256) (s : State) : Host.Outcome State Fault Refusal :=
  .next (s.runCmd p d.val 0x0043 anyPl (fun s t => s.seqStands t) .claimed fun s t =>
    checks [((s.seqOf (s.cmdPart t) (fld t.payload 0 4)).isSome, .arg)] s (accept (s.retireSeq (fld t.payload 0 4))))

end Sys2Proof.Machine
end

