-- ==== Sys2Proof/Machine/SorusMath.lean ====
section
/-! DEFINITION. Step records, KV pages and the arithmetic of Sorus (R268 to R271, R286, R288, R292 to R299), pure. -/

namespace Sys2Proof.Machine

/-! The step record (R286). -/

/-- Header of a step record. -/
structure StepHdr where
  job : Nat
  nslot : Nat
  nhg : Nat
  dh : Nat
  kvfmt : Nat
  nent : Nat
  nhot : Nat
  drambase : Nat
  matbase : Nat
  slotb : Nat
  deriving DecidableEq, Repr

/-- Reading the header. -/
def stepHdrOf (b : List Byte) : StepHdr :=
  { job := fld b 0 4, nslot := fld b 4 1, nhg := fld b 5 1, dh := fld b 6 1, kvfmt := fld b 7 1, nent := fld b 8 4,
    nhot := fld b 12 4, drambase := fld b 16 8, matbase := fld b 24 4, slotb := fld b 28 2 }

/-- The 256 bytes of a header. -/
def StepHdr.bytes (h : StepHdr) : List Byte :=
  padTo 256 (leBytes 4 h.job ++ leBytes 1 h.nslot ++ leBytes 1 h.nhg ++ leBytes 1 h.dh ++ leBytes 1 h.kvfmt
    ++ leBytes 4 h.nent ++ leBytes 4 h.nhot ++ leBytes 8 h.drambase ++ leBytes 4 h.matbase ++ leBytes 2 h.slotb)

/-- A slot of a step record. -/
structure StepSlot where
  seq : Nat
  state : Nat
  flags : Nat
  qh : Nat
  zero : Nat
  qrow0 : Nat
  qn : Nat
  win : Nat
  qpos0 : Nat
  klo : Nat
  lend : Nat
  plist : Nat
  nspan : Nat
  na : Nat
  aidx : Nat
  tail : Nat
  deriving DecidableEq, Repr

/-- Reading a slot. -/
def stepSlotOf (b : List Byte) : StepSlot :=
  { seq := fld b 0 4, state := fld b 4 1, flags := fld b 5 1, qh := fld b 6 1, zero := fld b 7 1, qrow0 := fld b 8 2,
    qn := fld b 10 2, win := fld b 12 4, qpos0 := fld b 16 8, klo := fld b 24 8, lend := fld b 32 8, plist := fld b 40 4,
    nspan := fld b 44 2, na := fld b 46 2, aidx := fld b 48 4, tail := fld b 52 12 }

/-- The 64 bytes of a slot. -/
def StepSlot.bytes (x : StepSlot) : List Byte :=
  padTo 64 (leBytes 4 x.seq ++ leBytes 1 x.state ++ leBytes 1 x.flags ++ leBytes 1 x.qh ++ leBytes 1 x.zero
    ++ leBytes 2 x.qrow0 ++ leBytes 2 x.qn ++ leBytes 4 x.win ++ leBytes 8 x.qpos0 ++ leBytes 8 x.klo ++ leBytes 8 x.lend
    ++ leBytes 4 x.plist ++ leBytes 2 x.nspan ++ leBytes 2 x.na ++ leBytes 4 x.aidx ++ leBytes 12 x.tail)

/-- A page-list entry: K page, V page, and the shared pages to copy before appending. -/
structure PageEnt where
  k : Nat
  v : Nat
  ksrc : Nat
  vsrc : Nat
  deriving DecidableEq, Repr

/-- Reading a page-list entry. -/
def pageEntOf (b : List Byte) : PageEnt := ⟨fld b 0 4, fld b 4 4, fld b 8 4, fld b 12 4⟩

/-- The 16 bytes of a page-list entry. -/
def PageEnt.bytes (e : PageEnt) : List Byte := leBytes 4 e.k ++ leBytes 4 e.v ++ leBytes 4 e.ksrc ++ leBytes 4 e.vsrc

/-- No page (R268). -/
def noPage : Nat := 0xFFFFFFFF

/-- Internal address of a page (R268). -/
def StepHdr.pageAddr (h : StepHdr) (p : Nat) : Nat :=
  if p < h.nhot then 0x1000000000 + h.matbase + p * h.slotb * 256 else h.drambase + (p - h.nhot) * h.slotb * 256

/-- Spans that a slot's new tokens enter. -/
def StepSlot.appendSpans (x : StepSlot) : Nat :=
  if x.na = 0 then 0 else (x.lend - 1) / 64 - (x.lend - x.na) / 64 + 1

/-- Whether the query rows of two slots share a 64-row block (R286). -/
def StepSlot.shares (x y : StepSlot) : Bool :=
  decide (x.qrow0 / 64 ≤ (y.qrow0 + y.qn - 1) / 64 ∧ y.qrow0 / 64 ≤ (x.qrow0 + x.qn - 1) / 64)

/-- Whether the fields of a slot keep R286 and the descriptor's capacities (R302). APPEND has no TCAP. -/
def StepSlot.ok (x : StepSlot) (h : StepHdr) (d : SorusD) (append : Bool) : Bool :=
  decide (x.tail = 0 ∧ x.qn % x.qh = 0 ∧ (x.na = 0 ∨ x.aidx + x.appendSpans * h.nhg ≤ h.nent)) &&
  decide (x.state ≤ 1 ∧ x.flags < 4 ∧ 1 ≤ x.qh ∧ x.qh ≤ 16 ∧ x.zero = 0 ∧ x.qrow0 % 64 = 0 ∧ 1 ≤ x.qn ∧ x.qn ≤ 1024
    ∧ (x.flags < 2 ∨ (1 ≤ x.win ∧ x.win ≤ 524288)) ∧ 1 ≤ x.nspan ∧ x.nspan ≤ 256 ∧ x.na * x.qh ≤ x.qn ∧ x.na ≤ x.lend
    ∧ x.qrow0 + x.qn ≤ d.qcap ∧ (append = true ∨ x.nspan * 64 ≤ d.tcap) ∧ x.plist + x.nspan * h.nhg ≤ h.nent)

/-- Whether key position `j` is live for query row `r` of a slot (R286). -/
def StepSlot.live (x : StepSlot) (r j : Nat) : Bool :=
  let i := x.qpos0 + (r - x.qrow0) / max 1 x.qh
  decide (x.qrow0 ≤ r ∧ r < x.qrow0 + x.qn ∧ x.klo ≤ j ∧ j < x.lend ∧ j < x.klo + 64 * x.nspan)
    && (!bit1 x.flags 0 || decide (j ≤ i)) && (!bit1 x.flags 1 || decide (i < j + x.win))

/-- Whether row block `b` (of the slot) holds a live position among spans `ks`. -/
def StepSlot.blockLive (x : StepSlot) (b : Nat) (ks : List Nat) : Bool :=
  (List.range 64).any fun i => ks.any fun k => (List.range 64).any fun c =>
    x.live (x.qrow0 + 64 * b + i) (x.klo + 64 * k + c)

/-- Row blocks of a slot. -/
def StepSlot.blocks (x : StepSlot) : Nat := cdiv x.qn 64

/-- Consecutive pieces of at most `n` elements. -/
def pieces (n : Nat) : Nat → List Nat → List (List Nat)
  | 0, _ => []
  | k + 1, l => if l.isEmpty then [] else l.take n :: pieces n k (l.drop n)

/-- Groups of QK: up to 8 consecutive spans, spans with no live block left out (R293). -/
def StepSlot.groups (x : StepSlot) : List (List Nat) :=
  let ks := (List.range x.nspan).filter fun k => (List.range x.blocks).any fun b => x.blockLive b [k]
  let start := fun (k : Nat) => ks.contains k && (k = 0 || !ks.contains (k - 1))
  let runs := (ks.filter start).map fun a => ((List.range (x.nspan - a)).map (a + ·)).takeWhile fun k => ks.contains k
  runs.flatMap fun r => pieces 8 33 r

/-- Pairs of PV (R297). -/
def StepSlot.pairs (x : StepSlot) : List (List Nat) := pieces 2 128 (List.range x.nspan)

/-! Pages (R269 to R271). -/

/-- Element code of channel `c`, token `t` of a page (R269, R270). -/
def pageCode (b : List Byte) (v : Bool) (kvfmt dh c t : Nat) : Int :=
  if kvfmt = 0 then
    max (-127) (sext 8 (fld b (if v then 768 + t * dh + c else 768 + 64 * c + t) 1))
  else
    let x := fld b (if v then 768 + t * dh / 2 + c / 2 else 768 + 32 * c + t / 2) 1
    max (-7) (sext 4 (x / (if (if v then c else t) % 2 = 0 then 1 else 16)))

/-- Scale code of token `t`, channel block `g`. -/
def pageScale (b : List Byte) (t g : Nat) : Nat := fld b (256 + 8 * t + 2 * g) 2

/-- Exact value of an element; `none` where the scale is not finite (R271). -/
def pageVal (b : List Byte) (v : Bool) (kvfmt dh c t : Nat) : Option Exact :=
  (decodeFloat .fp16 (pageScale b t (c / 32))).map fun e => e.mul (exactInt (pageCode b v kvfmt dh c t))

/-- ⌊log₂⌋ of a scale; zero and non-finite scales do not enter a maximum. -/
def scaleLog (code : Nat) : Option Int :=
  match decodeFloat .fp16 code with
  | some e => if e.num = 0 then none else some e.ilog2
  | none => none

/-- Offset that a format subtracts (R292, R296). -/
def kvOff (kvfmt : Nat) : Int := if kvfmt = 0 then 1 else 5

/-- Y of key token `t` (R292). -/
def keyExp (b : List Byte) (kvfmt dh t : Nat) : Int :=
  match maxExp ((List.range (dh / 32)).map fun g => scaleLog (pageScale b t g)) with
  | none => 0
  | some y => y - kvOff kvfmt

/-- Y of channel `c` over the V pages of a slot (R296). -/
def valExp (pages : List (List Byte)) (kvfmt c : Nat) : Int :=
  (((pages.map fun b => sext 8 (fld b (24 + c / 32) 1)).max?).getD 0) - kvOff kvfmt

/-- Whether a staged page's header agrees with the record and the descriptor (R291). -/
def pageHdrOk (b : List Byte) (id kind kvfmt dh : Nat) : Bool :=
  decide (fld b 0 4 = id ∧ fld b 4 1 = kind ∧ fld b 5 1 = kvfmt ∧ fld b 6 1 = dh)

/-- Row exponent over `n` groups of row `r` in a map whose rows cover `c` channels (R92, R292, R296). -/
def sorusRowExp (rd : Reader) (map c r n : Nat) : Int :=
  match maxExp ((List.range n).map fun g => mapEntry rd map c r g) with
  | none => 0
  | some e => e - 8

/-- Elements of row `r` from byte `o` on, aligned at `x` (R94). -/
def sorusOperand (rd : Reader) (qfmt row pitch r o n : Nat) (x : Int) : List Aligned :=
  let f := (Fmt.ofCode qfmt).getD .e4m3
  (List.range n).map fun i => alignVal 511 (decodeFloat f (rd (64 * row + r * pitch + o + i)).toNat) x

/-! Accumulation (R60, R63, R290). -/

/-- One accumulator entry row of 512 columns: value and shadow. -/
abbrev SorRow := List (Int × Nat)

/-- Adding an operand row times a weight block `w` (cell rows by logical columns) to an entry; `mirror` says which way the
logical columns run (R36, R611), `inj` what injected Pinnae add to shadows. -/
def sorusAdd (clear mirror : Bool) (inj : Nat → Nat) (old : SorRow) (ops : List Int) (w : List (List Int)) : SorRow :=
  (List.range 512).map fun c =>
    let n := accCol mirror c
    let v := ((ops.zip w).map fun e => e.1 * e.2.getD n 0).foldl (· + ·) 0
    let o := old.getD c (0, 0)
    accAdd (-2147483648) 2147483647 clear o.1 o.2 v ((res7 v + inj c) % 7)

/-- A result rounded once to a format, at the scale of its row and column (R294, R298). -/
def sorusOut (fm : Fmt) (scale : Exact) (v : Int) (x y : Int) : Nat := (roundFloat fm (((exactInt v).scale (x + y)).mul scale)).1

/-! Appending (R299, R300). -/

/-- Largest magnitude of a block, non-finite elements as 0. -/
def amaxOf (l : List (Option Exact)) : Exact :=
  l.foldl (fun a e => match e with
    | none => a
    | some x => let m : Exact := { x with neg := false }; if m.le a then a else m) ⟨false, 0, 1, 0⟩

/-- Scale code of a block (R299). -/
def scaleCode (kvfmt : Nat) (l : List (Option Exact)) : Nat :=
  (roundFloat .fp16 ((amaxOf l).div (exactInt (if kvfmt = 0 then 127 else 7)))).1

/-- Quantized element (R299). -/
def quantElem (kvfmt scale : Nat) (x : Option Exact) : Int :=
  match x, decodeFloat .fp16 scale with
  | some v, some e =>
    if e.num = 0 then 0
    else
      let b : Int := if kvfmt = 0 then 127 else 7
      clampInt (-b) b (v.div e).rne
  | _, _ => 0

/-- Elements of a block, unclamped and finite, whose quantization is off by more than half a scale (R299): those of a scale
that rounds to 0. DESIGN CHOICE (notes/assumptions/97): an infinite scale has no half, and fails no element. -/
def quantFails (kvfmt : Nat) (l : List (Option Exact)) : Nat :=
  match decodeFloat .fp16 (scaleCode kvfmt l) with
  | none => 0
  | some e => (l.filter fun x => match x with
    | none => false
    | some v =>
      let q := if e.num = 0 then 0 else (v.div e).rne
      decide (q.natAbs ≤ (if kvfmt = 0 then 127 else 7)) &&
        !({ v.add (e.mul (exactInt q)).neg' with neg := false : Exact }.le ({ e with neg := false : Exact }.scale (-1)))).length

/-- A page with the element of channel `c`, token `t` set. -/
def setElem (b : List Byte) (v : Bool) (kvfmt dh c t : Nat) (q : Int) : List Byte :=
  if kvfmt = 0 then splice b (if v then 768 + t * dh + c else 768 + 64 * c + t) (leBytes 1 (code 8 q))
  else
    let o := if v then 768 + t * dh / 2 + c / 2 else 768 + 32 * c + t / 2
    let hi := (if v then c else t) % 2 = 1
    splice b o (leBytes 1 (setBits (fld b o 1) (if hi then 4 else 0) 4 (code 4 q)))

/-- A page with token `t` written: scales and elements of every channel block (R299). -/
def setToken (b : List Byte) (v : Bool) (kvfmt dh t : Nat) (l : List (Option Exact)) : List Byte :=
  (List.range (dh / 32)).foldl (fun b g =>
    let blk := (l.drop (32 * g)).take 32
    let sc := scaleCode kvfmt blk
    let b1 := splice b (256 + 8 * t + 2 * g) (leBytes 2 sc)
    blk.zipIdx.foldl (fun b (x, i) => setElem b v kvfmt dh (32 * g + i) t (quantElem kvfmt sc x)) b1) b

/-- A page with the tokens from `t` on cleared: zero data and scales (R269). -/
def clearFrom (b : List Byte) (v : Bool) (kvfmt dh t : Nat) : List Byte :=
  (List.range (64 - t)).foldl (fun b i =>
    (List.range dh).foldl (fun b c => setElem b v kvfmt dh c (t + i) 0) (splice b (256 + 8 * (t + i)) (leBytes 8 0))) b

/-- EMAX bytes of a page whose first `fill` tokens are written (R269). -/
def emaxBytes (b : List Byte) (dh fill : Nat) : List Byte :=
  (List.range 4).map fun g =>
    BitVec.ofInt 8 (if g < dh / 32 then (maxExp ((List.range fill).map fun t => scaleLog (pageScale b t g))).getD (-128) else -128)

/-- A page's header (R269, R300). -/
def pageHdr (b : List Byte) (id : Nat) (v : Bool) (kvfmt dh fill pos0 seq gen job : Nat) : List Byte :=
  splice b 0 (leBytes 4 id ++ leBytes 1 v.toNat ++ leBytes 1 kvfmt ++ leBytes 1 dh ++ leBytes 1 fill ++ leBytes 8 pos0
    ++ leBytes 4 seq ++ leBytes 4 gen ++ emaxBytes b dh fill ++ leBytes 4 job)

end Sys2Proof.Machine
end

