-- ==== Sys2Proof/Machine/Sorus.lean ====
section
/-! DEFINITION. The SORUS instructions (R287 to R302). Each runs whole in one command: staging, products, drains, fills. -/

namespace Sys2Proof.Machine

/-- Address of the step record (R286, R305). -/
def State.stepAddr (s : State) (f : Fin 4) : Nat := (s.reg (oFrd f 0x8008)).toNat + s.regF (oFrd f 0x800C) 0 16 * 2 ^ 32

/-- Header of the step record. -/
def State.stepHdr (s : State) (f : Fin 4) : StepHdr := stepHdrOf (s.rdN (s.stepAddr f) 256)

/-- Slots of the step record. -/
def State.stepSlots (s : State) (f : Fin 4) : List StepSlot :=
  (List.range (min 64 (s.stepHdr f).nslot)).map fun i => stepSlotOf (s.rdN (s.stepAddr f + 256 + 64 * i) 64)

/-- Page-list entry `e`. -/
def State.pageEnt (s : State) (f : Fin 4) (e : Nat) : PageEnt := pageEntOf (s.rdN (s.stepAddr f + 4352 + 16 * e) 16)

/-- Whether slot `i` of a step record keeps R286 and R288, and shares no 64-row block with a LIVE slot before it that keeps them.
DEDUCED (notes/assumptions/97): of slots that share a block the first keeps it. -/
def slotKept (l : List StepSlot) (h : StepHdr) (d : SorusD) (append : Bool) (i : Nat) : Bool :=
  match l[i]? with
  | none => false
  | some x => x.ok h d append && !(l.take i).any fun y => decide (y.state = 1) && y.ok h d append && x.shares y

/-- The reads of the step record are checked, and a slot that breaks R286 or R288 is entered in the ledger (R302). -/
def State.checkStep (s : State) (w : Who) (f : Fin 4) (d : SorusD) (append : Bool) : State :=
  let h := s.stepHdr f
  let n := 256 * cdiv (4352 + 16 * min 32768 h.nent) 256
  let l := s.stepSlots f
  let bad := l.zipIdx.filter fun e => e.1.state ≠ 0 && !slotKept l h d append e.2
  bad.foldl (fun s _ => s.checkFail w (16 * f.val + 7) 1 0 0 0) (s.reportRead w (s.stepAddr f) n)

/-- Slots that take part: LIVE and in order (R302). -/
def State.liveSlots (s : State) (f : Fin 4) (d : SorusD) (append : Bool) : List (StepSlot × Nat) :=
  let l := s.stepSlots f
  l.zipIdx.filter fun e => decide (e.1.state = 1) && slotKept l (s.stepHdr f) d append e.2

/-- The bytes of a page. -/
def State.pageBytes (s : State) (h : StepHdr) (p : Nat) : List Byte := s.rdN (h.pageAddr p) (256 * h.slotb)

/-- Page of span `k` of a slot. -/
def State.spanPage (s : State) (f : Fin 4) (x : StepSlot) (nhg hg k : Nat) (v : Bool) : Nat :=
  let e := s.pageEnt f (x.plist + k * nhg + hg)
  if v then e.v else e.k

/-- One block staged with its BCW, then checked by the feeder (R45, R291); a staging area inside the resident area takes
nothing (R176). `n` numbers the blocks of the instruction. -/
def State.stageBlock (s : State) (w : Who) (f : Fin 4) (d : SorusD) (src n : Nat) : State :=
  let s1 := s.reportMarks w src 256
  let a := 64 * d.stage + 256 * (Config.stageBlock n % 640)
  if s1.resByte f < a + 256 then s1.count (oFrd f 0x4001C) 1
  else (s1.putBlock (spBase f + a) (s1.block src) (s1.bcwAt src)).checkBlock w (spBase f + a)

/-- One page staged and its header checked (R291). -/
def State.stagePage (s : State) (w : Who) (f : Fin 4) (d : SorusD) (h : StepHdr) (kind p n : Nat) : State :=
  let s1 := (List.range h.slotb).foldl (fun s i => s.stageBlock w f d (h.pageAddr p + 256 * i) (n * h.slotb + i)) s
  if pageHdrOk (s.pageBytes h p) p kind d.kvfmt d.dh && decide (h.dh = d.dh ∧ h.kvfmt = d.kvfmt) then s1
  else (s1.count (oFrd f 0x8018) 1).checkFail w (16 * f.val + 7) 1 23 0 0

/-- Pages staged in order. -/
def State.stagePages (s : State) (w : Who) (f : Fin 4) (d : SorusD) (h : StepHdr) (kind : Nat) (ps : List Nat) : State :=
  ps.zipIdx.foldl (fun s e => s.stagePage w f d h kind e.1 e.2) s

/-- One streamed entry row after its accumulation: entry row and slot row, values with shadows, X, Y by column. -/
structure SorRun where
  row : Nat
  acc : SorRow
  x : Int
  y : List Int
  deriving DecidableEq, Repr

/-- What a product leaves: rows to drain, blocks streamed and skipped, indications. -/
structure SorWork where
  runs : List SorRun
  live : Nat
  nonfinite : Bool
  past : Bool
  deriving DecidableEq, Repr

/-- The drain's Check on a streamed row (R67, R70, R99). -/
def State.sorusCheck (s : State) (f : Fin 4) (e : Nat) (r : SorRow) : State :=
  let vals := r.map (·.1)
  s.drainCheck f e { vals := vals, shadows := r.map (·.2), csum := BitVec.ofInt 64 (vals.foldl (· + ·) 0), xtag := [], ytag := [], tagBad := false }

/-- Shadow additions of a Frond's injected Pinnae (R87). -/
def State.sorusInj (s : State) (f : Fin 4) : Nat → Nat := injAdd (mapValid s f) (mapPcol s f) (s.frond f).inj

/-- Whether the copy that runs inverts MIRROR (R290, R611). -/
def State.sorusMirror (s : State) (f : Fin 4) : Bool := match (s.frond f).kernel with | some k => k.twin | none => false

/-- A weight set that Sorus has loaded (R43, R290): FP8 mode, `n` columns, aligned weights, column exponents. -/
def sorusSet (n : Nat) (mirror : Bool) (cells : List (List Int)) (y : List Int) : WeightSet := ⟨.ready, 2, n, mirror, cells, y⟩

/-- The weight sets after the blocks of an instruction have been loaded one after the other (R290, R293). DESIGN CHOICE
(notes/assumptions/97): each instruction starts with set 0. -/
def State.sorusSets (s : State) (f : Fin 4) (l : List WeightSet) : State :=
  s.modFrond f fun x => l.zipIdx.foldl (fun x e => if e.2 % 2 = 0 then { x with set0 := e.1 } else { x with set1 := e.1 }) x

/-! QK (R292 to R295). -/

/-- The weight block of a group of K pages (R292, R293): column exponents, aligned weights by cell row. -/
def qkWeights (d : SorusD) (pages : List (List Byte)) : List Int × List (List Aligned) :=
  let col := fun (n : Nat) => (pages.getD (n / 64) [], n % 64)
  let y := (List.range (64 * pages.length)).map fun n => keyExp (col n).1 d.kvfmt d.dh (col n).2
  (y, (List.range d.dh).map fun k => y.zipIdx.map fun (e : Int × Nat) =>
    alignVal 511 (pageVal (col e.2).1 false d.kvfmt d.dh k (col e.2).2) e.1)

/-- The 64 rows of row block `b` against one group of spans (R293). -/
def State.qkBlock (s : State) (f : Fin 4) (t : SorusF) (d : SorusD) (first : Bool) (x : StepSlot) (g : List (Nat × List Byte))
    (b : Nat) : SorWork :=
  let rd := s.spReader f
  let pages := g.map (·.2)
  let (y, ws) := qkWeights d pages
  let wi := ws.map fun r => r.map (·.v)
  let rows := (List.range 64).map fun i =>
    let r := x.qrow0 + 64 * b + i
    let xe := sorusRowExp rd d.qmap d.dh r (d.dh / 32)
    (r, xe, sorusOperand rd d.qfmt t.qrow d.qpitch r 0 d.dh xe)
  let inj := fun (i c : Nat) => if first && i = 0 then s.sorusInj f c else 0
  { runs := rows.zipIdx.map fun (e, i) =>
      ⟨e.1, sorusAdd true (s.sorusMirror f) (inj i) [] (e.2.2.map (·.v)) wi, e.2.1, y⟩,
    live := pages.length,
    nonfinite := (rows.any fun e => e.2.2.any (·.nonfinite)) || ws.any fun r => r.any (·.nonfinite),
    past := (rows.any fun e => e.2.2.any (·.past)) || ws.any fun r => r.any (·.past) }

/-- Score of column `n` of a streamed row. -/
def scoreOf (mirror : Bool) (scale : Exact) (r : SorRun) (n : Nat) : Nat :=
  sorusOut .fp32 scale (r.acc.getD (accCol mirror n) (0, 0)).1 r.x (r.y.getD n 0)

/-- Groups of a slot with the row blocks that each streams: (spans with pages, row block). -/
def State.qkPlan (s : State) (f : Fin 4) (d : SorusD) (x : StepSlot) : List (List (Nat × List Byte) × Nat) :=
  let h := s.stepHdr f
  x.groups.flatMap fun g =>
    let ps := g.map fun k => (k, s.pageBytes h (s.spanPage f x h.nhg d.hg k false))
    ((List.range x.blocks).filter fun b => x.blockLive b g).map fun b => (ps, b)

/-- The 64 × TCAP scores of one row as bytes: drained scores at live positions, MASK_VAL elsewhere (R294, R295). -/
def scoreRow (mirror : Bool) (scale : Exact) (tcap : Nat) (x : StepSlot) (runs : List (List Nat × SorRun)) (r : Nat) : List Byte :=
  (List.range tcap).flatMap fun c =>
    leBytes 4 (
      if x.live r (x.klo + c) then
        match runs.find? fun e => e.2.row = r && e.1.contains (c / 64) with
        | some e => scoreOf mirror scale e.2 (64 * e.1.idxOf (c / 64) + c % 64)
        | none => 0xFF7FFFFF
      else 0xFF7FFFFF)

/-- A slot that owns no row: every position is MASK_VAL. -/
def StepSlot.none : StepSlot := ⟨0, 0, 0, 1, 0, 0, 0, 0, 0, 0, 0, 0, 0, 0, 0, 0⟩

/-- Slot whose rows hold row `r`, or no slot. -/
def slotFor (l : List (StepSlot × Nat)) (r : Nat) : StepSlot :=
  ((l.find? fun e => decide (e.1.qrow0 ≤ r ∧ r < e.1.qrow0 + e.1.qn)).map (·.1)).getD StepSlot.none

/-- Scratchpad rows of `n` bytes in each of rows `rs` of a tensor. -/
def tensorRows (base pitch n : Nat) (rs : List Nat) : List Nat := (rs.flatMap fun r => rowsOf (64 * base + r * pitch) n).dedup

/-- Rows of the 64-row blocks `bs` of a slot. -/
def StepSlot.rowsIn (x : StepSlot) (bs : List Nat) : List Nat :=
  bs.flatMap fun b => (List.range 64).map fun i => x.qrow0 + 64 * b + i

/-- SOR_STATUS after an instruction (R304). -/
def State.sorStatus (s : State) (f : Fin 4) (sop slot hg : Nat) : State :=
  s.setReg (oFrd f 0x8000) (BitVec.ofNat 32 (sop % 4 * 2 ^ 22 + slot % 64 * 2 ^ 16 + hg % 16))

/-- Whether the staging area lies in the resident area (R176). -/
def State.stageBad (s : State) (f : Fin 4) (d : SorusD) : Bool := decide (s.resByte f < 64 * d.stage + 163840)

/-- Everything before the products of QK or PV: pages staged and checked, operand rows read. -/
def State.sorusFetch (s : State) (w : Who) (f : Fin 4) (t : SorusF) (d : SorusD) (kind cols : Nat) (pages : List Nat)
    (rows : List Nat) : State :=
  let h := s.stepHdr f
  let s1 := s.stagePages w f d h kind pages
  let maps := if rows.isEmpty then [] else
    (rows.flatMap fun r => rowsOf (64 * d.qmap + 2 * (r * cdiv cols 32)) (2 * cdiv cols 32)).dedup
  s1.reportFetch w f [] ((tensorRows t.qrow d.qpitch cols rows ++ maps).dedup)

/-- A SORUS instruction of an operation at the issue stage. -/
def State.sorusIns (s : State) (f : Fin 4) (q sop : Nat) : Option IWord :=
  match s.readyIns f q 0x14 with
  | none => none
  | some w => if (sorusF w).sop = sop then some w else none

/-- SORUS QK (R292 to R295): the instruction whole; the flag is a program fault (R96, R154, R176). -/
def State.sorusQk (s : State) (f : Fin 4) (q : Nat) (w : IWord) : State × Bool :=
  let t := sorusF w
  let d := sorusOf (s.desc f t.desc)
  let who := s.frondWho f 0x14
  let slots := s.liveSlots f d false
  let h := s.stepHdr f
  let scale := fp32Val d.scale
  let mirror := s.sorusMirror f
  let plan := slots.map fun e => (e.1, s.qkPlan f d e.1)
  let order : List (StepSlot × List (Nat × List Byte) × Nat) := plan.flatMap fun e => e.2.map fun p => (e.1, p)
  let work : List (StepSlot × List Nat × SorWork) := order.zipIdx.map fun (e, i) =>
    (e.1, e.2.1.map (·.1), s.qkBlock f t d (i = 0) e.1 e.2.1 e.2.2)
  let pages := slots.flatMap fun e => (e.1.groups.flatten).map fun k => s.spanPage f e.1 h.nhg d.hg k false
  let rows := (work.flatMap fun e => e.2.2.runs.map (·.row)).dedup
  let sets := slots.flatMap fun e => e.1.groups.map fun g =>
    let p := qkWeights d (g.map fun k => s.pageBytes h (s.spanPage f e.1 h.nhg d.hg k false))
    sorusSet (64 * g.length) mirror (p.2.map fun r => r.map (·.v)) p.1
  let s1 := ((s.issueIns f q).checkStep who f d false).sorusFetch who f t d 0 d.dh pages rows
  let s2 := work.foldl (fun s e => e.2.2.runs.foldl (fun s r => s.sorusCheck f (r.row - e.1.qrow0) r.acc) s) s1
  let s3 := ((s2.modFrond f fun x => { x with inj := if order.isEmpty then x.inj else [] }).sorusSets f sets).setNonfinite f
    (scale.2 || work.any fun e => e.2.2.nonfinite)
  let runs := fun (x : StepSlot) => (work.filter fun e => e.1 = x).flatMap fun e => e.2.2.runs.map fun r => (e.2.1, r)
  let p := s3.spStoreAll who f 2 ((List.range d.qcap).map fun r =>
    let x := slotFor slots r
    ⟨64 * t.out + r * d.opitch, scoreRow mirror scale.1 d.tcap x (runs x) r⟩)
  let live := work.foldl (fun n e => n + e.2.2.live) 0
  let s4 := (p.1.count (oFrd f 0x8010) live).count (oFrd f 0x8014) (d.qcap / 64 * (d.tcap / 64) - live)
  let s5 := s4.sorStatus f 0 ((slots.getLast?).elim 0 (·.2)) d.hg
  (s5.finishIns f q w, p.2 || (work.any fun e => e.2.2.past) || (!pages.isEmpty && s.stageBad f d))

/-- The same with what a program fault does. -/
def State.doSorusQk (s : State) (f : Fin 4) (q : Nat) (w : IWord) : State := State.orFault (s.sorusQk f q w) f 0x14

/-- SORUS QK (R292 to R295). -/
def execSorusQk (f : Fin 4) (q : Fin 64) (s : State) : Host.Outcome State Fault Refusal :=
  .next (match s.sorusIns f q.val 0 with
    | none => s
    | some w => s.doSorusQk f q.val w)

/-! PV (R296 to R298). -/

/-- The weight block of a pair of V pages (R296, R297): aligned weights by cell row, at the column exponents `y`. -/
def pvWeights (d : SorusD) (pages : List (List Byte)) (y : List Int) (pr : List Nat) : List (List Aligned) :=
  pr.flatMap fun k => (List.range 64).map fun tk =>
    (List.range d.dh).map fun c => alignVal 511 (pageVal (pages.getD k []) true d.kvfmt d.dh c tk) (y.getD c 0)

/-- V pages of a slot, in span order. -/
def State.pvPages (s : State) (f : Fin 4) (d : SorusD) (x : StepSlot) : List (List Byte) :=
  (List.range x.nspan).map fun k => s.pageBytes (s.stepHdr f) (s.spanPage f x (s.stepHdr f).nhg d.hg k true)

/-- Column exponents of a slot's V pages (R296). -/
def pvExps (d : SorusD) (pages : List (List Byte)) : List Int := (List.range d.dh).map fun c => valExp pages d.kvfmt c

/-- The tile of a slot: its rows accumulated over the pairs of spans each streams (R297). -/
def State.pvSlot (s : State) (f : Fin 4) (t : SorusF) (d : SorusD) (first : Bool) (x : StepSlot) : SorWork :=
  let rd := s.spReader f
  let pages := s.pvPages f d x
  let y := pvExps d pages
  let pairs := x.pairs.zipIdx.map fun (p, i) => (p, i, pvWeights d pages y p)
  let rows := (List.range x.blocks).flatMap fun b => (List.range 64).map fun i =>
    let r := x.qrow0 + 64 * b + i
    let xe := sorusRowExp rd d.qmap d.tcap r (2 * x.nspan)
    let used := pairs.filter fun (p : List Nat × Nat × List (List Aligned)) => decide (p.2.1 = 0) || x.blockLive b p.1
    let steps := used.map fun p => (p.2.1, sorusOperand rd d.qfmt t.qrow d.qpitch r (64 * p.1.headD 0) (64 * p.1.length) xe, p.2.2)
    let acc := steps.foldl (fun a st =>
      sorusAdd (st.1 = 0) (s.sorusMirror f) (fun c => if first && b = 0 && i = 0 && st.1 = 0 then s.sorusInj f c else 0) a
        (st.2.1.map (·.v)) (st.2.2.map fun r => r.map (·.v))) []
    (SorRun.mk r acc xe y, steps.any fun st => st.2.1.any (·.nonfinite), steps.any fun st => st.2.1.any (·.past))
  { runs := rows.map (·.1),
    live := ((List.range x.blocks).flatMap fun b => pairs.filterMap fun p =>
      if p.2.1 = 0 || x.blockLive b p.1 then some p.1.length else none).foldl (· + ·) 0,
    nonfinite := (rows.any (·.2.1)) || pairs.any fun p => p.2.2.any fun r => r.any (·.nonfinite),
    past := (rows.any (·.2.2)) || pairs.any fun p => p.2.2.any fun r => r.any (·.past) }

/-- The DH outputs of one row (R298). -/
def pvRow (mirror : Bool) (fm : Fmt) (scale : Exact) (dh : Nat) (x : StepSlot) (run : Option SorRun) (r : Nat) : List Byte :=
  let live := (List.range x.nspan).any fun k => (List.range 64).any fun c => x.live r (x.klo + 64 * k + c)
  (List.range dh).flatMap fun c =>
    leBytes (fm.width / 8) (match run with
      | some u => if live then sorusOut fm scale (u.acc.getD (accCol mirror c) (0, 0)).1 u.x (u.y.getD c 0) else 0
      | none => 0)

/-- SORUS PV (R296 to R298): the instruction whole; the flag is a program fault (R96, R154, R176). -/
def State.sorusPv (s : State) (f : Fin 4) (q : Nat) (w : IWord) : State × Bool :=
  let t := sorusF w
  let d := sorusOf (s.desc f t.desc)
  let who := s.frondWho f 0x14
  let slots := s.liveSlots f d false
  let h := s.stepHdr f
  let fm := (Fmt.ofCode d.ofmt).getD .fp32
  let scale := fp32Val d.scale
  let mirror := s.sorusMirror f
  let work : List (StepSlot × SorWork) := slots.zipIdx.map fun (e, i) => (e.1, s.pvSlot f t d (i = 0) e.1)
  let pages := slots.flatMap fun e => (List.range e.1.nspan).map fun k => s.spanPage f e.1 h.nhg d.hg k true
  let rows := slots.flatMap fun e => e.1.rowsIn (List.range e.1.blocks)
  let sets := slots.flatMap fun e =>
    let ps := s.pvPages f d e.1
    e.1.pairs.map fun p => sorusSet d.dh mirror ((pvWeights d ps (pvExps d ps) p).map fun r => r.map (·.v)) (pvExps d ps)
  let s1 := ((s.issueIns f q).checkStep who f d false).sorusFetch who f t d 1 d.tcap pages rows
  let s2 := work.foldl (fun s e => e.2.runs.foldl (fun s r => s.sorusCheck f (r.row - e.1.qrow0) r.acc) s) s1
  let s3 := ((s2.modFrond f fun x => { x with inj := if slots.isEmpty then x.inj else [] }).sorusSets f sets).setNonfinite f
    (scale.2 || work.any fun e => e.2.nonfinite)
  let p := s3.spStoreAll who f 2 ((List.range d.qcap).map fun r =>
    let x := slotFor slots r
    let run := (work.find? fun e => e.1 = x).bind fun e => e.2.runs.find? fun u => u.row = r
    ⟨64 * t.out + r * d.opitch, pvRow mirror fm scale.1 d.dh x run r⟩)
  let live := work.foldl (fun n e => n + e.2.live) 0
  let all := slots.foldl (fun n e => n + e.1.blocks * e.1.nspan) 0
  let s4 := (p.1.count (oFrd f 0x8010) live).count (oFrd f 0x8014) (all - live)
  let s5 := s4.sorStatus f 1 ((slots.getLast?).elim 0 (·.2)) d.hg
  (s5.finishIns f q w, p.2 || (work.any fun e => e.2.past) || (!pages.isEmpty && s.stageBad f d))

/-- The same with what a program fault does. -/
def State.doSorusPv (s : State) (f : Fin 4) (q : Nat) (w : IWord) : State := State.orFault (s.sorusPv f q w) f 0x14

/-- SORUS PV (R296 to R298). -/
def execSorusPv (f : Fin 4) (q : Fin 64) (s : State) : Host.Outcome State Fault Refusal :=
  .next (match s.sorusIns f q.val 1 with
    | none => s
    | some w => s.doSorusPv f q.val w)

/-! APPEND (R299, R300). -/

/-- Changed blocks of a page, each read, checked and written whole with its new BCW (R300). -/
def State.pageWrite (s : State) (w : Who) (a : Nat) (old new : List Byte) : State :=
  (List.range (new.length / 256)).foldl (fun s i =>
    let n := slice new (256 * i) 256
    if slice old (256 * i) 256 = n then s
    else ((s.reportMarks w (a + 256 * i) 256).checkBlock w (a + 256 * i)).mergeIn (a + 256 * i) n) s

/-- Elements of row `r` of a tensor of new tokens. -/
def newToken (rd : Reader) (qfmt row pitch r dh : Nat) : List (Option Exact) :=
  let f := (Fmt.ofCode qfmt).getD .fp32
  let n := f.width / 8
  (List.range dh).map fun c => decodeFloat f (rdLe rd (64 * row + r * pitch + n * c) n)

/-- The page of one span after the tokens `toks` (index in the page, elements) are written (R269, R300): the tokens past them
hold zero data and zero scales. -/
def appendPage (old src : List Byte) (copy : Bool) (id : Nat) (v : Bool) (d : SorusD) (pos0 seq gen job : Nat)
    (toks : List (Nat × List (Option Exact))) : List Byte :=
  let t0 := (toks.head?).elim 0 (·.1)
  let b0 := if copy then clearFrom src v d.kvfmt d.dh t0 else if t0 = 0 then List.replicate old.length 0
    else clearFrom old v d.kvfmt d.dh t0
  let b1 := toks.foldl (fun b e => setToken b v d.kvfmt d.dh e.1 e.2) b0
  pageHdr b1 id v d.kvfmt d.dh (t0 + toks.length) pos0 seq gen job

/-- One span's page of a slot: `k` counts append spans (R300). -/
def State.appendSpan (s : State) (w : Who) (f : Fin 4) (t : SorusF) (d : SorusD) (gen : Nat) (x : StepSlot) (k : Nat) (v : Bool) :
    State :=
  let h := s.stepHdr f
  let first := x.lend - x.na
  let e := s.pageEnt f (x.aidx + k * h.nhg + d.hg)
  let id := if v then e.v else e.k
  let src := if v then e.vsrc else e.ksrc
  let pos0 := first / 64 * 64 + 64 * k
  let toks := ((List.range x.na).filter fun a => decide ((first + a) / 64 = pos0 / 64)).map fun a =>
    ((first + a) % 64, newToken (s.spReader f) d.qfmt (if v then t.list else t.qrow) d.qpitch (x.qrow0 + a) d.dh)
  let copy := decide (src ≠ noPage)
  let s1 := if copy then s.reportRead w (h.pageAddr src) (256 * h.slotb) else s
  let old := s.pageBytes h id
  let fails := (toks.map fun e => ((List.range (d.dh / 32)).map fun g =>
    quantFails d.kvfmt ((e.2.drop (32 * g)).take 32)).foldl (· + ·) 0).foldl (· + ·) 0
  let s2 := (List.range fails).foldl (fun s _ => s.checkFail w (16 * f.val + 7) 1 0 0 0) s1
  (s2.pageWrite w (h.pageAddr id) old
    (appendPage old (s.pageBytes h src) copy id v d pos0 x.seq gen h.job toks)).overlapEnd f 0x14 (h.pageAddr id)

/-- Generation that the running job's step pinned for a sequence (R276). -/
def State.pinnedGen (s : State) (f : Fin 4) (seq : Nat) : Nat :=
  match (s.frond f).kernel with
  | none => 0
  | some k => (((s.job k.job).bind fun x => x.steps.find? fun a => decide (a.seq = seq)).map (·.gen.toNat)).getD 0

/-- One slot's tokens appended. -/
def State.appendSlot (s : State) (w : Who) (f : Fin 4) (t : SorusF) (d : SorusD) (x : StepSlot) : State :=
  let gen := (s.pinnedGen f x.seq + 1) % 2 ^ 32
  let s1 := (List.range x.appendSpans).foldl (fun s k =>
    (s.appendSpan w f t d gen x k false).appendSpan w f t d gen x k true) s
  s1.count (oFrd f 0x801C) x.na

/-- SORUS APPEND (R299, R300): the instruction whole. -/
def State.doSorusAppend (s : State) (f : Fin 4) (q : Nat) (w : IWord) : State :=
  let t := sorusF w
  let d := sorusOf (s.desc f t.desc)
  let who := s.frondWho f 0x14
  let slots := s.liveSlots f d true
  let size := ((Fmt.ofCode d.qfmt).getD .fp32).width / 8
  let rows := slots.flatMap fun e => (List.range e.1.na).map fun a => e.1.qrow0 + a
  let fetch := (tensorRows t.qrow d.qpitch (d.dh * size) rows ++ tensorRows t.list d.qpitch (d.dh * size) rows).dedup
  let rd := s.spReader f
  let nf := rows.any fun r => (newToken rd d.qfmt t.qrow d.qpitch r d.dh).any (·.isNone) ||
    (newToken rd d.qfmt t.list d.qpitch r d.dh).any (·.isNone)
  let s1 := ((((s.issueIns f q).checkStep who f d true).reportFetch who f [] fetch).setNonfinite f nf)
  let s2 := slots.foldl (fun s e => s.appendSlot who f t d e.1) s1
  (s2.sorStatus f 2 ((slots.getLast?).elim 0 (·.2)) d.hg).finishIns f q w

/-- SORUS APPEND (R299, R300). -/
def execSorusAppend (f : Fin 4) (q : Fin 64) (s : State) : Host.Outcome State Fault Refusal :=
  .next (match s.sorusIns f q.val 2 with
    | none => s
    | some w => s.doSorusAppend f q.val w)

end Sys2Proof.Machine
end

