-- ==== Sys2Proof/Machine/Time.lean ====
section
/-! DEFINITION. Device time: ticks, steps, launches and triggers (R375 to R399). -/

namespace Sys2Proof.Machine

/-- Setting device time to a count of nanoseconds; seconds wrap modulo 2^48 (R376). -/
def TimeUnit.setNow (t : TimeUnit) (n : Nat) : TimeUnit :=
  { t with sec := BitVec.ofNat 48 (n / 1000000000), ns := n % 1000000000 }

/-- The nanosecond count brought below 10^9 (R376). -/
def TimeUnit.rollover (t : TimeUnit) : TimeUnit :=
  if 1000000000 ≤ t.ns then { t with sec := t.sec + BitVec.ofNat 48 (t.ns / 1000000000), ns := t.ns % 1000000000 } else t

/-- A pending increment takes effect (R379). -/
def TimeUnit.applyInc (t : TimeUnit) : TimeUnit :=
  match t.incPend with
  | none => t
  | some v => { t with inc := v, incPend := none }

/-- The increment of one tick: nanoseconds and fraction together (R376). -/
def TimeUnit.addInc (t : TimeUnit) (inc : Nat) : TimeUnit :=
  let f := t.frac.toNat + inc
  { t with ns := t.ns + f / 2 ^ 32, frac := BitVec.ofNat 32 f }

/-- Registers of a trigger (R401). -/
def oTrig (n o : Nat) : Nat := oTime (0x100 + 0x20 * n + o)

/-- START of a trigger in ns. -/
def State.trigStart (s : State) (n : Nat) : Nat :=
  ((s.reg (oTrig n 8)).toNat + s.regF (oTrig n 0xC) 0 16 * 2 ^ 32) * 1000000000 + (s.reg (oTrig n 4)).toNat
/-- PERIOD of a trigger. -/
def State.trigPeriod (s : State) (n : Nat) : Nat := (s.reg (oTrig n 0x10)).toNat
/-- COUNT of a trigger; 0 is unlimited, PERIOD 0 a single pulse (R397). -/
def State.trigCount (s : State) (n : Nat) : Nat := if s.trigPeriod n = 0 then 1 else (s.reg (oTrig n 0x18)).toNat
/-- Start of edge `k`. -/
def State.edge (s : State) (n k : Nat) : Nat := s.trigStart n + k * s.trigPeriod n
/-- A trigger's state. -/
def State.trig (s : State) (n : Nat) : Trig := s.time.trig.getD n ⟨false, 0, none⟩
/-- Replacing a trigger's state. -/
def State.setTrig (s : State) (n : Nat) (t : Trig) : State := { s with time := { s.time with trig := s.time.trig.set n t } }

/-- Edges from `k` on that start before `t1`, within COUNT (R399). -/
def State.edgesBefore (s : State) (n k t1 : Nat) : Nat :=
  let p := s.trigPeriod n
  let upTo := if t1 ≤ s.trigStart n then 0 else if p = 0 then 1 else (t1 - s.trigStart n - 1) / p + 1
  let top := if s.trigCount n = 0 then upTo else min upTo (s.trigCount n)
  top - k

/-- The series after `m` more edges: it ends when COUNT is used up. -/
def State.trigAfter (s : State) (n m : Nat) (e : Option Nat) : State :=
  let t := s.trig n
  s.setTrig n ⟨t.active && !(s.trigCount n ≠ 0 && decide (s.trigCount n ≤ t.next + m)), t.next + m, e⟩

/-- Every pulse that a forward step passes is skipped; a pulse in progress keeps its length (R399). -/
def State.skipPulses (s : State) (n : Nat) (step : Int) (t1 : Nat) : State :=
  let t := s.trig n
  let e := t.pulseEnd.map fun v => ((v : Int) + step).toNat
  if t.active && decide (0 < step) then
    let m := s.edgesBefore n t.next t1
    (if m = 0 then s else s.count (oTrig n 0x1C) m).trigAfter n m e
  else s.setTrig n { t with pulseEnd := e }

/-- Launches that a forward step passes are late (R396). -/
def State.lateLaunches (s : State) (t0 t1 : Nat) : State :=
  let mark := fun (l : Launch) => { l with late := l.late || decide (t0 < l.time ∧ l.time < t1) }
  { s with time := { s.time with launch := s.time.launch.map fun (e : Nat × List Launch) => (e.1, e.2.map mark) } }

/-- A pending step (R380, R382, R387, R396, R399). -/
def State.applyStep (s : State) : State :=
  match s.time.stepPend with
  | none => s
  | some d =>
    let t0 := s.now
    let t1 := ((t0 : Int) + d).toNat
    let s1 := { s with time := { (s.time.setNow t1) with stepPend := none, stepSum := s.time.stepSum + d, coarse := false } }
    (List.range 8).foldl (fun s n => s.skipPulses n d t1) (s1.lateLaunches t0 t1)

/-- Pulses that have lasted WIDTH end (R397). -/
def State.endPulses (s : State) : State :=
  let now := s.now
  { s with time := { s.time with trig := s.time.trig.map fun (t : Trig) =>
      { t with pulseEnd := t.pulseEnd.filter fun e => decide (now < e) } } }

/-- One tick: REFCLK, or AOCLK in S1 (R376, R379 to R381, R387): the new increment, the seconds, then the step. -/
def State.timeTick (s : State) : State :=
  let inc := fun (t : TimeUnit) => if s.power.s1 then t.aoInc else t.inc.toNat
  let t := s.time.applyInc
  let s1 := { s with time := (t.addInc (inc t)).rollover }
  s1.applyStep.endPulses

/-- TIME_INC_APPLY (R379). -/
def execTimeIncApply (s : State) : Host.Outcome State Fault Refusal := .next { s with time := s.time.applyInc }

/-- TIME_STEP_APPLY (R380 to R382, R399). -/
def execTimeStepApply (s : State) : Host.Outcome State Fault Refusal := .next s.applyStep

/-- SECONDS_ROLLOVER (R376). -/
def execSecondsRollover (s : State) : Host.Outcome State Fault Refusal := .next { s with time := s.time.rollover }

/-! Launches. -/

/-- Egress stamp of a MAC for a start-frame delimiter at capture `t` (R383, R384). -/
def State.egress (s : State) (m t : Nat) : Nat := ((t : Int) + sext 16 (s.regF (oTime (0x40 + 4 * m)) 16 16)).toNat

/-- A forwarded frame with the residence time added to correctionField (R391, R392). -/
def PtpFwd.corrected (p : PtpFwd) (egress : Nat) : List Byte :=
  if p.correct then splice p.frame 22 (beBytes 8 (code 64 ((fldBE p.frame 22 8 : Int) + ((egress : Int) - p.ingress) * 65536)))
  else p.frame

/-- Whether a launch is due (R394 to R396). -/
def Launch.due (l : Launch) (now : Nat) : Bool := l.late || decide (l.time ≤ now)

/-- Device time of a launched frame's start-frame delimiter (R395): within 6.4 ns from its launch time, at the capture `t` where that
lies so and otherwise at a free place of that window; a late one, or one with launch time 0, leaves at `t`. -/
def Launch.sfd (l : Launch) (t : Nat) (w : Word) : Nat :=
  if l.late || decide (l.time = 0) then t else if t ≤ l.time + 6 then t else l.time + w.toNat % 7

/-- A frame leaves a MAC, under transmit MACsec where the MAC protects what it sends (R313, R393; notes/assumptions/77). -/
def State.sendFrame (s : State) (m : Fin 8) (fr : List Byte) : State :=
  if Config.macTxSecured m.val then
    let pn := s.time.txPn.getD m.val 1
    { s with time := { s.time with sent := s.time.sent ++ [(m, Config.gcmSeal m.val (BitVec.ofNat 32 pn) fr)],
                                   txPn := s.time.txPn.set m.val (pn + 1) } }
  else { s with time := { s.time with sent := s.time.sent ++ [(m, fr)] } }

/-- LAUNCH_TRANSMIT (R390 to R396) of a MAC in the block period that begins `e.phase` 1/32 after the last tick: the first launched frame that
is due, else the first forwarded one. -/
def execLaunchTransmit (e : UnitAt) (s : State) : Host.Outcome State Fault Refusal :=
  let q := (tfind s.time.launch e.unit.val).getD []
  let t := s.capture e.phase.val
  let fwd := fun (s : State) =>
    match s.time.fwd.find? fun p => decide (p.mac = e.unit) with
    | none => s
    | some p =>
      ({ s with time := { s.time with fwd := s.time.fwd.erase p } }).sendFrame e.unit (p.corrected (s.egress e.unit.val t))
  .next (match q with
    | [] => fwd s
    | l :: rest =>
      if l.due t then
        let w := s.fresh
        let s1 := ({ w.2 with time := { s.time with launch := tput s.time.launch e.unit.val rest } }).sendFrame e.unit l.frame
        if l.event then
          s1.notice l.part 0x4003 (if l.late then .late else .ok)
            (leBytes 1 e.unit.val ++ leBytes 3 0 ++ leBytes 4 l.tag.toNat ++ timeBytes (s.egress e.unit.val (l.sfd t w.1)))
        else s1
      else fwd s)

/-- TRIG_PULSE (R397), `e.phase` 1/32 of a period after the last tick: the next edge has fallen due, its pulse starts and lasts WIDTH. -/
def execTrigPulse (e : UnitAt) (s : State) : Host.Outcome State Fault Refusal :=
  let t := s.trig e.unit.val
  let at' := s.capture e.phase.val
  .next (if t.active && decide (s.edge e.unit.val t.next ≤ at') && !s.power.s1 then
      s.trigAfter e.unit.val 1 (some (at' + (s.reg (oTrig e.unit.val 0x14)).toNat))
    else s)

/-- Level of a TRIG pin (R387, R397): POL 0 pulses high, POL 1 pulses low; in S1 it is at its inactive level. -/
def State.trigLevel (s : State) (n : Nat) : Bool := ((s.trig n).pulseEnd.isSome && !s.power.s1) != (s.reg (oTrig n 0)).getLsbD 1

end Sys2Proof.Machine
end

