-- ==== Sys2Proof/Machine/TimeCmds.lean ====
section
/-! DEFINITION. Device time over Ebwick (R377 to R381, R394 to R398, R488). -/

namespace Sys2Proof.Machine

/-- TIME_READ (R378, R382, R480). -/
def execTimeRead (p : Fin 4) (d : Fin 256) (s : State) : Host.Outcome State Fault Refusal :=
  .next (s.runCmd p d.val 0x0058 anyPl anyObj .claimed fun s _ =>
    ⟨.ok, timeBytes s.now ++ leBytes 2 0 ++ leBytes 8 s.time.inc.toNat ++ leBytes 8 (code 64 s.time.stepSum), s⟩)

/-- Whether a command's PART is a partition of the port that holds the management role, or none (R378). -/
def State.mgmtCmd (s : State) (p : Fin 4) (t : Taken) : Bool :=
  match asPart t.part with
  | none => decide (t.part = 0xFF)
  | some r => s.mgmtParts.contains r && decide ((s.part r).port = p)

/-- TIME_INC_SET (R377 to R379): firmware writes TIME_INC_FRAC, then TIME_INC_INT. -/
def execTimeIncSet (p : Fin 4) (d : Fin 256) (s : State) : Host.Outcome State Fault Refusal :=
  .next (s.runCmd p d.val 0x0059 anyPl anyObj .mgmt fun s t =>
    let v := fld t.payload 0 8
    checks [(s.mgmtCmd p t, .auth), (decide (25 * 2 ^ 32 ≤ v ∧ v ≤ 27 * 2 ^ 32), .arg)] s
      (accept ((s.writeReg (oTime 0x10) (BitVec.ofNat 32 v)).writeReg (oTime 0x14) (BitVec.ofNat 32 (v / 2 ^ 32)))))

/-- TIME_STEP (R378, R380, R381). -/
def execTimeStep (p : Fin 4) (d : Fin 256) (s : State) : Host.Outcome State Fault Refusal :=
  .next (s.runCmd p d.val 0x005A anyPl anyObj .mgmt fun s t =>
    let v := sext 64 (fld t.payload 0 8)
    checks [(s.mgmtCmd p t, .auth), (decide (0 ≤ (s.now : Int) + v), .arg), (s.time.stepPend.isNone, .busy)] s
      (accept { s with time := { s.time with stepPend := some v } }))

/-- An 80-bit time of a payload, in nanoseconds. -/
def fldTime (b : List Byte) (o : Nat) : Nat := fld b (o + 4) 6 * 1000000000 + fld b o 4

/-- Whether the ownership table gives the command's partition an index of a mask (R398). -/
def State.assigned (s : State) (t : Taken) (m : Owned → BitVec 8) (i : Nat) : Bool :=
  match (asPart t.part).bind s.owned with
  | none => false
  | some o => (m o).getLsbD i

/-- A frame into a launch queue, by launch time, ties in the order submitted (R394). -/
def launchPut (l : Launch) : List Launch → List Launch
  | [] => [l]
  | x :: t => if l.time < x.time then l :: x :: t else x :: launchPut l t

/-- LAUNCH_SET FRAME (R390, R394, R396, R398, R488). -/
def State.doLaunchFrame (s : State) (t : Taken) : Done :=
  let b := t.payload
  let m := fld b 1 1
  let n := fld b 14 2
  let q := (tfind s.time.launch m).getD []
  let at' := fldTime b 4
  let late := decide (at' ≠ 0 ∧ at' < s.now)
  checks [(decide (8 ≤ m) || s.assigned t (·.macs) m, .auth),
    (decide (fld b 0 1 = 0 ∧ m < 8 ∧ fld b 2 1 ≤ 1 ∧ 60 ≤ n ∧ n ≤ 1522 ∧ fld b 4 4 < 1000000000) && zerosAt b 16 12, .arg),
    (decide (q.length < 16), .busy)] s (
    let l : Launch := ⟨at', late, bit1 (fld b 2 1) 0, BitVec.ofNat 32 t.tag, s.cmdPart t, slice b 32 n⟩
    ⟨if late then .late else .ok, [], { s with time := { s.time with launch := tput s.time.launch m (launchPut l q) } }⟩)

/-- LAUNCH_SET for a frame, or with a KIND that no launch has. -/
def execLaunchSetFrame (p : Fin 4) (d : Fin 256) (s : State) : Host.Outcome State Fault Refusal :=
  .next (s.runCmd p d.val 0x005B (fun b => fld b 0 1 ≠ 1) anyObj .claimed fun s t => s.doLaunchFrame t)

/-- LAUNCH_SET TRIGGER (R397, R398, R488): firmware writes the trigger's registers, TIME_TRIG_CTRL last. -/
def State.doLaunchTrigger (s : State) (t : Taken) : Done :=
  let b := t.payload
  let n := fld b 1 1
  let period := fld b 16 4
  let width := fld b 20 4
  checks [(decide (8 ≤ n) || s.assigned t (·.trigs) n, .auth),
    (decide (n < 8 ∧ fld b 2 1 ≤ 3 ∧ fld b 4 4 < 1000000000 ∧ fld b 14 2 = 0 ∧ width ≠ 0 ∧ (period = 0 ∨ width < period)), .arg)] s (
    let put := fun (s : State) (e : Nat × Nat) => s.writeReg (oTrig n e.1) (BitVec.ofNat 32 e.2)
    let s1 := [(4, fld b 4 4), (8, fld b 8 4), (0xC, fld b 12 2), (0x10, period), (0x14, width), (0x18, fld b 24 4)].foldl put s
    accept (s1.writeReg (oTrig n 0) (BitVec.ofNat 32 (fld b 2 1))))

/-- LAUNCH_SET for a trigger. -/
def execLaunchSetTrigger (p : Fin 4) (d : Fin 256) (s : State) : Host.Outcome State Fault Refusal :=
  .next (s.runCmd p d.val 0x005B (fun b => fld b 0 1 = 1) anyObj .claimed fun s t => s.doLaunchTrigger t)

end Sys2Proof.Machine
end

