-- ==== Sys2Proof/Machine/Streams.lean ====
section
/-! DEFINITION. Stream contexts over Ebwick (R307 to R332, R343 to R349, R484 to R486, R536, R700). -/

namespace Sys2Proof.Machine

/-- Sub-kind that a STREAM_CONFIG gives: 1 camera, 2 point, 3 message, 0 none. -/
def cfgSub (b : List Byte) : Nat :=
  match fld b 1 1 with
  | 1 => 1
  | 2 => 2
  | 3 => 3
  | 4 => fld b 3 1
  | _ => 0

/-- STRM_CFG that a STREAM_CONFIG writes (R343). -/
def cfgWord (b : List Byte) : Nat :=
  let k := fld b 1 1
  let sub := cfgSub b
  let port := if k = 3 then fld b 2 1 / 16 else if k = 4 then 0 else fld b 2 1
  let vc := if k = 1 then fld b 3 1 else if k = 3 then fld b 2 1 % 16 else 0
  let flow := if k = 2 ∨ k = 4 then fld b 3 1 else 0
  let dt := if sub = 1 then fld b 4 1 else 0
  let pipe := if sub = 3 then 0 else fld b 5 1
  k * 2 ^ 28 + port * 2 ^ 24 + vc * 2 ^ 20 + flow * 2 ^ 16 + dt * 2 ^ 10 + pipe * 2 ^ 7 + fld b 6 1 / 2 % 2 * 2 ^ 5
    + fld b 6 1 % 2 * 2 ^ 6 + fld b 7 1

/-- The mesh of a camera block keeps every source row of a `w` by `h` image within 64 lines of its output row (R329). -/
def meshNear (blk : List Byte) (w h : Nat) : Bool :=
  !hasMesh blk || (List.range h).all fun y => (List.range w).all fun x =>
    let q := (meshAt (meshVert blk) y x).1
    decide (-(64 * 256) ≤ q - 256 * (y : Int) ∧ q - 256 * (y : Int) ≤ 64 * 256)

/-- Lines of the source image that stage 6 reads for its pixel `(y, x)`: none outside the image. -/
def stage6Lines (blk : List Byte) (h y x : Nat) : List Nat :=
  if hasMesh blk then
    let q := (meshAt (meshVert blk) y x).1
    if q < 0 ∨ ((h - 1) * 256 : Nat) < q then [] else let i := interpQ h 8 q; [i.1, i.2.1]
  else [y]

/-- Every output row of stage 7 maps within the 128 lines of the line buffer (R329): the lines that its samples need span no more. -/
def resizeNear (blk : List Byte) (w h : Nat) : Bool :=
  let oh := fld blk 40 2
  let ow := fld blk 42 2
  (List.range oh).all fun i =>
    let py := interpQ h 16 (resizeCoord h oh i)
    let ls := (List.range ow).flatMap fun j =>
      let px := interpQ w 16 (resizeCoord w ow j)
      [py.1, py.2.1].flatMap fun y => [px.1, px.2.1].flatMap fun x => stage6Lines blk h y x
    decide (ls.foldl max 0 < ls.foldl min h + 128)

/-- A CAMERA parameter block in range (R485). -/
def cameraBlkOk (blk : List Byte) (dt : Nat) : Bool :=
  let n := blk.length
  let mw := fld blk 76 2
  let mh := fld blk 78 2
  decide (81 ≤ n ∧ fld blk 0 1 = 1 ∧ fld blk 1 1 ≤ 4 ∧ fld blk 2 1 ≤ 3 ∧ fld blk 3 1 ≤ 2 ∧ 1 ≤ fld blk 40 2 ∧ 1 ≤ fld blk 42 2
    ∧ fld blk 68 4 + 6144 ≤ n ∧ (mw = 0 ∨ mh = 0 ∨ fld blk 72 4 + 8 * (mw + 1) * (mh + 1) ≤ n) ∧ fld blk 80 1 < 16
    ∧ (fld blk 1 1 = 4 ↔ dt = 0x1E))

/-- A POINT parameter block in range (R333 to R336, R486); the MACsec fields only of a POINT context (R356). -/
def pointBlkOk (blk : List Byte) (live : Bool) : Bool :=
  let n := blk.length
  let ch := fld blk 3 1 + 1
  let az := fld blk 14 2
  let voxel := fld blk 1 1 = 1
  let cart := bit1 (fld blk 2 1) 0
  decide (216 ≤ n ∧ fld blk 0 1 = 1 ∧ fld blk 1 1 ≤ 1 ∧ fld blk 2 1 < 32 ∧ 1 ≤ az ∧ az ≤ 4096 ∧ 1 ≤ fld blk 32 2
    ∧ (live = true → fld blk 72 4 ≤ 65535 ∧ fld blk 76 1 < 16 ∧ fld blk 77 1 ≤ 1)) &&
    (!decide voxel || decide (1 ≤ fld blk 48 2 ∧ 1 ≤ fld blk 50 2 ∧ 1 ≤ fld blk 52 2 ∧ 1 ≤ fld blk 54 2 ∧ fld blk 54 2 ≤ 1024
      ∧ 1 ≤ fld blk 56 2 ∧ fld blk 56 2 ≤ 1024 ∧ 1 ≤ fld blk 58 1 ∧ fld blk 58 1 ≤ 64 ∧ 1 ≤ fld blk 60 4 ∧ fld blk 60 4 ≤ 65536
      ∧ (cart = true ∨ fld blk 64 4 + 6 * ch * az ≤ n)))

/-- Whether `n` bytes at `a` lie in one allocation of a partition whose region satisfies `q`. -/
def State.ownMem (s : State) (r : Fin 4) (a n : Nat) (q : Nat → Bool) : Bool :=
  s.allocs.any fun e => decide (e.2.part = r) && q e.2.region && decide (e.2.base ≤ a ∧ a + n ≤ e.2.base + e.2.size)

/-- Parameter block named by a STREAM_CONFIG. -/
def State.cfgBlk (s : State) (b : List Byte) : List Byte := s.rdN (fld b 32 8) (fld b 40 4)

/-- Field values of a STREAM_CONFIG that configures a context (R307, R315, R343 to R349, R356). -/
def State.cfgOk (s : State) (p : Fin 4) (t : Taken) : Bool :=
  let b := t.payload
  let c := fld b 0 1
  let k := fld b 1 1
  let sub := cfgSub b
  let r := s.cmdPart t
  let e := s.dirEnt p (fld b 2 1)
  let slots := fld b 7 1 * fld b 28 2 * 4096
  let plen := fld b 40 4
  decide (if c < 88 then k ≠ 3 else k = 3) &&
    (match k with
     | 1 => decide (fld b 2 1 ≤ 11 ∧ fld b 3 1 ≤ 15)
     | 2 => decide (fld b 2 1 ≤ 7 ∧ fld b 3 1 ≤ 4)
     | 3 => decide (2 ≤ fld b 2 1 ∧ fld b 3 1 = 0 ∧ e.kind = 1 ∧ e.part = r.val)
     | _ => decide (fld b 2 1 = 0)) &&
    (match sub with
     | 1 => decide (fld b 4 1 ∈ [0x2B, 0x2C, 0x2D, 0x2E, 0x1E] ∧ fld b 5 1 ≤ 7 ∧ 1 ≤ fld b 8 2 ∧ 1 ≤ fld b 10 2)
     | 2 => decide (fld b 5 1 ≤ 3 ∧ 1 ≤ fld b 8 2 ∧ fld b 8 2 ≤ 9216 ∧ 1 ≤ fld b 10 2 ∧ fld b 10 2 ≤ 8192)
     | 3 => decide (fld b 32 8 = 0 ∧ plen = 0)
     | _ => false) &&
    decide (fld b 6 1 ≤ 3 ∧ 3 ≤ fld b 7 1 ∧ fld b 7 1 ≤ 8 ∧ fld b 12 2 < fld b 14 2 ∧ fld b 14 2 < fld b 16 2
      ∧ 1 ≤ fld b 18 1 ∧ fld b 18 1 ≤ 15 ∧ 1 ≤ fld b 28 2) &&
    (match s.allocOf r (fld b 24 4) with
     | some a => decide (a.region ≤ 1 ∧ slots ≤ a.size)
     | none => false) &&
    (decide (sub = 3) || (decide (plen ≤ 0x1000000) && s.ownMem r (fld b 32 8) plen (· == 0) && (if sub = 1 then
      cameraBlkOk (s.cfgBlk b) (fld b 4 1) else pointBlkOk (s.cfgBlk b) (k == 2))))

/-- Shape of a camera stream (R329). -/
def State.cfgShape (s : State) (b : List Byte) : Bool :=
  decide (cfgSub b ≠ 1) || (decide (fld b 8 2 ≤ 8192 ∧ fld b 10 2 ≤ 8192) && meshNear (s.cfgBlk b) (fld b 8 2) (fld b 10 2) &&
    resizeNear (s.cfgBlk b) (fld b 8 2) (fld b 10 2))

/-- Contexts other than `c` that are configured with a sub-kind. -/
def State.configured (s : State) (c sub : Nat) : Nat :=
  (s.streams.filter fun e => decide (e.1 ≠ c ∧ s.strmKind e.1 ≠ 0 ∧ s.strmKind e.1 ≠ 3 ∧ s.frameKind e.1 = sub)).length

/-- Contexts other than `c` of a kind configured on a port. -/
def State.portUse (s : State) (c k port : Nat) : Nat :=
  (s.streams.filter fun e => decide (e.1 ≠ c ∧ s.strmKind e.1 = k ∧ bits (s.strmCfg e.1) 24 4 = port)).length

/-- Limits on contexts (R307, R309, R312). -/
def State.cfgQuota (s : State) (b : List Byte) : Bool :=
  let c := fld b 0 1
  let sub := cfgSub b
  (decide (sub ≠ 1) || decide (s.configured c 1 < 48)) && (decide (sub ≠ 2) || decide (s.configured c 2 < 40)) &&
    (decide (fld b 1 1 ≠ 1) || decide (s.portUse c 1 (fld b 2 1) < 4)) &&
    (decide (fld b 1 1 ≠ 2) || decide (s.portUse c 2 (fld b 2 1) < 5))

/-- Secure associations that a POINT block installs (R313, R486). -/
def blkSas (blk : List Byte) : List Sa :=
  (List.range 4).filterMap fun a =>
    if bit1 (fld blk 76 1) a then some ⟨a, slice blk (88 + 32 * a) (if fld blk 77 1 = 1 then 32 else 16), 1⟩ else none

/-- A parameter block with its key bytes read as zero (R700). -/
def blkClear (k : Nat) (blk : List Byte) : List Byte := if k = 2 then splice blk 88 (List.replicate 128 0) else blk

/-- Writing a context's registers and state (R308, R343 to R350, R484). -/
def State.putConfig (s : State) (r : Fin 4) (b : List Byte) (base : Nat) : State :=
  let c := fld b 0 1
  let blk := s.cfgBlk b
  let s1 := (((((((s.setReg (oStrm c 0) (BitVec.ofNat 32 (cfgWord b))).setReg (oStrm c 4)
    (BitVec.ofNat 32 (fld b 10 2 * 65536 + fld b 8 2))).setReg (oStrm c 8)
    (BitVec.ofNat 32 (fld b 14 2 * 65536 + fld b 12 2))).setReg (oStrm c 0xC)
    (BitVec.ofNat 32 (fld b 19 1 * 2 ^ 24 + fld b 18 1 * 2 ^ 20 + fld b 16 2))).setReg (oStrm c 0x14)
    (BitVec.ofNat 32 (fld b 20 4))).setReg (oStrm c 0x18) (BitVec.ofNat 32 base)).setReg (oStrm c 0x1C)
    (BitVec.ofNat 32 (fld b 28 2 * 65536 + base / 2 ^ 32))).clearRegs fun o => decide (oStrm c 0x20 ≤ o ∧ o < oStrm c 0x38)
  let x : Stream := { Stream.reset with owner := some r, param := fld b 32 8, paramLen := fld b 40 4, held := (s.stream c).held,
                                        sas := if fld b 1 1 = 2 then blkSas blk else [] }
  (((s1.setStream c x).streamState c 0 0).showErrs c).extendMb 6 (BitVec.ofNat 8 r.val :: blkClear (fld b 1 1) blk)

/-- STREAM_CONFIG (R307 to R309, R315, R319, R329, R349, R484). -/
def State.doStreamConfig (s : State) (p : Fin 4) (t : Taken) : Done :=
  let b := t.payload
  let r := s.cmdPart t
  let c := fld b 0 1
  let k := fld b 1 1
  checks [(match (s.stream c).owner with | some q => decide (q = r) | none => true, .auth),
    (decide (c < 96 ∧ k ≤ 4), .arg)] s (
    if k = 0 then accept ((if (s.stream c).owner.isSome then s.releaseStream c else s).extendMb 6 [BitVec.ofNat 8 r.val])
    else checks [(s.cfgOk p t, .arg), (s.cfgShape b, .shape), (s.cfgQuota b, .quota)] s (
      let base := match s.allocOf r (fld b 24 4) with | some a => a.base | none => 0
      let s1 := s.reportRead { Who.firmware with part := r.val } (fld b 32 8) (fld b 40 4)
      let s2 := s1.putConfig r b base
      accept (if k = 2 then s2.storeChecked Who.firmware (fld b 32 8 + 88) (List.replicate 128 0) else s2)))

/-- Object state of STREAM_CONFIG (R308, R536): the context is stopped; in EXACT its slots are not in DRAM. -/
def State.streamIdle (s : State) (t : Taken) : Bool :=
  let b := t.payload
  (decide (96 ≤ fld b 0 1) || !s.strmOn (fld b 0 1)) &&
    (match asPart t.part with
     | none => true
     | some r => !(decide ((s.part r).mode = .exact ∧ fld b 1 1 ≠ 0) &&
        (match s.allocOf r (fld b 24 4) with | some a => decide (a.region = 0) | none => false)))

/-- STREAM_CONFIG. -/
def execStreamConfig (p : Fin 4) (d : Fin 256) (s : State) : Host.Outcome State Fault Refusal :=
  .next (s.runCmd p d.val 0x0038 anyPl (fun s t => s.streamIdle t) .claimed fun s t => s.doStreamConfig p t)

/-! Starting and stopping. -/

/-- Points that a packet of a context can carry (R332): records that fit in WIDTH bytes. -/
def State.packetMax (s : State) (c : Nat) : Nat :=
  let blk := s.paramBlk c
  (s.regF (oStrm c 4) 0 16 - profOff blk 1) / max 1 (fld blk 32 2)

/-- Work of one frame of a context: pixels or points. -/
def State.frameWork (s : State) (c : Nat) : Nat :=
  if s.frameKind c = 2 then s.regF (oStrm c 4) 16 16 * s.packetMax c else s.regF (oStrm c 4) 0 16 * s.regF (oStrm c 4) 16 16

/-- A sum of fractions as (numerator, denominator). -/
def addFrac (x : Nat × Nat) (y : Nat × Nat) : Nat × Nat := (x.1 * y.2 + y.1 * x.2, x.2 * y.2)

/-- Whether the pipeline of context `c` carries its started streams and `c` (R328, R332). -/
def State.pipeFits (s : State) (c : Nat) : Bool :=
  let k := s.frameKind c
  let pipe := bits (s.strmCfg c) 7 3
  let cs := c :: s.strmStarted.filter fun e => decide (e ≠ c ∧ s.frameKind e = k ∧ bits (s.strmCfg e) 7 3 = pipe)
  let rate := cs.foldl (fun a e => addFrac a (s.frameWork e * 100000, s.regF (oStrm e 8) 0 16)) (0, 1)
  decide (3 ≤ k) || (decide (cs.length ≤ if k = 2 then 10 else 8) && cs.all (fun e => decide (0 < s.regF (oStrm e 8) 0 16)) &&
    decide (rate.1 ≤ (if k = 2 then 250000000 else 2400000000) * rate.2))

/-- Object state of STREAM_START (R308, R315, R479). -/
def State.startable (s : State) (p : Fin 4) (t : Taken) : Bool :=
  let c := fld t.payload 0 1
  decide (96 ≤ c) || (!s.strmOn c && decide (s.strmKind c ≠ 0) && (decide (s.strmKind c ≠ 3) || (s.ring p (s.auxRing c)).isSome))

/-- Whether a command names a context of its partition, or, to stop it, one that a partition reset left without owner (R308). -/
def State.ownStream (s : State) (t : Taken) : Bool :=
  let c := fld t.payload 0 1
  decide (96 ≤ c) || decide ((s.stream c).owner = some (s.cmdPart t)) || (decide (t.opc = 0x003A) && (s.stream c).owner.isNone)

/-- Lanes and PHY type of a camera's port as it starts (R309, R340): the board's wiring. -/
def State.portWiring (s : State) (port : Nat) : State :=
  let o := 0x03000000 + 4 * port
  let cphy := Config.pairCphy (port / 2)
  let lanes := [1, 2, if cphy then 3 else 4].getD (Config.portLanes port % 3) 1
  (s.setRegF o 4 4 lanes).setRegF o 3 1 cphy.toNat

/-- Starting a context (R308, R309, R316, R319): ABSENT, frames counted from here. -/
def State.startStream (s : State) (c : Nat) : State :=
  let x := s.stream c
  let y : Stream := { Stream.reset with owner := x.owner, param := x.param, paramLen := x.paramLen, held := x.held, sas := x.sas, fcnt := x.fcnt }
  let s1 := ((s.setStream c y).setRegF (oStrm c 0) 31 1 1).streamState c 0 0 |>.showErrs c
  if s.strmKind c = 1 then s1.portWiring (bits (s.strmCfg c) 24 4) else s1

/-- STREAM_START (R308, R328, R332). -/
def execStreamStart (p : Fin 4) (d : Fin 256) (s : State) : Host.Outcome State Fault Refusal :=
  .next (s.runCmd p d.val 0x0039 anyPl (fun s t => s.startable p t) .claimed fun s t =>
    checks [(s.ownStream t, .auth), (decide (fld t.payload 0 1 < 96), .arg), (s.pipeFits (fld t.payload 0 1), .busy)] s
      (accept (s.startStream (fld t.payload 0 1))))

/-- STREAM_STOP (R308, R326). -/
def execStreamStop (p : Fin 4) (d : Fin 256) (s : State) : Host.Outcome State Fault Refusal :=
  .next (s.runCmd p d.val 0x003A anyPl (fun s t => decide (96 ≤ fld t.payload 0 1) || s.strmOn (fld t.payload 0 1)) .claimed fun s t =>
    checks [(s.ownStream t, .auth), (decide (fld t.payload 0 1 < 96), .arg)] s (accept (s.stopStream (fld t.payload 0 1))))

end Sys2Proof.Machine
end

