-- ==== Sys2Proof/Machine/Jobs.lean ====
section
/-! DEFINITION. Submitting and cancelling jobs (R280 to R286, R481 to R483, R509, R610, R612, R617 to R619, R658, R667). -/

namespace Sys2Proof.Machine

/-! Step admission. -/

/-- A step entry of JOB_SUBMIT (R481). -/
structure StepEnt where
  seq : Nat
  role : Nat
  flags : Nat
  qh : Nat
  na : Nat
  qt : Nat
  win : Nat

/-- Step entries of a payload (R481). -/
def stepEnts (b : List Byte) : List StepEnt :=
  (List.range (fld b 40 2)).map fun e =>
    let x := slice b (48 + 16 * e) 16
    ⟨fld x 0 4, fld x 4 1, fld x 5 1, fld x 6 1, fld x 8 2, fld x 10 2, fld x 12 4⟩

/-- Whether a step entry's fields are in range (R286, R481). -/
def StepEnt.ok (e : StepEnt) : Bool :=
  decide (e.role ≤ 2 ∧ e.flags ≤ 3 ∧ 1 ≤ e.qh ∧ e.qh ≤ 16 ∧ 1 ≤ e.qt ∧ e.qh * e.qt ≤ 1024 ∧ e.na ≤ e.qt
    ∧ (e.flags < 2 ∨ (1 ≤ e.win ∧ e.win ≤ 524288)))

/-- First query row of each entry, in entry order (R286, R481). -/
def qrows : Nat → List StepEnt → List Nat
  | _, [] => []
  | r, e :: t => r :: qrows (r + cdiv (e.qh * e.qt) 64 * 64) t

/-- Lowest position of the score layout of an entry on its sequence (R284). -/
def StepEnt.klo (e : StepEnt) (x : Seq) : Nat :=
  if e.flags < 2 then x.basePos else max x.basePos ((x.len + e.na - e.qt + 1 - e.win) / 64 * 64)

/-- Spans of an entry from KLO (R284, R286). -/
def StepEnt.nspan (e : StepEnt) (x : Seq) : Nat := cdiv (x.len + e.na - e.klo x) 64

/-- SORUS descriptors of a program (R284). -/
def Prog.sorus (g : Prog) : List SorusD :=
  ((List.range (g.descs.length / 32)).map fun i => slice g.descs (32 * i) 32).filterMap fun d =>
    if fld d 0 1 = 6 then some (sorusOf d) else none

/-- Whether some unfinished job appends to a sequence (R283). -/
def State.appendedTo (s : State) (q : Nat) : Bool := s.jobs.any fun j => j.2.steps.any fun a => decide (a.seq = q ∧ 0 < a.na)

/-- The checks of R280 item 1 on one entry. `q0` is its first query row. -/
def State.stepCheck (s : State) (r : Fin 4) (g : Prog) (e : StepEnt) (q0 : Nat) : Option St :=
  match s.seqOf r e.seq with
  | none => some .arg
  | some x =>
    let fits := g.sorus.all fun d => decide ((d.tcap = 0 ∨ 64 * e.nspan x ≤ d.tcap) ∧ q0 + e.qh * e.qt ≤ d.qcap)
    firstFail [(!x.retired, .state), (decide (x.basePos + e.qt ≤ x.len + e.na), .arg),
      (decide (2 * x.nhg * cdiv (x.len + e.na - x.basePos) 64 ≤ 8192), .quota),
      (decide (e.na = 0 ∨ x.gen.toNat ≠ 0xFFFFFFFF), .state), (decide (e.na = 0) || !s.appendedTo e.seq, .busy),
      (fits && decide (1 ≤ e.nspan x ∧ e.nspan x ≤ 256), .shape)]

/-- Whether the entries of a step agree (R272, R286): no sequence twice, one pool and head-group count, and the pool's DH and
format in every SORUS descriptor of the program. -/
def State.stepUniform (s : State) (r : Fin 4) (g : Prog) (es : List StepEnt) : Bool :=
  let xs := es.filterMap fun e => s.seqOf r e.seq
  decide ((es.map (·.seq)).Nodup) && (xs.all fun x => xs.all fun y => decide (x.pool = y.pool ∧ x.nhg = y.nhg)) &&
    (xs.all fun x => match tfind s.pools x.pool with
      | some p => g.sorus.all fun d => decide (d.dh = p.dh ∧ d.kvfmt = p.kvfmt)
      | none => false)

/-- Free pages of a pool for a sequence: its hot range or its DRAM range (R268, R276). -/
def Pool.freeFor (p : Pool) (hot : Bool) (taken : List Nat) : List Nat :=
  let r := if hot then List.range p.nhot else (List.range (p.npages - p.nhot)).map (p.nhot + ·)
  r.filter fun i => p.isFree i && !taken.contains i

/-- Spans that an admission gives fresh pages to (R281): those it enters beyond the table, and a shared one it appends to. -/
def Seq.freshSpans (x : Seq) (p : Pool) (na : Nat) : List Nat :=
  if na = 0 then []
  else
    let k0 := (x.len - x.basePos) / 64
    let k1 := (x.len + na - 1 - x.basePos) / 64
    ((List.range (k1 + 1)).filter fun k => decide (k0 ≤ k)).filter fun k =>
      match x.spans[k]? with
      | none => true
      | some sp => (spanPages [sp]).any fun i => decide (1 < ((p.page i).getD ⟨0, false⟩).count)

/-- Fresh pages as spans: K and V page of each head group in turn. -/
def freshSpan (nhg : Nat) (l : List Nat) : Span := (List.range nhg).map fun h => (l.getD (2 * h) 0, l.getD (2 * h + 1) 0)

/-- A sequence's table with fresh spans put in (R275, R281). -/
def placeSpans (nhg : Nat) : List Nat → List Nat → List Span → List Span
  | [], _, sp => sp
  | k :: t, l, sp =>
    let n := freshSpan nhg l
    placeSpans nhg t (l.drop (2 * nhg)) (if k < sp.length then sp.set k n else sp ++ [n])

/-- Reserving one entry's pages out of what is left; `none` where they do not suffice (R281). -/
def State.reserveOne (s : State) (r : Fin 4) (i : Nat) (e : StepEnt) (taken : List Nat) : Option Admit :=
  match s.seqOf r e.seq with
  | none => none
  | some x =>
    match tfind s.pools x.pool with
    | none => none
    | some p =>
      let ks := x.freshSpans p e.na
      let n := 2 * x.nhg * ks.length
      let l := (p.freeFor x.hot taken).take n
      if l.length < n then none
      else some { entry := i, seq := e.seq, leave := decide (e.role = 2), gen := x.gen, na := e.na, newLen := x.len + e.na,
                  oldSpans := x.spans, newSpans := placeSpans x.nhg ks l x.spans, fresh := l }

/-- Reserving a list of entries in order; the second part is the entry whose reservation failed and every one after it. -/
def State.reserveAll (s : State) (r : Fin 4) : List (StepEnt × Nat) → List Nat → List Admit × List Nat
  | [], _ => ([], [])
  | (e, i) :: t, taken =>
    match s.reserveOne r i e taken with
    | none => ([], i :: t.map (·.2))
    | some a => let q := s.reserveAll r t (taken ++ a.fresh); (a :: q.1, q.2)

/-! The step record (R286). -/

/-- Page-list entries of an admitted entry from KLO: pages of the new table, and the shared pages to copy (R300). -/
def Admit.pageList (a : Admit) (k0 n nhg : Nat) : List PageEnt :=
  (List.range n).flatMap fun k => (List.range nhg).map fun h =>
    let new := (a.newSpans.getD (k0 + k) []).getD h (noPage, noPage)
    let old := (a.oldSpans.getD (k0 + k) []).getD h (noPage, noPage)
    let src := fun (o m : Nat) => if o = m then noPage else o
    ⟨new.1, new.2, src old.1 new.1, src old.2 new.2⟩

/-- A slot of the record for an admitted entry, and its page list. -/
def State.slotOf (s : State) (r : Fin 4) (e : StepEnt) (a : Admit) (q0 plist : Nat) : StepSlot × List PageEnt :=
  match s.seqOf r e.seq with
  | none => (StepSlot.none, [])
  | some x =>
    let klo := e.klo x
    let n := e.nspan x
    ({ seq := e.seq, state := 1, flags := e.flags, qh := e.qh, zero := 0, qrow0 := q0, qn := e.qh * e.qt, win := e.win,
       qpos0 := x.len + e.na - e.qt, klo := klo, lend := x.len + e.na, plist := plist, nspan := n, na := e.na,
       aidx := plist + (x.len - klo) / 64 * x.nhg , tail := 0 }, a.pageList ((klo - x.basePos) / 64) n x.nhg)

/-- Slots and page list of a record, in entry order; a deferred entry's slot is NONE. -/
def State.slotsOf (s : State) (r : Fin 4) (adm : List Admit) : List ((StepEnt × Nat) × Nat) → Nat → List StepSlot × List PageEnt
  | [], _ => ([], [])
  | ((e, i), q0) :: t, n =>
    let m := match adm.find? fun a => decide (a.entry = i) with
      | some a => s.slotOf r e a q0 n
      | none => ({ StepSlot.none with seq := noPage }, [])
    let u := s.slotsOf r adm t (n + m.2.length)
    (m.1 :: u.1, m.2 ++ u.2)

/-- The bytes of a step record. -/
def stepRecord (h : StepHdr) (sl : List StepSlot) (pl : List PageEnt) : List Byte :=
  h.bytes ++ padTo 4096 (sl.flatMap StepSlot.bytes) ++ pl.flatMap PageEnt.bytes

/-- A free place for a step record in firmware's DRAM (R286). -/
def State.freeRecord (s : State) : Option Nat :=
  ((List.range stepRecords).map stepSlotAddr).find? fun a => s.jobs.all fun j => decide (j.2.stepRec ≠ a)

/-- What admitting a step gives: its admitted entries, deferred mask, record address and bytes, pool. -/
structure StepAdm where
  adm : List Admit
  deferred : Nat
  addr : Nat
  record : List Byte
  pool : Nat

/-- Admission of a step (R280 to R286) for job `j`: a status where it fails. -/
def State.admitStep (s : State) (r : Fin 4) (j : Nat) (g : Prog) (es : List StepEnt) : Except St StepAdm :=
  let idx := es.zipIdx
  let rows := qrows 0 es
  match (es.zip rows).findSome? fun e => s.stepCheck r g e.1 e.2 with
  | some st => .error st
  | none =>
    if s.stepUniform r g es then
      let a := s.reserveAll r (idx.filter fun e => decide (e.1.role ≠ 1)) []
      let b := s.reserveAll r (idx.filter fun e => decide (e.1.role = 1)) (a.1.flatMap (·.fresh))
      let x := ((es.head?).bind fun e => s.seqOf r e.seq)
      match s.freeRecord, x, x.bind fun q => tfind s.pools q.pool with
      | some addr, some q, some p =>
        let al := (tfind s.allocs p.handle).getD ⟨r, 2, 0, 0, matBase, 0, 0⟩
        let m := s.slotsOf r (a.1 ++ b.1) (idx.zip rows) 0
        let h : StepHdr := { job := j % 2 ^ 32, nslot := es.length, nhg := q.nhg, dh := p.dh, kvfmt := p.kvfmt, nent := m.2.length,
                             nhot := p.nhot, drambase := al.base, matbase := al.matBase - matBase, slotb := slotb p.dh p.kvfmt }
        if a.2 ≠ [] then .error .nomem
        else if 32768 < m.2.length then .error .shape
        else .ok ⟨a.1 ++ b.1, b.2.foldl (fun v i => v + 2 ^ i) 0, addr, stepRecord h m.1 m.2, q.pool⟩
      | _, _, _ => .error .nomem
    else .error .arg

/-! JOB_SUBMIT. -/

/-- Bytes that a DMA instruction reads and writes, as (address, length), from its descriptor and offsets (R133, R542). -/
def dmaRanges (w : IWord) (d : DmaD) : List (Nat × Nat) :=
  let f := dmaF w
  if 2 < f.dop then []
  else
    let so := if f.dop = 1 then 0 else 64 * f.soff
    let dO := if f.dop = 2 then 0 else 64 * f.doff
    if d.transpose then
      [(d.src + so, 64 * d.spitch * (d.rows - 1) + d.e * d.cols), (d.dst + dO, 64 * d.dpitch * (d.cols - 1) + d.e * d.rows)]
    else [(d.src + so, 64 * d.len), (d.dst + dO, 64 * d.len)]

/-- Exchange areas of a partition's groups (R566). -/
def State.areas (s : State) (r : Fin 4) : List (Nat × Nat) :=
  (s.groups.filter fun g => decide (g.part = r)).filterMap fun g => (tfind s.allocs g.handle).map fun a => (a.base, a.size)

/-- Whether a TWIN kernel's DMA footprint meets an exchange area of the partition (R612). -/
def State.twinMeets (s : State) (r : Fin 4) (g : Prog) : Bool :=
  (g.kernels.filter (·.twin)).any fun k => (k.queues.filter fun q => decide (q.1 = 3)).any fun q =>
    (List.range (q.2.1 / 16)).any fun i =>
      let w := BitVec.ofNat 128 (s.rdLe (g.base + q.2.2 + 16 * i) 16)
      decide (opc w = 0x0C) && (dmaRanges w (dmaOf (slice g.descs (32 * (dmaF w).desc) 32))).any fun x =>
        (s.areas r).any fun a => meets x.1 x.2 a.1 a.2

/-- Bound contexts of a JOB_SUBMIT. -/
def jobStreams (b : List Byte) : List Nat := (List.range (min (fld b 7 1) 8)).map fun i => fld b (32 + i) 1

/-- Field values of a JOB_SUBMIT (R481, R612). -/
def State.jobArgOk (s : State) (p : Fin 4) (r : Fin 4) (b : List Byte) (g : Prog) : Bool :=
  let kind := fld b 4 1
  let ns := fld b 7 1
  let n := fld b 40 2
  decide (kind ≤ 2 ∧ fld b 5 1 ≤ 3 ∧ fld b 6 1 ≤ 1 ∧ ns ≤ 8 ∧ (kind ≠ 1 ∨ 1 ≤ ns) ∧ n ≤ 64 ∧ ((kind = 2) ↔ 1 ≤ n))
    && s.ringIs p [] r.val (fld b 8 1) (fun k => k == 2 || k == 3)
    && ((jobStreams b).all fun c => decide (c < 96 ∧ (s.stream c).owner = some r)) && decide ((jobStreams b).Nodup)
    && ((List.range 8).all fun i => decide (i < ns) || decide (fld b (32 + i) 1 = 0xFF))
    && (decide (ns = 0) || (decide (fld b 16 8 % 256 = 0) && s.ownMem r (fld b 16 8) (256 * ns) fun _ => true))
    && (decide (fld b 24 8 = 0) || s.ownMem r (fld b 24 8) 1 fun _ => true)
    && ((stepEnts b).all StepEnt.ok) && !s.twinMeets r g

/-- The job a JOB_SUBMIT makes, not yet admitted. -/
def State.newJob (s : State) (r : Fin 4) (b : List Byte) : Job :=
  { part := r, prog := fld b 0 4, kind := fld b 4 1, prio := fld b 5 1, twin := bit1 (fld b 6 1) 0, ring := fld b 8 1,
    age := fld b 12 4, pick := fld b 16 8, args := fld b 24 8, streams := jobStreams b, steps := [], deferred := 0, stepRec := 0,
    pool := 0, inst := 0, st := if jobStreams b = [] then .ready else .waiting, kernel := 0, readySince := s.now,
    started := [], ended := [], ranOn := [], ledger := [], ledgerMore := 0, nonfinite := false, degraded := false,
    replayed := false, sens := s.now, sensStep := s.time.stepSum, sidx := 0, tricks := [], voided := false, signals := [],
    digestA := [], digestB := [], golden := none, goldSum := 0 }

/-- Shapes of a job (R509, R610, R658). -/
def State.jobShapeOk (s : State) (r : Fin 4) (x : Job) : Bool :=
  (!x.twin || decide (2 ≤ (s.frondsOf r).length)) && !s.onRetired x &&
    (match (s.part r).activeBank with
      | some b => s.bankFits b x
      | none => false)

/-- PMAX of a job's first bound stream in ns; 0 for a job of another KIND (R345, R618). -/
def State.jobPmax (s : State) (x : Job) : Nat :=
  if x.kind = 1 then s.regF (oStrm (x.streams.headD 0) 8) 16 16 * 10000 else 0

/-- The monitor's entry of an admitted job with an age bound (R618, R619). -/
def State.monitor (s : State) (j : Nat) (x : Job) : State :=
  if x.age = 0 then s
  else
    let pm := s.jobPmax x
    { s with ages := s.ages ++ [⟨j, x.part, decide (x.kind = 1), x.age * 1000, pm, s.deckNow + (pm + x.age * 1000 : Nat), true⟩] }

/-- An admitted job enters the table; the IDLE hint ends (R667). -/
def State.enterJob (s : State) (j : Nat) (x : Job) : State :=
  let s1 := ({ s with nextId := j + 1 }.setJob j x).monitor j x
  s1.modPart x.part fun y => { y with idling := false, hint := if y.hint = 1 then 0 else y.hint }

/-- Pages of a pool set aside for a step (R281). -/
def State.reservePages (s : State) (pool : Nat) (l : List Nat) : State :=
  { s with pools := tmod s.pools pool fun p => { p with reserved := p.reserved ++ l } }

/-- JOB_SUBMIT (R280, R481, R509, R610, R612, R619). -/
def State.doSubmit (s : State) (p : Fin 4) (t : Taken) : Done :=
  let b := t.payload
  let r := s.cmdPart t
  match s.progOfPart r (fld b 0 4) with
  | none => refuse .arg s
  | some g =>
    let x := s.newJob r b
    let j := s.nextId
    checks [(s.jobArgOk p r b g, .arg), (s.jobShapeOk r x, .shape), (decide (x.age = 0 ∨ s.ages.length < 1024), .quota)] s (
      if x.kind = 2 then
        match s.admitStep r j g (stepEnts b) with
        | .error st => refuse st s
        | .ok a =>
          let s1 := (s.reservePages a.pool (a.adm.flatMap (·.fresh))).store a.addr (padTo (256 * cdiv a.record.length 256) a.record)
          let y := { x with steps := a.adm, deferred := a.deferred, stepRec := a.addr, pool := a.pool }
          ⟨if a.deferred = 0 then .ok else .nomemDeferred, leBytes 8 j ++ leBytes 8 a.deferred, s1.enterJob j y⟩
      else ⟨.ok, leBytes 8 j ++ leBytes 8 0, s.enterJob j x⟩)

/-- JOB_SUBMIT. -/
def execJobSubmit (p : Fin 4) (d : Fin 256) (s : State) : Host.Outcome State Fault Refusal :=
  .next (s.runCmd p d.val 0x0028 anyPl anyObj .claimed fun s t => s.doSubmit p t)

/-! JOB_CANCEL. -/

/-- A job of a partition that a host submitted and that is unfinished. -/
def State.jobOf (s : State) (n j : Nat) : Option Job :=
  match s.job j with
  | some x => if x.part.val = n ∧ x.golden = none then some x else none
  | none => none

/-- JOB_CANCEL (R285, R325, R482, R483, R619): the job's kernels stop, its monitoring ends. -/
def execJobCancel (p : Fin 4) (d : Fin 256) (s : State) : Host.Outcome State Fault Refusal :=
  .next (s.runCmd p d.val 0x0029 anyPl (fun s t => (s.jobOf t.part (fld t.payload 0 8)).isSome) .claimed fun s t =>
    accept (s.cancelJob (fld t.payload 0 8)))

end Sys2Proof.Machine
end

