-- ==== Sys2Proof/Machine/Deck.lean ====
section
/-! DEFINITION. Deck images, Rounds, Cards and the choice of work (R496 to R525, R533, R534, R614 to R616). -/

namespace Sys2Proof.Machine

/-! DECK_LOAD. -/

/-- A Card of an image (R500). -/
def cardOf (b : List Byte) : Card :=
  { kind := fld b 0 1, frond := fld b 1 1, prio := fld b 2 1, off := fld b 4 4, len := fld b 8 4, kcap := fld b 12 4,
    prog := fld b 16 4, args := fld b 24 8 }

/-- ROUND of an image in µs: 0 selects the default (R500). -/
def roundOf (b : List Byte) : Nat := if fld b 8 4 = 0 then 16666 else fld b 8 4

/-- Whether the header of an image of `n` bytes stands for partition `r` (R500, R501). -/
def deckHeaderOk (b : List Byte) (n : Nat) (r : Fin 4) : Bool :=
  decide (fld b 0 4 = 0x4B434443 ∧ fld b 4 2 = 1 ∧ fld b 6 1 = r.val ∧ fld b 60 4 = crc32c (b.take 60)
    ∧ 1000 ≤ roundOf b ∧ roundOf b ≤ 100000 ∧ 1 ≤ fld b 12 2 ∧ fld b 12 2 ≤ 1024 ∧ 64 + 32 * fld b 12 2 ≤ n)
    && zerosAt b 7 1 && zerosAt b 14 46

/-- Whether a Card's own fields are in range (R500, R501). -/
def State.cardOk (s : State) (r : Fin 4) (round : Nat) (b : List Byte) : Bool :=
  let c := cardOf b
  let work := decide (c.kind = 1 ∨ c.kind = 2 ∨ c.kind = 3)
  decide (c.kind ≤ 4 ∧ fld b 3 1 = (if 3 ≤ c.kind then 0xFF else r.val) ∧ c.prio ≤ (if c.kind = 1 then 3 else 0)
      ∧ 10 ≤ c.len ∧ c.off + c.len ≤ round)
    && zerosAt b 20 4
    && (match asPart c.frond with | some f => decide (s.ownerOf f = some r) | none => false)
    && (if work then decide (1 ≤ c.kcap ∧ c.kcap < 2 ^ 31) else decide (c.kcap = 0))
    && (if c.kind = 2 then (s.progOfPart r c.prog).isSome && s.ownMem r c.args 64 fun _ => true
        else decide (c.prog = 0 ∧ c.args = 0))

/-- Whether Card `i` overlaps an earlier one of its Frond. -/
def overlapsEarlier (l : List Card) (i : Nat) (c : Card) : Bool :=
  (l.take i).any fun d => decide (d.frond = c.frond) && meets d.off d.len c.off c.len

/-- Least SELFTEST time of a Frond in a Round, in µs (R501). -/
def selftestFloor (round : Nat) : Nat := max 50 (cdiv (round * 15) 1000)

/-- First Card of a list that satisfies `p`, else the first Card of all. -/
def firstCard (l : List Card) (p : Card → Bool) : Nat := (l.findIdx? p).getD 0

/-- Whole-Frond failures (R501): more than 256 Cards, named by the first one too many, and too little SELFTEST time, named by the
Frond's first Card. -/
def frondFails (l : List Card) (round : Nat) (f : Nat) : List Nat :=
  let mine := l.zipIdx.filter fun e => decide (e.1.frond = f)
  let st := (mine.filter fun e => decide (e.1.kind = 3)).foldl (fun a e => a + e.1.len) 0
  (match mine[256]? with | some e => [e.2] | none => []) ++
    (if st < selftestFloor round then [firstCard l fun c => decide (c.frond = f)] else [])

/-- REFRESH windows of a Frond. -/
def windowsOf (l : List Card) (f : Nat) : List (Nat × Nat) := (l.filter fun c => decide (c.kind = 4 ∧ c.frond = f)).map fun c => (c.off, c.len)

/-- All-bank refreshes that a window of `w` µs holds (R533). -/
def refreshesIn (w : Nat) : Nat := (w - 1) * 1000 / 210

/-- Refreshes of the windows that lie wholly in the 30,000 µs after the start of a window, over repeated Rounds (R534). -/
def refreshesAfter (w : List (Nat × Nat)) (round a : Nat) : Nat :=
  ((List.range (30000 / round + 3)).flatMap fun k => w.map fun e => (e.1 + k * round, e.2)).foldl
    (fun n e => if a < e.1 ∧ e.1 + e.2 ≤ a + 30000 then n + refreshesIn e.2 else n) 0

/-- Whether a bank meets the refresh requirement of EXACT (R533, R534). The poorest interval begins just after the start of a
window. -/
def refreshOk (l : List Card) (round : Nat) : Bool :=
  let w := windowsOf l 0
  !w.isEmpty && ((List.range 4).all fun f => let v := windowsOf l f; v.all w.contains && w.all v.contains)
    && (w.all fun e => decide (20 ≤ e.2 ∧ e.2 ≤ 400)) && w.all fun e => decide (8192 ≤ refreshesAfter w round e.1)

/-- The first Card of an image that fails (R501). -/
def State.badCard (s : State) (r : Fin 4) (b : List Byte) : Option Nat :=
  let n := fld b 12 2
  let round := roundOf b
  let raw := (List.range n).map fun i => slice b (64 + 32 * i) 32
  let l := raw.map cardOf
  let own := (raw.zipIdx.filter fun e => !s.cardOk r round e.1).map (·.2)
  let lap := (l.zipIdx.filter fun e => overlapsEarlier l e.2 e.1).map (·.2)
  let whole := (s.frondsOf r).flatMap fun f => frondFails l round f.val
  let ref := if (s.part r).mode = .exact ∧ refreshOk l round = false then [firstCard l fun c => decide (c.kind = 4)] else []
  (own ++ lap ++ whole ++ ref).foldl (fun (m : Option Nat) i => some (m.elim i (min i))) none

/-- Response of DECK_LOAD: Cards accepted, first rejected. -/
def deckResp (ok bad : Nat) : List Byte := leBytes 2 ok ++ leBytes 2 bad

/-- A bank put in place. -/
def Part.setBank (x : Part) (b : Fin 2) (k : Bank) : Part := if b = 0 then { x with bank0 := some k } else { x with bank1 := some k }

/-- DECK_LOAD (R497, R501, R700). -/
def State.doDeckLoad (s : State) (t : Taken) : Done :=
  let b := t.payload
  let r := s.cmdPart t
  let off := fld b 8 8
  let n := fld b 16 4
  let fail := fun (st : St) (i : Nat) (s : State) => (⟨st, deckResp 0 i, s⟩ : Done)
  match s.allocOf r (fld b 0 4) with
  | none => fail .arg 0xFFFF s
  | some a =>
    if fld b 20 1 ≤ 1 ∧ 64 ≤ n ∧ off + n ≤ a.size then
      let base := a.base + off
      let img := s.rdN base n
      let s1 := s.reportRead Who.firmware base n
      if deckHeaderOk img n r then
        match s.badCard r img with
        | some i => fail .arg i s1
        | none =>
          let m := fld img 12 2
          let k : Bank := ⟨roundOf img, (List.range m).map fun i => cardOf (slice img (64 + 32 * i) 32)⟩
          let bk : Fin 2 := if fld b 20 1 = 0 then 0 else 1
          if (s.part r).timeNext < k.workTime then fail .quota 0xFFFF s1
          else if (s.part r).active = some bk then fail .busy 0xFFFF s1
          else ⟨.ok, deckResp m 0xFFFF, (s1.modPart r fun x => x.setBank bk k).extendMb 5 (BitVec.ofNat 8 r.val :: img.take (64 + 32 * m))⟩
      else fail .arg 0xFFFF s1
    else fail .arg 0xFFFF s

/-- DECK_LOAD. -/
def execDeckLoad (p : Fin 4) (d : Fin 256) (s : State) : Host.Outcome State Fault Refusal :=
  .next (s.runCmd p d.val 0x0030 anyPl anyObj .claimed fun s t => s.doDeckLoad t)

/-! DECK_SWITCH. -/

/-- Bank of a DECK_SWITCH. -/
def bankSel (n : Nat) : Fin 2 := if n = 0 then 0 else 1

/-- T0 of a DECK_SWITCH taken now (R504): the end of the present Round, or a whole ms of deck time. -/
def State.switchTime (s : State) (x : Part) : Nat :=
  match x.activeBank with
  | some b => x.roundStart b + b.round * 1000
  | none => cdiv (s.deckTime + 1000000) 1000000 * 1000000

/-- A deck time as device time. -/
def State.deckAsTime (s : State) (t : Nat) : List Byte := timeBytes ((t : Int) + s.time.stepSum).toNat

/-- Deck registers of a Frond that a DECK_SWITCH clears (R525). -/
def State.clearDeckRegs (s : State) (f : Fin 4) : State := (s.setReg (oDeck f 4) 0).setReg (oDeck f 0x10) 0

/-- DECK_SWITCH (R494, R504, R505). -/
def State.doDeckSwitch (s : State) (t : Taken) : Done :=
  let r := s.cmdPart t
  let x := s.part r
  let b := bankSel (fld t.payload 0 1)
  let jobs := s.jobs.filter fun e => decide (e.2.part = r) && e.2.golden.isNone
  match x.bank b with
  | none => refuse .arg s
  | some k =>
    checks [(decide (fld t.payload 0 1 ≤ 1), .arg)] s (
      if x.active = some b then ⟨.ok, s.deckAsTime x.t0, s⟩
      else checks [(jobs.all fun e => s.bankFits k e.2, .shape)] s (
        let t0 := s.switchTime x
        let s1 := s.modPart r fun y => { y with switchTo := some (b, t0), idleAll := false }
        ⟨.ok, s.deckAsTime t0, (s.frondsOf r).foldl State.clearDeckRegs s1⟩))

/-- Object state of DECK_SWITCH (R479): the bank named holds a Deck. -/
def State.bankLoaded (s : State) (t : Taken) : Bool :=
  match asPart t.part with
  | none => true
  | some r => decide (2 ≤ fld t.payload 0 1) || ((s.part r).bank (bankSel (fld t.payload 0 1))).isSome

/-- DECK_SWITCH. -/
def execDeckSwitch (p : Fin 4) (d : Fin 256) (s : State) : Host.Outcome State Fault Refusal :=
  .next (s.runCmd p d.val 0x0031 anyPl (fun s t => s.bankLoaded t) .claimed fun s t => s.doDeckSwitch t)

/-! Golden runs. -/

/-- LATENT (R490, R518, R628, R660): unit and misses. -/
def State.latent (s : State) (f : Fin 4) (unit n : Nat) : State :=
  s.noticeTo (s.ownerOf f) 0x4009 .ok (leBytes 2 unit ++ leBytes 1 (min 255 n))

/-- A golden miss (R517, R518). -/
def State.goldenMiss (s : State) (f : Fin 4) : State :=
  let s1 := (s.count (oDeck f 0x14) 1).count (oDeck f 0x18) 1
  let n := (s1.reg (oDeck f 0x18)).toNat
  if 3 ≤ n then s1.latent f (16 * f.val + 14) n else s1

/-- The golden run of a Frond. -/
def State.goldenJob (s : State) (f : Fin 4) : Option (Nat × Job) := s.jobs.find? fun e => decide (e.2.golden = some f)

/-- A golden run is cut (R517): the Frond stops, nothing of it stays, no fault; the next switch has D = 2,048. -/
def State.cutGolden (s : State) (f : Fin 4) : State :=
  match s.goldenJob f with
  | none => s
  | some (j, _) =>
    ((((s.stopJob j).voidOpenOf j).dropGolden j).goldenMiss f).modFrond f fun x => { x with swD := 2048, cardUse := .none }

/-- Whether the golden argument block at an address stands: its BCW, MAGIC, VERSION, reserved bytes and HCRC (R614, R615). -/
def State.goldenBlockOk (s : State) (a : Nat) : Bool :=
  let b := s.rdN a 64
  s.blockOk a && decide (fld b 0 4 = 0x444C4F47 ∧ fld b 4 2 = 1 ∧ fld b 60 4 = crc32c (b.take 60)) && zerosAt b 24 36

/-- Starting a golden run (R516, R614, R615): an instance of the Card's program whose `pick` is the address of the golden
argument block; one that may not start is a golden miss. -/
def State.startGolden (s : State) (f r : Fin 4) (c : Card) : State :=
  match s.progOfPart r c.prog with
  | none => (s.goldenMiss f).modFrond f fun x => { x with cardUse := .none }
  | some g =>
    if g.needs.testBit 1 ∨ g.needs.testBit 3 then (s.goldenMiss f).modFrond f fun x => { x with cardUse := .none }
    else
      let j := s.nextId
      let x : Job := { s.newJob r [] with prog := c.prog, kind := 0, prio := 0, pick := c.args, args := s.rdLe (c.args + 16) 8,
                                          golden := some f }
      let s1 := { s with nextId := j + 1 }.setJob j x
      let w : Who := ⟨j, c.prog, 0xFFFF, 0xFF, r.val, 0xFF⟩
      (s1.reportMarks w c.args 64).checkBlock w c.args

/-- Whether the golden run of a Frond passes (R615). -/
def State.goldenPasses (s : State) (x : Job) : Bool :=
  x.ledger.isEmpty && s.goldenBlockOk x.pick && decide (x.goldSum.toNat = s.rdLe (x.pick + 8) 8)
    && decide (s.rdLe (x.pick + 6) 2 = (s.kernelsOf x).length)

/-- GOLDEN_RUN_END (R518, R615, R616). -/
def execGoldenRunEnd (f : Fin 4) (s : State) : Host.Outcome State Fault Refusal :=
  .next (match s.goldenJob f with
    | none => s
    | some (j, x) =>
      if x.st ≠ .finished then s
      else
        let s1 := ((s.dropGolden j).setReg (oDeck f 0x18) 0).modFrond f fun y => { y with cardUse := .none }
        if s.goldenPasses x then
          let s2 := { s1 with safety := { s1.safety with passAt := tput s1.safety.passAt (32 * f.val + 31) s.deckTime } }
          s2.endHold f 1 0
        else s1.goldenFail f)

/-! Cards. -/

/-- FCLK of a Frond that `ns` nanoseconds hold. -/
def State.fclkIn (s : State) (f : Fin 4) (ns : Nat) : Nat := ns * opMhz (s.frond f).op / 1000
/-- Nanoseconds that `n` FCLK of a Frond take. -/
def State.fclkNs (s : State) (f : Fin 4) (n : Nat) : Nat := cdiv (n * 1000) (opMhz (s.frond f).op)

/-- FCLK that the switch of a Frond has waited for the kernel before it (R511): at most that kernel's KCAP. -/
def State.switchD (s : State) (f : Fin 4) : Nat :=
  let x := s.frond f
  x.swD + (match x.swFrom with
    | some t => s.fclkIn f (s.deckTime - t)
    | none => 0)

/-- THL_DECK_SW_MAX (R512). -/
def State.noteSwitch (s : State) (f : Fin 4) (t : Nat) : State :=
  s.setReg (oDeck f 0x10) (BitVec.ofNat 32 (min 0xFFFFFFFF (max (s.reg (oDeck f 0x10)).toNat t)))

/-- A Card that opened over a running kernel starts late, or is skipped where its start falls at or after its close (R512). `q`
is the queue count of the incoming kernel, 0 without one. -/
def State.startLate (s : State) (f : Fin 4) (q : Nat) : State :=
  let x := s.frond f
  if x.late then
    let s1 := (s.noteSwitch f (420 + 24 * q + s.switchD f)).modFrond f fun y => { y with late := false }
    if x.cardEnd ≤ s.deckTime + s.fclkNs f (420 + 24 * q) then
      let s2 := s1.count (oDeck f 0xC) 1
      if x.cardUse = .golden then s2.cutGolden f else s2.modFrond f fun y => { y with cardUse := .none }
    else s1.count (oDeck f 8) 1
  else s

/-- What a Frond does in a Card (R494, R506, R533, R616): all Cards run as IDLE after STOP, JOB Cards while held, REFRESH Cards
outside EXACT. -/
def State.useOf (s : State) (f : Fin 4) (x : Part) (c : Card) : CardUse :=
  if x.idleAll ∨ (s.frond f).retired then .none
  else match c.kind with
    | 1 => if (s.frond f).holds.isEmpty && !s.mapPending f then .work else .none
    | 2 => .golden
    | 3 => .selftest
    | 4 => if x.mode = .exact then .refresh else .none
    | _ => .none

/-- A Card opens with its place, use and close; a kernel still running makes it late (R503, R506, R511, R512, R516). -/
def State.openCard (s : State) (f r : Fin 4) (x : Part) (b : Bank) (c : Card) (i : Nat) : State :=
  let use := s.useOf f x c
  let busy := (s.frond f).kernel.isSome && decide (use = .work ∨ use = .golden ∨ use = .selftest)
  let stop := x.roundStart b + c.off * 1000 + x.cardLen b c * 1000
  let s1 := s.modFrond f fun y => { y with card := some i, cardUse := use, cardEnd := stop, late := busy,
                                           swFrom := if busy then some s.deckTime else none }
  if use = .golden then s1.startGolden f r c else s1

/-- CARD_OPEN (R503, R506). -/
def execCardOpen (f : Fin 4) (s : State) : Host.Outcome State Fault Refusal :=
  .next (match s.deckOf f, (s.frond f).card with
    | some (r, x, b), none =>
      if s.sys.st ≠ .service ∨ x.paused = true ∨ s.deckTime < x.roundStart b ∨ x.roundStart b + b.round * 1000 ≤ s.deckTime then s
      else (match x.cardAt b f s.deckTime with
        | some (c, i) => s.openCard f r x b c i
        | none => s)
    | _, _ => s)

/-- A Card closes (R503, R508, R512, R517, R519, R533): what a refresh window held goes on; a golden run or segment that still runs is cut, a late Card that never started
is skipped; a kernel runs on. -/
def State.closeCard (s : State) (f : Fin 4) : State :=
  let x := s.frond f
  let s1 := if x.late then s.count (oDeck f 0xC) 1 else s
  let s2 := if x.cardUse = .golden then s1.cutGolden f else s1
  let s3 := if x.stRun.isSome then s2.count (oDeck f 0x1C) 1 else s2
  let s4 := s3.modFrond f fun y => { y with card := none, cardUse := .none, late := false, swFrom := none, switching := none,
                                            stRun := none }
  s4.dramGoOn

/-- CARD_CLOSE. -/
def execCardClose (f : Fin 4) (s : State) : Host.Outcome State Fault Refusal :=
  .next (if (s.frond f).card.isSome ∧ (s.frond f).cardEnd ≤ s.deckTime then s.closeCard f else s)

/-- Closing the Cards of a partition that have reached their close. -/
def State.closeDue (s : State) (r : Fin 4) : State :=
  (s.frondsOf r).foldl (fun s f => if (s.frond f).card.isSome ∧ (s.frond f).cardEnd ≤ s.deckTime then s.closeCard f else s) s

/-! Rounds. -/

/-- A new time budget takes effect at a Round boundary (R499). -/
def State.takeBudget (s : State) (r : Fin 4) : State :=
  let x := s.part r
  match x.activeBank with
  | none => s
  | some b =>
    if x.timeNext = x.timeQ then s
    else
      let cuts := decide (x.timeNext < b.workTime)
      let s1 := s.modPart r fun y => { y with timeQ := y.timeNext, cut := if cuts then some y.timeNext else none }
      if cuts then s1.overQuota r else s1

/-- The break of a Round ends with it (R597). -/
def State.endBreak (s : State) (r : Fin 4) : State :=
  if (s.part r).mode = .exact then { s with power := { s.power with brokenRound := false } } else s

/-- ROUND_START (R499, R503, R671): the next Round of the active bank. -/
def execRoundStart (r : Fin 4) (s : State) : Host.Outcome State Fault Refusal :=
  let x := s.part r
  .next (match x.activeBank with
    | none => s
    | some b =>
      let next := x.roundStart b + b.round * 1000
      let due := match x.switchTo with | some (_, t) => decide (t ≤ next) | none => false
      if s.sys.st ≠ .service ∨ s.deckTime < next ∨ due = true then s
      else
        let s1 := (s.closeDue r).modPart r fun y => { y with round := y.round + 1, paused := false }
        let s2 := (s1.frondsOf r).foldl (fun s f => s.countWrap (oDeck f 4)) s1
        (s2.endBreak r).takeBudget r)

/-- DECK_BANK_ACTIVATE (R499, R503, R504): at T0 the new bank is active; a cut ends with the switch. -/
def execDeckBankActivate (r : Fin 4) (s : State) : Host.Outcome State Fault Refusal :=
  .next (match (s.part r).switchTo with
    | none => s
    | some (b, t) =>
      if s.sys.st ≠ .service ∨ s.deckTime < t then s
      else
        let s1 := (s.closeDue r).modPart r fun y =>
          { y with active := some b, t0 := t, round := 0, cut := none, switchTo := none, paused := false }
        (s1.endBreak r).takeBudget r)

/-! The choice of work. -/

/-- Copies of a job's present kernel that can start on a Frond now (R507, R510). -/
def State.copyFor (s : State) (f : Fin 4) (x : Job) : Option (Fin 4 × Bool) :=
  if x.st = .ready then (s.copies x).find? fun c => decide (s.copyFrond x c = f) && !x.started.contains c else none

/-- Declared worst-case length of a job's present kernel. -/
def State.wcetOf (s : State) (x : Job) : Nat := (s.kernelOf x).elim 0 (·.wcet)

/-- Jobs that can start a kernel on a Frond in a Card: the golden run in a GOLDEN Card, the partition's ready jobs in a JOB Card
whose priority and KCAP admit them (R507, R508, R516). -/
def State.candidates (s : State) (f r : Fin 4) (c : Card) : List (Nat × Job) :=
  s.jobs.filter fun e => (s.copyFor f e.2).isSome && (match e.2.golden with
    | some g => decide (c.kind = 2 ∧ g = f)
    | none => decide (c.kind = 1 ∧ e.2.part = r ∧ e.2.prio ≤ c.prio ∧ s.wcetOf e.2 ≤ c.kcap))

/-- The candidate to start (R507): the most urgent, then the one ready first. -/
def pickJob (l : List (Nat × Job)) : Option (Nat × Job) :=
  (l.mergeSort fun a b => decide (a.2.prio < b.2.prio ∨ (a.2.prio = b.2.prio ∧ a.2.readySince ≤ b.2.readySince))).head?

/-- Whether a Frond can start a kernel at all now. -/
def Frond.awake (x : Frond) : Bool := decide (x.astate = 0) && !x.waking && !x.zfill && !x.restore && !x.retired

/-- Beginning a switch to a job's kernel (R508, R511, R512): not where its start would fall at or after the Card's close. -/
def State.beginSwitch (s : State) (f : Fin 4) (c : Card) (j : Nat) (x : Job) : State :=
  match s.copyFor f x with
  | none => s
  | some k =>
    let q := (s.copyQueues x k).length
    if (s.frond f).cardEnd ≤ s.deckTime + s.fclkNs f (420 + 24 * q) then s.startLate f q
    else
      let s1 := (s.noteSwitch f (420 + 24 * q + s.switchD f)).startLate f q
      s1.modFrond f fun y => { y with switching := some (j, 2 * k.1.val + (if k.2 then 1 else 0), c.kcap), swFrom := none, swD := 0 }

/-- KERNEL_SWITCH (R507, R508, R511, R512): with no kernel running, a switch to the job chosen begins; while one runs, a more urgent ready
job makes a switch wait for it. A late Card without an incoming kernel starts with Q = 0. -/
def execKernelSwitch (f : Fin 4) (s : State) : Host.Outcome State Fault Refusal :=
  .next (match s.cardOn f, s.ownerOf f with
    | some (c, _, _), some r =>
      let y := s.frond f
      if ¬(y.cardUse = .work ∨ y.cardUse = .golden) ∨ y.switching.isSome = true ∨ s.sys.st ≠ .service ∨ y.cardEnd ≤ s.deckTime then s
      else match y.kernel, pickJob (s.candidates f r c) with
        | none, some (j, x) => if y.awake && ((y.holds.isEmpty && !s.mapPending f) || decide (y.cardUse = .golden)) then s.beginSwitch f c j x else s
        | none, none => s.startLate f 0
        | some k, some (_, x) =>
          let urgent := match s.job k.job with | some z => decide (x.prio < z.prio) | none => false
          if urgent && y.swFrom.isNone then s.modFrond f fun z => { z with swFrom := some s.deckTime } else s
        | some _, none => s
    | _, _ => s)

/-- KCAP_EXPIRE (R508, R642, R761): the kernel has run for the KCAP of the Card in which it started: a class U timeout, then L1. The timeout
value is KCAP in µs. -/
def execKcapExpire (f : Fin 4) (s : State) : Host.Outcome State Fault Refusal :=
  .next (match (s.frond f).kernel with
    | none => s
    | some k =>
      let w := s.frondWho f 0xFF
      (s.raise { w.ev (srcOf (16 * f.val) 4) 19 0 (s.fclkNs f k.kcap / 1000) with stepNo := 1 }).l1 f 4)

end Sys2Proof.Machine
end

