-- ==== Sys2Proof/Machine/AStates.lean ====
section
/-! DEFINITION. Latency tolerance, A-states of the Fronds and S1 (R387, R520 to R522, R654, R665 to R671, R707). -/

namespace Sys2Proof.Machine

/-! Tolerance and hints. -/

/-- Wake latency of A3 in µs (R520, R665). -/
def State.a3Latency (s : State) (f : Fin 4) : Nat := 400 + s.power.restoreUs.getD f.val 0

/-- Tolerance in force for a Frond (R667). -/
def State.tolOf (s : State) (x : Part) (f : Fin 4) : Nat := if x.idling then max x.tol (s.a3Latency f) else x.tol

/-- Whether FULL keeps every Frond in A0 or A1 (R707). -/
def State.keepsAwake (s : State) : Bool := decide (s.dbg.level = 2) || s.dbg.pend.isSome

/-- The deepest state whose wake latency the tolerance allows (R520). -/
def State.chosen (s : State) (x : Part) (f : Fin 4) : Fin 4 :=
  let t := s.tolOf x f
  if t < 2 then 0
  else if t < 60 ∨ s.keepsAwake = true then 1
  else if t < s.a3Latency f then 2
  else 3

/-- LAT_TOL_SET (R520): the state reported is that of the partition's lowest Frond. -/
def execLatTolSet (p : Fin 4) (d : Fin 256) (s : State) : Host.Outcome State Fault Refusal :=
  .next (s.runCmd p d.val 0x0032 anyPl anyObj .claimed fun s t =>
    let r := s.cmdPart t
    let s1 := s.modPart r fun x => { x with tol := fld t.payload 0 4 }
    ⟨.ok, leBytes 1 ((s1.frondsOf r).head?.elim 0 fun f => (s1.chosen (s1.part r) f).val), s1⟩)

/-- Recording a PWR_HINT (R667). -/
def State.setHint (s : State) (t : Taken) (h : Nat) : Done :=
  checks [(decide (fld t.payload 0 1 ≤ 2), .arg)] s
    (accept (s.modPart (s.cmdPart t) fun x => { x with hint := h, idling := decide (h ≠ 0) }))

/-- PWR_HINT NONE (R667); also a hint with a reserved code, which is refused. -/
def execPwrHintNone (p : Fin 4) (d : Fin 256) (s : State) : Host.Outcome State Fault Refusal :=
  .next (s.runCmd p d.val 0x0033 (fun b => decide (fld b 0 1 = 0 ∨ 2 < fld b 0 1)) anyObj .claimed fun s t => s.setHint t 0)

/-- PWR_HINT IDLE (R667). -/
def execPwrHintIdle (p : Fin 4) (d : Fin 256) (s : State) : Host.Outcome State Fault Refusal :=
  .next (s.runCmd p d.val 0x0033 (fun b => decide (fld b 0 1 = 1)) anyObj .claimed fun s t => s.setHint t 1)

/-- PWR_HINT STANDBY_OK (R522, R667). -/
def execPwrHintStandbyOk (p : Fin 4) (d : Fin 256) (s : State) : Host.Outcome State Fault Refusal :=
  .next (s.runCmd p d.val 0x0033 (fun b => decide (fld b 0 1 = 2)) anyObj .claimed fun s t => s.setHint t 2)

/-! A-states of a Frond. -/

/-- Whether a Card of the partition does work on a Frond (R506, R521). -/
def State.worksIn (s : State) (f : Fin 4) (x : Part) (b : Bank) (c : Card) : Bool :=
  decide (c.frond = f.val ∧ 0 < x.cardLen b c) &&
    (match s.useOf f x c with | .work | .golden | .selftest => true | .none | .refresh => false)

/-- Whether a working Card of this or the next Round opens within `n` ns. -/
def State.workSoon (s : State) (f : Fin 4) (x : Part) (b : Bank) (n : Nat) : Bool :=
  b.cards.any fun c => s.worksIn f x b c && (List.range 2).any fun k =>
    let o := x.roundStart b + k * (b.round * 1000) + c.off * 1000
    decide (s.deckTime < o ∧ o ≤ s.deckTime + n)

/-- Wake latency of a state in ns (R665). -/
def State.wakeNs (s : State) (f : Fin 4) (a : Fin 4) : Nat :=
  match a with
  | 0 => 0
  | 1 => 2000
  | 2 => 60000
  | 3 => s.a3Latency f * 1000

/-- Whether a Frond has nothing to do now (R521): no Card that works is open, or a JOB Card with no job ready. -/
def State.idleNow (s : State) (f : Fin 4) : Bool :=
  let y := s.frond f
  y.kernel.isNone && y.switching.isNone && (match y.cardUse, s.cardOn f, s.ownerOf f with
    | .none, _, _ => true
    | .work, some (c, _, _), some r => (s.candidates f r c).isEmpty
    | _, _, _ => false)

/-- A Frond's logic switched off; from A3 on its scratchpad too (R665). -/
def State.frondDark (s : State) (f : Fin 4) (a : Fin 4) : State :=
  let s1 := (s.setFrond f ((s.frond f).dark a)).clearFrondRegs f (a = 3)
  if a = 3 then s1.zeroSp f else s1

/-- FROND_ASTATE_ENTRY (R521, R665): the chosen state, where the next working Card is further off than its wake latency. -/
def execFrondAstateEntry (f : Fin 4) (s : State) : Host.Outcome State Fault Refusal :=
  .next (match s.deckOf f with
    | none => s
    | some (_, x, b) =>
      let a := s.chosen x f
      let y := s.frond f
      if s.sys.st = .service ∧ y.astate < a ∧ y.waking = false ∧ y.retired = false ∧ y.zfill = false ∧ y.restore = false
          ∧ s.idleNow f = true ∧ s.workSoon f x b (s.wakeNs f a) = false then
        (if a = 1 then s.modFrond f fun y => { y with astate := 1 } else s.frondDark f a).setRail
      else s)

/-- FROND_WAKE_START (R521). -/
def execFrondWakeStart (f : Fin 4) (s : State) : Host.Outcome State Fault Refusal :=
  let y := s.frond f
  .next (if s.sys.st = .service ∧ y.astate ≠ 0 ∧ y.retired = false then s.modFrond f fun y => { y with waking := true } else s)

/-- Programs of the partition that owns a Frond. -/
def State.progsOn (s : State) (f : Fin 4) : List Nat :=
  (s.progs.filter fun e => decide (s.ownerOf f = some e.2.part)).map (·.1)

/-- User tables of every program of the partition reloaded (R261). -/
def State.reloadSfu (s : State) (f : Fin 4) : State := (s.progsOn f).foldl (fun s g => s.loadSfu f g) s

/-- What firmware does in a wake from A3 (R189, R666): repairs, FRD_MAPOUT, RESBASE, zero-fill, resident area, user tables. -/
def State.wakeWhole (s : State) (f : Fin 4) : State :=
  ((((s.loadSpRepair f).loadMapout f).zeroSp f).setResbase f |>.restoreAll f).reloadSfu f

/-- FULL takes effect once no Frond in service sleeps deeper than A1 (R707). -/
def State.fullAwake (s : State) : State :=
  match s.dbg.pend with
  | none => s
  | some k =>
    if (List.finRange 4).all fun f => (s.frond f).retired || decide ((s.frond f).astate.val ≤ 1) then
      { s with dbg := { s.dbg with level := 2, key := k, pend := none } }
    else s

/-- FROND_WAKE_DONE (R520, R666, R676): the Frond can start a kernel; firmware keeps the newest measured A3 restore. -/
def execFrondWakeDone (f : Fin 4) (restoreUs : Nat) (s : State) : Host.Outcome State Fault Refusal :=
  let y := s.frond f
  .next (if y.waking = false ∨ s.sys.st ≠ .service then s
    else
      let s1 := s.modFrond f fun x => { x with astate := 0, waking := false, zfill := false, restore := false }
      let s2 := if y.astate = 2 then (s1.loadMapout f).reloadSfu f
        else if y.astate = 3 then
          let s0 := s1.wakeWhole f
          { s0 with power := { s0.power with restoreUs := s0.power.restoreUs.set f.val restoreUs } }
        else s1
      ((s2.setOp f).setRail).fullAwake)

/-! S1. -/

/-- Whether firmware may enter S1 (R522, R707, R711). -/
def State.s1Ready (s : State) : Bool :=
  decide (s.sys.st = .service) && decide (s.otp.lifecycle ≠ 0) && !s.keepsAwake && s.jobs.isEmpty &&
    ((List.range 96).all fun c => !((s.reg (oStrm c 0)).getLsbD 31)) &&
    (List.finRange 4).all fun r =>
      let x := s.part r
      decide (x.st = .unclaimed) ||
        ((decide (x.hint = 2) || decide ((s.port x.port).hb = .sleeping)) && decide (12000 ≤ x.tol))

/-- Offsets in the Mat that hold something: listed bytes and those of repaired rows. -/
def State.matOffsets (s : State) : List Nat :=
  let rows := s.regs.filterMap fun e =>
    match arr 0x04F01000 4 1024 e.1 with
    | some i => if e.2.getLsbD 31 then
        let row := bits e.2.toNat 0 12
        some (row / 4 * 16384 + i / 16 * 256 + row % 4 * 64) else none
    | none => none
  (s.mem.filterMap fun e => if matBase ≤ e.1 ∧ e.1 < matBase + 0x1000000 then some (e.1 - matBase) else none)
    ++ rows.flatMap fun o => (List.range 64).map (o + ·)

/-- Blocks with a stored BCW from block `a` on, for 65,536 blocks. -/
def State.bcwOffsets (s : State) (a : Nat) : List Nat :=
  s.bcw.filterMap fun e => if a ≤ e.1 ∧ e.1 < a + 65536 then some (e.1 - a) else none

/-- The Mat copied to its save area, each block with its BCW (R669). -/
def State.saveMat (s : State) : State :=
  let marked := s.upsets.filterMap fun e => if matBase ≤ e.1 ∧ e.1 < matBase + 0x1000000 then some e.1 else none
  let words := s.upsets.filterMap fun e =>
    if checkKey matBase ≤ e.1 ∧ e.1 < checkKey (matBase + 0x1000000) then some (256 * (e.1 - checkBase)) else none
  let s0 := words.foldl (fun s a => s.reportCheckWord Who.firmware a) (marked.foldl (fun s a => s.reportMarks Who.firmware a 8) s)
  let s1 := s0.zeroRange s1Save 0x1000000
  let s2 := s.matOffsets.foldl (fun t o => t.wr (s1Save + o) (s.rd (matBase + o))) s1
  (s.bcwOffsets (matBase / 256)).foldl (fun t b => t.setBcw (s1Save + 256 * b) (s.bcwAt (matBase + 256 * b))) s2

/-- Blocks of the save area that hold something. -/
def State.savedBlocks (s : State) : List Nat :=
  ((s.mem.filterMap fun e => if s1Save ≤ e.1 ∧ e.1 < s1Save + 0x1000000 then some ((e.1 - s1Save) / 256) else none)
    ++ s.bcwOffsets (s1Save / 256)).dedup

/-- The Mat restored from the save area, each block's BCW checked (R671). -/
def State.restoreMat (s : State) : State :=
  (s.savedBlocks).foldl (fun s b =>
    let a := s1Save + 256 * b
    let s1 := (s.reportMarks Who.firmware a 256).checkBlock Who.firmware a
    s1.putBlock (matBase + 256 * b) (s1.block a) (s1.bcwAt a)) (s.zeroMat 0 0x1000000)

/-- Power-on time saved to NOR (R654). -/
def State.savePowerOn (s : State) : State := ({ s with nor := { s.nor with powerOn := s.power.powerOn } }).saveNor 3

/-- TIME_INC in S1 (R387): times 1,171.875, rounded once. -/
def aoIncOf (inc : Nat) : Nat := (rneDiv ((inc : Int) * 9375) 8).toNat

/-- Device time as S1 starts (R387). -/
def TimeUnit.enterS1 (t : TimeUnit) : TimeUnit :=
  { t with aoInc := aoIncOf t.inc.toNat, coarse := true, launch := [], fwd := [], trig := t.trig.map fun (x : Trig) => { x with pulseEnd := none } }

/-- A queued launch that S1 entry discards is reported as not sent (R387): a PTP_TX notice with its TAG, whose egress stamp, of
a frame that never left, is a free value (DESIGN CHOICE, notes/assumptions/76). -/
def State.unsent (s : State) (mac : Nat) (l : Launch) : State :=
  let r := s.freeBytes 3
  r.2.notice l.part 0x4003 .ok (leBytes 1 mac ++ leBytes 3 0 ++ leBytes 4 l.tag.toNat ++ r.1.take 10)

/-- Every queued launch is reported as not sent. -/
def State.allUnsent (s : State) : State :=
  s.time.launch.foldl (fun s e => e.2.foldl (fun s l => s.unsent e.1 l) s) s

/-- S1_ENTRY (R387, R522, R668, R669, R705). -/
def execS1Entry (s : State) : Host.Outcome State Fault Refusal :=
  .next (if s.s1Ready then
      let s0 := s.savePowerOn.allUnsent
      let s1 := { s0 with
        time := s0.time.enterS1
        links := Vector.ofFn fun l => { Link.reset with peer := (s0.link l).peer } }
      let s2 := (s1.saveMat.closeDebug.dropHalts).setDev .standby
      let s3 := (List.finRange 4).foldl (fun s f => s.frondDark f 3) s2
      let s4 := { (s3.zeroMat 0 0x1000000) with power := { s3.power with s1 := true, locked := false } }
      { s4 with fronds := s4.fronds.map fun (x : Frond) => { x with card := none, cardUse := .none, late := false, stRun := none } }
    else s)

/-- Rounds resume at the next Round start in deck time (R671). -/
def State.resumeRounds (s : State) : State :=
  { s with parts := s.parts.map fun (x : Part) =>
      match x.activeBank with
      | some b => { x with round := max x.round ((s.deckTime - x.t0) / (b.round * 1000)), paused := true }
      | none => x }

/-- Registers DRC_MAT_REPAIR (R198). -/
def isMatRepair (o : Nat) : Bool := decide (oMatRepair 0 0 ≤ o ∧ o < oMatRepair 64 0)

/-- A wake from S1 (R189, R671, R677): DRC_MAT_REPAIR reloaded, the Mat restored, each Frond as from A3. -/
def State.wakeS1 (s : State) : State :=
  let s1 := { s with power := { s.power with s1 := false, locked := true, budget := 800000000, overTime := 0 } }
  let s2 := ((s1.clearRegs isMatRepair).loadMatRepair.restoreMat).resumeRounds
  let s3 := (List.finRange 4).foldl (fun s f =>
    if (s.frond f).retired then s
    else (s.modFrond f fun x => { x with astate := 0, waking := false, zfill := false, restore := false }).wakeWhole f) s2
  s3.applyOps.setDev .service

/-- S1_WAKE (R670, R671): every cause wakes alike. -/
def execS1Wake (_c : WakeCause) (s : State) : Host.Outcome State Fault Refusal := .next (if s.power.s1 then s.wakeS1 else s)

/-- POWER_ON_TIME_SAVE (R654). -/
def execPowerOnTimeSave (s : State) : Host.Outcome State Fault Refusal := .next s.savePowerOn

end Sys2Proof.Machine
end

