-- ==== Sys2Proof/Machine/Lz4.lean ====
section
/-! DEFINITION. One LZ4 frame decoded (R357): frame descriptor, blocks and xxHash-32 check words as the published LZ4 frame format
gives them (PRESUMED, notes/assumptions/9), pure. -/

namespace Sys2Proof.Machine

/-! xxHash-32 with seed 0. -/

/-- One lane of four bytes taken into an accumulator. -/
def xxRound (acc : BitVec 32) (lane : Nat) : BitVec 32 :=
  (acc + BitVec.ofNat 32 lane * 2246822519#32).rotateLeft 13 * 2654435761#32

/-- Whole 16-byte stripes of a text; fuel bounds them. -/
def xxStripes : Nat → List Byte → List (BitVec 32) → List (BitVec 32) × List Byte
  | 0, l, a => (a, l)
  | k + 1, l, a =>
    if l.length < 16 then (a, l)
    else xxStripes k (l.drop 16) (a.zipIdx.map fun (x, i) => xxRound x (fld l (4 * i) 4))

/-- What is left behind the stripes: words of four bytes, then single bytes; fuel bounds them. -/
def xxTail : Nat → List Byte → BitVec 32 → BitVec 32
  | 0, _, h => h
  | k + 1, l, h =>
    if 4 ≤ l.length then xxTail k (l.drop 4) ((h + BitVec.ofNat 32 (fld l 0 4) * 3266489917#32).rotateLeft 17 * 668265263#32)
    else match l with
      | [] => h
      | b :: t => xxTail k t ((h + BitVec.ofNat 32 b.toNat * 374761393#32).rotateLeft 11 * 2654435761#32)

/-- xxHash-32 of a text, seed 0. -/
def xxh32 (l : List Byte) : BitVec 32 :=
  let p1 : BitVec 32 := 2654435761
  let p2 : BitVec 32 := 2246822519
  let st := xxStripes (l.length / 16) l [p1 + p2, p2, 0, 0 - p1]
  let a := fun (i : Nat) => st.1.getD i 0
  let h0 := if l.length < 16 then (374761393 : BitVec 32)
    else (a 0).rotateLeft 1 + (a 1).rotateLeft 7 + (a 2).rotateLeft 12 + (a 3).rotateLeft 18
  let h1 := xxTail 16 st.2 (h0 + BitVec.ofNat 32 l.length)
  let h2 := (h1 ^^^ (h1 >>> 15)) * p2
  let h3 := (h2 ^^^ (h2 >>> 13)) * 3266489917
  h3 ^^^ (h3 >>> 16)

/-! Blocks. -/

/-- Bytes that go on a length: each 255 asks for a further one. -/
def lz4Ext : List Byte → Nat → Option (Nat × List Byte)
  | [], _ => none
  | b :: t, n => if b = 255 then lz4Ext t (n + 255) else some (n + b.toNat, t)

/-- A length of a sequence from its nibble. -/
def lz4Len (nib : Nat) (l : List Byte) : Option (Nat × List Byte) := if nib = 15 then lz4Ext l 15 else some (nib, l)

/-- Copying a match, byte by byte, onto reversed output. -/
def lz4Copy : Nat → Nat → List Byte → List Byte
  | 0, _, o => o
  | k + 1, off, o => lz4Copy k off (o.getD (off - 1) 0 :: o)

/-- One compressed block onto reversed output: matches reach back at most to `floor`, output goes no further than `lim` bytes;
fuel bounds the sequences. -/
def lz4Block (floor lim : Nat) : Nat → List Byte → List Byte → Option (List Byte)
  | 0, _, _ => none
  | _ + 1, [], _ => none
  | k + 1, tok :: t, out =>
    match lz4Len (tok.toNat / 16) t with
    | none => none
    | some (n, t1) =>
      let out1 := (t1.take n).reverse ++ out
      if t1.length < n ∨ lim < out1.length then none
      else match t1.drop n with
        | [] => some out1
        | [_] => none
        | a :: b :: t2 =>
          let off := a.toNat + 256 * b.toNat
          match lz4Len (tok.toNat % 16) t2 with
          | none => none
          | some (m, t3) =>
            if off = 0 ∨ out1.length - floor < off ∨ lim < out1.length + m + 4 then none
            else lz4Block floor lim k t3 (lz4Copy (m + 4) off out1)

/-! Frames. -/

/-- The blocks of a frame up to its end mark, onto reversed output: what stands behind the end mark, and the output. `top` is the
block maximum size, `raw` RAWLEN; fuel bounds the blocks. -/
def lz4Blocks (indep sums : Bool) (top raw : Nat) : Nat → List Byte → List Byte → Option (List Byte × List Byte)
  | 0, _, _ => none
  | k + 1, l, out =>
    let w := fld l 0 4
    let n := w % 2 ^ 31
    let body := (l.drop 4).take n
    let rest := l.drop (4 + n + (if sums then 4 else 0))
    if l.length < 4 then none
    else if w = 0 then some (l.drop 4, out)
    else if top < n ∨ l.length < 4 + n + (if sums then 4 else 0) ∨ (sums = true ∧ (xxh32 body).toNat ≠ fld l (4 + n) 4) then none
    else
      let lim := min raw (out.length + top)
      match (if w < 2 ^ 31 then lz4Block (if indep then out.length else 0) lim (n + 1) body out
        else if lim < out.length + n then none else some (body.reverse ++ out)) with
      | none => none
      | some o => lz4Blocks indep sums top raw k rest o

/-- One LZ4 frame that decodes to no more than `raw` bytes (R357). A dictionary ID, a content size other than `raw`, a skippable
frame, a check word that does not verify, a reserved encoding and bytes behind the frame are decode errors. -/
def lz4Decode (l : List Byte) (raw : Nat) : Option (List Byte) :=
  let flg := fld l 4 1
  let bd := fld l 5 1
  let hasSize := bit1 flg 3
  let d := if hasSize then 14 else 6
  if l.length < d + 1 ∨ fld l 0 4 ≠ 0x184D2204 ∨ flg / 64 ≠ 1 ∨ bit1 flg 1 = true ∨ bit1 flg 0 = true ∨ bd % 16 ≠ 0 ∨ bd / 16 < 4
      ∨ 7 < bd / 16 ∨ (hasSize = true ∧ fld l 6 8 ≠ raw)
      ∨ fld l d 1 ≠ (xxh32 ((l.drop 4).take (d - 4))).toNat / 256 % 256 then none
  else match lz4Blocks (bit1 flg 5) (bit1 flg 4) (65536 * 4 ^ (bd / 16 - 4)) raw (l.length + 1) (l.drop (d + 1)) [] with
    | none => none
    | some (rest, out) =>
      let o := out.reverse
      if bit1 flg 2 then
        if rest.length = 4 ∧ (xxh32 o).toNat = fld rest 0 4 then some o else none
      else if rest.isEmpty then some o else none

end Sys2Proof.Machine
end

