-- ==== Sys2Proof/Machine/Dealer.lean ====
section
/-! DEFINITION. The Dealer: starting, ending, skipping and delivering records (R352 to R371). -/

namespace Sys2Proof.Machine

/-! The image. -/

/-- Number of samples in the image. -/
def State.imgSamples (s : State) (g : DealerCfg) : Nat := s.rdLe (g.base + 8) 8
/-- Index entry of position `pos` in an epoch (R353, R360): first record's offset and number of records. -/
def State.imgEntry (s : State) (g : DealerCfg) (epoch pos : Nat) : Nat × Nat :=
  let i := if g.shuffle then perm g.seed epoch s.dealer.nsamp pos else pos
  let a := g.base + s.rdLe (g.base + 16) 8 + 16 * i
  (s.rdLe a 8, s.rdLe (a + 8) 8)

/-- Whether an index entry is one that R353 allows. -/
def entryOk (e : Nat × Nat) : Bool := decide (1 ≤ e.2 ∧ e.2 ≤ 16)

/-- Records that stand at a position: one, CORRUPT, where its index entry is not allowed (R359). -/
def State.recsAt (s : State) (g : DealerCfg) (epoch pos : Nat) : Nat :=
  let e := s.imgEntry g epoch pos
  if entryOk e then e.2 else 1

/-- Whether a record at `off` lies in the data region with a LEN that R354 allows. -/
def State.recFits (s : State) (g : DealerCfg) (off : Nat) : Bool :=
  let len := s.rdLe (g.base + off) 4
  decide (s.rdLe (g.base + 24) 8 ≤ off ∧ len % 4 = 0 ∧ 40 ≤ len ∧ len ≤ 34603008 ∧ off + len ≤ s.rdLe (g.base + 32) 8)

/-- Offset of record `k` of a sample; a record whose LEN is not allowed hides those behind it. -/
def State.recOff (s : State) (g : DealerCfg) (off : Nat) : Nat → Nat
  | 0 => off
  | k + 1 =>
    let o := s.recOff g off k
    if s.recFits g o then o + s.rdLe (g.base + o) 4 else o

/-- Context of a channel. -/
def DealerCfg.ctx (g : DealerCfg) (chan : Nat) : Option Nat :=
  match g.chans[chan]? with
  | some c => if c < 96 then some c else none
  | none => none

/-- Everything R359 asks of a record before decoding. -/
def State.recOk (s : State) (g : DealerCfg) (first off : Nat) (b : List Byte) : Bool :=
  let n := b.length
  let pad := fld b 26 2
  s.recFits g off && decide (crc32c (b.take (n - 4)) = fld b (n - 4) 4 ∧ 1 ≤ fld b 4 1 ∧ fld b 4 1 ≤ 3 ∧ fld b 5 1 ≤ 15
    ∧ fld b 6 1 ≤ 1 ∧ fld b 7 1 = 0 ∧ fld b 14 2 = 0 ∧ pad ≤ 3 ∧ 36 + pad ≤ n ∧ fld b (n - 4 - pad) pad = 0
    ∧ 1 ≤ fld b 28 4 ∧ fld b 28 4 ≤ 33554432 ∧ fld b 8 8 = s.rdLe (g.base + first + 8) 8) &&
    (match g.ctx (fld b 5 1) with
    | none => false
    | some c => decide (s.strmKind c = 4 ∧ bits (s.strmCfg c) 16 4 = fld b 4 1))

/-- Decoded payload of a record (R357, R359). -/
def decodeRec (b : List Byte) : Option (List Byte) :=
  let raw := fld b 28 4
  let stored := (b.drop 32).take (b.length - 36 - fld b 26 2)
  let out := if fld b 6 1 = 1 then lz4Decode stored raw else some stored
  match out with
  | some l => if l.length = raw then some l else none
  | none => none

/-- Bytes of a record. -/
def State.recBytes (s : State) (g : DealerCfg) (off : Nat) : List Byte := s.rdN (g.base + off) (s.rdLe (g.base + off) 4)

/-- The position after `(epoch, pos)`. -/
def nextPos (nsamp epoch pos : Nat) : Nat × Nat := if pos + 1 < nsamp then (epoch, pos + 1) else (epoch + 1, 0)

/-- Whether an epoch lies past the last one (R361). -/
def DealerCfg.past (g : DealerCfg) (epoch : Nat) : Bool := decide (g.nepoch ≠ 0 ∧ g.epoch0 + g.nepoch ≤ epoch)

/-- Changing the Dealer. -/
def State.modDealer (s : State) (h : Dealer → Dealer) : State := { s with dealer := h s.dealer }

/-- The start pointer moves behind a record. -/
def State.startNext (s : State) (g : DealerCfg) : State :=
  let d := s.dealer
  if d.startRec + 1 < s.recsAt g d.startEpoch d.startPos then s.modDealer fun x => { x with startRec := d.startRec + 1 }
  else
    let n := nextPos d.nsamp d.startEpoch d.startPos
    s.modDealer fun x => { x with startEpoch := n.1, startPos := n.2, startRec := 0 }

/-- Lines, packets or the message of a record's payload (R355). -/
def recLines (sub dt w : Nat) (l : List Byte) : List (List Byte) :=
  let cut := fun (n : Nat) => chunks n (l.length + 1) l
  match sub with
  | 1 => cut (max 1 (dtBytes dt w))
  | 2 => (List.range (l.length / 2)).foldl (fun (a : List (List Byte) × List Byte) _ =>
      if a.2.length < 2 then a else
        let n := fld a.2 0 2
        (a.1 ++ [(a.2.drop 2).take n], a.2.drop (2 + n))) ([], l) |>.1
  | _ => [l]

/-- Whether a length prefix of a TYPE 2 payload runs past its end; fuel bounds the packets. -/
def lastCut : Nat → List Byte → Bool
  | 0, _ => false
  | k + 1, l => if l.length < 2 then false else decide (l.length < 2 + fld l 0 2) || lastCut k (l.drop (2 + fld l 0 2))

/-- Whether a record's payload ends inside a line or a packet (R355): its frame is errored then. -/
def recCut (sub dt w : Nat) (l : List Byte) : Bool :=
  match sub with
  | 1 => decide (l.length % max 1 (dtBytes dt w) ≠ 0)
  | 2 => decide ((recLines 2 dt w l).foldl (fun n p => n + 2 + p.length) 0 ≠ l.length) || lastCut (l.length / 2) l
  | _ => false

/-- A record with no payload. -/
def recNone (epoch pos num : Nat) (st : RecStatus) (ms : Nat) (b : List Byte) : RecDone :=
  ⟨epoch, pos, num, st, ms, fld b 5 1 % 16, fld b 8 6, fld b 20 6 * 1000000000 + fld b 16 4, [], [], false⟩

/-- DEALER_RECORD_START (R363, R364): the next record in order starts on a free lane; a record that drops out is resolved
without being decoded. -/
def execDealerRecordStart (lane : Fin 8) (s : State) : Host.Outcome State Fault Refusal :=
  .next (match s.dealer.cfg with
    | none => s
    | some g =>
      let d := s.dealer
      let ahead := d.startEpoch * d.nsamp + d.startPos
      if d.run && (tfind d.lanes lane.val).isNone && !g.past d.startEpoch
          && decide (ahead < d.epoch * d.nsamp + d.pos + 64) then
        let e := s.imgEntry g d.startEpoch d.startPos
        let off := s.recOff g e.1 d.startRec
        let b := s.recBytes g off
        let s1 := s.startNext g
        if entryOk e && s.recOk g e.1 off b && g.dropout d.startEpoch (fld b 8 8) (fld b 5 1) then
          s1.modDealer fun x => { x with done := x.done ++ [recNone d.startEpoch d.startPos d.startRec .dropout 0 b] }
        else s1.modDealer fun x => { x with lanes := tput x.lanes lane.val ⟨d.startEpoch, d.startPos, d.startRec, off, false⟩ }
      else s)

/-- Budget in µs; `none` for no budget (R365). -/
def Dealer.budget (d : Dealer) (g : DealerCfg) : Option Nat :=
  if g.mult = 0 then none
  else if d.times.length < 8 then some (g.floorMs * 1000)
  else some (max (g.floorMs * 1000) (g.mult * dealerMedian d.times))

/-- DEALER_RECORD_DONE (R357, R359, R363, R365): the record is checked, decoded and augmented. -/
def execDealerRecordDone (lane : Fin 8) (decodeUs : Nat) (s : State) : Host.Outcome State Fault Refusal :=
  .next (match s.dealer.cfg, tfind s.dealer.lanes lane.val with
    | some g, some r =>
      let e := s.imgEntry g r.epoch r.pos
      let b := s.recBytes g r.off
      let ms := min 255 (decodeUs / 1000)
      let w := { Who.unit 75 with part := g.part.val }
      let s1 := (s.reportRead w (g.base + r.off) b.length).modDealer fun x => { x with lanes := tdel x.lanes lane.val }
      let late := match s.dealer.budget g with | some t => decide (t < decodeUs) | none => false
      let put := fun (s : State) (q : RecDone) => s.modDealer fun x => { x with done := x.done ++ [q] }
      if late then put s1 (recNone r.epoch r.pos r.num .skipped ms b)
      else if !(entryOk e && s.recOk g e.1 r.off b) then put s1 (recNone r.epoch r.pos r.num .corrupt ms b)
      else match decodeRec b with
        | none => put s1 (recNone r.epoch r.pos r.num .corrupt ms b)
        | some l =>
          let q := recNone r.epoch r.pos r.num .ok ms b
          let s2 := s1.modDealer fun x => { x with times := (decodeUs :: x.times).take 63 }
          put s2 { q with payload := l, sums := payloadSums l, icheck := r.icheck }
    | _, _ => s)

/-- DEALER_BUDGET_EXPIRE (R366): the record decoding on a lane is abandoned. -/
def execDealerBudgetExpire (lane : Fin 8) (s : State) : Host.Outcome State Fault Refusal :=
  .next (match s.dealer.cfg, tfind s.dealer.lanes lane.val with
    | some g, some r =>
      match s.dealer.budget g with
      | none => s
      | some t =>
        let q := recNone r.epoch r.pos r.num .skipped (min 255 (t / 1000)) (s.recBytes g r.off)
        s.modDealer fun x => { x with lanes := tdel x.lanes lane.val, done := x.done ++ [q] }
    | _, _ => s)

/-! Delivery. -/

/-- STATUS code in the log (R370). -/
def RecStatus.code : RecStatus → Nat
  | .ok => 0 | .skipped => 1 | .corrupt => 2 | .dropout => 3

/-- The log entry of a record (R370), written as a merge (R174). -/
def State.logRec (s : State) (g : DealerCfg) (r : RecDone) : State :=
  let e := leBytes 8 r.sidx ++ leBytes 4 r.epoch ++ leBytes 2 r.pos ++ leBytes 1 (r.chan + 16 * r.status.code) ++ leBytes 1 r.ms
  let s1 := if g.logN = 0 then s
    else s.storeChecked { Who.unit 75 with part := g.part.val } (g.logBase + 16 * (s.dealer.logged % g.logN)) e
  s1.modDealer fun x => { x with logged := x.logged + 1 }

/-- Whether the Dealer may start a delivery on a context (R356, R367). -/
def State.dealerReady (s : State) (c : Nat) : Bool :=
  s.strmOn c && ((s.stream c).pickSlot (s.regF (oStrm c 0) 0 4)).isSome && (match (s.stream c).lastStart with
    | none => true
    | some t => decide (t + s.regF (oStrm c 8) 0 16 * 10000 ≤ s.now))

/-- An OK record enters its context as one frame (R355, R367, R369). -/
def State.feedFrame (s : State) (g : DealerCfg) (c : Nat) (r : RecDone) : State :=
  let s1 := s.frameStart c s.now false
  let sub := bits (s.strmCfg c) 16 4
  let dt := bits (s.strmCfg c) 10 6
  let w := s.regF (oStrm c 4) 0 16
  let h := s.regF (oStrm c 4) 16 16
  let raw := recLines sub dt w r.payload
  let lines := if sub = 1 then g.camera r.epoch r.sidx r.chan dt raw else raw
  if s1.strmSt c = 4 then s1
  else if (sub ≤ 2 ∧ h < lines.length) ∨ (sub = 2 ∧ lines.any (fun l => decide (w < l.length)) = true)
      ∨ (sub = 3 ∧ 240 < r.payload.length) then s1.quarantine c 9
  else
    let n := if sub = 2 then scanOf (s.paramBlk c) (lines.headD []) else 0
    let s2 := s1.modStream c fun x => { x with frame := x.frame.map fun (f : FrameRun) =>
      { f with lines := lines, sums := if sub = 1 then lines.map payloadSums else [], sens := some r.sens, sidx := r.sidx,
               epoch := r.epoch, chan := r.chan, sensCnt := n, icheck := r.icheck || decide (r.sums ≠ payloadSums r.payload) } }
    if (sub ≤ 2 ∧ lines.length < h) ∨ recCut sub dt w r.payload = true then s2.badEnd c else s2.goodEnd c false

/-- JOB_DONE with ST_SKIPPED to each job bound to a context (R483). -/
def State.skipJobs (s : State) (c : Nat) (r : RecDone) : State :=
  (s.jobs.filter fun e => e.2.streams.contains c && e.2.golden.isNone).foldl (fun s e =>
    s.jobDone e.1 { e.2 with sidx := r.sidx, sens := r.sens, sensStep := s.time.stepSum, replayed := true } St.skipped.code false 0) s

/-- A record that delivers no frame (R368, R369, R483); on a context of another KIND it does nothing (R359). -/
def State.missRec (s : State) (c : Nat) (r : RecDone) : State :=
  if s.strmKind c ≠ 4 then s
  else
    let s1 := s.modStream c fun x => { x with starts := x.starts + 1 }
    let s2 := if r.status = .corrupt ∧ s.strmOn c = true ∧ s.strmSt c ≠ 4 then
        (((s1.modStream c fun x => let y := x.push true; { y with good := 0 }).count (oStrm c 0x28) 1).showErrs c).degrade c
      else s1
    s2.skipJobs c r

/-- Register that counts a status (R372). -/
def RecStatus.reg : RecStatus → Nat
  | .ok => 0x03080010 | .skipped => 0x03080014 | .corrupt => 0x03080018 | .dropout => 0x0308001C

/-- The delivery pointer moves behind a record; past the last epoch the Dealer stops with a DEALER_DONE notice (R361, R490). -/
def State.deliverNext (s : State) (g : DealerCfg) : State :=
  let d := s.dealer
  if d.nextRec + 1 < s.recsAt g d.epoch d.pos then s.modDealer fun x => { x with nextRec := d.nextRec + 1 }
  else
    let n := nextPos d.nsamp d.epoch d.pos
    let s1 := s.modDealer fun x => { x with epoch := n.1, pos := n.2, nextRec := 0 }
    if g.past n.1 then
      (s1.modDealer fun x => { x with run := false }).notice g.part 0x4004 .ok
        (leBytes 4 d.epoch ++ leBytes 4 d.delivered ++ leBytes 4 d.missed)
    else s1

/-- DEALER_DELIVER (R364, R367 to R370): the record whose turn it is, once its context can take it. -/
def execDealerDeliver (s : State) : Host.Outcome State Fault Refusal :=
  .next (match s.dealer.cfg with
    | none => s
    | some g =>
      let d := s.dealer
      let mine := fun (r : RecDone) => decide (r.epoch = d.epoch ∧ r.pos = d.pos ∧ r.num = d.nextRec)
      match d.done.find? mine with
      | none => s
      | some r =>
        if !d.run then s
        else
          let s1 := s.modDealer fun x => { x with done := x.done.filter fun q => !mine q }
          match g.ctx r.chan with
          | none =>
            let s2 := ((s1.logRec g r).count r.status.reg 1).modDealer fun x => { x with missed := x.missed + 1 }
            s2.deliverNext g
          | some c =>
            if r.status = .ok then
              if s.dealerReady c then
                let s2 := ((s1.logRec g r).feedFrame g c r).count r.status.reg 1
                (s2.modDealer fun x => { x with delivered := x.delivered + 1 }).deliverNext g
              else s
            else
              let s2 := ((s1.logRec g r).missRec c r).count r.status.reg 1
              (s2.modDealer fun x => { x with missed := x.missed + 1 }).deliverNext g)

end Sys2Proof.Machine
end

