-- ==== Sys2Proof/Machine/DealerCmds.lean ====
section
/-! DEFINITION. The Dealer over Ebwick (R352, R358, R361, R371, R374, R487). -/

namespace Sys2Proof.Machine

/-- The configuration that a DEALER_CONFIG names (R487). -/
def dealerCfgOf (r : Fin 4) (b : List Byte) : DealerCfg :=
  { part := r, base := fld b 0 8, len := fld b 8 8, seed := fld b 16 8, epoch0 := fld b 24 4, nepoch := fld b 28 4,
    shuffle := bit1 (fld b 32 1) 0, ops := fld b 32 1 / 2 % 32, floorMs := fld b 34 2, mult := fld b 36 2,
    logBase := fld b 40 8, logN := fld b 48 4, probDrop := fld b 52 4, probBlur := fld b 56 4, glo := fld b 60 2,
    ghi := fld b 62 2, olo := sext 16 (fld b 64 2), ohi := sext 16 (fld b 66 2), namp := fld b 68 2, jr := fld b 70 2,
    ja := fld b 72 2, chans := (List.range 16).map fun i => fld b (76 + i) 1 }

/-- Whether a configuration is in range and its memory the partition's own. -/
def State.dealerCfgOk (s : State) (b : List Byte) (g : DealerCfg) : Bool :=
  decide (fld b 32 1 < 64 ∧ g.glo ≤ g.ghi ∧ g.olo ≤ g.ohi) && g.chans.all (fun c => decide (c < 96 ∨ c = 0xFF)) &&
    s.ownMem g.part g.base g.len (· == 0) && (decide (g.logN = 0) || s.ownMem g.part g.logBase (16 * g.logN) (· ≤ 1))

/-- Whether every context a configuration names is its partition's or nobody's. -/
def State.dealerChans (s : State) (g : DealerCfg) : Bool :=
  g.chans.all fun c => decide (96 ≤ c) || (match (s.stream c).owner with | some q => decide (q = g.part) | none => true)

/-- DEALER_CONFIG (R371, R487). -/
def execDealerConfig (p : Fin 4) (d : Fin 256) (s : State) : Host.Outcome State Fault Refusal :=
  .next (s.runCmd p d.val 0x0050 anyPl (fun s _ => !s.dealer.run) .claimed fun s t =>
    let g := dealerCfgOf (s.cmdPart t) t.payload
    checks [(s.dealerChans g, .auth), (s.dealerCfgOk t.payload g, .arg)] s
      (accept { s with dealer := { Dealer.reset with cfg := some g } }))

/-- Whether the Dealer is configured by a command's partition. -/
def State.dealerMine (s : State) (t : Taken) : Bool :=
  match s.dealer.cfg with
  | some g => decide (g.part = s.cmdPart t)
  | none => false

/-- Whether the image's header and index pass R352 and R358. -/
def State.imageOk (s : State) (g : DealerCfg) : Bool :=
  let h := s.rdN g.base 64
  let n := fld h 8 8
  let len := fld h 32 8
  decide (64 ≤ g.len ∧ fld h 0 4 = 0x31535243 ∧ fld h 4 2 = 1 ∧ fld h 6 2 = 0 ∧ 1 ≤ n ∧ n ≤ 16777216 ∧ fld h 16 8 % 16 = 0
    ∧ fld h 24 8 % 4 = 0 ∧ fld h 16 8 + 16 * n ≤ len ∧ fld h 24 8 ≤ len ∧ len ≤ g.len ∧ crc32c (h.take 60) = fld h 60 4)
    && zerosAt h 44 16 && decide (crc32c (s.rdN (g.base + fld h 16 8) (16 * n)) = fld h 40 4)

/-- DEALER_START (R358, R361, R371, R374): replay begins at position 0 of EPOCH0 with the counters cleared. -/
def State.doDealerStart (s : State) (t : Taken) : Done :=
  match s.dealer.cfg with
  | none => refuse .state s
  | some g =>
    checks [(s.dealerMine t, .auth), (s.imageOk g, .arg)] s (
      let n := s.imgSamples g
      let w := { Who.unit 75 with part := g.part.val }
      let s1 := (s.reportRead w g.base 64).reportRead w (g.base + s.rdLe (g.base + 16) 8) (16 * n)
      let s2 := s1.clearRegs fun o => decide (0x03080010 ≤ o ∧ o < 0x03080020)
      let x : Dealer := { Dealer.reset with cfg := some g, run := true, nsamp := n, epoch := g.epoch0, startEpoch := g.epoch0 }
      ⟨.ok, leBytes 8 n, { s2 with dealer := x }⟩)

/-- DEALER_START. -/
def execDealerStart (p : Fin 4) (d : Fin 256) (s : State) : Host.Outcome State Fault Refusal :=
  .next (s.runCmd p d.val 0x0051 anyPl (fun s _ => s.dealer.cfg.isSome && !s.dealer.run) .claimed fun s t => s.doDealerStart t)

/-- DEALER_STOP (R371): records in decode are abandoned, nothing further is delivered or logged. -/
def execDealerStop (p : Fin 4) (d : Fin 256) (s : State) : Host.Outcome State Fault Refusal :=
  .next (s.runCmd p d.val 0x0052 anyPl (fun s _ => s.dealer.run) .claimed fun s t =>
    checks [(s.dealerMine t, .auth)] s
      ⟨.ok, leBytes 4 s.dealer.pos ++ leBytes 4 s.dealer.epoch,
        s.modDealer fun x => { x with run := false, lanes := [], done := [] }⟩)

end Sys2Proof.Machine
end

