-- ==== Sys2Proof/Machine/TrickOps.lean ====
section
/-! DEFINITION. The Trick engine (R571 to R580): contributions, verification, commit, delivery. -/

namespace Sys2Proof.Machine

/-- The group, entry and block that a Mat address is in the own module's slot of, for a partition that contributes (R571). -/
def State.ownSlotAt (s : State) (r : Fin 4) (a : Nat) : Option (Group × Nat × Nat) :=
  let own := s.sys.modId.toNat
  (s.groups.filter fun g => decide (g.part = r)).findSome? fun g =>
    (List.range (s.ntrick g)).findSome? fun e =>
      let t := s.tentry g e
      let b := s.slotBase g t own
      if t.senders.getLsbD own ∧ b ≤ a ∧ a < b + t.slice then some (g, e, (a - b) / 256) else none

/-- The instance that own writes to an entry belong to (R566: from 0 at GROUP_FORM). -/
def Group.nextInst (g : Group) (e : Nat) : Nat := tget (fun _ => 0) g.next e

/-- Moving an entry's own instance on once its slot is closed. -/
def State.bumpInst (s : State) (key : Word) (e : Nat) : State :=
  { s with groups := s.groups.map fun (g : Group) =>
      if g.key = key then { g with next := tput g.next e (g.nextInst e + 1) } else g }

/-- Delivery of one token to a Frond for the receiving job (R139, R577). -/
def State.deliverTo (s : State) (j : Nat) (f : Fin 4) (tok : Nat) : State :=
  match s.job j with
  | none => s
  | some x =>
    if (s.frond f).runs j then s.modFrond f fun y => y.addToken tok 1
    else s.modJob j fun y => { y with signals := y.signals ++ [(f, ⟨j, x.inst, 0xFFFF, tok, 1⟩)] }

/-- Delivery of an instance, or of one slot under ARRIVAL (R577, R579): the receiving job is recorded in the instance. -/
def State.deliverTrick (s : State) (g : Group) (t : Trick) : State :=
  match s.receiver g t with
  | none => s
  | some j =>
    let e := s.tentry g t.entry
    let s1 := ((List.finRange 4).filter fun f => e.dfrond.getLsbD f.val).foldl (fun s f => s.deliverTo j f e.dtok) s
    (s1.modTrick t.key t.entry t.inst fun u => { u with job := some j }).modJob j fun x =>
      { x with tricks := if x.tricks.contains (t.key, t.entry, t.inst) then x.tricks
                         else x.tricks ++ [(t.key, t.entry, t.inst)] }

/-- Whether a slot has been verified and its sender has committed. -/
def SlotSt.clean (q : SlotSt) : Bool := q.verified && decide (q.commit = some true)

/-- What follows a slot's verification or a COMMIT (R576, R577, R579): under ARRIVAL each clean slot is delivered once; with
every slot clean the instance commits, and is delivered unless it was by slots. -/
def State.settle (s : State) (key : Word) (e inst : Nat) : State :=
  match s.groupOf key, s.trick key e inst with
  | some g, some t =>
    if t.done.isSome then s
    else
      let arrival := (s.tentry g e).arrival
      let due := if arrival then t.slots.filter fun q => q.clean && !q.delivered else []
      let s1 := due.foldl (fun s q =>
        (s.deliverTrick g t).modTrick key e inst fun u => u.modSlot q.src fun q => { q with delivered := true }) s
      if t.slots.all SlotSt.clean then
        let s2 := (s1.modTrick key e inst fun u => { u with done := some true }).count (oHzl 0x4000) 1
        let s3 := if arrival then s2 else s2.deliverTrick g t
        s3.forwardNext key e inst
      else s1
  | _, _ => s

/-- Drain Tally of a Frond (R573). -/
def State.drainTally (s : State) (f : Nat) : DWord :=
  let o := oHzl (0x4100 + 8 * f)
  BitVec.ofNat 64 ((s.reg o).toNat + (s.reg (o + 4)).toNat * 2 ^ 32)

/-- The own slot closes (R572, R574): its Tally, the CHK comparison, CLOSE to every other member. -/
def State.closeOwn (s : State) (w : Who) (g : Group) (e inst : Nat) : State :=
  let t := s.tentry g e
  let own := s.sys.modId.toNat
  let sum := s.tallyOf t (s.slotBase g t own)
  let tally := if t.chk then s.drainTally t.tfrond else sum
  let s1 := if tally = sum then s else (s.count (oHzl 0x4008) 1).checkFail w 101 1 11 e 0
  let s2 := s1.modTrick g.key e inst fun u =>
    u.modSlot own fun q => { q with closed := some (t.slice / 256, tally), verified := true }
  let s3 := if s2.earlierOpen g.key e inst then s2 else s2.sendClose g e inst tally
  (s3.bumpInst g.key e).settle g.key e inst

/-- A whole block written into the own slot (R571): checked, sent, counted toward the close. The flag is a program fault: the
block was already written in the instance. -/
def State.contribute (s : State) (w : Who) (f : Fin 4) (q : Nat) (g : Group) (e blk : Nat) : State × Bool :=
  let own := s.sys.modId.toNat
  let inst := g.nextInst e
  let s1 := s.openTrick g e inst
  match s1.trick g.key e inst with
  | none => (s1, false)
  | some t =>
    let had := (t.slot own).elim false fun q => q.blocks.contains blk
    if had then (s1, true)
    else
      let s2 := s1.modTrick g.key e inst fun u =>
        { u.modSlot own fun q => { q with blocks := q.blocks ++ [blk] } with job := some w.job }
      let s3 := s2.modJob w.job fun x =>
        { x with tricks := if x.tricks.contains (g.key, e, inst) then x.tricks else x.tricks ++ [(g.key, e, inst)] }
      let s4 := s3.checkBlock w (s3.slotBase g (s3.tentry g e) own + 256 * blk)
      let s5 := if s4.earlierOpen g.key e inst then s4 else s4.sendBlock g e inst blk (queueTag f q)
      let n := ((s5.trick g.key e inst).bind fun t => (t.slot own).map (·.blocks.length)).getD 0
      (if n = (s5.tentry g e).slice / 256 then s5.closeOwn w g e inst else s5, false)

/-- A slot received and closed by its sender (R575): every block once, every BCW passed, ETYPE and the own sum agree. -/
def State.verifySlot (s : State) (g : Group) (e inst src nblk etype : Nat) (tally : DWord) : State :=
  let t := s.tentry g e
  match (s.trick g.key e inst).bind fun u => u.slot src with
  | none => s
  | some q =>
    let n := t.slice / 256
    let ok := decide (nblk = n ∧ q.blocks.length = n ∧ etype = t.etype) && !q.bad
      && decide (s.tallyOf t (s.slotBase g t src) = tally)
    let s1 := s.modTrick g.key e inst fun u => u.modSlot src fun q => { q with closed := some (nblk, tally), verified := ok }
    if ok then s1.settle g.key e inst
    else (s1.count (oHzl 0x4008) 1).voidTrick g.key e inst

end Sys2Proof.Machine
end

