-- ==== Sys2Proof/Machine/Dma.lean ====
section
/-! DEFINITION. DMA (R26, R133, R147 to R151, R542 to R547, R571, R612, R613). -/

namespace Sys2Proof.Machine

/-! Footprints. -/

/-- Whether a partition may address a piece that lies in one 64-byte unit (R26). -/
def State.dmaMay (s : State) (r : Fin 4) (a : Nat) : Bool :=
  let inAlloc := s.allocs.any fun e => decide (e.2.part = r) &&
    (decide (e.2.base ≤ a ∧ a < e.2.base + e.2.size) || decide (e.2.matBase ≤ a ∧ a < e.2.matBase + e.2.matSize))
  match region a with
  | .dram | .mat _ => inAlloc
  | .sp f _ => decide (s.ownerOf f = some r)
  | _ => false

/-- Address of a transfer as the copy on Frond `f` uses it: the original copy's scratchpad stands for the Twin copy's own
(R611, R612; DEDUCED, notes/assumptions/20). -/
def copyAddr (k : KernelRun) (f : Fin 4) (a : Nat) : Nat :=
  match region a with
  | .sp g x => if k.twin && decide (g = k.orig) then spBase f + x else a
  | _ => a

/-- One piece of a transfer: source bytes' address where they are contiguous, data, destination, and the BCW it may carry. -/
structure Piece where
  dst : Nat
  data : List Byte
  srcBad : Bool
  carry : Option Word
  deriving DecidableEq, Repr

/-- Whether the source check of a unit fails (R543): the BCW where the channel reads the whole block, else SEC-DED. -/
def State.srcBad (s : State) (a lo n : Nat) : Bool :=
  let b := a / 256 * 256
  if lo ≤ b ∧ b + 256 ≤ lo + n then !s.blockOk a else (s.marksIn a 64).any fun e => decide (e.2 = .ue)

/-- The units of a contiguous move of `n` units from `src` to `dst`. -/
def State.movePieces (s : State) (src dst n : Nat) : List Piece :=
  (List.range n).map fun i =>
    let a := src + 64 * i
    let d := dst + 64 * i
    let carries := decide (src % 256 = dst % 256) && decide (src ≤ a / 256 * 256 ∧ a / 256 * 256 + 256 ≤ src + 64 * n)
    { dst := d, data := s.rdN a 64, srcBad := s.srcBad a src (64 * n) && !carries,
      carry := if carries then some (s.bcwAt a) else none }

/-- Units moved by each slot of a CSLOT transfer (R545): the header block, then the value blocks its NNZ states. -/
def State.cslotUnits (s : State) (src : Nat) : Nat :=
  let nnz := s.rdLe (src + 2) 2
  if 1792 < nnz then 4 else 4 + 4 * cdiv nnz 256

/-- Bytes cut at 64-byte boundaries of the destination. -/
def unitPieces : Nat → Nat → List Byte → List (Nat × List Byte)
  | 0, _, _ => []
  | k + 1, a, l =>
    if l.isEmpty then []
    else
      let n := 64 - a % 64
      (a, l.take n) :: unitPieces k (a + n) (l.drop n)

/-- The units of a TRANSPOSE (R546), destination row by destination row. -/
def State.transPieces (s : State) (d : DmaD) (src dst : Nat) : List Piece :=
  (List.range d.cols).flatMap fun c =>
    let bytes := (List.range d.rows).flatMap fun r => s.rdN (src + 64 * d.spitch * r + d.e * c) d.e
    let bad := (List.range d.rows).any fun r => (s.marksIn (src + 64 * d.spitch * r + d.e * c) d.e).any fun e => decide (e.2 = .ue)
    (unitPieces (bytes.length / 64 + 2) (dst + 64 * d.dpitch * c) bytes).map fun p => ⟨p.1, p.2, bad, none⟩

/-- Units in flight from the pieces of a transfer, in order (R543). -/
def unitsFor (ps : List Piece) : List DmaUnit :=
  let covered := fun (b : Nat) => ((ps.filter fun p => decide (p.dst / 256 = b)).map (·.data.length)).foldl (· + ·) 0
  ps.zipIdx.map fun (p, i) =>
    let b := p.dst / 256
    { dst := p.dst, data := p.data, crc := crcWord p.data, whole := decide (covered b = 256),
      last := !((ps.drop (i + 1)).any fun r => decide (r.dst / 256 = b)), bcw := p.carry }

/-- Whether destination `a` lies in Frond `f`'s scratchpad. -/
def inOwnSp (f : Fin 4) (a : Nat) : Bool :=
  match region a with
  | .sp g _ => decide (g = f)
  | _ => false

/-! Issue. -/

/-- A DMA whose footprint is not the partition's (R26): nothing moves, a program fault of the DMA unit names the queue, and the
kernel's instance ends at L1, so that its JOB_DONE carries ST_FAULT (R482, R603). DEDUCED (notes/assumptions/19). -/
def State.dmaArg (s : State) (f : Fin 4) (q : Nat) : State :=
  match (s.frond f).kernel with
  | none => s
  | some k =>
    let w := s.frondWho f 0xC
    (s.raise { w.ev (srcOf (16 * f.val + 8) 3) 20 q 0 with stepNo := 1 }).l1On f 3 k.job St.fault.code

/-- The lowest free channel of 16 (R125). -/
def Frond.freeChannel (x : Frond) : Option Nat := (List.range 16).find? fun c => (tfind x.dma c).isNone

/-- Starting a transfer on a channel: source checks reported, units in flight, the output digest (R613); a Twin copy's units
outside its own scratchpad are not written (R612). With nothing in flight the instruction completes at once. -/
def State.startDma (s : State) (f : Fin 4) (q : Nat) (w : IWord) (ch : Nat) (twin : Bool) (reads : List (Nat × Nat))
    (ps : List Piece) : State :=
  let who := s.frondWho f 0xC
  let s1 := reads.foldl (fun s e => s.reportRead who e.1 e.2) (s.issueIns f q)
  let all := unitsFor ps
  let sum := (all.filter fun u => !inOwnSp f u.dst).foldl (fun a u => a + BitVec.ofNat 64 u.crc.toNat) (0 : DWord)
  let units := if twin then all.filter fun u => inOwnSp f u.dst else all
  let s2 := s1.modFrond f fun x => { x with twinSum := x.twinSum + sum }
  if units.isEmpty then s2.finishIns f q w
  else s2.modFrond f fun x => { x with
    dma := tput x.dma ch ⟨q, w, units, [], 0, ((ps.filter (·.srcBad)).map (·.dst / 256)).dedup⟩ }

/-- Whether a zero-fill or a restore covers part of `n` bytes from an address on (R191), or a refresh window holds their controller
(R533). -/
def State.filling (s : State) (a n : Nat) : Bool :=
  match region a with
  | .dram => s.window
  | .mat _ => s.sys.zfillMat
  | .sp f x => decide (0 < n) && ((s.frond f).zfill && decide (x < s.resByte f) || (s.frond f).restore && decide (s.resByte f < x + n))
  | _ => false

/-- The kernel, channel and instruction when a DMA instruction of an operation can issue. -/
def State.dmaReady (s : State) (f : Fin 4) (q : Nat) (dop : Nat) : Option (IWord × KernelRun × Nat) :=
  match s.readyIns f q 0xC, (s.frond f).kernel, (s.frond f).freeChannel with
  | some w, some k, some ch => if (dmaF w).dop = dop then some (w, k, ch) else none
  | _, _, _ => none

/-- A plain move of the descriptor's LEN units with the offsets given in units (R133); its reads wait for a zero-fill or
restore that covers them (R191). -/
def State.dmaMove (s : State) (f : Fin 4) (q : Nat) (w : IWord) (k : KernelRun) (ch soff doff : Nat) : State :=
  let d := dmaOf (s.desc f (dmaF w).desc)
  let src := copyAddr k f (d.src + 64 * soff)
  let dst := copyAddr k f (d.dst + 64 * doff)
  match s.partOn f with
  | none => s
  | some r =>
    if s.filling src (64 * d.len) then s
    else if (List.range d.len).all fun i => s.dmaMay r (src + 64 * i) && s.dmaMay r (dst + 64 * i) then
      s.startDma f q w ch k.twin [(src, 64 * d.len)] (s.movePieces src dst d.len)
    else s.dmaArg f q

/-- Whether a descriptor is plain, neither TRANSPOSE nor CSLOT. -/
def DmaD.plain (d : DmaD) : Bool := !d.transpose && !d.cslot

/-- Whether a TRANSPOSE stays inside its partition's memory (R26). -/
def State.transMay (s : State) (r : Fin 4) (d : DmaD) (src dst : Nat) : Bool :=
  ((List.range d.rows).all fun i => (rowsOf (src + 64 * d.spitch * i) (d.e * d.cols)).all fun u => s.dmaMay r (64 * u)) &&
    (List.range d.cols).all fun i => (rowsOf (dst + 64 * d.dpitch * i) (d.e * d.rows)).all fun u => s.dmaMay r (64 * u)

/-- A TRANSPOSE on a channel with the offsets given in units (R546). -/
def State.dmaTrans (s : State) (f : Fin 4) (q : Nat) (w : IWord) (k : KernelRun) (ch soff doff : Nat) : State :=
  let d := dmaOf (s.desc f (dmaF w).desc)
  let src := copyAddr k f (d.src + 64 * soff)
  let dst := copyAddr k f (d.dst + 64 * doff)
  match s.partOn f with
  | none => s
  | some r =>
    if (List.range d.rows).any fun i => s.filling (src + 64 * d.spitch * i) (d.e * d.cols) then s
    else if s.transMay r d src dst then
      s.startDma f q w ch k.twin ((List.range d.rows).map fun i => (src + 64 * d.spitch * i, d.e * d.cols))
        (s.transPieces d src dst)
    else s.dmaArg f q

/-- DMA_TRANSPOSE (R546): source element (r, c) becomes destination element (c, r). The element sums of a tile are equal by
construction here, and the transport CRC of each unit follows it from then on. -/
def execDmaTranspose (f : Fin 4) (q : Fin 64) (s : State) : Host.Outcome State Fault Refusal :=
  .next (match s.dmaReady f q.val 0 with
    | some (w, k, ch) =>
      if (dmaOf (s.desc f (dmaF w).desc)).transpose then s.dmaTrans f q.val w k ch (dmaF w).soff (dmaF w).doff else s
    | none => s)

/-- A CSLOT transfer on a channel: of each slot of 32 units the header and the value blocks its NNZ states; a header with NNZ
above 1,792 moves alone and enters the ledger (R545). -/
def State.dmaSlots (s : State) (f : Fin 4) (q : Nat) (w : IWord) (k : KernelRun) (ch soff doff : Nat) : State :=
  let d := dmaOf (s.desc f (dmaF w).desc)
  let src := copyAddr k f (d.src + 64 * soff)
  let dst := copyAddr k f (d.dst + 64 * doff)
  match s.partOn f with
  | none => s
  | some r =>
    if s.filling src (64 * d.len) then s
    else if (List.range d.len).all fun i => s.dmaMay r (src + 64 * i) && s.dmaMay r (dst + 64 * i) then
      let slots := (List.range (d.len / 32)).map fun i => (src + 2048 * i, dst + 2048 * i)
      let big := slots.filter fun e => decide (1792 < s.rdLe (e.1 + 2) 2)
      let s1 := big.foldl (fun s e => s.checkFail (s.frondWho f 0xC) (16 * f.val + 8) 1 0 ch (e.1 % 2 ^ 32)) s
      s1.startDma f q w ch k.twin (slots.map fun e => (e.1, 64 * s.cslotUnits e.1))
        (slots.flatMap fun e => s.movePieces e.1 e.2 (s.cslotUnits e.1))
    else s.dmaArg f q

/-- DMA_CSLOT (R545). -/
def execDmaCslot (f : Fin 4) (q : Fin 64) (s : State) : Host.Outcome State Fault Refusal :=
  .next (match s.dmaReady f q.val 0 with
    | some (w, k, ch) =>
      if (dmaOf (s.desc f (dmaF w).desc)).cslot then s.dmaSlots f q.val w k ch (dmaF w).soff (dmaF w).doff else s
    | none => s)

/-- The descriptor's transfer, of whatever kind, with the offsets given in units (R133). -/
def State.dmaXfer (s : State) (f : Fin 4) (q : Nat) (w : IWord) (k : KernelRun) (ch soff doff : Nat) : State :=
  let d := dmaOf (s.desc f (dmaF w).desc)
  if d.transpose then s.dmaTrans f q w k ch soff doff
  else if d.cslot then s.dmaSlots f q w k ch soff doff
  else s.dmaMove f q w k ch soff doff

/-- COPY (R133, R543) of a descriptor that is neither TRANSPOSE nor CSLOT. -/
def execCopy (f : Fin 4) (q : Fin 64) (s : State) : Host.Outcome State Fault Refusal :=
  .next (match s.dmaReady f q.val 0 with
    | none => s
    | some (w, k, ch) =>
      if (dmaOf (s.desc f (dmaF w).desc)).plain then s.dmaMove f q.val w k ch (dmaF w).soff (dmaF w).doff else s)

/-- The idx word of a GATHER or SCATTER, and what reading its row reports (R133). -/
def State.dmaIdx (s : State) (f : Fin 4) (w : IWord) : Nat × State :=
  let a := spBase f + 64 * (dmaF w).idx
  (s.rdLe a 4, s.reportMarks (s.frondWho f 0xC) a 64)

/-- GATHER (R133): idx × SOFF is added to the source; idx 0xFFFF_FFFF moves nothing. -/
def execGather (f : Fin 4) (q : Fin 64) (s : State) : Host.Outcome State Fault Refusal :=
  .next (match s.dmaReady f q.val 1 with
    | none => s
    | some (w, k, ch) =>
      let (idx, s1) := s.dmaIdx f w
      if idx = 0xFFFFFFFF then s1.runIns f q.val w
      else s1.dmaXfer f q.val w k ch (idx * (dmaF w).soff) (dmaF w).doff)

/-- SCATTER (R133): idx × DOFF is added to the destination; idx 0xFFFF_FFFF moves nothing. -/
def execScatter (f : Fin 4) (q : Fin 64) (s : State) : Host.Outcome State Fault Refusal :=
  .next (match s.dmaReady f q.val 2 with
    | none => s
    | some (w, k, ch) =>
      let (idx, s1) := s.dmaIdx f w
      if idx = 0xFFFFFFFF then s1.runIns f q.val w
      else s1.dmaXfer f q.val w k ch (dmaF w).soff (idx * (dmaF w).doff))

/-! Arrival. -/

/-- Storing bytes at a DMA destination; the flag is a program fault (R154, R176). -/
def State.dmaStore (s : State) (w : Who) (a : Nat) (l : List Byte) : State × Bool :=
  match region a with
  | .sp g x => s.spStore w g 4 ⟨x, l⟩
  | _ => (s.storeChecked w a l, false)

/-- The CRC of what has arrived of a block and of the unit after it, combined from their transport CRCs (R537, R543). -/
def DmaRun.combine (r : DmaRun) (u : DmaUnit) : Word := BitVec.ofNat 32 (crcZeros u.data.length r.gotCrc.toNat) ^^^ u.crc

/-- The BCW of a destination block (R543): the source's where it is carried; of a whole block the combination of its transport CRCs;
of a merge that of the old BCW, the old content (both of `s`) and the unit's transport CRC. Never the arriving data. -/
def State.dmaBcw (s : State) (r : DmaRun) (u : DmaUnit) : Word :=
  match u.bcw with
  | some b => b
  | none =>
    if u.whole then r.combine u
    else
      let n := u.data.length
      s.bcwAt u.dst ^^^ BitVec.ofNat 32 (crcZeros (256 - u.dst % 256 - n) (crcWord (s.rdN u.dst n) ^^^ u.crc).toNat)

/-- What a write to the own slot of a Trick entry does (R571): a whole block contributes, any other write is a program fault. -/
def State.dmaTrick (s : State) (w : Who) (f : Fin 4) (q : Nat) (u : DmaUnit) : State × Bool :=
  match (s.job w.job).map (·.part) with
  | none => (s, false)
  | some r =>
    match s.ownSlotAt r u.dst with
    | none => (s, false)
    | some (g, e, blk) => if u.whole then (if u.last then s.contribute w f q g e blk else (s, false)) else (s, true)

/-- A program fault of a contribution also enters the ledger (R571). -/
def State.trickFault (r : State × Bool) (w : Who) (entry : Nat) : State × Bool :=
  if r.2 then (r.1.modJob w.job fun x => x.enter ⟨101, 20, entry, w.kernel, r.1.now⟩, true) else r

/-- One unit at its destination: a whole block is written when its last unit has come, a part is merged; the BCW is complemented
where a unit's check failed (R543, R544). -/
def State.landUnit (s : State) (w : Who) (f : Fin 4) (r : DmaRun) (u : DmaUnit) : State × Bool :=
  let bad := r.bad.contains (u.dst / 256)
  let done := if u.whole then
      (if u.last then s.dmaStore w (u.dst / 256 * 256) (r.got ++ u.data) else (s, false))
    else s.dmaStore w u.dst u.data
  if done.2 then done
  else
    let b := s.dmaBcw r u
    let s1 := if u.whole && !u.last then done.1 else done.1.setBcw u.dst (if bad && u.last then ~~~b else b)
    State.trickFault (s1.dmaTrick w f r.q u) w 0

/-- A channel with nothing left in flight is free and its instruction completes. -/
def State.dmaDone (s : State) (f : Fin 4) (ch : Nat) (r : DmaRun) : State :=
  (s.modFrond f fun x => { x with dma := tdel x.dma ch }).finishIns f r.q r.ins

/-- The next unit `u` of a channel is checked against its transport CRC and written; the last completes the instruction. The flag
is a program fault (R154, R176, R571). -/
def State.dmaTake (s : State) (f : Fin 4) (ch : Nat) (r : DmaRun) (u : DmaUnit) (rest : List DmaUnit) : State × Bool :=
  let w := s.frondWho f 0xC
  let ok := decide (crcWord u.data = u.crc)
  let s1 := if ok then s else s.checkFail w (16 * f.val + 8) 1 9 ch ((crcWord u.data ^^^ u.crc).toNat)
  let r1 := { r with units := rest, bad := if ok then r.bad else r.bad ++ [u.dst / 256] }
  let p := s1.landUnit w f r1 u
  let r2 := if u.whole && !u.last then { r1 with got := r1.got ++ u.data, gotCrc := r1.combine u } else { r1 with got := [], gotCrc := 0 }
  let s2 := if rest.isEmpty then p.1.dmaDone f ch r else p.1.modFrond f fun x => { x with dma := tput x.dma ch r2 }
  (s2, p.2)

/-- The same with what the fault does. -/
def State.dmaArrive (s : State) (f : Fin 4) (ch : Nat) (r : DmaRun) (u : DmaUnit) (rest : List DmaUnit) : State :=
  State.orFault (s.dmaTake f ch r u rest) f 0xC

/-- DMA_UNIT_ARRIVE (R544): a unit for DRAM waits for the end of a refresh window (R533). -/
def execDmaUnitArrive (f : Fin 4) (ch : Fin 16) (s : State) : Host.Outcome State Fault Refusal :=
  .next (match tfind (s.frond f).dma ch.val with
    | none => s
    | some r =>
      match r.units with
      | [] => s.dmaDone f ch.val r
      | u :: rest => if decide (u.dst < dramEnd) && s.window then s else s.dmaArrive f ch.val r u rest)

/-- Timeout of a DMA instruction in µs (R547). -/
def dmaTimeoutUs (d : DmaD) : Nat :=
  if d.transpose then 200 + cdiv (d.rows * d.cols * d.e) 64 / 128 else 200 + d.len / 256

/-- DMA_TIMEOUT (R547): aborted, entered in the ledger, a class U fault, L1. -/
def execDmaTimeout (f : Fin 4) (ch : Fin 16) (s : State) : Host.Outcome State Fault Refusal :=
  .next (match tfind (s.frond f).dma ch.val with
    | none => s
    | some r =>
      let w := s.frondWho f 0xC
      let us := dmaTimeoutUs (dmaOf (s.desc f (dmaF r.ins).desc))
      let s1 := s.modJob w.job fun x => x.enter ⟨16 * f.val + 8, 19, ch.val, w.kernel, s.now⟩
      (s1.raise { w.ev (srcOf (16 * f.val + 8) 4) 19 ch.val us with stepNo := 1 }).l1 f 4)

/-! Shared work counters. -/

/-- Place of counter `c` of partition `r` in the Mat's firmware area: 16 bytes, VALUE and LIMIT of one copy, then of the other
(R147, R185). DESIGN CHOICE (notes/assumptions/94). -/
def workAddr (r : Fin 4) (c : Nat) : Nat := matBase + 0xFF0000 + 4096 * r.val + 16 * (c % 256)

/-- A counter of a partition (R147). -/
def State.counter (s : State) (r : Fin 4) (c : Nat) : WorkCnt :=
  let b := s.rdN (workAddr r c) 16
  ⟨BitVec.ofNat 32 (fld b 0 4), BitVec.ofNat 32 (fld b 4 4), BitVec.ofNat 32 (fld b 8 4), BitVec.ofNat 32 (fld b 12 4)⟩

/-- Writing both copies of a counter (R148, R149, R186). -/
def State.setCounter (s : State) (w : Who) (r : Fin 4) (c : Nat) (v l : Word) : State :=
  let b := leBytes 4 v.toNat ++ leBytes 4 l.toNat
  s.storeChecked w (workAddr r c) (b ++ b)

/-- WORK_SET (R148). -/
def execWorkSet (f : Fin 4) (q : Fin 64) (s : State) : Host.Outcome State Fault Refusal :=
  .next (match s.dmaReady f q.val 4, s.partOn f with
    | some (w, _, _), some r =>
      (s.setCounter (s.frondWho f 0xC) r ((dmaF w).desc % 256) (BitVec.ofNat 32 (dmaF w).soff)
        (BitVec.ofNat 32 (dmaF w).doff)).runIns f q.val w
    | _, _ => s)

/-- Taking from counter DESC of partition `r`: its VALUE, or 0xFFFF_FFFF when it has reached LIMIT or its copies disagree, goes to a
block at row DOFF. The flag is a program fault. -/
def State.workTake (s : State) (f : Fin 4) (q : Nat) (w : IWord) (r : Fin 4) : State × Bool :=
  let c := (dmaF w).desc % 256
  let n := s.counter r c
  let same := decide (n.v0 = n.v1 ∧ n.l0 = n.l1)
  let take := same && decide (n.v0.toNat < n.l0.toNat)
  let who := s.frondWho f 0xC
  let s0 := s.reportMarks who (workAddr r c) 16
  let s1 := if same then s0 else s0.checkFail who (16 * f.val + 8) 1 0 c 0
  let s2 := if take then s1.setCounter who r c (n.v0 + 1) n.l0 else s1
  let v := if take then n.v0.toNat else 0xFFFFFFFF
  let p := s2.spStore who f 4 ⟨64 * (dmaF w).doff, padTo 256 (leBytes 4 v)⟩
  (p.1.runIns f q w, p.2)

/-- WORK_TAKE (R149 to R151). -/
def execWorkTake (f : Fin 4) (q : Fin 64) (s : State) : Host.Outcome State Fault Refusal :=
  .next (match s.dmaReady f q.val 3, s.partOn f with
    | some (w, _, _), some r => State.orFault (s.workTake f q.val w r) f 0xC
    | _, _ => s)

end Sys2Proof.Machine
end

