-- ==== Sys2Proof/Machine/Memory.lean ====
section
/-! DEFINITION. Accesses of the scratchpad, the Mat and main memory as their banks and controllers serve them (R152 to R155,
R164 to R174, R186 to R191, R529 to R536, R549). -/

namespace Sys2Proof

/-! Scratchpad arbitration (R152 to R155). -/

/-- Place of a unit in the order of R152. -/
def SpUnit.rank : SpUnit → Nat
  | .feeder => 0 | .drain => 1 | .sorus => 2 | .vector | .sampler _ => 3 | .dmaWrite _ => 4 | .dmaRead _ => 5

/-- Place among units of one rank: the vector unit, then Sampler lane 0; the lower DMA channel. -/
def SpUnit.sub : SpUnit → Nat
  | .sampler l => 1 + l.val
  | .dmaWrite c | .dmaRead c => c.val
  | _ => 0

/-- The unit that a requester is for R154: a DMA channel is one unit, reading or writing. -/
def SpUnit.agent : SpUnit → SpUnit
  | .dmaRead c => .dmaWrite c
  | u => u

/-- Opcode of the class a unit serves. -/
def SpUnit.opcode : SpUnit → Nat
  | .feeder => 2 | .drain => 4 | .sorus => 0x14 | .vector => 8 | .sampler _ => 0x10 | _ => 0xC

/-- Whether request `a` is served before `b` at one bank (R152). -/
def SpReq.beats (a b : SpReq) : Bool :=
  if a.unit.rank ≠ b.unit.rank then decide (a.unit.rank < b.unit.rank)
  else if a.unit.rank = 3 ∧ a.waited ≠ b.waited then decide (b.waited < a.waited)
  else decide (a.unit.sub < b.unit.sub)

/-- Place of a requester in the order of R187. -/
def MatUnit.rank : MatUnit → Nat
  | .rhizoid => 0 | .hezor => 1 | .frond f q => 2 + 64 * f.val + q.val | .aperture p => 300 + p.val

/-- First byte offset and length of what a request reads or writes: a row or block, or bytes up to the end of their block. -/
def MatReq.span (r : MatReq) : Nat × Nat :=
  match r.act with
  | .read => (r.off / 64 * 64, 64)
  | .readBlock | .writeBlock _ _ => (r.off / 256 * 256, 256)
  | .write d => (r.off, min d.length (256 - r.off % 256))

/-- Whether a request writes. -/
def MatReq.writes (r : MatReq) : Bool :=
  match r.act with
  | .read | .readBlock => false
  | .write _ | .writeBlock _ _ => true

/-- Whether two requests touch one row of the Mat. -/
def MatReq.meets (a b : MatReq) : Bool :=
  decide (a.span.1 / 64 * 64 < b.span.1 + b.span.2 ∧ b.span.1 / 64 * 64 < a.span.1 + a.span.2)

end Sys2Proof

namespace Sys2Proof.Machine

/-- Bank of a row (R164). -/
def spBank (row : Nat) : Nat := row % 320

/-- The requests a bank serves in this FCLK: of those that address one bank, the one no other beats, the first among equals. -/
def spServed (reqs : List SpReq) : List SpReq :=
  (reqs.zipIdx.filter fun (a, i) => reqs.zipIdx.all fun (b, j) =>
    decide (i = j ∨ spBank a.row ≠ spBank b.row) || a.beats b || (!b.beats a && decide (i < j))).map (·.1)

/-- Pairs that race: two units on one row with at least one writing (R154); the one served first stands first. -/
def spRaces (reqs : List SpReq) : List (SpReq × SpReq) :=
  reqs.zipIdx.flatMap fun (a, i) => (reqs.zipIdx.filter fun (b, j) =>
    decide (a.unit.agent ≠ b.unit.agent ∧ a.row = b.row) && (a.write || b.write) &&
      (a.beats b || (!b.beats a && decide (i < j)))).map fun e => (a, e.1)

/-- One FCLK of a Frond's banks: losing accesses and races are counted, a race is located. The result is the requests served
and the opcode of a program fault, if any (R154, R155, R591). -/
def State.spArb (s : State) (f : Fin 4) (reqs : List SpReq) : List SpReq × State × Option Nat :=
  let win := spServed reqs
  let lost := reqs.length - win.length
  let races := spRaces reqs
  let s1 := if lost = 0 then s else s.noteConflict f lost
  let s2 := races.foldl (fun s e => s.noteRace f e.1.unit.rank e.2.unit.rank e.1.row) s1
  let op := match races with
    | e :: _ => some e.2.unit.opcode
    | [] => if 0 < lost && s.exactOn f then (reqs.find? fun r => !win.contains r).map (·.unit.opcode) else none
  (win, s2, op)

/-- Ending a scratchpad command: a race or a conflict in EXACT aborts the kernel. -/
def State.spEnd (s : State) (f : Fin 4) (op : Option Nat) : State :=
  match op with
  | some o => s.progFault f o 0
  | none => s

/-- Whether a zero-fill or a restore in progress covers a row: the fill the working area, the restore the resident area (R189,
R191). -/
def State.spFilling (s : State) (f : Fin 4) (row : Nat) : Bool :=
  if 64 * row < s.resByte f then (s.frond f).zfill else (s.frond f).restore

/-- The row that a read returns: the content before a write that it lost its bank to (R153), else the row as it is. -/
def State.spRow (s : State) (f : Fin 4) (r : SpReq) : List Byte :=
  match (s.frond f).heldRows.find? fun h => decide (h.unit = r.unit ∧ h.row = r.row) with
  | some h => h.data
  | none => s.rdN (spBase f + 64 * r.row) 64

/-- Whether a read has its row held from before a write (R153): it has been checked then. -/
def Frond.holds? (x : Frond) (r : SpReq) : Bool := x.heldRows.any fun h => decide (h.unit = r.unit ∧ h.row = r.row)

/-- Reads that are served: what they report, and their rows in `out` (R167 to R170). -/
def State.spServe (s : State) (f : Fin 4) (rds : List SpReq) : State :=
  let fresh := rds.filter fun r => !(s.frond f).holds? r
  let s1 := ((fresh.map (·.unit)).dedup).foldl (fun s u =>
    s.reportRows (s.frondWho f u.opcode) f ((fresh.filter fun r => decide (r.unit = u)).map (·.row))) s
  { s1.modFrond f fun x => { x with heldRows := x.heldRows.filter fun h => !rds.any fun r => decide (h.unit = r.unit ∧ h.row = r.row) }
    with out := rds.flatMap (s.spRow f) }

/-- SCRATCHPAD_READ (R152 to R155, R167 to R170, R191): the reads served return their rows; a read of a row that a zero-fill or
a restore covers waits for it. -/
def execScratchpadRead (f : Fin 4) (reqs : List SpReq) (s : State) : Host.Outcome State Fault Refusal :=
  if !reqs.all SpReq.ok then .fault .noSuchAddress
  else .next (
    let (win, s1, op) := s.spArb f reqs
    let rds := win.filter fun r => !r.write
    let s2 := s1.modFrond f fun x => { x with spWait := x.spWait ++ rds.filter fun r => s.spFilling f r.row }
    (s2.spServe f (rds.filter fun r => !s.spFilling f r.row)).spEnd f op)

/-- The rows that losing reads of rows `rows` are to return, kept as they are before the write (R153). -/
def State.holdRows (s : State) (f : Fin 4) (rows : List Nat) (lost : List SpReq) : State :=
  lost.foldl (fun s r =>
    if !r.write && rows.contains r.row && !(s.frond f).holds? r then
      (s.reportMarks (s.frondWho f r.unit.opcode) (spBase f + 64 * r.row) 64).modFrond f fun x =>
        { x with heldRows := x.heldRows ++ [⟨r.unit, r.row, s.rdN (spBase f + 64 * r.row) 64⟩] }
    else s) s

/-- A write command of the unit at the head of the list: it happens when none of that unit's writes loses its bank; a read of a
row that it writes and that has lost to it is to return the row as it was (R153). -/
def State.spWriteCmd (s : State) (f : Fin 4) (reqs : List SpReq) (act : State → SpReq → State × Bool) : State :=
  match reqs with
  | [] => s
  | h :: _ =>
    let (win, s1, op) := s.spArb f reqs
    let own := reqs.filter fun r => decide (r.unit = h.unit) && r.write
    if h.write && own.all win.contains then
      let r := act (s1.holdRows f (own.map (·.row)) (reqs.filter fun r => !win.contains r)) h
      (if r.2 && op.isNone then r.1.progFault f h.unit.opcode 0 else r.1).spEnd f op
    else s1.spEnd f op

/-- SCRATCHPAD_WRITE (R171, R176): four rows, check bytes and the writer's BCW. A sender presents 256 bytes; fewer are taken as
followed by zeros, and no more count. -/
def execScratchpadWrite (f : Fin 4) (reqs : List SpReq) (data : List Byte) (bcw : Word) (s : State) :
    Host.Outcome State Fault Refusal :=
  if !reqs.all SpReq.ok then .fault .noSuchAddress
  else .next (s.spWriteCmd f reqs fun s h =>
    let a := 256 * (h.row / 4)
    let r := s.spStore (s.frondWho f h.unit.opcode) f h.unit.rank ⟨a, slice data 0 256⟩
    if s.resByte f < a + 256 then r else (r.1.setBcw (spBase f + a) bcw, r.2))

/-- SCRATCHPAD_MERGE (R172, R173): rows of a block from the first one named on; the bytes past its last row have no row to go
to. -/
def execScratchpadMerge (f : Fin 4) (reqs : List SpReq) (rows : Nat) (data : List Byte) (s : State) :
    Host.Outcome State Fault Refusal :=
  if !reqs.all SpReq.ok then .fault .noSuchAddress
  else .next (s.spWriteCmd f reqs fun s h =>
    s.spStore (s.frondWho f h.unit.opcode) f h.unit.rank ⟨64 * h.row, slice data 0 (64 * min rows (4 - h.row % 4))⟩)

/-- PARTIAL_ROW_WRITE (R174): bytes of one row; those past its end have no place in it. -/
def execPartialRowWrite (f : Fin 4) (reqs : List SpReq) (start : Nat) (data : List Byte) (s : State) :
    Host.Outcome State Fault Refusal :=
  if !reqs.all SpReq.ok then .fault .noSuchAddress
  else .next (s.spWriteCmd f reqs fun s h =>
    s.spStore (s.frondWho f h.unit.opcode) f h.unit.rank ⟨64 * h.row + start, data.take (64 - start)⟩)

/-- Writing a corrected unit back: the mark goes and the bit is remembered for R655. -/
def State.writeBack (s : State) (a : Nat) : State :=
  match s.mark a with
  | .ce b =>
    let s1 := s.setMark a .none
    { s1 with wbDone := if s1.wbDone.contains (unitKey s a, b) then s1.wbDone else s1.wbDone ++ [(unitKey s a, b)] }
  | _ => s

/-- SP_CE_WRITEBACK (R168). -/
def execSpCeWriteback (f : Fin 4) (s : State) : Host.Outcome State Fault Refusal :=
  .next (match (s.frond f).wb with
    | [] => s
    | a :: rest => (s.writeBack (spBase f + a)).modFrond f fun x => { x with wb := rest })

/-! The Mat (R184 to R188). -/

/-- Bank of a Mat offset (R184). -/
def matBank (off : Nat) : Nat := off / 256 % 64

/-- On whose behalf a Mat requester acts (R761). -/
def State.matWho (s : State) : MatUnit → Who
  | .rhizoid => Who.unit 64
  | .hezor => Who.unit 98
  | .frond f _ => s.frondWho f 0xC
  | .aperture p => Who.unit (94 + p.val)

/-- The requests the Mat's banks serve in one NCLK. -/
def matServed (reqs : List MatReq) : List MatReq :=
  (reqs.zipIdx.filter fun (a, i) => reqs.zipIdx.all fun (b, j) =>
    decide (i = j ∨ matBank a.off ≠ matBank b.off ∨ a.unit.rank < b.unit.rank ∨ (a.unit.rank = b.unit.rank ∧ i < j))).map (·.1)

/-- What a read reports: SEC-DED, and of a whole block its BCW (R168 to R170, R186). -/
def State.matReport (s : State) (r : MatReq) : State := s.reportRead (s.matWho r.unit) (matBase + r.span.1) r.span.2

/-- The content held for a read since a write that it lost its bank to (R153, R187). -/
def State.matHeldFor (s : State) (r : MatReq) : Option (List Byte) :=
  (s.matHeld.find? fun e => decide (e.1 = r.unit ∧ e.2.1 = r.span.1 ∧ e.2.2.length = r.span.2)).map (·.2.2)

/-- The content a read returns. -/
def State.matBytes (s : State) (r : MatReq) : List Byte := (s.matHeldFor r).getD (s.rdN (matBase + r.span.1) r.span.2)

/-- Reads that are served: reports, and their content in `out`. -/
def State.matServe (s : State) (rds : List MatReq) : State :=
  let s1 := (rds.filter fun r => (s.matHeldFor r).isNone).foldl State.matReport s
  { s1 with out := rds.flatMap s.matBytes
            matHeld := s1.matHeld.filter fun e => !rds.any fun r => decide (e.1 = r.unit ∧ e.2.1 = r.span.1) }

/-- A write that is served (R171 to R174, R186). -/
def State.matWrite (s : State) (r : MatReq) : State :=
  match r.act with
  | .read | .readBlock => s
  | .write d => s.storeChecked (s.matWho r.unit) (matBase + r.off) (d.take r.span.2)
  | .writeBlock d w => s.putBlock (matBase + r.span.1) (slice d 0 256) w

/-- Reads that lose to a write of one of their rows keep the content before it (R153, R187). -/
def State.matHold (s : State) (win lost : List MatReq) : State :=
  lost.foldl (fun s r =>
    if !r.writes && (win.any fun w => w.writes && w.meets r) && (s.matHeldFor r).isNone then
      { s.matReport r with matHeld := (s.matReport r).matHeld ++ [(r.unit, r.span.1, s.rdN (matBase + r.span.1) r.span.2)] }
    else s) s

/-- MAT_ACCESS (R153, R186, R187, R191): reads return the content before the writes of the same NCLK, and wait while a zero-fill
is in progress. -/
def execMatAccess (reqs : List MatReq) (s : State) : Host.Outcome State Fault Refusal :=
  if !reqs.all MatReq.ok then .fault .noSuchAddress
  else .next (
    let win := matServed reqs
    let rds := win.filter fun r => !r.writes
    let s1 := if s.sys.zfillMat then { s with matWait := s.matWait ++ rds, out := [] } else s.matServe rds
    win.foldl State.matWrite (s1.matHold win (reqs.filter fun r => !win.contains r)))

/-- MAT_CORRECTED_WRITEBACK (R168, R186). -/
def execMatCorrectedWriteback (bank : Fin 64) (s : State) : Host.Outcome State Fault Refusal :=
  .next (match s.matWb.find? fun a => decide (matBank a = bank.val) with
    | none => s
    | some a => { s.writeBack (matBase + a) with matWb := s.matWb.filter (· ≠ a) })

/-- Waiting reads of a scratchpad that nothing covers any more go on (R191). -/
def State.spGoOn (s : State) (f : Fin 4) : State :=
  let go := (s.frond f).spWait.filter fun r => !s.spFilling f r.row
  (s.modFrond f fun x => { x with spWait := x.spWait.filter fun r => s.spFilling f r.row }).spServe f go

/-- ZERO_FILL_DONE (R189, R191): reads held by the fill go on. -/
def execZeroFillDone (f : Option (Fin 4)) (s : State) : Host.Outcome State Fault Refusal :=
  .next (match f with
    | some g => (s.modFrond g fun x => { x with zfill := false }).spGoOn g
    | none => { s with sys := { s.sys with zfillMat := false }, matWait := [] }.matServe s.matWait)

/-- RESIDENT_RESTORE_DONE (R189 to R191): resident blocks that fail their BCW are restored from the program's copy; reads held
by the restore go on. -/
def execResidentRestoreDone (f : Fin 4) (s : State) : Host.Outcome State Fault Refusal :=
  .next (if (s.frond f).restore then ((s.restoreFailing f).modFrond f fun x => { x with restore := false }).spGoOn f else s)

/-! Main memory (R526 to R536, R549). -/

/-- DRAM_READ (R529): `units` units of 32 bytes with their ECC. -/
def execDramRead (u : MemUnit) (addr : BitVec 48) (units : Nat) (s : State) : Host.Outcome State Fault Refusal :=
  .next (s.dramAccess ⟨u, addr, .read units⟩)

/-- DRAM_WRITE (R530): the whole block that holds the address, with its BCW. -/
def execDramWrite (u : MemUnit) (addr : BitVec 48) (data : List Byte) (bcw : Word) (s : State) :
    Host.Outcome State Fault Refusal :=
  .next (s.dramAccess ⟨u, addr, .write data bcw⟩)

/-- DRAM_MERGE (R531). -/
def execDramMerge (u : MemUnit) (addr : BitVec 48) (data : List Byte) (s : State) : Host.Outcome State Fault Refusal :=
  .next (s.dramAccess ⟨u, addr, .merge data⟩)

/-- DRAM_WRITEBACK (R529, R536): in EXACT write-backs wait for a window. -/
def execDramWriteback (c : Fin 16) (s : State) : Host.Outcome State Fault Refusal :=
  .next (match tget (fun _ => []) s.dramWb c.val with
    | [] => s
    | a :: rest =>
      if s.wbHeld && !s.window then s
      else { s.writeBack a with dramWb := tset (fun _ => []) s.dramWb c.val rest })

/-- DRAM_REFRESH (R532, R533): a refresh changes no content and nothing software reads. -/
def execDramRefresh (_ch : Fin 32) (s : State) : Host.Outcome State Fault Refusal := .next s

/-- A break of cycle-exact timing (R593, R597): 1 droop, 2 throttle, 3 refresh, 4 lock lost. -/
def State.breakRound (s : State) (cause : Nat) : State :=
  if s.exactClaimed then
    let s1 := (s.setReg 0x00110000 (BitVec.ofNat 32 (16 * cause))).count 0x00110004 1
    { s1 with power := { s1.power with brokenRound := true } }
  else s

/-- EXACT_ADDED_REFRESH (R535, R593). -/
def execExactAddedRefresh (ch : Fin 32) (s : State) : Host.Outcome State Fault Refusal :=
  .next (if s.exactClaimed && s.hot.contains ch.val && !s.window then
    (s.count (oDrc (ch.val / 2) 0x14) 1).breakRound 3
  else s)

/-- DRAM_MR4_REPORT (R535, R549): codes 2 to 5 ask for more than 1x; in EXACT the entry into that condition is a class C fault
naming the channel. -/
def execDramMr4Report (ch : Fin 32) (code : BitVec 3) (s : State) : Host.Outcome State Fault Refusal :=
  let hot := decide (2 ≤ code.toNat ∧ code.toNat ≤ 5)
  let s1 := s.setRegF (oDrc (ch.val / 2) 0) (8 * (ch.val % 2)) 3 code.toNat
  .next (if hot then
    if s.hot.contains ch.val then s1
    else
      let s2 := { s1 with hot := s1.hot ++ [ch.val] }
      if s.exactClaimed then s2.noteHot ch.val else s2
  else { s1 with hot := s1.hot.filter (· ≠ ch.val) })

/-- Base address of slot `j` of chunk `k` of a channel (R526 inverted). -/
def chunkAddr (ch k j : Nat) : Nat :=
  let n := 59 * k + j
  256 * (32 * n + (ch ^^^ (n % 32) ^^^ (n / 32 % 32)))

/-- PATROL_SCRUB (R536): the next chunk of a controller, both channels in turn, is read with its ECC; off in EXACT. -/
def execPatrolScrub (c : Fin 16) (s : State) : Host.Outcome State Fault Refusal :=
  .next (if s.exactClaimed then s
    else
      let pos := s.patrol.getD c.val 0
      let ch := 2 * c.val + pos % 2
      let s1 := (List.range 59).foldl (fun s j => s.reportMarks Who.firmware (chunkAddr ch (pos / 2) j) 256) s
      let l := (List.range 16).map fun i => if i = c.val then (pos + 1) % 262144 else s1.patrol.getD i 0
      { s1 with patrol := l })

end Sys2Proof.Machine
end

