-- ==== Sys2Proof/Machine/PowerEvents.lean ====
section
/-! DEFINITION. Power, temperature, droop and clock events (R593, R664, R675 to R682, R739, R744). -/

namespace Sys2Proof.Machine

/-! The burst budget. -/

/-- Package power that keeps the budget level, in mW (R677). -/
def sustainedMw : Int := 180000
/-- The full budget, in units of 10 nJ (R677). -/
def fullBudget : Int := 800000000

/-- The budget after a sample of `mw` (R677): full while every Frond is in A2 or A3. -/
def State.budgetAfter (s : State) (mw : Nat) : Int :=
  if (s.fronds.toList.all fun x => decide (2 ≤ x.astate.val)) then fullBudget else min fullBudget (s.power.budget + sustainedMw - mw)

/-- POWER_SAMPLE (R677, R678): one sample of 10 µs; the budget step comes into force at 0 mJ or after 100 ms above 180 W, and ends when
the budget is full again. -/
def execPowerSample (mw : Nat) (s : State) : Host.Outcome State Fault Refusal :=
  let b := s.budgetAfter mw
  let n := if sustainedMw < mw then s.power.overTime + 1 else 0
  let s1 := { s with power := { s.power with budget := b, overTime := n, pkgMw := mw } }
  .next (if s.fcol.safe ∨ s.power.s1 then s
    else if s.power.stepped then
      if fullBudget ≤ b then ({ s1 with power := { s1.power with stepped := false } }).applyOps else s1
    else if b ≤ 0 ∨ 10000 ≤ n then (({ s1 with power := { s1.power with stepped := true } }).count (oPwr 0x34) 1).applyOps
    else s1)

/-! Temperature. -/

/-- Sensors that read 125 °C or more (R680). -/
def hotSensors (l : List (BitVec 16 × BitVec 16)) : List Nat := (l.zipIdx.filter fun e => decide (1000 ≤ sensorTemp e.1)).map (·.2)

/-- Lowering the thermal limit to `n`: counted, and a break of an EXACT Round beyond OP 2 (R593, R675, R679). -/
def State.lowerLimit (s : State) (n : Nat) : State :=
  let s1 := ({ s with power := { s.power with tlim := n } }).count (oPwr 0x30) 1
  if 2 < n then s1.breakRound 2 else s1

/-- THERMAL_SAMPLE (R679, R680): 24 sensors; one that a sample leaves out keeps its reading. A class U fault names each sensor at 125 °C or above, and the limit goes to OP 5 at once. -/
def execThermalSample (temps : List (BitVec 16 × BitVec 16)) (s : State) : Host.Outcome State Fault Refusal :=
  .next (if s.fcol.safe ∨ s.power.s1 then s
    else
      let all := (List.range 24).map fun i => temps.getD i (s.power.temps.getD i (0, 0))
      let s1 := { s with power := { s.power with temps := all } }
      let hot := hotSensors all
      if hot.isEmpty then s1
      else
        let s2 := if s1.power.tlim = 5 then s1 else s1.lowerLimit 5
        hot.foldl (fun s i => s.raise { src := srcOf 119 6, cause := 26, sub := i }) s2)

/-- THERMAL_LIMIT_LOWER (R679): the hottest reading is at or above THROTTLE. -/
def execThermalLimitLower (s : State) : Host.Outcome State Fault Refusal :=
  .next (if s.power.tlim < 5 ∧ s.fcol.safe = false ∧ s.power.s1 = false ∧ s.power.temps ≠ []
      ∧ (8 * s.regF (oPwr 0x20) 0 8 : Nat) ≤ (hottest s.power.temps).2 then s.lowerLimit (s.power.tlim + 1) else s)

/-- THERMAL_LIMIT_RAISE (R679): the hottest reading is at or below RELEASE. -/
def execThermalLimitRaise (s : State) : Host.Outcome State Fault Refusal :=
  .next (if 0 < s.power.tlim ∧ s.fcol.safe = false ∧ s.power.s1 = false ∧ s.power.temps ≠ []
      ∧ (hottest s.power.temps).2 ≤ (8 * s.regF (oPwr 0x20) 8 8 : Nat) then
    { s with power := { s.power with tlim := s.power.tlim - 1 } } else s)

/-- THERMAL_TRIP (R680): the hardware raises a class F fault naming the sensor. -/
def execThermalTrip (sensor : Fin 24) (s : State) : Host.Outcome State Fault Refusal :=
  .next (s.raise { src := srcOf 119 7, cause := 26, sub := sensor.val, stepNo := 6 })

/-! Droop. -/

/-- Whether a Frond's FCLK runs (R665). -/
def Frond.clocked (x : Frond) : Bool := decide (x.astate = 0) && !x.retired

/-- DROOP_DETECT (R593, R681). -/
def execDroopDetect (f : Fin 4) (s : State) : Host.Outcome State Fault Refusal :=
  let x := s.frond f
  .next (if x.clocked && decide (x.droop = .none) then
      (((s.modFrond f fun y => { y with droop := .stretched }).count (oPwr (0x40 + 4 * f.val)) 1)).breakRound 1
    else s)

/-- DROOP_RECOVER (R681). -/
def execDroopRecover (f : Fin 4) (s : State) : Host.Outcome State Fault Refusal :=
  .next (s.modFrond f fun y => { y with droop := .none })

/-- DROOP_FAULT (R681): a class C fault on the Frond's clock-and-power unit. -/
def execDroopFault (f : Fin 4) (s : State) : Host.Outcome State Fault Refusal :=
  .next (if (s.frond f).clocked then
      s.raise { src := srcOf (16 * f.val + 13) 0, cause := 27, part := (s.ownerOf f).elim 0xFF (·.val) }
    else s)

/-! Operating points, clocks and rails. -/

/-- OP_CHANGE (R674 to R676, R682): the Frond goes to the point its limits allow, the rail with it. -/
def execOpChange (f : Fin 4) (s : State) : Host.Outcome State Fault Refusal := .next (s.setOp f).setRail

/-- Whether a clock domain has a PLL of its own (R663). -/
def hasPll (d : Nat) : Bool := decide ((2 ≤ d ∧ d ≤ 6) ∨ (11 ≤ d ∧ d ≤ 15) ∨ (20 ≤ d ∧ d ≤ 23) ∨ d = 30)

/-- The recovery step of the units that a domain clocks (R663, R664, R732): L2, L4, or L5 where no lower step reaches them. -/
def State.domainStep (s : State) (d : Nat) : State :=
  if 3 ≤ d ∧ d ≤ 6 then s.l2 ⟨(d - 3) % 4, Nat.mod_lt _ (by decide)⟩
  else if 20 ≤ d ∧ d ≤ 22 then s.l4Link ⟨(d - 20) % 3, Nat.mod_lt _ (by decide)⟩
  else if d = 23 ∨ d = 30 then s.l4Rhizoid
  else s.l5 true

/-- Step number that a record of a domain's fault carries. -/
def domainStepNo (d : Nat) : Nat := if 3 ≤ d ∧ d ≤ 6 then 2 else if (20 ≤ d ∧ d ≤ 23) ∨ d = 30 then 4 else 5

/-- PLL_LOCK_LOSS (R664): a class F fault for TCLK, else a class U fault naming the domain and the step of its units; a stopped PLL has not
lost lock. -/
def execPllLockLoss (domain : Fin 32) (s : State) : Host.Outcome State Fault Refusal :=
  let d := domain.val
  .next (if hasPll d = false ∨ (clkLock s).testBit d = false then s
    else if d = 2 then s.raise { src := srcOf 118 7, cause := 27, sub := d, stepNo := 6 }
    else (s.raise { src := srcOf 118 1, cause := 27, sub := d, stepNo := domainStepNo d }).domainStep d)

/-- CLOCK_LOCK_LOSS (R590, R593): the Round breaks, a class C fault; the clocks relock within the step. -/
def execClockLockLoss (s : State) : Host.Outcome State Fault Refusal :=
  .next (if s.exactClaimed then (s.breakRound 4).raise { src := srcOf 118 0, cause := 27 } else s)

/-- Slowest point whose voltage the rail holds (R673). -/
def opOfRail (mv : Nat) : Nat := ((List.range 6).find? fun o => decide (opMv o ≤ mv)).getD 5

/-- AVS_TIMEOUT (R739): a class U fault on unit 118; every Frond stays at the slower of its point and the one the rail confirmed. -/
def execAvsTimeout (s : State) : Host.Outcome State Fault Refusal :=
  let o := opOfRail s.power.vdd
  .next (if s.fcol.safe ∨ s.power.s1 then s
    else
      let s1 := { s with power := { s.power with avsHeld := true },
                         fronds := s.fronds.map fun (x : Frond) => { x with op := if x.powered then max x.op o else x.op } }
      s1.raise { src := srcOf 118 4, cause := 27 })

/-- PWRGD_MAIN_FAIL (R744): a class F fault of kind 7 on unit 118; nothing while PWREN_S0 is low, that is in S1. -/
def execPwrgdMainFail (s : State) : Host.Outcome State Fault Refusal :=
  .next (if s.power.s1 ∨ s.sys.por then s else s.raise { src := srcOf 118 7, cause := 27, stepNo := 6 })

end Sys2Proof.Machine
end

