-- ==== Sys2Proof/Machine/SelfTest.lean ====
section
/-! DEFINITION. Run-time self-test, Widow comparators and test packs (R519, R620 to R632, R640, R657, R659, R660). -/

namespace Sys2Proof.Machine

/-! Segments. -/

/-- Segments of a CHECK rotation (R626). -/
def checkSegments : Nat := 20

/-- Length of CHECK segment `k` in ns (R626). -/
def checkNs (k : Nat) : Nat :=
  1000 * (if k = 0 then 2 else if k ≤ 4 then 6 else if k ≤ 7 then 4 else if k ≤ 15 then 8 else if k ≤ 17 then 6 else 4)

/-- Unit and element that CHECK segment `k` of a Frond proves (R626, R635). -/
def checkUnit (f : Fin 4) (k : Nat) : Nat × Nat :=
  let b := 16 * f.val
  if k = 0 then (b, 0)
  else if k ≤ 4 then (b + 2, unlocalized)
  else if k = 6 then (b + 1, 0)
  else if k ≤ 7 then (b + 3, 0)
  else if k ≤ 15 then (b + 9 + (k - 8) / 2, 40 * (k - 8) * 65536)
  else (b + 4 + (k - 16), 0)

/-- The test pack a Frond's PATTERN rotation uses (R660). -/
def State.packOf (s : State) (f : Fin 4) : List Byte := s.safety.patPack.getD f.val []

/-- Segments of a pack. -/
def packSegs (p : List Byte) : Nat := fld p 12 2
/-- Entry of segment `i` of a pack (R659). -/
def packSeg (p : List Byte) (i : Nat) : List Byte := slice p (fld p 20 4 + 32 * i) 32

/-- The first LOCATE segment of a pack from `i` on (R657, R659). -/
def nextLocate (p : List Byte) (i : Nat) : Option Nat :=
  (List.range (packSegs p)).find? fun k => decide (i ≤ k) && bit1 (fld (packSeg p k) 1 1) 0

/-- A segment: CHECK, PATTERN or LOCATE with its index; the code that `stRun` holds is 3 · index + kind. -/
def segCode (kind i : Nat) : Nat := 3 * i + kind

/-- Whether a CHECK rotation of a Frond begins now (R626, R630). -/
def State.rotationDue (s : State) (f : Fin 4) : Bool :=
  s.safety.runNow.getD f.val false || ((s.safety.rotStart.getD f.val none).isNone &&
    (match s.safety.rotBegan.getD f.val none with
      | none => true
      | some t => decide (t + 500000000 ≤ s.deckTime)))

/-- A CHECK rotation begins (R626); one asked for by RUN_NOW is followed by a PATTERN rotation from the first segment (R630). -/
def State.beginRotation (s : State) (f : Fin 4) : State :=
  let now := some s.deckTime
  let n := f.val
  let run := s.safety.runNow.getD n false
  let s1 := { s with safety := { s.safety with
    rotStart := s.safety.rotStart.set n now, rotBegan := s.safety.rotBegan.set n now, runNow := s.safety.runNow.set n false,
    patPos := if run then s.safety.patPos.set n 0 else s.safety.patPos,
    patStart := if run then s.safety.patStart.set n none else s.safety.patStart } }
  s1.modFrond f fun x => { x with stPos := 0 }

/-- A PATTERN rotation begins with the pack installed then (R660). -/
def State.beginPattern (s : State) (f : Fin 4) : State :=
  let n := f.val
  if (s.safety.patStart.getD n none).isSome then s
  else { s with safety := { s.safety with
    patStart := s.safety.patStart.set n (some s.deckTime), patPos := s.safety.patPos.set n 0,
    patLate := s.safety.patLate.set n false, patPack := s.safety.patPack.set n s.nor.pack } }

/-- The next segment of a Frond as (code, ns) with the rotation it begins: CHECK before PATTERN, LOCATE before other PATTERN segments. -/
def State.nextSegment (s : State) (f : Fin 4) : Option (Nat × Nat × State) :=
  let n := f.val
  let s1 := if s.rotationDue f then s.beginRotation f else s
  if (s1.safety.rotStart.getD n none).isSome then
    let k := (s1.frond f).stPos
    some (segCode 0 k, checkNs k, s1)
  else if s.safety.patPaused ∨ s.sys.packRead = false ∨ s.nor.pack = [] then none
  else
    let s2 := s.beginPattern f
    let p := s2.packOf f
    let loc := if s.safety.locate.contains n then nextLocate p (s.safety.locPos.getD n 0) else none
    match loc with
    | some i => some (segCode 2 i, fld (packSeg p i) 8 4, s2)
    | none => let i := s2.safety.patPos.getD n 0; some (segCode 1 i, fld (packSeg p i) 8 4, s2)

/-- SELFTEST_SEGMENT_START (R512, R519, R626, R630): a segment starts only when it fits in what is left of the Card. -/
def execSelftestSegmentStart (f : Fin 4) (s : State) : Host.Outcome State Fault Refusal :=
  let s0 := if (s.frond f).kernel.isNone then s.startLate f 0 else s
  let x := s0.frond f
  .next (if x.cardUse = .selftest ∧ x.kernel.isNone = true ∧ x.stRun = none ∧ x.awake = true ∧ s.sys.st = .service then
    match s0.nextSegment f with
    | none => s0
    | some (c, ns, s1) =>
      if s0.deckTime + ns ≤ x.cardEnd then s1.modFrond f fun y => { y with stRun := some c } else s0
  else s)

/-! Outcomes. -/

/-- One more failed segment of a Frond (R630). -/
def State.noteFailed (s : State) (f : Fin 4) : State :=
  { s with safety := { s.safety with failed := s.safety.failed.modify f.val (· + 1) } }

/-- A missed injection of a Widow comparator (R622): class U naming a Stipe's, whose Frond is held; class F for the others. -/
def State.missedInjection (s : State) (u : WidowUnit) : State :=
  match u with
  | .stipe f => (s.raise { src := srcOf (16 * f.val) 5, cause := 18 }).holdFrond f 3 0
  | .management => s.raise { src := srcOf 112 5, cause := 18, stepNo := 6 }
  | .safety => s.raise { src := srcOf 113 5, cause := 18, stepNo := 6 }

/-- The sixteen injections of a comparator test (R622): each reported one is counted, of a test that misses one fifteen; a missed
one of Thallus is a failed injection (R631), a Stipe's counts with its segment; a passing test ends a Stipe's hold. DESIGN CHOICE
(notes/assumptions/112). -/
def State.comparatorTest (s : State) (u : WidowUnit) (missed : Bool) : State :=
  if missed then
    let s1 := s.count (oSafe 0x14) 15
    (match u with
     | .stipe _ => s1
     | .management | .safety => s1.count (oSafe 0x1C) 1).missedInjection u
  else
    let s1 := s.count (oSafe 0x14) 16
    match u with
    | .stipe f => s1.endHold f 3 0
    | _ => s1

/-- A pass of CHECK segment `k`. -/
def State.checkPassed (s : State) (f : Fin 4) (k : Nat) : State :=
  let s1 := { s with safety := { s.safety with passAt := tput s.safety.passAt (32 * f.val + k) s.deckTime } }
  s1.endHold f 2 k

/-- A failure of CHECK segment `k` (R627): the fault naming the checker, CHECKER entries in the ledgers of jobs that ran since its last
pass, the hold, the counts. -/
def State.checkFailed (s : State) (f : Fin 4) (k : Nat) : State :=
  let (u, e) := checkUnit f k
  let s1 := (s.enterAll (s.ranSince f (s.passTime f k)) u 15 e).count (oSafe 0x1C) 1
  let s2 := if k = 0 then s1 else (s1.raise { src := srcOf u 6, cause := 15, sub := e, part := (s.ownerOf f).elim 0xFF (·.val) }).holdFrond f 2 k
  s2.noteFailed f

/-- After CHECK segment `k`: the next one, or the rotation is complete (R626, R628, R630). -/
def State.checkAdvance (s : State) (f : Fin 4) (k : Nat) : State :=
  if k + 1 < checkSegments then s.modFrond f fun x => { x with stPos := k + 1 }
  else
    let n := f.val
    let s1 := (s.modFrond f fun x => { x with stPos := 0 }).count (oSafe 0x18) 1
    { s1 with safety := { s1.safety with
      rotStart := s1.safety.rotStart.set n none, lastRot := s1.safety.lastRot.set n (some s.deckTime),
      rotations := s1.safety.rotations.modify n (· + 1), overdue := s1.safety.overdue.set n false } }

/-- A failed PATTERN or LOCATE segment (R630, R655): a failed hard self-test of the element it names. -/
def State.patternFailed (s : State) (f : Fin 4) (e : List Byte) : State :=
  let s1 := s.raise { src := srcOf (16 * f.val + fld e 0 1 % 16) 6, cause := 16, sub := fld e 4 4, part := (s.ownerOf f).elim 0xFF (·.val) }
  ((s1.count (oSafe 0x20) 1).noteFailed f).sweepRetired

/-- After PATTERN segment `i`: the next one, or the rotation is complete. -/
def State.patternAdvance (s : State) (f : Fin 4) (i : Nat) : State :=
  let n := f.val
  if i + 1 < packSegs (s.packOf f) then { s with safety := { s.safety with patPos := s.safety.patPos.set n (i + 1) } }
  else { s with safety := { s.safety with patPos := s.safety.patPos.set n 0, patStart := s.safety.patStart.set n none } }

/-- After LOCATE segment `i`: the next one; after the last the element needs no more (R657). -/
def State.locateAdvance (s : State) (f : Fin 4) (i : Nat) : State :=
  let n := f.val
  if (nextLocate (s.packOf f) (i + 1)).isSome then { s with safety := { s.safety with locPos := s.safety.locPos.set n (i + 1) } }
  else { s with safety := { s.safety with locPos := s.safety.locPos.set n 0, locate := s.safety.locate.filter (· ≠ n) } }

/-- SELFTEST_SEGMENT_END (R622, R626, R627, R630): the segment's outcomes are compared with the expected ones. -/
def execSelftestSegmentEnd (f : Fin 4) (matched : Bool) (s : State) : Host.Outcome State Fault Refusal :=
  .next (match (s.frond f).stRun with
    | none => s
    | some c =>
      let i := c / 3
      let s1 := s.modFrond f fun x => { x with stRun := none }
      if c % 3 = 0 then
        let s2 := if i = 0 then s1.comparatorTest (.stipe f) (!matched) else s1
        (if matched then s2.checkPassed f i else s2.checkFailed f i).checkAdvance f i
      else
        let s2 := if matched then s1 else s1.patternFailed f (packSeg (s.packOf f) i)
        if c % 3 = 1 then s2.patternAdvance f i else s2.locateAdvance f i)

/-- CHECK_ROTATION_OVERDUE (R628). -/
def execCheckRotationOverdue (f : Fin 4) (s : State) : Host.Outcome State Fault Refusal :=
  let u := 16 * f.val + 15
  .next (match s.safety.rotStart.getD f.val none with
    | none => s
    | some t =>
      if s.deckTime < t + 1000000000 ∨ s.safety.overdue.getD f.val false = true ∨ s.fcol.safe = true then s
      else
        let s1 := { s with safety := { s.safety with overdue := s.safety.overdue.set f.val true } }
        (s1.latent f u 0).raise { src := srcOf u 6, cause := 15, part := (s.ownerOf f).elim 0xFF (·.val) })

/-- PATTERN_ROTATION_OVERDUE (R660): once for a rotation not complete within ROT_MS. -/
def execPatternRotationOverdue (f : Fin 4) (s : State) : Host.Outcome State Fault Refusal :=
  .next (match s.safety.patStart.getD f.val none with
    | none => s
    | some t =>
      if s.deckTime < t + fld (s.packOf f) 16 4 * 1000000 ∨ s.safety.patLate.getD f.val false = true ∨ s.fcol.safe = true then s
      else
        let s1 := { s with safety := { s.safety with patLate := s.safety.patLate.set f.val true } }
        s1.latent f (16 * f.val + 15) 0)

/-! Widow comparators and the checkers of Thallus. -/

/-- Whether a unit with a Widow is halted by a debugger (R625). -/
def State.widowHalted (s : State) (u : WidowUnit) : Bool :=
  s.dbg.halted.contains (match u with | .stipe f => BitVec.ofNat 4 f.val | .management => 4 | .safety => 5)

/-- COMPARATOR_INJECTION_TEST (R622, R623, R625): in SERVICE, and not while the unit is halted. -/
def execComparatorInjectionTest (u : WidowUnit) (missed : Bool) (s : State) : Host.Outcome State Fault Refusal :=
  .next (if s.sys.st = .service ∧ s.widowHalted u = false then s.comparatorTest u missed else s)

/-- WIDOW_DIFFERENCE (R621): a Stipe's is a class U fault with an entry for the running job and L2 of the Frond; the others are class F,
and the release buffer is discarded (R608). -/
def execWidowDifference (u : WidowUnit) (s : State) : Host.Outcome State Fault Refusal :=
  .next (if s.fcol.safe then s else match u with
    | .stipe f =>
      let w := s.frondWho f 0xFF
      let s1 := if w.job = 0 then s else s.modJob w.job fun x => x.enter ⟨16 * f.val, 17, 0, w.kernel, s.now⟩
      (s1.raise { w.ev (srcOf (16 * f.val) 5) 17 0 0 with stepNo := 2 }).l2 f
    | .management => s.discardHeld.raise { src := srcOf 112 5, cause := 17, stepNo := 6 }
    | .safety => s.discardHeld.raise { src := srcOf 113 5, cause := 17, stepNo := 6 })

/-- Units with checkers that Thallus proves (R629): DMA units of the Fronds, Rhizoid, memories, host ports, links. -/
def testedUnits : List Nat := [8, 24, 40, 56] ++ (List.range 12).map (64 + ·) ++ (List.range 16).map (76 + ·) ++ [92, 94, 95, 96, 97, 98, 99, 100]

/-- Key of the last passing Thallus test of a unit. -/
def testKey (u : Nat) : Nat := 256 + u

/-- Jobs that ran a kernel on any Frond since a time. -/
def State.ranAnywhere (s : State) (since : Nat) : List Nat := ((List.finRange 4).flatMap fun f => s.ranSince f since).dedup

/-- The test of a Thallus unit's Widow comparator (R622, R629, R631): it waits while the unit is halted (R625). -/
def State.thallusWidow (s : State) (u : WidowUnit) (missed : Bool) : State :=
  if s.widowHalted u then s
  else s.comparatorTest u missed

/-- A missed injection of a checker (R627, R629). -/
def State.checkerMissed (s : State) (u : Nat) : State :=
  if testedUnits.contains u then
    let since := tget (fun _ => 0) s.safety.passAt (testKey u)
    let f : Fin 4 := ⟨u / 16 % 4, Nat.mod_lt _ (by decide)⟩
    let jobs := if u < 64 then s.ranSince f since else s.ranAnywhere since
    let s1 := ((s.enterAll jobs u 18 0).count (oSafe 0x1C) 1).raise { src := srcOf u 6, cause := 18 }
    if u < 64 then s1.holdFrond f 2 checkSegments else s1
  else s

/-- A passing test of a unit. -/
def State.checkerPassed (s : State) (u : Nat) : State :=
  let s1 := { s with safety := { s.safety with passAt := tput s.safety.passAt (testKey u) s.deckTime } }
  if u < 64 then s1.endHold ⟨u / 16 % 4, Nat.mod_lt _ (by decide)⟩ 2 checkSegments else s1

/-- FCOL self-fault (R639): SAFE_N and the safe state, the class F record, SELF. -/
def State.selfFault (s : State) : State :=
  let s1 := s.raise { src := srcOf 114 7, cause := 29, stepNo := 6 }
  { s1 with fcol := { s1.fcol with self := true } }

/-- THALLUS_CHECKER_TEST (R629, R640): every checker not missed has passed; a source test that is not seen is a record naming the source; a
failing broken-pair detector is a self-fault. -/
def execThallusCheckerTest (checkers : List (Fin 128)) (pairs : List (BitVec 10)) (detector : Bool) (s : State) :
    Host.Outcome State Fault Refusal :=
  .next (if s.sys.st ≠ .service then s
    else
      let bad := checkers.map (·.val)
      let s0 := (s.thallusWidow .management (bad.contains 112)).thallusWidow .safety (bad.contains 113)
      let s1 := (testedUnits.filter fun u => !bad.contains u).foldl State.checkerPassed s0
      let s2 := bad.foldl State.checkerMissed s1
      let s3 := (pairs.filter fun p => srcPresent p.toNat).foldl (fun s p => s.raise { src := srcOf 114 6, cause := 18, sub := p.toNat }) s2
      if detector then s3.selfFault else s3)

/-! SELFTEST_CTRL. -/

/-- Frond of a unit that SELFTEST_CTRL names. -/
def selfFrond (b : List Byte) : Fin 4 := ⟨fld b 2 2 / 16 % 4, Nat.mod_lt _ (by decide)⟩

/-- What SELFTEST_CTRL answers (R480, R630): rotations, failed segments, ms since the last rotation, which no rule states before the
first one. -/
def State.selfReport (s : State) (f : Fin 4) : List Byte × State :=
  let (v, s1) := match s.safety.lastRot.getD f.val none with
    | some t => ((s.deckTime - t) / 1000000, s)
    | none => let x := s.fresh; (x.1.toNat, x.2)
  (leBytes 4 (s.safety.rotations.getD f.val 0) ++ leBytes 4 (s.safety.failed.getD f.val 0) ++ leBytes 4 v, s1)

/-- SELFTEST_CTRL on a Frond's unit with its action. -/
def State.selfCtrl (s : State) (t : Taken) (act : State → Fin 4 → State) : Done :=
  checks [(decide (fld t.payload 0 1 ≤ 3 ∧ fld t.payload 2 2 < 64), .arg)] s (
    let f := selfFrond t.payload
    let r := (act s f).selfReport f
    ⟨.ok, r.1, r.2⟩)

/-- SELFTEST_CTRL STATUS (R630); also a reserved code, which is refused. -/
def execSelftestStatus (p : Fin 4) (d : Fin 256) (s : State) : Host.Outcome State Fault Refusal :=
  .next (s.runCmd p d.val 0x0063 (fun b => decide (fld b 0 1 = 0 ∨ 3 < fld b 0 1)) anyObj .mgmt fun s t => s.selfCtrl t fun s _ => s)

/-- SELFTEST_CTRL PAUSE (R630). -/
def execSelftestPause (p : Fin 4) (d : Fin 256) (s : State) : Host.Outcome State Fault Refusal :=
  .next (s.runCmd p d.val 0x0063 (fun b => decide (fld b 0 1 = 1)) anyObj .mgmt fun s t =>
    s.selfCtrl t fun s _ => { s with safety := { s.safety with patPaused := true } })

/-- SELFTEST_CTRL RESUME (R630). -/
def execSelftestResume (p : Fin 4) (d : Fin 256) (s : State) : Host.Outcome State Fault Refusal :=
  .next (s.runCmd p d.val 0x0063 (fun b => decide (fld b 0 1 = 2)) anyObj .mgmt fun s t =>
    s.selfCtrl t fun s _ => { s with safety := { s.safety with patPaused := false } })

/-- SELFTEST_CTRL RUN_NOW (R630). -/
def execSelftestRunNow (p : Fin 4) (d : Fin 256) (s : State) : Host.Outcome State Fault Refusal :=
  .next (s.runCmd p d.val 0x0063 (fun b => decide (fld b 0 1 = 3)) anyObj .mgmt fun s t =>
    s.selfCtrl t fun s f => { s with safety := { s.safety with runNow := s.safety.runNow.set f.val true } })

/-! Test packs. -/

/-- Whether a segment entry is in range (R659) for a program object. -/
def packSegOk (o : ProgObj) (e : List Byte) : Bool :=
  match o.kernels[fld e 2 2]? with
  | none => false
  | some k => decide (fld e 0 1 ≤ 15 ∧ fld e 1 1 ≤ 1 ∧ 1 ≤ fld e 8 4 ∧ fld e 8 4 ≤ 8000 ∧ k.wcet * 1000 ≤ fld e 8 4 * 2200)
      && zerosAt e 12 4 && zerosAt e 24 8

/-- Whether the header of a test pack of `b.length` bytes stands (R659, R660). -/
def packHeaderOk (b : List Byte) : Bool :=
  decide (fld b 0 4 = 0x4B505443 ∧ fld b 4 2 = 1 ∧ fld b 6 1 = 0xB0 ∧ fld b 60 4 = crc32c (b.take 60) ∧ 1 ≤ packSegs b
      ∧ packSegs b ≤ 1024 ∧ 1000 ≤ fld b 16 4 ∧ fld b 16 4 ≤ 86400000 ∧ b.length ≤ 0x400000
      ∧ 64 ≤ fld b 20 4 ∧ fld b 20 4 + 32 * packSegs b ≤ fld b 32 4 ∧ 64 ≤ fld b 24 4 ∧ fld b 24 4 + fld b 28 4 ≤ fld b 32 4
      ∧ fld b 32 4 + 64 = b.length)
    && zerosAt b 7 1 && zerosAt b 14 2 && zerosAt b 36 24

/-- Whether the program object of a pack passes the checks of loading and needs neither work counters nor NEEDS bit 3 (R660). -/
def packProgOk (b : List Byte) : Bool :=
  let obj := slice b (fld b 24 4) (fld b 28 4)
  let o := progObj obj 0
  (headerFail obj).isNone && decide (fld obj 4 2 = 3 ∧ fld obj 8 4 = obj.length) && (o.checkRows [0, 1, 2, 3]).isNone
    && !o.needs.testBit 1 && !o.needs.testBit 3
    && (List.range (packSegs b)).all fun i => packSegOk o (packSeg b i)

/-- Whether a pack passes the checks of a boot (R659, R718). -/
def State.packStands (s : State) (pk : List Byte) : Bool :=
  let sg := fld pk 32 4
  packHeaderOk pk && packProgOk pk && s.vendorUsable Config.vendorTableKey &&
    sigOk Config.vendorTableKey (pk.take sg) (slice pk sg 64)

/-- TESTPACK_LOAD (R477, R659, R660, R700): the allocation is one of a partition that the port holds. -/
def State.doPack (s : State) (p : Fin 4) (t : Taken) : Done :=
  let b := t.payload
  let off := fld b 8 8
  let n := fld b 16 4
  match tfind s.allocs (fld b 0 4) with
  | none => refuse .arg s
  | some a =>
    if s.claimedBy p a.part.val = true ∧ 128 ≤ n ∧ n ≤ 0x400000 ∧ off + n ≤ a.size then
      let pk := s.rdN (a.base + off) n
      let s1 := s.reportRead Who.firmware (a.base + off) n
      let sg := fld pk 32 4
      let x := checks [(packHeaderOk pk && packProgOk pk, .arg),
        (s.vendorUsable Config.vendorTableKey && sigOk Config.vendorTableKey (pk.take sg) (slice pk sg 64), .auth),
        (decide (fld s.nor.pack 8 4 ≤ fld pk 8 4), .auth)] s1
        ⟨.ok, leBytes 4 (fld pk 8 4), ({ s1 with nor := { s1.nor with pack := pk } }).extendMb 3 pk⟩
      x
    else refuse .arg s

/-- TESTPACK_LOAD. -/
def execTestpackLoad (p : Fin 4) (d : Fin 256) (s : State) : Host.Outcome State Fault Refusal :=
  .next (s.runCmd p d.val 0x0064 anyPl anyObj .mgmt fun s t => s.doPack p t)

/-- TEST_PACK_READ (R700, R718, R719): after SERVICE the installed pack is read and MB3 extended; one that fails its checks is not
installed, a class U fault on unit 116, its kind and cause open (DESIGN CHOICE, notes/assumptions/109). -/
def execTestPackRead (s : State) : Host.Outcome State Fault Refusal :=
  .next (if s.sys.st = .service ∧ s.sys.packRead = false then
      let s1 := { s with sys := { s.sys with packRead := true } }
      if s.nor.pack.isEmpty then s1
      else if s.packStands s.nor.pack then s1.extendMb 3 s.nor.pack
      else ({ s1 with nor := { s1.nor with pack := [] } }).raise { src := srcOf 116 1, cause := 30, sub := 0x1C00 }
    else s)

end Sys2Proof.Machine
end

