-- ==== Sys2Proof/Machine/Faults.lean ====
section
/-! DEFINITION. The commands of the Fault Collector and of fault reporting (R634 to R655): source events, broken pairs,
escalation, ERR_N, forcing, FAULT_READ, FAULT_ACK, HEALTH_READ. -/

namespace Sys2Proof.Machine

/-! Source events. -/

/-- The requester that a source event names: its job where one is given, else the partition of a Frond's unit (R642). -/
def State.eventWho (s : State) (unit : Nat) (job : Option Nat) : Who :=
  let own := if unit < 64 then (s.ownerOf ⟨unit / 16 % 4, Nat.mod_lt _ (by decide)⟩).elim 0xFF (·.val) else 0xFF
  match job.bind fun j => (s.job j).map fun x => (j, x) with
  | none => { Who.unit 0xFF with part := own }
  | some (j, x) => ⟨j, x.prog, x.kernel, 0xFF, x.part.val, 0xFF⟩

/-- Whether a failed check of a Rhizoid unit concerns a context's frame in progress or one it has yet to
deliver (R331, R336, R635): the pixel or point pipeline
that SUBUNIT names carries it, the line buffers of unit 75 under the number of their pipeline. -/
def State.pipeHas (s : State) (unit sub c : Nat) : Bool :=
  ((s.stream c).frame.isSome || !(s.stream c).done.isEmpty) && decide (s.regF (oStrm c 0) 7 3 = sub ∧
    (if unit = 74 then s.frameKind c = 2 else s.frameKind c = 1 ∧ (unit = 75 ∨ unit = 72 + sub / 4)))

/-- The context whose frame a failed check of a pipeline concerns: one of those whose frames it interleaves (R328), free. -/
def State.pipeCtx (s : State) (unit sub : Nat) : Option Nat :=
  let cs := (s.streams.map (·.1)).filter (s.pipeHas unit sub)
  cs[(Config.freeWord s.free).toNat % max 1 cs.length]?

/-- A failed check marks its frame ICHECK from a block on (R331, R600); in augmentation, the record of the Dealer lane (R363). -/
def State.markIcheck (s : State) (unit kind sub : Nat) : State :=
  if unit = 75 ∧ kind = 1 then
    s.modDealer fun x => { x with lanes := tmod x.lanes sub fun (l : LaneRun) => { l with icheck := true } }
  else match s.pipeCtx unit sub with
    | none => s
    | some c =>
      let at' := (Config.freeWord (s.free + 1)).toNat
      let mark := fun (r : FrameRun) => if r.icheck then r else { r with icheck := true, icheckAt := at' }
      { s with free := s.free + 2 }.modStream c fun x => match x.frame with
        | some r => { x with frame := some (mark r) }
        | none => { x with done := x.done.modifyHead fun d => { d with run := mark d.run } }

/-- The reaction to an event with a job or unit that fixes it (R601, R621, R732); a failed overlap check complements the BCW of the
block that the Frond unit is about to write (R606; DESIGN CHOICE, notes/assumptions/111). -/
def State.eventReact (s : State) (e : FaultInfo) (w : Who) : State :=
  let src := e.source.toNat
  let unit := src / 8
  let kind := src % 8
  let f : Fin 4 := ⟨unit / 16 % 4, Nat.mod_lt _ (by decide)⟩
  let ev : Ev := w.ev src e.cause.toNat e.subunit.toNat e.syndrome.toNat
  let onFrond := decide (unit < 64 ∧ w.job ≠ 0)
  if kind = 1 ∨ kind = 2 then
    if 72 ≤ unit ∧ unit ≤ 75 then
      let own := ((s.pipeCtx unit e.subunit.toNat).bind fun c => (s.stream c).owner).elim w.part (·.val)
      (s.markIcheck unit kind e.subunit.toNat).checkFail { w with part := own } unit kind e.cause.toNat e.subunit.toNat e.syndrome.toNat
    else
      let s1 := if e.cause.toNat = 8 ∧ unit < 64 then s.modFrond f fun x => { x with overlap := (x.overlap ++ [unit % 16]).dedup } else s
      s1.checkFail w unit kind e.cause.toNat e.subunit.toNat e.syndrome.toNat
  else if (kind = 3 ∨ kind = 4) ∧ onFrond = true then (s.raise { ev with stepNo := 1 }).l1On f kind w.job St.fault.code
  else if kind = 5 ∧ unit < 64 then
    let s1 := if w.job = 0 then s else s.modJob w.job fun x => x.enter ⟨unit, e.cause.toNat, e.subunit.toNat, w.kernel, s.now⟩
    (s1.raise { ev with stepNo := 2 }).l2 f
  else s.raise { ev with stepNo := if classOf src = 2 then 6 else 0xFF }

/-- FAULT_SOURCE_EVENT (R637 to R657): a present source whose pair is not broken; while a HOLD presents an error the event merges into its
record (R649) and the reactions of the event follow (R643). -/
def execFaultSourceEvent (e : FaultInfo) (s : State) : Host.Outcome State Fault Refusal :=
  let src := e.source.toNat
  .next (if srcPresent src && !s.fcolBit 0x400 src && !s.fcol.safe then (s.eventReact e (s.eventWho (src / 8) e.job)).sweepRetired else s)

/-! Broken pairs. -/

/-- The reset of the unit that a broken source watches (R638): no step below L5 reaches the other units, which are held out of service. -/
def State.brokenReset (s : State) (unit : Nat) : State :=
  if unit < 64 then s.l2 ⟨unit / 16 % 4, Nat.mod_lt _ (by decide)⟩
  else if unit ≤ 75 then s.l4Rhizoid
  else if 94 ≤ unit ∧ unit ≤ 97 then s.l4Port ⟨(unit - 94) % 4, Nat.mod_lt _ (by decide)⟩
  else if 98 ≤ unit ∧ unit ≤ 100 then s.l4Link ⟨(unit - 98) % 3, Nat.mod_lt _ (by decide)⟩
  else s

/-- Recovery step that the reset of a unit is. -/
def brokenStep (unit : Nat) : Nat :=
  if unit < 64 then 2 else if unit ≤ 75 ∨ (94 ≤ unit ∧ unit ≤ 100) then 4 else 0xFF

/-- Element that a hard self-test failure of a whole unit names (R635). -/
def wholeElem (unit : Nat) : Nat := if unit < 64 ∧ unit % 16 = 2 then unlocalized else 0

/-- BROKEN_PAIR (R638): the bit, the record of source 918, the unit's reset; a pair found again counts as a failed hard self-test. -/
def execBrokenPair (src : BitVec 10) (s : State) : Host.Outcome State Fault Refusal :=
  let n := src.toNat
  let unit := n / 8
  .next (if srcPresent n && !s.fcolBit 0x400 n && !s.fcol.safe then
      let again := s.fcol.refound.contains n
      let s1 := { s with fcol := { s.fcol with refound := if again then s.fcol.refound else s.fcol.refound ++ [n] } }
      let s2 := (s1.raise { src := 918, cause := 21, sub := n, stepNo := brokenStep unit }).setFcolBit 0x400 n true
      let s3 := if again then s2.healthCount unit (wholeElem unit) false false true else s2
      (s3.brokenReset unit).sweepRetired
    else s)

/-- COLLECTOR_SELF_FAULT (R639). -/
def execCollectorSelfFault (s : State) : Host.Outcome State Fault Refusal := .next (if s.fcol.self then s else s.selfFault)

/-! Escalation and ERR_N. -/

/-- The earliest pending record by deadline (R647). -/
def earliest (l : List (Nat × Nat × Nat)) : Option (Nat × Nat × Nat) :=
  l.foldl (fun a e => match a with
    | none => some e
    | some b => if e.2.1 < b.2.1 then some e else some b) none

/-- ESCALATION_TIMEOUT (R647): a deadline that has passed. -/
def execEscalationTimeout (s : State) : Host.Outcome State Fault Refusal :=
  .next (match earliest s.fcol.pending with
    | none => s
    | some e =>
      if s.deckNow.toNat < e.2.1 then s
      else ({ s with fcol := { s.fcol with pending := s.fcol.pending.filter fun x => decide (x.1 ≠ e.1) } }).escalateF e.2.2)

/-- ERR_PULSE_END (R650). -/
def execErrPulseEnd (s : State) : Host.Outcome State Fault Refusal :=
  .next (if s.fcol.pulse = true ∧ s.fcol.pulseEnd ≤ s.deckNow.toNat then { s with fcol := { s.fcol with pulse := false } } else s)

/-! FAULT_READ and FAULT_ACK. -/

/-- The record of a SEQ that is still in the ring. -/
def State.faultRec (s : State) (seq : Nat) : Option FaultRec := s.fcol.ring.find? fun r => decide (r.seq = seq)

/-- FAULT_READ (R480, R645): up to 15 records from a SEQ; one no longer in the ring reads as zeros. -/
def State.doFaultRead (s : State) (t : Taken) : Done :=
  let n := fld t.payload 4 1
  checks [(decide (1 ≤ n ∧ n ≤ 15), .arg)] s
    ⟨.ok, leBytes 16 n ++ (List.range n).flatMap fun i => ((s.faultRec (fld t.payload 0 4 + i)).map FaultRec.bytes).getD (List.replicate 64 0), s⟩

/-- FAULT_READ. -/
def execFaultRead (p : Fin 4) (d : Fin 256) (s : State) : Host.Outcome State Fault Refusal :=
  .next (s.runCmd p d.val 0x0060 anyPl anyObj .session fun s t => s.doFaultRead t)

/-- Whether a record can be acknowledged by a host (R648): in the ring it is neither of class C nor acknowledged. -/
def State.ackable (s : State) (t : Taken) : Bool :=
  match s.faultRec (fld t.payload 0 4) with
  | none => true
  | some r => decide (r.cls ≠ 0) && !r.acked

/-- Whether a port may acknowledge (R479): the management role, or the partition that the record names. -/
def State.mayAck (s : State) (p : Fin 4) (t : Taken) : Bool :=
  s.isMgmt p || (s.claimedBy p t.part && (match s.faultRec (fld t.payload 0 4) with
    | none => true
    | some r => decide (r.part.toNat = t.part)))

/-- HOLD clears once no class U record since POR_N is left without a host's acknowledgement (R650). -/
def State.clearHold (s : State) : State :=
  if s.nor.errHold && !(s.fcol.ring.any fun r => decide (r.cls = 1 ∧ s.fcol.porSeq ≤ r.seq) && !r.acked) then s.setRegF (oFcol 8) 31 1 0
  else s

/-- FAULT_ACK (R648, R650). -/
def State.doFaultAck (s : State) (p : Fin 4) (t : Taken) : Done :=
  let seq := fld t.payload 0 4
  checks [(s.mayAck p t, .auth), ((s.faultRec seq).isSome, .arg)] s
    (accept ({ s with fcol := { s.fcol with
      ring := s.fcol.ring.map fun (r : FaultRec) => if r.seq = seq then { r with acked := true } else r } }).clearHold)

/-- FAULT_ACK. -/
def execFaultAck (p : Fin 4) (d : Fin 256) (s : State) : Host.Outcome State Fault Refusal :=
  .next (s.runCmd p d.val 0x0061 anyPl (fun s t => s.ackable t) .session fun s t => s.doFaultAck p t)

/-! FORCE. -/

/-- FORCE on a present source (R634, R649). -/
def State.doForce (s : State) (t : Taken) (act : State → Nat → State) : Done :=
  let src := fld t.payload 0 2
  checks [(decide (src < 1024 ∧ fld t.payload 2 1 ≤ 2) && srcPresent src, .arg)] s (accept ((act s src).sweepRetired))

/-- FORCE PULSE. -/
def execForcePulse (p : Fin 4) (d : Fin 256) (s : State) : Host.Outcome State Fault Refusal :=
  .next (s.runCmd p d.val 0x0062 (fun b => decide (fld b 2 1 = 1)) anyObj .mgmt fun s t => s.doForce t State.forcePulse)

/-- FORCE HOLD. -/
def execForceHold (p : Fin 4) (d : Fin 256) (s : State) : Host.Outcome State Fault Refusal :=
  .next (s.runCmd p d.val 0x0062 (fun b => decide (fld b 2 1 = 2)) anyObj .mgmt fun s t => s.doForce t State.forceHold)

/-- FORCE RELEASE; also a reserved code, which is refused. -/
def execForceRelease (p : Fin 4) (d : Fin 256) (s : State) : Host.Outcome State Fault Refusal :=
  .next (s.runCmd p d.val 0x0062 (fun b => decide (fld b 2 1 = 0 ∨ 2 < fld b 2 1)) anyObj .mgmt fun s t => s.doForce t State.forceRelease)

/-! HEALTH_READ. -/

/-- Three power-on times, newest first (R654). -/
def ueTimes (l : List Nat) : List Byte := (List.range 3).flatMap fun i => leBytes 4 (l.getD i 0xFFFFFFFF)

/-- An entry with its STATE at a power-on time. -/
def Health.atTime (h : Health) (now : Nat) : Health := { h with st := h.standing now }

/-- The 32 bytes of a health entry (R654). -/
def Health.bytes (h : Health) : List Byte :=
  leBytes 1 h.unit ++ leBytes 1 h.st ++ leBytes 1 h.action ++ leBytes 1 h.hard ++ leBytes 4 h.elem.toNat ++ leBytes 4 h.ce
    ++ leBytes 4 h.ue ++ ueTimes h.ueTime ++ leBytes 4 (h.retTime.getD 0xFFFFFFFF)

/-- Joining an entry into a unit's summary (R654): worst STATE with its action, sums, newest times. -/
def Health.join (a h : Health) : Health :=
  { a with st := max a.st h.st, action := if a.st < h.st then h.action else a.action, hard := min 255 (a.hard + h.hard)
           ce := min 0xFFFFFFFF (a.ce + h.ce), ue := min 0xFFFFFFFF (a.ue + h.ue)
           ueTime := ((a.ueTime ++ h.ueTime).mergeSort (fun x y => decide (y ≤ x))).take 3
           retTime := match a.retTime, h.retTime with
             | some x, some y => some (max x y)
             | some x, none => some x
             | none, y => y }

/-- Whether an entry has counts or a state other than OK. -/
def Health.tells (h : Health) : Bool := decide (h.ce ≠ 0 ∨ h.ue ≠ 0 ∨ h.hard ≠ 0 ∨ h.st ≠ 0)

/-- Summary of a unit; `none` without counts or a state. -/
def healthSummary (l : List Health) (u : Nat) : Option Health :=
  let es := l.filter fun h => decide (h.unit = u)
  let r := es.foldl Health.join ⟨u, BitVec.ofNat 32 unlocalized, 0, 0, 0, 0, 0, [], none⟩
  if r.tells then some r else none

/-- Entries that HEALTH_READ returns, newest activity first, at most 127. -/
def State.healthOf (s : State) (u : Nat) : List Health :=
  let l := s.nor.health.map (·.atTime s.power.powerOn)
  (if u = 0xFFFF then (l.map (·.unit)).eraseDups.filterMap (healthSummary l) else l.filter fun h => decide (h.unit = u)).take 127

/-- HEALTH_READ (R480, R654). -/
def State.doHealthRead (s : State) (t : Taken) : Done :=
  let u := fld t.payload 0 2
  let l := s.healthOf u
  checks [(decide (u ≤ 127 ∨ u = 0xFFFF), .arg)] s ⟨.ok, leBytes 16 l.length ++ l.flatMap Health.bytes, s⟩

/-- HEALTH_READ. -/
def execHealthRead (p : Fin 4) (d : Fin 256) (s : State) : Host.Outcome State Fault Refusal :=
  .next (s.runCmd p d.val 0x0065 anyPl anyObj .session fun s t => s.doHealthRead t)

end Sys2Proof.Machine
end

