-- ==== Sys2Proof/Machine/Hezor.lean ====
section
/-! DEFINITION. Hezor links and collectives (R554 to R580): flits, replay, training, packets, Tricks. -/

namespace Sys2Proof.Machine

/-! Flits. -/

/-- The flit the link sends for its payload lane `v` (R553, R555, R556). -/
def Link.sendLane (x : Link) (v : Nat) : Link :=
  let (pl, tags, rest) := takePayload v 246 x.outq
  let (cv, cn) := x.owes
  let b := flit 1 v x.txSeq x.ack cv cn pl
  let y := x.repaid
  { y.onWire b with
      outq := rest, credits := x.credits.modify v (· - 1), txSeq := (x.txSeq + 1) % 4096,
      replay := if x.noReplay then [] else x.replay ++ [⟨x.txSeq, 1, b⟩],
      tags := x.tags ++ (tags.filter (· ≠ 0)).dedup.map fun t => (t, x.txSeq) }

/-- A flit without payload (R557): NAK or IDLE, with ACK and credits. -/
def Link.sendBare (x : Link) (ft : Nat) : Link :=
  let (cv, cn) := x.owes
  let b := flit ft 0 0 x.ack cv cn []
  let y := x.repaid
  { y.onWire b with nak := if ft = 2 then .sent else x.nak }

/-- One flit of a replay (R558), with its 4th send reported (R559). -/
def Link.sendReplay (x : Link) : Link × Bool :=
  let i := x.replay.length - x.resend
  let n := (x.replay[i]?).elim 0 (·.sends)
  ({ x.onWire ((x.replay[i]?).elim [] (·.bytes)) with
      replay := x.replay.modify i fun e => { e with sends := e.sends + 1 }, resend := x.resend - 1 }, decide (3 ≤ n))

/-- The lane that sends next: control, commit, collective, bulk, with payload and credit (R556). -/
def Link.lane (x : Link) : Option Nat :=
  (List.range 4).find? fun v => (x.outq.any fun p => decide (p.vl = v)) && decide (0 < x.credits.getD v 0)

/-- A fast retrain begins (R563): a class C fault; in no-replay mode the link goes DOWN under L4 instead. -/
def State.fastRetrain (s : State) (l : Fin 3) : State :=
  if (s.link l).noReplay then s.l4Link l
  else (s.modLink l fun x => { x with retrain := true }).raise { src := srcOf (98 + l.val) 0, cause := 0, sub := 0xFF }

/-- FLIT_TRANSMIT (R556 to R560): a NAK that is owed, a replayed flit, a PAYLOAD flit by lane priority and credit, or IDLE.
The 4th send of one flit starts a fast retrain. -/
def execFlitTransmit (l : Fin 3) (s : State) : Host.Outcome State Fault Refusal :=
  .next (
    let x := s.link l
    if x.st ≠ .active ∨ x.retrain = true ∨ s.fcol.safe = true then s
    else if x.nak = .owed then s.setLink l (x.sendBare 2)
    else if 0 < x.resend then
      let r := x.sendReplay
      if r.2 then (s.setLink l r.1).fastRetrain l else s.setLink l r.1
    else match x.lane with
      | some v => if x.replay.length < 256 then s.setLink l (x.sendLane v) else s.setLink l (x.sendBare 0)
      | none => s.setLink l (x.sendBare 0))

/-- A replay begins (R558, R559): counted, a class C fault. -/
def State.startReplay (s : State) (l : Fin 3) : State :=
  let s1 := (s.modLink l fun x => { x with resend := x.replay.length }).count (oHzl (0x1000 * l.val + 0xC)) 1
  s1.raise { src := srcOf (98 + l.val) 0, cause := 0, sub := 0xFF }

/-- A discarded flit (R554, R558 to R560): counted; a NAK is owed, or in no-replay mode the link goes DOWN. -/
def State.discardFlit (s : State) (l : Fin 3) : State :=
  let s1 := s.count (oHzl (0x1000 * l.val + 8)) 1
  if (s.link l).noReplay then s1.fastRetrain l
  else s1.modLink l fun x => { x with nak := if x.nak = .none then .owed else x.nak }

/-- ACK and credits of an intact flit (R554). -/
def Link.heard (x : Link) (fl : List Byte) : Link :=
  { x.acked (fld fl 4 2 % 4096) with credits := x.credits.modify (fld fl 6 1 % 4) (· + fld fl 7 1) }

/-- A PAYLOAD flit in order: its payload leaves the receive buffer, so its credit is owed (R555). -/
def Link.accept (x : Link) (fl : List Byte) : Link :=
  let v := fld fl 1 1 % 4
  { x with rxSeq := (x.rxSeq + 1) % 4096, nak := .none, owed := x.owed.modify v (· + 1),
           rx := tput x.rx v ((tfind x.rx v).getD [] ++ slice fl 8 246) }

/-- A received flit (R554, R555, R558, R560). -/
def State.takeFlit (s : State) (l : Fin 3) (fl : List Byte) : State :=
  if crc16 (fl.take 254) ≠ fld fl 254 2 ∨ 2 < fld fl 0 1 then s.discardFlit l
  else
    let s1 := s.modLink l fun x => x.heard fl
    match fld fl 0 1 with
    | 1 => if fld fl 2 2 = (s.link l).rxSeq then s1.modLink l fun x => x.accept fl else s1.discardFlit l
    | 2 => if (s1.link l).replay.isEmpty then s1 else s1.startReplay l
    | _ => s1

/-- FLIT_RECEIVE (R552, R554, R555, R558, R560): the 256 bytes of a flit as the eight lanes bring them. -/
def execFlitReceive (l : Fin 3) (lanes : List (List Byte)) (s : State) : Host.Outcome State Fault Refusal :=
  let x := s.link l
  .next (
    if x.st ≠ .active ∨ x.retrain = true ∨ s.fcol.safe = true then s
    else (s.modLink l fun x => { x with rxPos := x.rxPos + 256 }).takeFlit l (unstripe x.lanes x.rxPos 256 lanes))

/-- REPLAY_TIMEOUT (R558, R513): the oldest flit unacknowledged for 2 µs is replayed with those after it; what it carried is
charged to the link. -/
def execReplayTimeout (l : Fin 3) (s : State) : Host.Outcome State Fault Refusal :=
  .next (
    let x := s.link l
    if x.st ≠ .active ∨ x.retrain = true then s
    else match x.replay with
      | [] => s.modLink l fun y => { y with tags := y.tags.drop 1 }
      | e :: _ =>
        let s1 := s.modLink l fun y => { y with tags := y.tags.filter fun t => decide (t.2 ≠ e.seq) }
        s1.startReplay l)

/-! Training. -/

/-- LINK_DETECT (R561): a link in DOWN enters DETECT; a link in DETECT has run receiver detection on every lane, `e.lanes` answered,
and enters TRAIN with them. -/
def execLinkDetect (e : Detected) (s : State) : Host.Outcome State Fault Refusal :=
  .next (if s.sys.por ∨ s.fcol.safe then s
    else match (s.link e.link).st with
      | .down => s.modLink e.link fun x => { x with st := .detect }
      | .detect => s.modLink e.link fun x => { x with st := .train, lanes := e.lanes }
      | _ => s)

/-- Lanes in a mask. -/
def laneCount (m : BitVec 8) : Nat := ((List.range 8).filter fun i => m.getLsbD i).length

/-- Whether one partition in EXACT owns all four Fronds (R560). -/
def State.moduleExact (s : State) : Bool :=
  (List.finRange 4).any fun r => decide ((s.part r).st ≠ .unclaimed ∧ (s.part r).mode = .exact) &&
    decide ((s.owned r).elim 0 (·.fronds) = 15)

/-- The HELLO this end sends (R562): own module, stepping 0xB0, versions 1.0 and 1.1, active lanes, and whether it must run without
replay. -/
def State.ownHello (s : State) (lanes : BitVec 8) : LinkHello := ⟨s.sys.modId, 0xB0, 0x10, 0x11, lanes, s.moduleExact⟩

/-- LINK_TRAIN_DONE (R561, R562): lanes that failed are dropped; the link sends its HELLO and awaits the peer's. -/
def execLinkTrainDone (l : Fin 3) (lanes : BitVec 8) (s : State) : Host.Outcome State Fault Refusal :=
  .next (match (s.link l).st with
    | .detect => s.modLink l fun x => { x with st := .negotiate, lanes := lanes, sentHello := some (s.ownHello lanes) }
    | .train => s.modLink l fun x =>
        { x with st := .negotiate, lanes := x.lanes &&& lanes, sentHello := some (s.ownHello (x.lanes &&& lanes)) }
    | _ => s)

/-- LINK_TRAIN_TIMEOUT (R561): the attempt fails and is counted. -/
def execLinkTrainTimeout (l : Fin 3) (s : State) : Host.Outcome State Fault Refusal :=
  .next (if (s.link l).st = .down ∨ (s.link l).st = .active then s
    else (s.setLink l { Link.reset with peer := (s.link l).peer }).count (oHzl (0x1000 * l.val + 0x10)) 1)

/-- HEZOR_HELLO (R21, R560, R562): the highest common version in major and minor nibbles, own versions 1.0 and 1.1; the link
stays out of service, with a class C fault, when none exists, the peer is not the module wired to it, or fewer than 7 lanes
are active at an end. -/
def execHezorHello (l : Fin 3) (h : LinkHello) (s : State) : Host.Outcome State Fault Refusal :=
  .next (
    let x := s.link l
    if x.st ≠ .negotiate then s
    else
      let v := min h.maxVer.toNat 0x11
      let wired := (s.sys.modId.toNat + l.val + 1) % 4
      if v < max h.minVer.toNat 0x10 ∨ h.module.toNat ≠ wired ∨ laneCount x.lanes < 7 ∨ laneCount h.lanes < 7 then
        (s.modLink l fun x => { x with peer := h.module }).raise { src := srcOf (98 + l.val) 0, cause := 0, sub := 0xFF }
      else
        s.setLink l { Link.reset with
          st := .active, lanes := x.lanes, verMaj := v / 16, verMin := v % 16, peer := h.module,
          noReplay := h.noReplay || s.moduleExact, credits := [8, 16, 128, 64] })

/-- LINK_LOCK_LOSS (R563). -/
def execLinkLockLoss (l : Fin 3) (s : State) : Host.Outcome State Fault Refusal :=
  .next (if (s.link l).st = .active ∧ (s.link l).retrain = false then s.fastRetrain l else s)

/-- FAST_RETRAIN_DONE (R563): `lanes` passed. The link goes on with all its lanes, or on 7 when the first lane is lost; any
other outcome is a Hezor link reset at L4. -/
def execFastRetrainDone (l : Fin 3) (lanes : BitVec 8) (ok : Bool) (s : State) : Host.Outcome State Fault Refusal :=
  .next (
    let x := s.link l
    if x.st ≠ .active ∨ x.retrain = false then s
    else
      let kept := lanes &&& x.lanes
      if ok ∧ (kept = x.lanes ∨ (laneCount x.lanes = 8 ∧ laneCount kept = 7)) then
        let r := x.replay.map fun (e : SentFlit) => { e with sends := 1 }
        s.setLink l { x with retrain := false, lanes := kept, replay := r, resend := r.length, txPos := 0, rxPos := 0 }
      else s.l4Link l)

/-- HEZOR_LINK_RESET (R563, R732): L4 of the link. -/
def execHezorLinkReset (l : Fin 3) (s : State) : Host.Outcome State Fault Refusal := .next (s.l4Link l)

/-! Packets. -/

/-- The instance a packet is for, opened by it; `none` when its group, entry or sender is unknown or the instance is resolved
(R576). -/
def State.pktTrick (s : State) (key e inst src : Nat) : Option (Group × State) :=
  match s.groupOf (BitVec.ofNat 32 key) with
  | none => none
  | some g =>
    if e < s.ntrick g ∧ (s.tentry g e).senders.getLsbD src = true ∧ src ≠ s.sys.modId.toNat then
      let s1 := s.openTrick g e inst
      match s1.trick g.key e inst with
      | some t => if t.done.isSome then none else some (g, s1)
      | none => none
    else none

/-- Storing a DATA block (R575): the carried BCW goes with it and is checked on arrival. -/
def State.landBlock (s : State) (l : Fin 3) (g : Group) (e inst src blk : Nat) (data : List Byte) (bcw : Word) : State :=
  let t := s.tentry g e
  let a := s.slotBase g t src + 256 * blk
  let s1 := s.putBlock a data bcw
  let ok := s1.blockOk a
  let s2 := if ok then s1 else s1.reportBcw (Who.unit (98 + l.val)) a
  s2.modTrick g.key e inst fun u => u.modSlot src fun q =>
    { q with blocks := q.blocks ++ [blk], bad := q.bad || !ok || q.blocks.contains blk }

/-- DATA_PACKET (R575). -/
def execDataPacket (l : Fin 3) (s : State) : Host.Outcome State Fault Refusal :=
  .next (match (s.link l).nextPkt 1 with
    | none => s
    | some (v, p, rest) =>
      let s0 := s.tookPkt l v rest
      match s0.pktTrick (fld p 4 4) (fld p 1 1) (fld p 8 4) (fld p 12 1) with
      | none => s0
      | some (g, s1) =>
        if fld p 2 2 < (s1.tentry g (fld p 1 1)).slice / 256 then
          s1.landBlock l g (fld p 1 1) (fld p 8 4) (fld p 12 1) (fld p 2 2) (slice p 16 256) (BitVec.ofNat 32 (fld p 272 4))
        else s1.modTrick g.key (fld p 1 1) (fld p 8 4) fun u => u.modSlot (fld p 12 1) fun q => { q with bad := true })

/-- CLOSE_PACKET (R575, R576). -/
def execClosePacket (l : Fin 3) (s : State) : Host.Outcome State Fault Refusal :=
  .next (match (s.link l).nextPkt 2 with
    | none => s
    | some (v, p, rest) =>
      let s0 := s.tookPkt l v rest
      match s0.pktTrick (fld p 4 4) (fld p 1 1) (fld p 8 4) (fld p 12 1) with
      | none => s0
      | some (g, s1) =>
        s1.verifySlot g (fld p 1 1) (fld p 8 4) (fld p 12 1) (fld p 2 2) (fld p 13 1) (BitVec.ofNat 64 (fld p 16 8)))

/-- COMMIT_PACKET (R575 to R578): a VOID voids; a COMMIT is held until its slot is verified. -/
def execCommitPacket (l : Fin 3) (s : State) : Host.Outcome State Fault Refusal :=
  .next (match (s.link l).nextPkt 3 with
    | none => s
    | some (v, p, rest) =>
      let s0 := s.tookPkt l v rest
      match s0.pktTrick (fld p 4 4) (fld p 1 1) (fld p 8 4) (fld p 3 1) with
      | none => s0
      | some (g, s1) =>
        let s2 := s1.modTrick g.key (fld p 1 1) (fld p 8 4) fun u =>
          u.modSlot (fld p 3 1) fun q => { q with commit := some (decide (fld p 2 1 = 0)) }
        if fld p 2 1 = 0 then s2.settle g.key (fld p 1 1) (fld p 8 4) else s2.voidTrick g.key (fld p 1 1) (fld p 8 4))

/-- Whether a JOIN or JOINED agrees with a group (R569). -/
def State.joins (s : State) (g : Group) (p : List Byte) : Bool :=
  decide (fld p 8 1 = (s.part g.part).mode.code ∧ fld p 9 1 = g.replica.toNat ∧ fld p 10 1 = g.mask.toNat
    ∧ fld p 16 4 = g.crc.toNat) && g.mask.getLsbD (fld p 3 1)

/-- GCTL_JOIN (R569): a matching JOIN or JOINED makes its sender a member; a JOIN is answered with JOINED. -/
def execGctlJoin (l : Fin 3) (s : State) : Host.Outcome State Fault Refusal :=
  .next (match (s.link l).nextPkt 4 with
    | none => s
    | some (v, p, rest) =>
      if 1 < fld p 1 1 then s
      else
        let s0 := s.tookPkt l v rest
        match s0.groupOf (BitVec.ofNat 32 (fld p 4 4)) with
        | none => s0
        | some g =>
          if s0.joins g p then
            let src := fld p 3 1
            let s1 := { s0 with groups := s0.groups.map fun (h : Group) =>
              if h.key = g.key then { h with joined := h.joined ||| BitVec.ofNat 4 (2 ^ src) } else h }
            if fld p 1 1 = 0 then
              s1.sendTo src 0 0 (gctlPkt 1 s.sys.modId.toNat g.key.toNat (s.part g.part).mode.code g.replica.toNat
                g.mask.toNat g.crc)
            else s1
          else s0)

/-- GCTL_LEAVE (R570): instances that await the leaving module are voided. -/
def execGctlLeave (l : Fin 3) (s : State) : Host.Outcome State Fault Refusal :=
  .next (match (s.link l).nextPkt 4 with
    | none => s
    | some (v, p, rest) =>
      if fld p 1 1 ≠ 2 then s
      else
        let s0 := s.tookPkt l v rest
        let key : Word := BitVec.ofNat 32 (fld p 4 4)
        let s1 := { s0 with groups := s0.groups.map fun (h : Group) =>
          if h.key = key then { h with joined := h.joined &&& ~~~(BitVec.ofNat 4 (2 ^ fld p 3 1)) } else h }
        (s1.tricks.filter fun t => decide (t.key = key) && t.done.isNone && t.slots.any fun q =>
          decide (q.src = fld p 3 1) && !q.clean).foldl (fun s t => s.voidTrick t.key t.entry t.inst) s1)

/-- TRICK_LEDGER_EXAMINE (R574): 64 FCLK after the own slot's close, COMMIT when the writing job's ledger holds no entry, else
VOID, which is also taken locally. -/
def execTrickLedgerExamine (key : Word) (entry inst : Nat) (s : State) : Host.Outcome State Fault Refusal :=
  .next (match s.groupOf key, s.trick key entry inst with
    | some g, some t =>
      match t.slot s.sys.modId.toNat with
      | none => s
      | some q =>
        if q.closed.isNone ∨ q.commit.isSome then s
        else
          let clean := match t.job.bind s.job with
            | some x => x.ledger.isEmpty
            | none => false
          let s1 := s.sendVerdict g t (!clean)
          if clean then s1.settle key entry inst else s1.voidTrick key entry inst
    | _, _ => s)

/-- TRICK_TIMEOUT (R576). -/
def execTrickTimeout (key : Word) (entry inst : Nat) (s : State) : Host.Outcome State Fault Refusal :=
  .next (s.voidTrick key entry inst)

end Sys2Proof.Machine
end

