-- ==== Sys2Proof/Machine/HostPort.lean ====
section
/-! DEFINITION. The host port as LPDDR memory (R402 to R452): commands of the host's memory controller. -/

namespace Sys2Proof.Machine

/-! What the host reads. -/

/-- One byte as the host reads it (R407, R425, R427, R445, R447, R455): the SRAM's, before its fill and beyond it 0xD5; in the safe
state only the control page. -/
def State.winByte (s : State) (p : Fin 4) (x : Nat) : Byte :=
  if !(s.port p).filled ∨ 0x800000 ≤ x ∨ (s.sys.st = .safe ∧ 0x10000 ≤ x) then 0xD5 else s.sramByte p x

/-- The open row of a bank. -/
def Port.rowOf (x : Port) (b : Nat) : Option Nat := tfind x.openRows b

/-- Banks of the settled mode (R402). -/
def Port.banks (x : Port) : Nat := if x.mode = .lpddr4x then 8 else 16

/-- Window byte of a burst (R406). -/
def Port.winAddr (x : Port) (row b col : Nat) : Nat := (row * x.banks + b) * 2048 + 32 * col

/-- A counter of a port's HPC block. -/
def State.hpcCount (s : State) (p : Fin 4) (o : Nat) : State := s.count (oHpc p o) 1

/-- An ignored or wrong command (R404, R410). -/
def State.proto (s : State) (p : Fin 4) : State := s.hpcCount p 0x24

/-- A dropped write: counted, WDROP set (R426). -/
def State.dropWrite (s : State) (p : Fin 4) : State := (s.hpcCount p 0x1C).irq p irqWdrop

/-- A command that only a ready, settled port outside self-refresh and power-down takes (R404, R420). -/
def State.settled (s : State) (p : Fin 4) (act : State) : State :=
  let x := s.port p
  if !x.ready then s
  else if x.mode = .unsettled || x.sr || x.pd then s.proto p
  else act

/-- STATE set for a change of heartbeat state, but in STARTUP and TEST (R432, R438). -/
def State.hbIrq (s : State) (p : Fin 4) : State :=
  if s.sys.st = .startup ∨ s.sys.st = .test then s else s.irq p irqState

/-- ACT (R406, R410): the command carries 16 row bits. -/
def execAct (p : Fin 4) (bank : Fin 16) (row : Nat) (s : State) : Host.Outcome State Fault Refusal :=
  let x := s.port p
  let r := row % 65536
  .next (s.settled p (
    if x.banks ≤ bank.val ∨ (x.mode = .lpddr5 ∧ 32768 ≤ r) then s.proto p
    else s.modPort p fun x => { x with openRows := tput x.openRows bank.val r }))

/-- PRE (R410): one bank, or all. -/
def execPre (p : Fin 4) (bank : Option (Fin 16)) (s : State) : Host.Outcome State Fault Refusal :=
  .next (s.settled p (match bank with
    | none => s.modPort p fun x => { x with openRows := [] }
    | some b =>
      if (s.port p).banks ≤ b.val then s.proto p
      else s.modPort p fun x => { x with openRows := tdel x.openRows b.val }))

/-- The 32 bytes of a read burst stand in `out`. -/
def State.answer (s : State) (l : List Byte) : State := { s with out := l }

/-- 32 bytes of 0xD5. -/
def d5 (n : Nat) : List Byte := List.replicate n 0xD5

/-- Whether a window address is served from SRAM words that carry SEC-DED (R419, R445). -/
def State.winStored (s : State) (p : Fin 4) (x : Nat) : Bool :=
  (s.port p).filled && s.sys.st != .safe && decide (0x10000 ≤ x ∧ x < 0x610000) && !decide (0x11000 ≤ x ∧ x < 0x12000)

/-- RD (R406, R410, R415, R419): the command carries 6 column bits. -/
def execRd (p : Fin 4) (bank : Fin 16) (col : Nat) (s : State) : Host.Outcome State Fault Refusal :=
  .next (s.settled p (match (s.port p).rowOf bank.val with
    | none => (s.proto p).answer (d5 32)
    | some row =>
      let a := (s.port p).winAddr row bank.val (col % 64)
      let d := (List.range 32).map fun i => s.winByte p (a + i)
      let s1 := if s.winStored p a then s.reportMarks (Who.unit (94 + p.val)) (sramBase p + a) 32 else s
      s1.answer d))

/-- Whether a running command of the port fills or flushes an aperture (R437): it does from when it was taken. -/
def Port.aperBusy (x : Port) (a : Nat) : Bool :=
  x.rings.any fun e => match e.2.taken with
    | t :: _ => decide ((t.opc = 0x001B ∨ t.opc = 0x001C) ∧ fld t.payload 0 1 = a)
    | [] => false

/-- Aperture of a window address, or of the shadow word there (R425, R433). -/
def aperOf (x : Nat) : Option Nat :=
  if 0x200000 ≤ x ∧ x < 0x600000 then some ((x - 0x200000) / 0x100000)
  else if 0x600000 ≤ x ∧ x < 0x610000 then some ((x - 0x600000) / 0x4000)
  else none

/-- A host write dropped on a page of a FULL submission ring also sets its OVERRUN (R465). -/
def State.dropAt (s : State) (p : Fin 4) (x : Nat) : State :=
  ((s.port p).rings.filter fun e => decide (e.2.kind = 1 ∧ e.2.base ≤ x ∧ x < e.2.base + e.2.cap) && e.2.full).foldl
    (fun s e => s.setOverrun p e.1) (s.dropWrite p)

/-- A burst written to the control page (R427 to R432). -/
def State.cpWrite (s : State) (p : Fin 4) (x : Nat) (d : List Byte) : State :=
  let v := fld d 0 4
  if x = 0x1000 then s.modPort p fun y => { y with irqStatus := y.irqStatus &&& ~~~(BitVec.ofNat 6 v) }
  else if x = 0x1040 then s.modPort p fun y => { y with irqMask := BitVec.ofNat 6 v }
  else match arr 0x4000 64 256 x with
    | some i => s.modPort p fun y => { y with sqDb := tput y.sqDb i (BitVec.ofNat 32 v) }
    | none => match arr 0x8000 64 256 x with
      | some i => s.modPort p fun y => { y with cqDb := tput y.cqDb i (BitVec.ofNat 32 v) }
      | none => s

/-- A whole burst applied at a window address (R417, R426, R437, R445). -/
def State.winWrite (s : State) (p : Fin 4) (x : Nat) (d : List Byte) : State :=
  let stored := decide (x < 0x610000) && !decide (0x16000 ≤ x ∧ x < 0x20000)
  if !(s.port p).filled ∨ stored = false ∨ s.pageOpen p (x / 4096) = false ∨ (s.sys.st = .safe ∧ 0x10000 ≤ x) then s.dropAt p x
  else if x < 0x10000 then s.cpWrite p x d
  else
    let s1 := match aperOf x with
      | some a => if (s.port p).aperBusy a then s.hpcCount p 0x28 else s
      | none => s
    s1.put (sramBase p + x) d

/-- WR (R406, R410, R412, R417, R426): 6 column bits and a burst of 32 bytes; a set mask bit masks its byte. -/
def execWr (p : Fin 4) (bank : Fin 16) (col : Nat) (data : List Byte) (mask : BitVec 32) (s : State) :
    Host.Outcome State Fault Refusal :=
  .next (s.settled p (match (s.port p).rowOf bank.val with
    | none => s.proto p
    | some row =>
      if mask = -1 then s
      else if mask ≠ 0 then s.dropWrite p
      else s.winWrite p ((s.port p).winAddr row bank.val (col % 64)) (slice data 0 32)))

/-- RD32_WR32 (R413). -/
def execRd32Wr32 (p : Fin 4) (write : Bool) (s : State) : Host.Outcome State Fault Refusal :=
  .next (s.settled p (
    let s1 := s.hpcCount p 0x20
    if write then s1.dropWrite p else s1.answer (d5 64)))

/-- REF (R410, R438, R439, R441). -/
def execRef (p : Fin 4) (s : State) : Host.Outcome State Fault Refusal :=
  .next (s.settled p (
    let x := s.port p
    let s1 := s.countWrap (oHpc p 0x10)
    let s2 := if x.openRows.isEmpty then s1 else s1.proto p
    if x.hb = .init ∨ x.hb = .lost then (s2.modPort p fun x => { x with hb := .live }).hbIrq p else s2))

/-- RFM (R410): LPDDR5 alone has it. -/
def execRfm (p : Fin 4) (s : State) : Host.Outcome State Fault Refusal :=
  .next (s.settled p (if (s.port p).mode = .lpddr5 then s else s.proto p))

/-- SRE (R438, R443). -/
def execSre (p : Fin 4) (s : State) : Host.Outcome State Fault Refusal :=
  .next (s.settled p (
    let x := s.port p
    let s1 := (if x.openRows.isEmpty then s else s.proto p).hpcCount p 0x14
    let s2 := s1.modPort p fun x => { x with openRows := [], sr := true }
    if x.hb = .live then (s2.modPort p fun x => { x with hb := .sleeping, hint := true }).hbIrq p else s2))

/-- SRX (R438, R443). -/
def execSrx (p : Fin 4) (s : State) : Host.Outcome State Fault Refusal :=
  .next (
    let x := s.port p
    if !x.ready then s
    else if x.mode = .unsettled then s.proto p
    else
      let s1 := s.modPort p fun x => { x with sr := false, hint := false }
      if x.hb = .sleeping then (s1.modPort p fun x => { x with hb := .live }).hbIrq p else s1)

/-- PDE_PDX (R410, R444): the heartbeat goes on. -/
def execPdePdx (p : Fin 4) (enter : Bool) (s : State) : Host.Outcome State Fault Refusal :=
  .next (
    let x := s.port p
    if !x.ready then s
    else if x.mode = .unsettled then s.proto p
    else s.modPort p fun x => { x with pd := enter })

/-! Mode registers. -/

/-- Whether the settled mode is LPDDR5. -/
def Port.is5 (x : Port) : Bool := decide (x.mode = .lpddr5)

/-- Whether a mode register is read-only (R423, R424). -/
def mrFixed (m5 : Bool) (ma : Nat) : Bool := decide (4 ≤ ma ∧ ma ≤ 8) || decide (52 ≤ ma ∧ ma ≤ 55) || Config.mrReadOnly m5 ma

/-- Value that a write leaves in a mode register (R411, R423). -/
def mrStored (m5 : Bool) (ma : Nat) (old op : Byte) : Byte :=
  let v := op &&& ~~~(Config.mrUnoffered m5 ma)
  if m5 && decide (ma = 3) && Config.mr3EightBank op then (v &&& ~~~Config.mr3OrgBits) ||| (old &&& Config.mr3OrgBits) else v

/-- Whether a write asks for a feature that is not offered (R411). -/
def mrAsks (m5 : Bool) (ma : Nat) (op : Byte) : Bool :=
  decide (op &&& Config.mrUnoffered m5 ma ≠ 0) || (m5 && decide (ma = 3) && Config.mr3EightBank op)

/-- A mode register as held: what the host wrote, else its power-up value. -/
def Port.mr (x : Port) (ma : Nat) : Byte := tget (fun m => Config.mrPowerUp x.is5 m) x.mrs ma

/-- A write in the settled mode (R411, R414, R423). -/
def State.mrWrite (s : State) (p : Fin 4) (ma : Nat) (op : Byte) : State :=
  let x := s.port p
  let m5 := x.is5
  if mrFixed m5 ma then s.hpcCount p 0x20
  else if !Config.mrDefined m5 ma then s.proto p
  else
    let s1 := if mrAsks m5 ma op then s.hpcCount p 0x20 else s
    let v := mrStored m5 ma (x.mr ma) op
    s1.modPort p fun y => { y with mrs := tput y.mrs ma v
                                   fsp := match Config.mrFsp m5 ma op with | some k => k % 3 | none => y.fsp }

/-- MRW (R403, R404, R411, R423): on an unsettled port it may settle the mode, and then takes effect in it. -/
def execMrw (p : Fin 4) (ma : BitVec 8) (op : Byte) (valid5 valid4 : Bool) (s : State) : Host.Outcome State Fault Refusal :=
  .next (
    let x := s.port p
    if !x.ready then s
    else match x.mode with
      | .unsettled =>
        if valid5 && valid4 then
          s.modPort p fun x => { x with ambig := x.ambig + 1, mode := if 16 ≤ x.ambig + 1 then .lpddr5 else .unsettled }
        else if valid5 then (s.modPort p fun x => { x with mode := .lpddr5 }).mrWrite p ma.toNat op
        else if valid4 then (s.modPort p fun x => { x with mode := .lpddr4x }).mrWrite p ma.toNat op
        else s.proto p
      | .lpddr5 => if valid5 then s.mrWrite p ma.toNat op else s.proto p
      | .lpddr4x => if valid4 then s.mrWrite p ma.toNat op else s.proto p)

/-- MR55 (R424): STATE is 7 while the SRAM is unavailable. -/
def State.pstate (s : State) (p : Fin 4) : Byte :=
  BitVec.ofNat 8 ((if (s.port p).filled then s.sys.st.code else 7) * 32 + p.val * 8)

/-- Value of a mode register (R410, R423, R424). -/
def State.mrValue (s : State) (p : Fin 4) (ma : Nat) : Byte :=
  let x := s.port p
  match ma with
  | 5 => 0xE9
  | 6 => 0xB0
  | 7 => 0x32
  | 52 => 0x47
  | 53 => 0x39
  | 54 => 0x10
  | 55 => s.pstate p
  | _ =>
    if ma = 4 ∨ ma = 8 then Config.mrFixed x.is5 ma
    else if Config.mrOsc x.is5 ma then Config.oscCount s.free
    else if Config.mrDefined x.is5 ma then x.mr ma else 0

/-- MRR (R404, R423, R424). -/
def execMrr (p : Fin 4) (ma : BitVec 8) (s : State) : Host.Outcome State Fault Refusal :=
  .next (s.settled p ({ s with out := [s.mrValue p ma.toNat], free := s.free + 1 }))

/-- TRAINING_COMMAND (R410, R422): a FIFO write is a burst of 32 bytes; FIFO reads give what was written, in order; the rest has no effect on the port. -/
def execTrainingCommand (p : Fin 4) (t : Training) (s : State) : Host.Outcome State Fault Refusal :=
  .next (s.settled p (match t with
    | .fifoWrite b => s.modPort p fun x => { x with fifo := x.fifo ++ slice b 0 32 }
    | .fifoRead =>
      if (s.port p).fifo.isEmpty then let r := s.freeBytes 8; r.2.answer r.1
      else (s.modPort p fun x => { x with fifo := x.fifo.drop 32 }).answer ((s.port p).fifo.take 32)
    | .dqCalibration => let r := s.freeBytes 8; r.2.answer r.1
    | .zq => s
    | .oscillator => s
    | .levelling => s))

/-! Restart. -/

/-- Mode registers at their power-up values, rows closed, training results gone (R442). -/
def Port.restart (x : Port) (m : PortMode) : Port :=
  { x with mode := m, mrs := [], ambig := 0, openRows := [], fsp := 0, sr := false, pd := false, hint := false, fifo := [] }

/-- HOST_RESET_N_ASSERT (R442). -/
def execHostResetNAssert (p : Fin 4) (s : State) : Host.Outcome State Fault Refusal :=
  .next ((s.enterLost p).modPort p fun x => x.restart (s.lockedMode p))

/-- HOST_RESET_N_DEASSERT (R403, R438). -/
def execHostResetNDeassert (p : Fin 4) (s : State) : Host.Outcome State Fault Refusal :=
  .next (s.modPort p fun x => let y := x.restart (s.lockedMode p); { y with hb := .init })

/-- HEARTBEAT_TIMEOUT (R440, R441). -/
def execHeartbeatTimeout (p : Fin 4) (s : State) : Host.Outcome State Fault Refusal :=
  .next (if (s.port p).hb = .live then s.enterLost p else s)

/-- HOST_PORT_READY (R420): 2 ms after POR_N release. -/
def execHostPortReady (p : Fin 4) (s : State) : Host.Outcome State Fault Refusal :=
  .next (if s.sys.por || (s.port p).ready then s
    else s.modPort p fun x => { x with ready := true })

/-- HP_SRAM_ZERO_FILL_DONE (R447). -/
def execHpSramZeroFillDone (p : Fin 4) (s : State) : Host.Outcome State Fault Refusal :=
  .next (if s.sys.por || (s.port p).filled then s
    else s.modPort p fun x => { x with filled := true })

end Sys2Proof.Machine
end

