-- ==== Sys2Proof/Machine/Seals.lean ====
section
/-! DEFINITION. The end of a job instance (R599 to R619): Twin comparisons, the seal decision, the result age monitor; and forming and
leaving a collective group (R566 to R570). -/

namespace Sys2Proof.Machine

/-! Twin comparisons. -/

/-- One comparison of a kernel's two digests, key 4 × kernel + Frond of the original copy (R613). -/
def State.twinPair (s : State) (j : Nat) (x : Job) (key : Nat) (same : Bool) : State :=
  let s1 := s.modJob j fun y => { y with digestA := tdel y.digestA key, digestB := tdel y.digestB key }
  if same then s1
  else
    let o : Fin 4 := ⟨key % 4, Nat.mod_lt _ (by decide)⟩
    let w : Who := ⟨j, x.prog, key / 4, 0xFF, x.part.val, 0xFF⟩
    (s1.count (oSafe 0x10) 1).checkFail w (16 * o.val + 2) 1 13 unlocalized (o.val + 256 * (s.partnerOf x.part o).val)

/-- TWIN_COMPARE (R613): every kernel of the instance whose two copies have ended. -/
def execTwinCompare (job : Nat) (s : State) : Host.Outcome State Fault Refusal :=
  .next (match s.job job with
    | none => s
    | some x =>
      let s1 := x.digestB.foldl (fun s e => match tfind x.digestA e.1 with
        | none => s
        | some a => s.twinPair job x e.1 (decide (a = e.2))) s
      s1.sweepRetired)

/-! The seal decision. -/

/-- Whether a Trick instance that a job wrote or received is committed or voided here. -/
def State.trickDone (s : State) (k : Word × Nat × Nat) : Bool :=
  match s.trick k.1 k.2.1 k.2.2 with
  | none => true
  | some t => t.done.isSome

/-- The conditions of R602 on an instance. -/
def State.sealReady (s : State) (x : Job) : Bool :=
  decide (x.st = .finished) && x.digestB.isEmpty && x.tricks.all s.trickDone && x.golden.isNone

/-- Whether the instance is sealed (R602): an empty ledger and no voided Trick. -/
def State.clean (s : State) (x : Job) : Bool :=
  x.ledger.isEmpty && decide (x.ledgerMore = 0) && !x.voided &&
    x.tricks.all fun k => (s.trick k.1 k.2.1 k.2.2).bind (·.done) != some false

/-- Whether a sealed result is late (R617). -/
def State.isLate (s : State) (x : Job) : Bool := decide (x.age ≠ 0 ∧ (x.age * 1000 : Int) < s.ageNs x)

/-- The monitor after a seal (R618, R619): a STREAM job sealed within its bound is armed again from its SENS; another stops counting. -/
def State.monitorSeal (s : State) (j : Nat) (x : Job) (late : Bool) : State :=
  { s with ages :=
      if x.kind = 1 then s.ages.map fun (a : AgeEntry) =>
        if a.job = j ∧ late = false then
          { a with deadline := (x.sens : Int) - x.sensStep + (a.pmax + a.age : Nat), armed := true }
        else a
      else s.ages.filter fun a => decide (a.job ≠ j) }

/-- Sealing an instance (R603, R617): the seal signal passes through the release buffer (R608). -/
def State.sealJob (s : State) (j : Nat) (x : Job) : State :=
  let late := s.isLate x
  let seqs := s.seqs.filter fun e => x.steps.any fun a => decide (a.seq = e.1)
  let s0 := s.held (.seal j x (s.pools.filter fun e => decide (e.1 = x.pool)) seqs (s.ages.filter fun a => decide (a.job = j)))
  let s1 := if late then s0.count (oSafe 4) 1 else s0
  (s1.monitorSeal j x late).endInstance j (if late then St.late else St.ok).code true false

/-- SEAL_DECISION (R285, R482, R602, R603): contributions that never closed are void (R574). -/
def execSealDecision (job : Nat) (s : State) : Host.Outcome State Fault Refusal :=
  .next (match s.job job with
    | none => s
    | some y =>
      if y.st ≠ .finished ∨ y.golden.isSome = true ∨ s.fcol.safe = true then s
      else
        let s1 := s.voidOpenOf job
        match s1.job job with
        | none => s1
        | some x =>
          if s1.sealReady x then
            if s1.clean x then s1.sealJob job x else s1.endInstance job St.withheld.code false false
          else s1)

/-! The age monitor. -/

/-- MISSING (R490, R618): the notice with D as device time, and the fault naming the job. -/
def State.missing (s : State) (a : AgeEntry) : State :=
  let d := (a.deadline + s.time.stepSum).toNat
  let w : Who := match s.job a.job with
    | some x => ⟨a.job, x.prog, x.kernel, 0xFF, a.part.val, 0xFF⟩
    | none => ⟨a.job, 0xFFFFFFFF, 0xFFFF, 0xFF, a.part.val, 0xFF⟩
  ((s.count (oSafe 8) 1).notice a.part 0x4006 .ok (leBytes 8 a.job ++ timeBytes d)).fault (w.ev (srcOf 113 4) 24 0 0)

/-- AGE_DEADLINE (R618, R619): once until a result is sealed within its bound; a ONCE or STEP job then stops counting. -/
def execAgeDeadline (job : Nat) (s : State) : Host.Outcome State Fault Refusal :=
  .next (match s.ages.find? fun a => decide (a.job = job) && a.armed with
    | none => s
    | some a =>
      if s.deckNow < a.deadline ∨ s.fcol.safe = true then s
      else
        let s1 := { s with ages :=
          if a.stream then s.ages.map fun (b : AgeEntry) => if b.job = job then { b with armed := false } else b
          else s.ages.filter fun b => decide (b.job ≠ job) }
        s1.missing a)

/-! Groups. -/

/-- Whether the header of an exchange area stands (R567). -/
def areaHeaderOk (h : List Byte) : Bool :=
  decide (fld h 0 4 = 0x4B525443 ∧ fld h 4 2 = 1 ∧ 1 ≤ fld h 6 1 ∧ fld h 6 1 ≤ 64 ∧ fld h 8 4 ≠ 0 ∧ fld h 60 4 = crc32c (h.take 60))
    && zerosAt h 7 1 && zerosAt h 12 48

/-- Whether a Trick entry's encodings are in range (R567). -/
def tentryOk (e : List Byte) : Bool :=
  let slice := fld e 4 4
  decide (fld e 0 4 % 256 = 0 ∧ 4096 ≤ fld e 0 4 ∧ 256 ≤ slice ∧ slice ≤ 1048576 ∧ slice % 256 = 0 ∧ fld e 8 1 ≤ 2
      ∧ (fld e 8 1 = 1 → slice % 1024 = 0) ∧ fld e 9 1 ≤ 1 ∧ fld e 10 1 ≤ 1 ∧ fld e 11 1 < 16 ∧ fld e 12 1 < 16 ∧ fld e 13 1 < 64
      ∧ fld e 14 1 ≤ 3)
    && zerosAt e 15 17

/-- Whether the slots of two entries overlap. -/
def tentryMeets (a b : TEntry) : Bool := decide (a.off < b.off + 4 * b.slice ∧ b.off < a.off + 4 * a.slice)

/-- Whether the slots of every entry lie in the area, clear of its header region and of each other (R568). -/
def areaSlotsOk (l : List TEntry) (size : Nat) : Bool :=
  (l.all fun e => decide (e.off + 4 * e.slice ≤ size ∧ 64 + 32 * l.length ≤ e.off)) &&
    (l.zipIdx.all fun a => l.zipIdx.all fun b => decide (a.2 = b.2) || !tentryMeets a.1 b.1)

/-- Bits set in a module mask. -/
def maskCount (m : BitVec 4) : Nat := (maskList m).length

/-- Fronds of a partition as a mask. -/
def State.partMask (s : State) (r : Fin 4) : BitVec 4 := (s.owned r).elim 0 (·.fronds)

/-- The group that an accepted GROUP_FORM makes. -/
def State.newGroup (s : State) (r : Fin 4) (b h : List Byte) (n : Nat) : Group :=
  { key := BitVec.ofNat 32 (fld h 8 4), handle := fld b 0 4, part := r, mask := BitVec.ofNat 4 (fld b 4 1),
    fronds := BitVec.ofNat 4 (fld b 5 1), replica := decide (fld b 6 1 = 1), timeout := if fld b 8 4 = 0 then 1000 else fld b 8 4,
    joined := BitVec.ofNat 4 (2 ^ s.sys.modId.toNat), crc := crcWord (h.take (64 + 32 * n)), next := [] }

/-- GROUP_FORM (R566 to R569): JOIN goes to the other modules; the response names the modules joined by then. -/
def State.doGroupForm (s : State) (t : Taken) : Done :=
  let r := s.cmdPart t
  let b := t.payload
  match tfind s.allocs (fld b 0 4) with
  | none => refuse .arg s
  | some a =>
    if a.part ≠ r ∨ a.region ≠ 1 then refuse .arg s
    else
      let n := min 64 (s.rdLe (a.base + 6) 1)
      let h := s.rdN a.base (64 + 32 * n)
      let s1 := s.reportRead Who.firmware a.base 256
      let es := (List.range n).map fun i => slice h (64 + 32 * i) 32
      let l := es.map tentryOf
      let g := s.newGroup r b h n
      let tmo := fld b 8 4
      let own := s.sys.modId.toNat
      let fr := s.partMask r
      checks [
        (s.blockOk a.base && areaHeaderOk (h.take 64) && es.all tentryOk && decide (fld b 4 1 < 16 ∧ fld b 5 1 < 16 ∧ fld b 6 1 ≤ 1)
          && decide (tmo = 0 ∨ (10 ≤ tmo ∧ tmo ≤ 1000000)) && g.mask.getLsbD own && decide (2 ≤ maskCount g.mask)
          && (l.all fun e => decide (e.senders &&& ~~~g.mask = 0 ∧ e.dfrond &&& ~~~fr = 0)) && decide (g.fronds &&& ~~~fr = 0), .arg),
        (areaSlotsOk l a.size && (!g.replica || (decide (maskCount g.mask = 2) && l.all fun e => decide (maskCount e.senders = 1))), .shape),
        (!(l.any (·.arrival)) || decide ((s.part r).mode = .relaxed), .state),
        ((s.groupOf g.key).isNone && s.groups.all (fun x => decide (x.handle ≠ g.handle)), .busy),
        (decide ((s.groups.filter fun x => decide (x.part = r)).length < 4 ∧ s.groups.length < 16), .quota)] s1 (
        let s2 := { s1 with groups := s1.groups ++ [g] }
        ⟨.ok, leBytes 1 g.joined.toNat,
          s2.sendPeers g 0 0 (gctlPkt 0 own g.key.toNat (s.part r).mode.code g.replica.toNat g.mask.toNat g.crc)⟩)

/-- GROUP_FORM. -/
def execGroupForm (p : Fin 4) (d : Fin 256) (s : State) : Host.Outcome State Fault Refusal :=
  .next (s.runCmd p d.val 0x0048 anyPl anyObj .claimed fun s t => s.doGroupForm t)

/-- The group that a partition formed over an allocation. -/
def State.groupAt (s : State) (r : Fin 4) (h : Nat) : Option Group := s.groups.find? fun g => decide (g.handle = h ∧ g.part = r)

/-- Whether GROUP_LEAVE names a group that the module is a member of (R479). -/
def State.isMember (s : State) (t : Taken) : Bool := (s.groupAt (s.cmdPart t) (fld t.payload 0 4)).isSome

/-- GROUP_LEAVE (R570). -/
def State.doGroupLeave (s : State) (t : Taken) : Done :=
  match s.groupAt (s.cmdPart t) (fld t.payload 0 4) with
  | none => refuse .state s
  | some g => accept (s.leaveGroup g.key).sweepRetired

/-- GROUP_LEAVE. -/
def execGroupLeave (p : Fin 4) (d : Fin 256) (s : State) : Host.Outcome State Fault Refusal :=
  .next (s.runCmd p d.val 0x0049 anyPl (fun s t => s.isMember t) .claimed fun s t => s.doGroupLeave t)

end Sys2Proof.Machine
end

