-- ==== Sys2Proof/Machine/Security.lean ====
section
/-! DEFINITION. Attestation, debug authentication and firmware update over Ebwick (R700 to R706, R723 to R725). -/

namespace Sys2Proof.Machine

/-! ATTEST_QUOTE. -/

/-- CP_FW_REL (R429). -/
def fwRel : Nat := 0x03020000 + Config.fwBuild.toNat

/-- The bytes of a quote before its signature (R701). -/
def State.quoteBody (s : State) (nonce : List Byte) (mask : Nat) : List Byte :=
  leBytes 4 0x45545143 ++ leBytes 2 1 ++ leBytes 1 s.otp.lifecycle ++ leBytes 1 s.dbg.level ++ leBytes 1 mask ++ leBytes 1 0xB0
    ++ leBytes 2 0 ++ leBytes 4 fwRel ++ leBytes 1 s.otp.rollback ++ leBytes 7 0 ++ s.deviceId ++ padTo 32 nonce ++ timeBytes s.now
    ++ leBytes 46 0 ++ beBytes 64 s.otp.idkeyPub.toNat ++ beBytes 64 s.otp.endorse.toNat
    ++ (List.range 8).flatMap fun k => if mask.testBit k then digestBytes (s.mbs.getD k 0) else []

/-- The quote (R691, R701). -/
def State.quote (s : State) (nonce : List Byte) (mask : Nat) : List Byte :=
  let b := s.quoteBody nonce mask
  b ++ beBytes 64 (Config.sm2Sign s.otp.idkeyPriv (Config.sm3 b)).toNat

/-- ATTEST_QUOTE (R701, R719). -/
def State.doQuote (s : State) (t : Taken) : Done :=
  let m := fld t.payload 32 1
  checks [(decide (m ≠ 0), .arg), (!m.testBit 3 || s.sys.packRead, .busy)] s ⟨.ok, s.quote (t.payload.take 32) m, s⟩

/-- ATTEST_QUOTE. -/
def execAttestQuote (p : Fin 4) (d : Fin 256) (s : State) : Host.Outcome State Fault Refusal :=
  .next (s.runCmd p d.val 0x0068 anyPl anyObj .session fun s t => s.doQuote t)

/-! Opening and closing a debug level. -/

/-- Whether a level may be requested with a key (R711): key 0 vendor, 1 owner. -/
def State.debugKeyOk (s : State) (level key : Nat) : Bool :=
  (decide (key = 0) || s.ownerInForce) &&
    (match s.otp.lifecycle with
     | 1 => true
     | 2 => decide (key = 1) || (decide (level = 1) && s.nor.vendorMaint)
     | 3 => decide (key = 0)
     | _ => false)

/-- A fresh challenge (R703). -/
def State.openChal (s : State) (level key : Nat) (jtag : Bool) : State :=
  { s with dbg := { s.dbg with chal := some (level, key, Config.trng s.free, jtag) }, free := s.free + 1 }

/-- A TRNG health-test failure (R704): a class U fault on unit 115, its kind and cause open (DESIGN CHOICE, notes/assumptions/115). -/
def State.trngFault (s : State) (fails : Bool) : State := if fails then s.raise { src := srcOf 115 6, cause := 0 } else s

/-- One failed authentication (R703): the challenge ends; the third in a row refuses all requests until POR_N. -/
def State.debugFailed (s : State) : State :=
  let n := min 3 (s.dbg.fails + 1)
  let s1 := { s with dbg := { s.dbg with chal := none, fails := n, lockout := decide (3 ≤ n) || s.dbg.lockout } }
  s1.count 0x00130008 1

/-- The key that answers a challenge (R692, R711); `none` where it is not usable. -/
def State.debugPub (s : State) (key : Nat) : Option (BitVec 512) :=
  if key = 1 then (if s.ownerInForce then some (beField 512 s.nor.keys 0 64) else none)
  else if s.vendorUsable Config.vendorDebugKey then some Config.vendorDebugKey else none

/-- Whether a response verifies (R703). -/
def State.debugVerifies (s : State) (level key : Nat) (c : BitVec 256) (rs : BitVec 512) : Bool :=
  match s.debugPub key with
  | none => false
  | some pub => Config.sm2Verify pub (Config.sm3 (digestBytes c ++ s.deviceId ++ leBytes 1 level ++ leBytes 1 key
      ++ leBytes 1 s.otp.lifecycle)) rs

/-- Fronds that FULL has to wait for (R707). -/
def State.mustWake (s : State) : List (Fin 4) :=
  (List.finRange 4).filter fun f => !(s.frond f).retired && decide (2 ≤ (s.frond f).astate.val)

/-- The level that opens (R703, R704, R707): FULL waits in SERVICE until every Frond has woken. -/
def State.setLevel (s : State) (level key : Nat) : State :=
  let wait := s.mustWake
  if level = 2 ∧ s.sys.st = .service ∧ wait ≠ [] then
    wait.foldl (fun s f => s.modFrond f fun x => { x with waking := true }) { s with dbg := { s.dbg with pend := some key } }
  else { s with dbg := { s.dbg with level := level, key := key, pend := none } }

/-- A verifying response (R700, R703): MB7, the class C record, the count. -/
def State.debugOpened (s : State) (level key : Nat) : State :=
  let s1 := { s with dbg := { s.dbg with chal := none, fails := 0 } }
  let s2 := (s1.setLevel level key).extendMb 7 (leBytes 1 level ++ leBytes 1 key ++ leBytes 1 s.otp.lifecycle ++ timeBytes s.now)
  (s2.count 0x00130004 1).raise { src := srcOf 117 0, cause := 0, stepNo := 0xFF }

/-- A response through the path of the request (R703). -/
def State.debugAnswer (s : State) (level key : Nat) (c : BitVec 256) (rs : BitVec 512) : Bool × State :=
  if s.debugVerifies level key c rs then (true, s.debugOpened level key) else (false, s.debugFailed)

/-- DEBUG_AUTH_BEGIN (R703, R704, R711). -/
def State.doDebugBegin (s : State) (t : Taken) : Done :=
  let level := fld t.payload 0 1
  let key := fld t.payload 1 1
  checks [(decide ((level = 1 ∨ level = 2) ∧ key ≤ 1), .arg), (!s.dbg.lockout && s.debugKeyOk level key, .auth),
    (!Config.trngFails s.free, .busy)] (s.trngFault (Config.trngFails s.free && decide ((level = 1 ∨ level = 2) ∧ key ≤ 1)
      && !s.dbg.lockout && s.debugKeyOk level key)) (
    let s1 := s.openChal level key false
    ⟨.ok, (s1.dbg.chal.elim [] fun c => digestBytes c.2.2.1), s1⟩)

/-- DEBUG_AUTH_BEGIN. -/
def execDebugAuthBegin (p : Fin 4) (d : Fin 256) (s : State) : Host.Outcome State Fault Refusal :=
  .next (s.runCmd p d.val 0x0069 anyPl (fun s _ => s.dbg.chal.isNone) .mgmt fun s t => s.doDebugBegin t)

/-- Whether DEBUG_AUTH_END finds what it needs (R479): a challenge given over Ebwick, unless it closes the level. -/
def State.endable (s : State) (t : Taken) : Bool :=
  t.payload.isEmpty || (match s.dbg.chal with
    | some c => !c.2.2.2
    | none => false)

/-- DEBUG_AUTH_END (R703, R705): the response carries the level now. -/
def State.doDebugEnd (s : State) (t : Taken) : Done :=
  if t.payload.isEmpty then
    let s1 := s.closeDebug
    ⟨.ok, leBytes 1 s1.dbg.level, s1⟩
  else
    match s.dbg.chal with
    | none => refuse .state s
    | some c =>
      let r := s.debugAnswer c.1 c.2.1 c.2.2.1 (beField 512 t.payload 0 64)
      if r.1 then ⟨.ok, leBytes 1 r.2.dbg.level, r.2⟩ else refuse .auth r.2

/-- DEBUG_AUTH_END. -/
def execDebugAuthEnd (p : Fin 4) (d : Fin 256) (s : State) : Host.Outcome State Fault Refusal :=
  .next (s.runCmd p d.val 0x006A anyPl (fun s t => s.endable t) .mgmt fun s t => s.doDebugEnd t)

/-- DEBUG_CHALLENGE_TIMEOUT (R703): 10 s without a response. -/
def execDebugChallengeTimeout (s : State) : Host.Outcome State Fault Refusal :=
  .next (if s.dbg.chal.isSome then s.debugFailed else s)

/-! Firmware update. -/

/-- Aperture 0 of a port, 1 MiB (R425). -/
def aper0 (p : Fin 4) : Nat := sramBase p + 0x200000

/-- Whether an object is partly staged. -/
def State.partStaged (s : State) : Bool := !s.sys.stage.isEmpty && !s.sys.stageOk

/-- Replacing what is staged. -/
def State.setStage (s : State) (p : Fin 4) (l : List Byte) (ok : Bool) : State :=
  { s with sys := { s.sys with stage := l, stagePort := p, stageOk := ok } }

/-- What FW_STAGE does with bytes read (R724). -/
def State.appendStage (s : State) (p : Fin 4) (bytes : List Byte) : Done :=
  let all := (if s.sys.stageOk then [] else s.sys.stage) ++ bytes
  if 0x1800000 < all.length then refuse .shape s
  else if 12 ≤ all.length ∧ objLen all ≤ all.length then
    match s.checkObject all all.length with
    | .ok => ⟨.ok, digestBytes (Config.sm3 all), s.setStage p all true⟩
    | st => refuse st (s.setStage p [] false)
  else ⟨.ok, digestBytes (Config.sm3 all), s.setStage p all false⟩

/-- Where FW_STAGE reads: an allocation of a partition that the port holds, in SERVICE only, or aperture 0 (R724). -/
def State.stageSource (s : State) (p : Fin 4) (h off n : Nat) : Option Nat :=
  if h = 0xFFFFFFFF then (if off + n ≤ 0x100000 then some (aper0 p + off) else none)
  else if s.sys.st = .service then
    match tfind s.allocs h with
    | none => none
    | some a => if s.claimedBy p a.part.val = true ∧ off + n ≤ a.size then some (a.base + off) else none
  else none

/-- FW_STAGE (R723, R724). -/
def State.doStage (s : State) (p : Fin 4) (t : Taken) : Done :=
  let n := fld t.payload 16 4
  if s.partStaged = true ∧ s.sys.stagePort ≠ p then refuse .busy s
  else if s.sys.dramBad ≠ 0 then refuse .nomem s
  else if n = 0 then ⟨.ok, digestBytes (Config.sm3 []), s.setStage p [] false⟩
  else
    match s.stageSource p (fld t.payload 0 4) (fld t.payload 8 8) n with
    | none => refuse .arg s
    | some a => (s.reportRead Who.firmware a n).appendStage p (s.rdN a n)

/-- FW_STAGE. -/
def execFwStage (p : Fin 4) (d : Fin 256) (s : State) : Host.Outcome State Fault Refusal :=
  .next (s.runCmd p d.val 0x0078 anyPl anyObj .mgmt fun s t => s.doStage p t)

/-- The warm reset that follows FW_COMMIT (R725). -/
def State.commitReset (s : State) : State := { s with sys := { s.sys with commit := true } }.l5 false

/-- FW_COMMIT (R725): the digest of the verified object. -/
def State.doCommit (s : State) (t : Taken) : Done :=
  checks [(decide (t.payload.take 32 = digestBytes (Config.sm3 s.sys.stage)), .arg)] s (accept s)

/-- FW_COMMIT: the warm reset follows the completion. -/
def execFwCommit (p : Fin 4) (d : Fin 256) (s : State) : Host.Outcome State Fault Refusal :=
  .next (s.runCmdThen p d.val 0x0079 anyPl (fun s _ => s.sys.stageOk) .mgmt (fun s t => s.doCommit t)
    fun r s => if r.st = .ok then s.commitReset else s)

end Sys2Proof.Machine
end

