-- ==== Sys2Proof/Machine/Jtag.lean ====
section
/-! DEFINITION. The TAP (R624, R625, R702 to R711, R754): debug requests, DBG_ACC, run control, boundary scan. -/

namespace Sys2Proof.Machine

/-! Access over JTAG. -/

/-- Whether the TAP is powered and takes more than BYPASS, GX_ID and DBG_STATUS (R711): not in S1. -/
def State.tapOpen (s : State) : Bool := !s.sys.por && !s.power.s1

/-- STATUS codes of R710. -/
inductive TapSt where
  | ok
  | error
  | denied
  | pending
  | busy
  deriving DecidableEq, Repr

/-- Code of a STATUS. -/
def TapSt.code : TapSt → Nat
  | .ok => 0 | .error => 1 | .denied => 2 | .pending => 3 | .busy => 4

/-- The instruction register after a debug instruction: the pins follow the device again (R709). -/
def State.tapIr (s : State) (ir : Nat) : State :=
  { s with tap := { s.tap with ir := BitVec.ofNat 8 ir, driving := false, hiz := false } }

/-- The answer of a DBG_CHAL or DBG_RESP. -/
def State.chalAnswer (s : State) (a : TapSt) (c : BitVec 256) : State :=
  { s with tap := { s.tap with chalStatus := a.code, chalOut := c } }

/-- The answer of a DBG_ACC operation. -/
def State.accAnswer (s : State) (a : TapSt) (v : Word) : State := { s with tap := { s.tap with accStatus := a.code, accData := v } }

/-- DBG_CHAL (R703 to R705, R709): level 0 closes the open level. -/
def execDbgChal (level : BitVec 2) (key : Bool) (s : State) : Host.Outcome State Fault Refusal :=
  .next (if s.tapOpen = false then s
    else
      let s0 := s.tapIr 0x21
      let k := key.toNat
      if s.otp.lifecycle = 4 then s0.chalAnswer .denied 0
      else if level = 0 then s0.closeDebug.chalAnswer .ok 0
      else if s.dbg.chal.isSome ∨ s.dbg.lockout = true ∨ level = 3 ∨ s.debugKeyOk level.toNat k = false then s0.chalAnswer .denied 0
      else if Config.trngFails s.free then (s0.trngFault true).chalAnswer .denied 0
      else
        let s1 := s0.openChal level.toNat k true
        s1.chalAnswer .ok (s1.dbg.chal.elim 0 fun c => c.2.2.1))

/-- DBG_RESP (R703, R709): it answers a challenge that DBG_CHAL opened. -/
def execDbgResp (rs : BitVec 512) (s : State) : Host.Outcome State Fault Refusal :=
  .next (if s.tapOpen = false then s
    else
      let s0 := s.tapIr 0x22
      match s0.dbg.chal with
      | some (level, key, c, true) =>
        let r := s0.debugAnswer level key c rs
        r.2.chalAnswer (if r.1 then .ok else .denied) 0
      | _ => s0.chalAnswer .denied 0)

/-! DBG_ACC. -/

/-- Whether the logic behind a Frond's addresses answers (R707): powered, not retired. -/
def State.frondLit (s : State) (f : Fin 4) : Bool := (s.frond f).powered

/-- Whether a zero-fill or restore covers an address (R191). -/
def State.accBusy (s : State) (a : Nat) : Bool :=
  match region a with
  | .mat _ => s.sys.zfillMat
  | .sp f _ => (s.frond f).zfill || (s.frond f).restore
  | _ => false

/-- Whether an address can be accessed at all (R28, R29, R707, R710): word aligned, populated, not SEC, powered. -/
def State.accPopulated (s : State) (a : Nat) : Bool :=
  decide (a % 4 = 0) && (match region a with
    | .dram | .mat _ | .sram _ _ => true
    | .sp f _ => s.frondLit f
    | .reg o => isReg o && decide (o < 0x08000000) && (match inFrond o with
      | some (f, _) => s.frondLit f
      | none => true)
    | .unpopulated => false)

/-- Whether an address is in the register space. -/
def isRegAddr (a : Nat) : Bool := match region a with | .reg _ => true | _ => false

/-- STATUS of an access; `full` says that it needs FULL (R702, R710). -/
def State.accStatus (s : State) (a : Nat) (full : Bool) : TapSt :=
  if s.otp.lifecycle = 4 ∨ s.dbg.level = 0 ∨ (full = true ∧ s.dbg.level ≠ 2) then .denied
  else if !s.accPopulated a then .error
  else if s.dbg.level = 1 ∧ isRegAddr a = false then .denied
  else if s.accBusy a then .busy
  else .ok

/-- STATUS while an earlier operation is held: BUSY (R710). -/
def State.accHeld (s : State) (st : TapSt) : TapSt := if s.dbg.held.isSome then .busy else st

/-- DBG_ACC READ (R24, R702, R707, R710): registers at MAINT, every populated address at FULL; host-port SRAM as the host sees it. -/
def execDbgAccRead (addr : BitVec 48) (s : State) : Host.Outcome State Fault Refusal :=
  let a := addr.toNat
  .next (if s.tapOpen = false then s
    else
      let s0 := s.tapIr 0x23
      match s0.accHeld (s0.accStatus a false) with
      | .ok =>
        (match region a with
         | .reg o => let r := s0.readAny none o; r.2.accAnswer .ok r.1
         | .sram p x => (s0.reportMarks (Who.unit 117) a 4).accAnswer .ok
             (BitVec.ofNat 32 (leNat ((List.range 4).map fun i => s0.sramByte p (x + i))))
         | _ => (s0.reportMarks (Who.unit 117) a 4).accAnswer .ok (BitVec.ofNat 32 (s0.rdLe a 4)))
      | st => s0.accAnswer st 0)

/-- What a write over DBG_ACC does to its target. -/
def State.accWrite (s : State) (a : Nat) (v : Word) : State :=
  match region a with
  | .reg o => s.writeAny none o v
  | _ => s.storeChecked (Who.unit 117) a (leBytes 4 v.toNat)

/-! Run control. -/

/-- STATUS of a CONTROL (R702, R707, R710): targets 0–3 the Stipes, 4 the management processors, 5 the safety controller. -/
def State.ctlStatus (s : State) (t : BitVec 4) : TapSt :=
  if s.otp.lifecycle = 4 ∨ s.dbg.level ≠ 2 then .denied
  else if t.toNat < 4 then (if s.frondLit ⟨t.toNat % 4, Nat.mod_lt _ (by decide)⟩ then .ok else .error)
  else if t = 4 ∨ t = 5 then .ok
  else .error

/-- The checked unit whose Widow replays an action (R624), with its code in the FIFO: a register write only where the register is a
Stipe's. -/
def DbgOp.target : DbgOp → Option (BitVec 4 × Nat)
  | .halt t => some (t, 0)
  | .resume t => some (t, 1)
  | .step t => some (t, 2)
  | .write a _ => match region a.toNat with
    | .reg o => match inFrond o with
      | some (f, x) => if 0x4000 ≤ x ∧ x < 0x5000 then some (BitVec.ofNat 4 f.val, 3) else none
      | none => none
    | _ => none

/-- Whether the replay FIFO of 32 entries of the unit that an action concerns is full (R625). -/
def State.fifoFull (s : State) (op : DbgOp) : Bool :=
  match op.target with
  | some (t, _) => decide (32 ≤ (s.dbg.replay.filter fun e => decide (e.1 = t)).length)
  | none => false

/-- An action enters the Widow's replay FIFO (R624). -/
def State.replayPut (s : State) (op : DbgOp) : State :=
  match op.target with
  | some e => { s with dbg := { s.dbg with replay := s.dbg.replay ++ [e] } }
  | none => s

/-- A debugger's action on the main copy (R624, R702, R706): a write, halt or step enters a DEBUG entry in every unfinished
instance; a halted unit may act once for a step. -/
def State.doDbg (s : State) (op : DbgOp) : State :=
  match op with
  | .halt t =>
    let s1 := s.debugEntry.replayPut op
    let l := if s1.dbg.halted.contains t then s1.dbg.halted else s1.dbg.halted ++ [t]
    { s1 with dbg := { s1.dbg with halted := l } }
  | .resume t =>
    let s1 := s.replayPut op
    let h := s1.dbg.halted.filter (· ≠ t)
    let l := s1.dbg.stepped.filter (· ≠ t)
    { s1 with dbg := { s1.dbg with halted := h, stepped := l } }
  | .step t =>
    let s1 := s.debugEntry.replayPut op
    let l := if s1.dbg.halted.contains t && !s1.dbg.stepped.contains t then s1.dbg.stepped ++ [t] else s1.dbg.stepped
    { s1 with dbg := { s1.dbg with stepped := l } }
  | .write a v => (s.debugEntry.replayPut op).accWrite a.toNat v

/-- An operation that the STATUS given allows: into a full replay FIFO it is held at the TAP and its capture shows PENDING (R625,
R710). -/
def State.dbgIssue (s : State) (op : DbgOp) (st : TapSt) : State :=
  match s.accHeld st with
  | .ok =>
    if s.fifoFull op then { s with dbg := { s.dbg with held := some op } }.accAnswer .pending 0
    else (s.doDbg op).accAnswer .ok 0
  | st => s.accAnswer st 0

/-- The action that a full FIFO held goes on once an entry has been applied (R625). -/
def State.dbgGoOn (s : State) : State :=
  match s.dbg.held with
  | none => s
  | some op => ({ s with dbg := { s.dbg with held := none } }.doDbg op).accAnswer .ok 0

/-- DBG_ACC WRITE (R702, R706, R710): with a DEBUG entry in every unfinished instance. -/
def execDbgAccWrite (addr : BitVec 48) (v : Word) (s : State) : Host.Outcome State Fault Refusal :=
  .next (if s.tapOpen = false then s
    else
      let s0 := s.tapIr 0x23
      s0.dbgIssue (.write addr v) (s0.accStatus addr.toNat true))

/-- A CONTROL operation with its action. -/
def State.control (s : State) (t : BitVec 4) (op : DbgOp) : State :=
  if s.tapOpen = false then s
  else
    let s0 := s.tapIr 0x23
    s0.dbgIssue op (s0.ctlStatus t)

/-- CONTROL HALT (R624, R706). -/
def execDbgHalt (target : BitVec 4) (s : State) : Host.Outcome State Fault Refusal := .next (s.control target (.halt target))

/-- CONTROL RESUME (R624). -/
def execDbgResume (target : BitVec 4) (s : State) : Host.Outcome State Fault Refusal := .next (s.control target (.resume target))

/-- CONTROL STEP (R624, R706): a halted unit may act once. -/
def execDbgStep (target : BitVec 4) (s : State) : Host.Outcome State Fault Refusal := .next (s.control target (.step target))

/-- CONTROL STAGE (R710): in TEST, the object in aperture 0 of host port 0 is staged and committed. -/
def execDbgStage (s : State) : Host.Outcome State Fault Refusal :=
  .next (if s.tapOpen = false then s
    else
      let s0 := s.tapIr 0x23
      if s.dbg.held.isSome then s0.accAnswer .busy 0
      else if s.otp.lifecycle ≠ 0 then s0.accAnswer .denied 0
      else
        let hd := s0.rdN (aper0 0) 12
        let n := min (objLen hd) 0x100000
        let r := ((s0.reportRead Who.firmware (aper0 0) n).setStage 0 [] false).appendStage 0 (s0.rdN (aper0 0) n)
        if r.st = .ok ∧ r.s.sys.stageOk = true then (r.s.accAnswer .ok 0).commitReset else (r.s.setStage 0 [] false).accAnswer .error 0)

/-! Data registers. -/

/-- GX_ID as Capture-DR finds it (R709). -/
def State.gxId (s : State) : Word :=
  BitVec.ofNat 32 (0x4739B000 + s.otp.lifecycle % 8 * 32 + s.dbg.level % 4 * 8 + s.sys.modId.toNat)

/-- DBG_STATUS as Capture-DR finds it (R707, R709). -/
def State.dbgStatus (s : State) : Word :=
  BitVec.ofNat 32 (s.dbg.level % 4 * 2 ^ 30 + s.dbg.chal.isSome.toNat * 2 ^ 29 + s.dbg.lockout.toNat * 2 ^ 28
    + s.dbg.fails % 4 * 2 ^ 26 + s.dbg.pend.isSome.toNat * 2 ^ 25)

/-! Boundary scan. -/

/-- Whether an instruction that takes the pins over may act (R708, R711): in TEST at once, elsewhere at FULL after the safe state. -/
def State.takePins (s : State) (ir : Nat) (act : State → State) : State :=
  if s.tapOpen = false ∨ s.dbg.level ≠ 2 then s
  else
    let s1 := if s.otp.lifecycle = 0 ∨ s.fcol.safe = true then s else s.raise { src := srcOf 117 7, cause := 0, stepNo := 6 }
    act (s1.tapIr ir)

/-- EXTEST (R708, R709): the boundary register drives the pins. -/
def execExtest (scan : List Bool) (s : State) : Host.Outcome State Fault Refusal :=
  .next (s.takePins 0x00 fun s => { s with tap := { s.tap with boundary := scan, driving := true } })

/-- CLAMP (R708, R709): the boundary register holds the pins. -/
def execClamp (s : State) : Host.Outcome State Fault Refusal :=
  .next (s.takePins 0x02 fun s => { s with tap := { s.tap with driving := true } })

/-- HIGHZ (R708, R709): every output floats. -/
def execHighz (s : State) : Host.Outcome State Fault Refusal :=
  .next (s.takePins 0x03 fun s => { s with tap := { s.tap with hiz := true } })

/-- Bits as bytes, the first in bit 0. -/
def packBits (l : List Bool) : List Byte :=
  leBytes (cdiv l.length 8) (l.zipIdx.foldl (fun a e => if e.1 then a + 2 ^ e.2 else a) 0)

/-- SAMPLE/PRELOAD (R702, R709): at every level; what was captured stands in `out`. -/
def execSamplePreload (capture load : List Bool) (s : State) : Host.Outcome State Fault Refusal :=
  .next (if s.tapOpen = false ∨ s.otp.lifecycle = 4 then s
    else
      let s0 := s.tapIr 0x01
      { s0 with tap := { s0.tap with boundary := load }, out := packBits capture })

/-- TAP_RESET (R709, R754): Test-Logic-Reset selects BYPASS and gives the pins back. -/
def execTapReset (s : State) : Host.Outcome State Fault Refusal := .next (s.tapIr 0xFF)

end Sys2Proof.Machine
end

