-- ==== Sys2Proof/Machine/Registers.lean ====
section
/-! DEFINITION. Commands that write or read registers outside the rings (R5, R76, R80 to R83, R87, R180, R188, R194). -/

namespace Sys2Proof.Machine

/-- REGISTER_WRITE (R5, R8): a write by firmware or a debugger at FULL. -/
def execRegisterWrite (w : Writer) (off : BitVec 28) (v : Word) (s : State) : Host.Outcome State Fault Refusal :=
  .next (s.writeAs w fun s => match w with
    | .firmware => s.fwWrite off.toNat v
    | .debug => s.writeAny none off.toNat v)

/-- GROUP_WINDOW_ACCESS (R81 to R83, R341): an access through a window by a partition's REG_READ or REG_WRITE, or by
firmware. What is read stands in `out`. A partition's access outside its privilege or inside a Frond that is off (R83), and its
write to a register closed to REG_WRITE, have no side effect. -/
def execGroupWindowAccess (caller : Option (Fin 4)) (off : BitVec 28) (write : Option Word) (s : State) :
    Host.Outcome State Fault Refusal :=
  let o := off.toNat
  .next (
    if (s.outerWindow caller o).isNone && (s.pinWindow o).isNone then s
    else if !isReg o then s
    else if (match caller with | some r => s.noRegRead r o || s.frondOff r o | none => false) then s
    else match write, caller with
      | none, _ => let r := s.readAny caller o; { r.2 with out := leBytes 4 r.1.toNat }
      | some v, none => s.fwWrite o v
      | some v, some _ => if noRegWrite o then s else s.writeAny caller o v)

/-- FRD_MAPOUT_WRITE (R76, R77). -/
def execFrdMapoutWrite (f : Fin 4) (v : Word) (s : State) : Host.Outcome State Fault Refusal := .next (s.writeMapout f v)

/-- INJ_RES (R87): the Pinna's lane-0 shadow gains 1 mod 7 on the next operand row. -/
def execInjRes (f : Fin 4) (pinna : Fin 68) (s : State) : Host.Outcome State Fault Refusal :=
  .next (s.modFrond f fun x => { x with inj := x.inj ++ [pinna] })

/-- FRD_SP_REPAIR_WRITE (R180, R197). -/
def execFrdSpRepairWrite (f : Fin 4) (b : Fin 320) (sp : Fin 32) (v : Word) (s : State) :
    Host.Outcome State Fault Refusal :=
  .next (s.repairSpRow f b.val sp.val v)

/-- FRD_SP_RESBASE_WRITE (R194). -/
def execFrdSpResbaseWrite (f : Fin 4) (v : Word) (s : State) : Host.Outcome State Fault Refusal :=
  .next (s.writeResbase f v)

/-- DRC_MAT_REPAIR_WRITE (R188, R198): a repair by firmware. -/
def execDrcMatRepairWrite (b : Fin 64) (sp : Fin 16) (v : Word) (s : State) : Host.Outcome State Fault Refusal :=
  .next (s.repairMatRow b.val sp.val v)

/-- FCOL_ACK (R646). -/
def execFcolAck (w : Writer) (v : Word) (s : State) : Host.Outcome State Fault Refusal :=
  .next (s.writeAs w fun s => s.writeAck v)

/-- FCOL_FORCE_HOLD (R649). -/
def execFcolForceHold (w : Writer) (i : Fin 32) (v : Word) (s : State) : Host.Outcome State Fault Refusal :=
  .next (s.writeAs w fun s => s.writeForceHold i.val v)

/-- FCOL_FORCE_PULSE (R649). -/
def execFcolForcePulse (w : Writer) (i : Fin 32) (v : Word) (s : State) : Host.Outcome State Fault Refusal :=
  .next (s.writeAs w fun s => s.writeForcePulse i.val v)

/-- TIME_INC_INT_WRITE (R379, R401). -/
def execTimeIncIntWrite (w : Writer) (v : Word) (s : State) : Host.Outcome State Fault Refusal :=
  .next (s.writeAs w fun s => s.writeIncInt v)

/-- TIME_TRIG_CTRL_WRITE (R397, R401). -/
def execTimeTrigCtrlWrite (w : Writer) (n : Fin 8) (v : Word) (s : State) : Host.Outcome State Fault Refusal :=
  .next (s.writeAs w fun s => s.writeTrigCtrl n.val v)

end Sys2Proof.Machine
end

