-- ==== Sys2Proof/Machine/Resets.lean ====
section
/-! DEFINITION. Resets, boot, timeouts and recovery steps as commands (R446, R477, R714 to R734, R762), and the I2C target (R752,
R753). -/

namespace Sys2Proof.Machine

/-! POR_N. -/

/-- POR_N_ASSERT (R727): every part of the device is reset; only OTP and NOR content survive; a save in progress is lost (R717). -/
def execPorNAssert (s : State) : Host.Outcome State Fault Refusal :=
  .next { State.reset with otp := s.otp, nor := s.nor.cut s.power.onTime, free := s.free, pending := s.pending }

/-- Straps latched (R714), power-on time (R654) and saved fault records (R644) restored. -/
def State.porStart (s0 : State) (b : BootFacts) : State :=
  let s := { s0 with nor := s0.nor.load s0.otp.srkSel }
  let seq := s.nor.nextSeq
  let last := s.nor.faults.getLast?
  let s1 := { s with
    sys := { s.sys with por := false, bootSrc := b.bootSrc, modId := b.modId }
    power := { s.power with powerOn := s.nor.powerOn }
    fcol := { s.fcol with ring := s.nor.faults, porSeq := seq, lastClass := last.elim 0 (·.cls), lastSrc := last.elim 0 (·.src) } }
  (List.finRange 4).foldl (fun s p => s.modPort p fun x => { x with mode := s.lockedMode p }) (s1.setReg (oFcol 0x10) (BitVec.ofNat 32 seq))

/-- Whether the training cache can be used (R721): its HMAC verifies and the junction is within 40 °C of what it records. -/
def State.cacheFits (s : State) (b : BootFacts) : Bool :=
  s.nor.train.any fun c => decide ((b.hot.toInt - c.temp).natAbs ≤ 320)

/-- DRAM at POR_N release (R721, R723): restored from the cache where it can be used; a channel it does not hold, or that fails the
check after, is trained in full, alone; one that fails that is a class U fault on its controller, its kind open (DESIGN CHOICE,
notes/assumptions/110). -/
def State.trainDram (s : State) (b : BootFacts) : State :=
  let ok := if s.cacheFits b then b.restored &&& s.nor.train.elim 0 (·.chans) else 0
  let bad := ~~~ok &&& ~~~b.trained
  ((List.range 32).filter fun c => bad.getLsbD c).foldl
    (fun s c => s.raise { src := srcOf (76 + c / 2) 6, cause := 0, sub := c % 2 * 2 ^ 31 })
    { s with sys := { s.sys with dramBad := bad, fullTrain := decide (ok ≠ -1), bootHot := b.hot } }

/-- POR_N_RELEASE (R714, R719, R722, R723): boot to SERVICE, TEST or RECOVERY; the reserved strap value is a class C record on unit 116. -/
def execPorNRelease (b : BootFacts) (s : State) : Host.Outcome State Fault Refusal :=
  .next (if s.sys.por = false then s
    else
      let s1 := ((s.porStart b).readNor.trainDram b).boot
      if b.bootSrc = 3 then s1.raise { src := srcOf 116 0, cause := 0 } else s1)

/-! Warm resets. -/

/-- The warm reset that a cause drives (R722, R728, R733): in S1 the device wakes first. -/
def State.warmBy (s : State) (c : WarmCause) : State :=
  let s0 := if s.power.s1 then s.wakeS1 else s
  match c with
  | .pin | .commit => s0.l5 false
  | .watchdog => ({ s0 with sys := { s0.sys with bootFail := s0.sys.bootFail + 1 } }).l5 true
  | .escalation => s0.l5 true

/-- WARM_RESET (R653, R728, R732): ignored in the safe state and while POR_N is asserted. -/
def execWarmReset (c : WarmCause) (s : State) : Host.Outcome State Fault Refusal :=
  .next (if s.sys.por ∨ s.fcol.safe then s else s.warmBy c)

/-- BOOT_WATCHDOG_EXPIRE (R722): neither SERVICE nor RECOVERY was reached; the third expiry in a row boots into Recovery. -/
def execBootWatchdogExpire (s : State) : Host.Outcome State Fault Refusal :=
  .next (if s.sys.por ∨ s.fcol.safe then s
    else if s.sys.st = .startup ∨ s.sys.st = .test then s.warmBy .watchdog else s)

/-! Timeouts. -/

/-- The destination block of an aborted read: zeros with the complement of their BCW (R731). -/
def State.abortBlock (s : State) (a : Nat) : State :=
  match region a with
  | .reg _ | .unpopulated => s
  | _ => s.putBlock a (List.replicate 256 0) (~~~(BitVec.ofNat 32 zeroBcw))

/-- NOC_TIMEOUT (R730, R731): a first expiry is retried with a class C record; a second aborts the transaction. -/
def execNocTimeout (router : Fin 64) (u : MemUnit) (second : Bool) (block : Option (BitVec 40)) (s : State) :
    Host.Outcome State Fault Refusal :=
  let w := s.memWho u
  .next (if s.sys.por ∨ s.fcol.safe then s
    else if second then
      let s1 := match block with
        | none => s
        | some b => s.abortBlock (256 * b.toNat)
      (s1.checkFail w 93 4 19 router.val 4).sweepRetired
    else s.raise { w.ev (srcOf 93 0) 19 router.val 4 with stepNo := 0 })

/-- Blocks of an APERTURE_FILL written when its bound is reached: a free number of them (R477). -/
def State.partFill (s : State) (p : Fin 4) (d : Nat) (t : Taken) : State :=
  match layOf t.opc t.payload with
  | none => s
  | some l =>
    if t.opc = 0x001B ∧ t.wellFormed l = true ∧ s.verOk p t = true ∧ s.devOk p t.opc = true ∧ s.aperMapped p t = true
        ∧ s.authOk p d t .claimed = true then
      let n := fld t.payload 8 4 / 256
      let (v, s1) := s.fresh
      (s1.aperCmd p t fun addr => accept (s1.fillRun p (s1.cmdPart t) (fld t.payload 0 1) (fld t.payload 4 4 / 256) addr (v.toNat % (n + 1)))).s
    else s

/-- COMMAND_TIMEOUT (R477): the oldest command taken from a ring completes with ST_TIMEOUT. -/
def execCommandTimeout (p : Fin 4) (d : Fin 256) (s : State) : Host.Outcome State Fault Refusal :=
  .next (match s.takenAt p d.val with
    | none => s
    | some t => if s.fcol.safe ∨ s.dbg.halted.contains 4 then s
      else (s.partFill p d.val t).complete p d.val t .timeout [])

/-! Recovery steps. -/

/-- Whether a recovery step can run. -/
def State.canRecover (s : State) : Bool := !s.sys.por && !s.fcol.safe && !s.power.s1

/-- KERNEL_ABORT (R732): L1 of the kernel a Frond runs, counted toward R733. -/
def execKernelAbort (f : Fin 4) (s : State) : Host.Outcome State Fault Refusal := .next (if s.canRecover then s.l1 f 1 else s)

/-- FROND_RESET (R732): L2. -/
def execFrondReset (f : Fin 4) (s : State) : Host.Outcome State Fault Refusal := .next (if s.canRecover then (s.l2 f).sweepRetired else s)

/-- PARTITION_RESET (R732): L3. -/
def execPartitionReset (r : Fin 4) (s : State) : Host.Outcome State Fault Refusal := .next (if s.canRecover then (s.l3 r).sweepRetired else s)

/-- RHIZOID_RESET (R732): L4 of Rhizoid. -/
def execRhizoidReset (s : State) : Host.Outcome State Fault Refusal := .next (if s.canRecover then s.l4Rhizoid else s)

/-- HOST_PORT_RESET (R446, R732): L4 of a host port. -/
def execHostPortReset (p : Fin 4) (s : State) : Host.Outcome State Fault Refusal :=
  .next (if s.canRecover then (s.l4Port p).sweepRetired else s)

/-- The next step after one that overran (R733, R762): its record is of kind 4, and the step that overran stops counting. -/
def State.overrun (s : State) (sc : Scope) : State :=
  match sc with
  | .job f => ((s.forgetSteps 1 f.val).escalate (16 * f.val) 4 2).l2 f
  | .frond f =>
    let s1 := s.forgetSteps 2 f.val
    match s.ownerOf f with
    | some r => (s1.escalate 113 4 3).l3 r
    | none => ((s1.escalate (16 * f.val) 4 2).noteStep 2 f.val s.ladderNow).frondResetL2 f
  | .part r => (s.forgetSteps 3 r.val).escalateL5 4
  | .rhizoid => (s.forgetSteps 4 15).escalateL5 4
  | .link l => (s.forgetSteps 4 (16 + l.val)).escalateL5 4
  | .port p => (s.forgetSteps 4 (20 + p.val)).escalateL5 4
  | .device => (s.forgetSteps 5 0).l6 4

/-- RECOVERY_STEP_OVERRUN (R733). -/
def execRecoveryStepOverrun (sc : Scope) (s : State) : Host.Outcome State Fault Refusal :=
  .next (if s.canRecover then (s.overrun sc).sweepRetired else s)

/-! The I2C target. -/

/-- Byte at an address of the I2C map (R753). -/
def State.i2cByte (s : State) (a : Nat) : Byte :=
  let asleep := s.power.s1
  let temp := if asleep then 0x8000 else code 16 (hottest s.power.temps).2
  let pkg := if asleep then 0 else min 0xFFFF (s.power.pkgMw / 100)
  let seq := if asleep then 0 else (s.reg (oFcol 0x10)).toNat
  let ret := (List.range 4).foldl (fun n f => if s.nor.retired.getD f false then n + 2 ^ f else n) 0
  let flags := if asleep then 0
    else (if s.fcol.safe then 128 else 0) + (if s.fcol.self then 64 else 0) + (if s.power.stepped then 32 else 0)
      + (if 0 < s.power.tlim then 16 else 0) + ret
  BitVec.ofNat 8 (match a with
    | 0x00 => 0x47
    | 0x01 => 0x39
    | 0x02 => s.sys.st.code
    | 0x03 => s.otp.lifecycle + 8 * s.dbg.level
    | 0x04 => temp
    | 0x05 => temp / 256
    | 0x06 => pkg
    | 0x07 => pkg / 256
    | 0x08 => seq
    | 0x09 => seq / 2 ^ 8
    | 0x0A => seq / 2 ^ 16
    | 0x0B => seq / 2 ^ 24
    | 0x0C => flags
    | 0x0D => s.sys.bootFail
    | _ => 0)

/-- Writing 1 to WAKE (R753). -/
def State.i2cWakeUp (s : State) : State := if s.power.s1 then s.wakeS1 else s

/-- Writing one byte at an address of the I2C map: only WAKE can be written. -/
def State.i2cPut (s : State) (a : Nat) (b : Byte) : State := if a % 256 = 0x10 ∧ b.getLsbD 0 = true then s.i2cWakeUp else s

/-- I2C_WRITE (R752): the pointer, then bytes from it on; a write of no byte sets no pointer. -/
def execI2cWrite (bytes : List Byte) (s : State) : Host.Outcome State Fault Refusal :=
  match bytes with
  | [] => .next s
  | a :: rest =>
    .next (if s.sys.por then s
      else rest.zipIdx.foldl (fun s e => s.i2cPut (a.toNat + e.2) e.1) { s with i2c := ⟨a.toNat⟩ })

/-- I2C_READ (R752): what was read stands in `out`; the pointer goes on after each byte. -/
def execI2cRead (n : Nat) (s : State) : Host.Outcome State Fault Refusal :=
  .next (if s.sys.por then s
    else { s with out := (List.range n).map (fun i => s.i2cByte ((s.i2c.ptr + i) % 256)), i2c := ⟨(s.i2c.ptr + n) % 256⟩ })

/-- I2C_WAKE (R670, R753): 1 written to the WAKE bit. -/
def execI2cWake (s : State) : Host.Outcome State Fault Refusal := .next s.i2cWakeUp

end Sys2Proof.Machine
end

