-- ==== Sys2Proof/Machine/Dispatch.lean ====
section
/-! DEFINITION. One arm per command of the table, each a direct call of its meaning. -/

namespace Sys2Proof.Machine

def exec (i : Instr) (s : State) : Host.Outcome State Fault Refusal :=
  match i with
  | .registerWrite w off v => Sys2Proof.Machine.execRegisterWrite w off v s
  | .regRead p d => Sys2Proof.Machine.execRegRead p d s
  | .regWrite p d => Sys2Proof.Machine.execRegWrite p d s
  | .groupWindowAccess caller off write => Sys2Proof.Machine.execGroupWindowAccess caller off write s
  | .frdMapoutWrite f v => Sys2Proof.Machine.execFrdMapoutWrite f v s
  | .injRes f pinna => Sys2Proof.Machine.execInjRes f pinna s
  | .loadw f q => Sys2Proof.Machine.execLoadw f q s
  | .weightSetReady f set => Sys2Proof.Machine.execWeightSetReady f set s
  | .stream f q => Sys2Proof.Machine.execStream f q s
  | .gang f q => Sys2Proof.Machine.execGang f q s
  | .operandRowEnter f => Sys2Proof.Machine.execOperandRowEnter f s
  | .accumulatorWrite f => Sys2Proof.Machine.execAccumulatorWrite f s
  | .accumulatorComplete f => Sys2Proof.Machine.execAccumulatorComplete f s
  | .drain f q => Sys2Proof.Machine.execDrain f q s
  | .drainEntryRead f => Sys2Proof.Machine.execDrainEntryRead f s
  | .drainOutputWrite f lost => Sys2Proof.Machine.execDrainOutputWrite f lost s
  | .drainComplete f => Sys2Proof.Machine.execDrainComplete f s
  | .kernelStart f => Sys2Proof.Machine.execKernelStart f s
  | .instructionFetch f q => Sys2Proof.Machine.execInstructionFetch f q s
  | .instructionDeliver f => Sys2Proof.Machine.execInstructionDeliver f s
  | .tokWait f q => Sys2Proof.Machine.execTokWait f q s
  | .tokSig f q => Sys2Proof.Machine.execTokSig f q s
  | .remoteSignalArrive f => Sys2Proof.Machine.execRemoteSignalArrive f s
  | .bar f q => Sys2Proof.Machine.execBar f q s
  | .endQueue f q => Sys2Proof.Machine.execEndQueue f q s
  | .kernelEnd f => Sys2Proof.Machine.execKernelEnd f s
  | .copy f q => Sys2Proof.Machine.execCopy f q s
  | .gather f q => Sys2Proof.Machine.execGather f q s
  | .scatter f q => Sys2Proof.Machine.execScatter f q s
  | .workTake f q => Sys2Proof.Machine.execWorkTake f q s
  | .workSet f q => Sys2Proof.Machine.execWorkSet f q s
  | .dmaTranspose f q => Sys2Proof.Machine.execDmaTranspose f q s
  | .dmaCslot f q => Sys2Proof.Machine.execDmaCslot f q s
  | .dmaUnitArrive f ch => Sys2Proof.Machine.execDmaUnitArrive f ch s
  | .dmaTimeout f ch => Sys2Proof.Machine.execDmaTimeout f ch s
  | .scratchpadRead f reqs => Sys2Proof.Machine.execScratchpadRead f reqs s
  | .spCeWriteback f => Sys2Proof.Machine.execSpCeWriteback f s
  | .scratchpadWrite f reqs data bcw => Sys2Proof.Machine.execScratchpadWrite f reqs data bcw s
  | .scratchpadMerge f reqs rows data => Sys2Proof.Machine.execScratchpadMerge f reqs rows data s
  | .partialRowWrite f reqs start data => Sys2Proof.Machine.execPartialRowWrite f reqs start data s
  | .frdSpRepairWrite f b sp v => Sys2Proof.Machine.execFrdSpRepairWrite f b sp v s
  | .frdSpResbaseWrite f v => Sys2Proof.Machine.execFrdSpResbaseWrite f v s
  | .drcMatRepairWrite b sp v => Sys2Proof.Machine.execDrcMatRepairWrite b sp v s
  | .matAccess reqs => Sys2Proof.Machine.execMatAccess reqs s
  | .zeroFillDone f => Sys2Proof.Machine.execZeroFillDone f s
  | .residentRestoreDone f => Sys2Proof.Machine.execResidentRestoreDone f s
  | .cropResize f q => Sys2Proof.Machine.execCropResize f q s
  | .maxpool f q => Sys2Proof.Machine.execMaxpool f q s
  | .avgpool f q => Sys2Proof.Machine.execAvgpool f q s
  | .vecAdd f q => Sys2Proof.Machine.execVecAdd f q s
  | .vecSub f q => Sys2Proof.Machine.execVecSub f q s
  | .vecMul f q => Sys2Proof.Machine.execVecMul f q s
  | .vecMin f q => Sys2Proof.Machine.execVecMin f q s
  | .vecMax f q => Sys2Proof.Machine.execVecMax f q s
  | .vecAbs f q => Sys2Proof.Machine.execVecAbs f q s
  | .vecNeg f q => Sys2Proof.Machine.execVecNeg f q s
  | .vecCvt f q => Sys2Proof.Machine.execVecCvt f q s
  | .vecScale2 f q => Sys2Proof.Machine.execVecScale2 f q s
  | .vecAnd f q => Sys2Proof.Machine.execVecAnd f q s
  | .vecOr f q => Sys2Proof.Machine.execVecOr f q s
  | .vecXor f q => Sys2Proof.Machine.execVecXor f q s
  | .vecShl f q => Sys2Proof.Machine.execVecShl f q s
  | .vecShra f q => Sys2Proof.Machine.execVecShra f q s
  | .vecRsum f q => Sys2Proof.Machine.execVecRsum f q s
  | .vecRmax f q => Sys2Proof.Machine.execVecRmax f q s
  | .vecRmin f q => Sys2Proof.Machine.execVecRmin f q s
  | .vecArgmax f q => Sys2Proof.Machine.execVecArgmax f q s
  | .vecEafAdd f q => Sys2Proof.Machine.execVecEafAdd f q s
  | .vecEafOut f q => Sys2Proof.Machine.execVecEafOut f q s
  | .vecMeanFin f q => Sys2Proof.Machine.execVecMeanFin f q s
  | .vecVarFin f q => Sys2Proof.Machine.execVecVarFin f q s
  | .vecEafCvt f q => Sys2Proof.Machine.execVecEafCvt f q s
  | .vecExpmap f q => Sys2Proof.Machine.execVecExpmap f q s
  | .sfuExp f q => Sys2Proof.Machine.execSfuExp f q s
  | .sfuLog f q => Sys2Proof.Machine.execSfuLog f q s
  | .sfuReciprocal f q => Sys2Proof.Machine.execSfuReciprocal f q s
  | .sfuRsqrt f q => Sys2Proof.Machine.execSfuRsqrt f q s
  | .sfuSigmoid f q => Sys2Proof.Machine.execSfuSigmoid f q s
  | .sfuTanh f q => Sys2Proof.Machine.execSfuTanh f q s
  | .sfuGelu f q => Sys2Proof.Machine.execSfuGelu f q s
  | .sfuSilu f q => Sys2Proof.Machine.execSfuSilu f q s
  | .sfuSoftplus f q => Sys2Proof.Machine.execSfuSoftplus f q s
  | .sfuErf f q => Sys2Proof.Machine.execSfuErf f q s
  | .sfuUserTable f q => Sys2Proof.Machine.execSfuUserTable f q s
  | .sorusQk f q => Sys2Proof.Machine.execSorusQk f q s
  | .sorusPv f q => Sys2Proof.Machine.execSorusPv f q s
  | .sorusAppend f q => Sys2Proof.Machine.execSorusAppend f q s
  | .seqCreate p d => Sys2Proof.Machine.execSeqCreate p d s
  | .seqFork p d => Sys2Proof.Machine.execSeqFork p d s
  | .seqEditTruncate p d => Sys2Proof.Machine.execSeqEditTruncate p d s
  | .seqEditDropBelow p d => Sys2Proof.Machine.execSeqEditDropBelow p d s
  | .seqRetire p d => Sys2Proof.Machine.execSeqRetire p d s
  | .csi2Packet port pkt => Sys2Proof.Machine.execCsi2Packet port pkt s
  | .csi2FrameStart port head phase => Sys2Proof.Machine.execCsi2FrameStart port head phase s
  | .csi2FrameEnd port head => Sys2Proof.Machine.execCsi2FrameEnd port head s
  | .ethFrameReceive mac fcsOk phase frame => Sys2Proof.Machine.execEthFrameReceive mac fcsOk phase frame s
  | .auxMessage ctx p d phase => Sys2Proof.Machine.execAuxMessage ctx p d phase s
  | .frameStartGap ctx => Sys2Proof.Machine.execFrameStartGap ctx s
  | .ethLinkLoss mac => Sys2Proof.Machine.execEthLinkLoss mac s
  | .quarHoldExpire ctx => Sys2Proof.Machine.execQuarHoldExpire ctx s
  | .frameDeliver ctx => Sys2Proof.Machine.execFrameDeliver ctx s
  | .streamConfig p d => Sys2Proof.Machine.execStreamConfig p d s
  | .streamStart p d => Sys2Proof.Machine.execStreamStart p d s
  | .streamStop p d => Sys2Proof.Machine.execStreamStop p d s
  | .jobInstanceStart job => Sys2Proof.Machine.execJobInstanceStart job s
  | .dealerConfig p d => Sys2Proof.Machine.execDealerConfig p d s
  | .dealerStart p d => Sys2Proof.Machine.execDealerStart p d s
  | .dealerStop p d => Sys2Proof.Machine.execDealerStop p d s
  | .dealerRecordStart lane => Sys2Proof.Machine.execDealerRecordStart lane s
  | .dealerRecordDone lane decodeUs => Sys2Proof.Machine.execDealerRecordDone lane decodeUs s
  | .dealerBudgetExpire lane => Sys2Proof.Machine.execDealerBudgetExpire lane s
  | .dealerDeliver => Sys2Proof.Machine.execDealerDeliver s
  | .timeIncSet p d => Sys2Proof.Machine.execTimeIncSet p d s
  | .timeStep p d => Sys2Proof.Machine.execTimeStep p d s
  | .timeRead p d => Sys2Proof.Machine.execTimeRead p d s
  | .timeIncIntWrite w v => Sys2Proof.Machine.execTimeIncIntWrite w v s
  | .timeIncApply => Sys2Proof.Machine.execTimeIncApply s
  | .timeStepApply => Sys2Proof.Machine.execTimeStepApply s
  | .secondsRollover => Sys2Proof.Machine.execSecondsRollover s
  | .launchSetFrame p d => Sys2Proof.Machine.execLaunchSetFrame p d s
  | .launchSetTrigger p d => Sys2Proof.Machine.execLaunchSetTrigger p d s
  | .launchTransmit e => Sys2Proof.Machine.execLaunchTransmit e s
  | .timeTrigCtrlWrite w n v => Sys2Proof.Machine.execTimeTrigCtrlWrite w n v s
  | .trigPulse e => Sys2Proof.Machine.execTrigPulse e s
  | .act p bank row => Sys2Proof.Machine.execAct p bank row s
  | .pre p bank => Sys2Proof.Machine.execPre p bank s
  | .rd p bank col => Sys2Proof.Machine.execRd p bank col s
  | .wr p bank col data mask => Sys2Proof.Machine.execWr p bank col data mask s
  | .rd32Wr32 p write => Sys2Proof.Machine.execRd32Wr32 p write s
  | .ref p => Sys2Proof.Machine.execRef p s
  | .rfm p => Sys2Proof.Machine.execRfm p s
  | .sre p => Sys2Proof.Machine.execSre p s
  | .srx p => Sys2Proof.Machine.execSrx p s
  | .pdePdx p enter => Sys2Proof.Machine.execPdePdx p enter s
  | .mrw p ma op valid5 valid4 => Sys2Proof.Machine.execMrw p ma op valid5 valid4 s
  | .mrr p ma => Sys2Proof.Machine.execMrr p ma s
  | .trainingCommand p t => Sys2Proof.Machine.execTrainingCommand p t s
  | .hostResetNAssert p => Sys2Proof.Machine.execHostResetNAssert p s
  | .hostResetNDeassert p => Sys2Proof.Machine.execHostResetNDeassert p s
  | .heartbeatTimeout p => Sys2Proof.Machine.execHeartbeatTimeout p s
  | .hostPortReady p => Sys2Proof.Machine.execHostPortReady p s
  | .hpSramZeroFillDone p => Sys2Proof.Machine.execHpSramZeroFillDone p s
  | .cpSqDb p d => Sys2Proof.Machine.execCpSqDb p d s
  | .cpSqDbDrop p d => Sys2Proof.Machine.execCpSqDbDrop p d s
  | .cpCqDb p d => Sys2Proof.Machine.execCpCqDb p d s
  | .cpCqDbSqFlagClear p d => Sys2Proof.Machine.execCpCqDbSqFlagClear p d s
  | .cpIrqClear p v => Sys2Proof.Machine.execCpIrqClear p v s
  | .sqPacketTake p d => Sys2Proof.Machine.execSqPacketTake p d s
  | .readTimeout p d => Sys2Proof.Machine.execReadTimeout p d s
  | .commandTimeout p d => Sys2Proof.Machine.execCommandTimeout p d s
  | .hello p d => Sys2Proof.Machine.execHello p d s
  | .caps p d => Sys2Proof.Machine.execCaps p d s
  | .partClaim p d => Sys2Proof.Machine.execPartClaim p d s
  | .partRelease p d => Sys2Proof.Machine.execPartRelease p d s
  | .quotaSet p d => Sys2Proof.Machine.execQuotaSet p d s
  | .memAlloc p d => Sys2Proof.Machine.execMemAlloc p d s
  | .memFree p d => Sys2Proof.Machine.execMemFree p d s
  | .apertureMap p d => Sys2Proof.Machine.execApertureMap p d s
  | .apertureFill p d => Sys2Proof.Machine.execApertureFill p d s
  | .apertureFlush p d => Sys2Proof.Machine.execApertureFlush p d s
  | .progLoad p d => Sys2Proof.Machine.execProgLoad p d s
  | .progUnload p d => Sys2Proof.Machine.execProgUnload p d s
  | .jobSubmit p d => Sys2Proof.Machine.execJobSubmit p d s
  | .jobCancel p d => Sys2Proof.Machine.execJobCancel p d s
  | .deckLoad p d => Sys2Proof.Machine.execDeckLoad p d s
  | .deckSwitch p d => Sys2Proof.Machine.execDeckSwitch p d s
  | .deckBankActivate r => Sys2Proof.Machine.execDeckBankActivate r s
  | .latTolSet p d => Sys2Proof.Machine.execLatTolSet p d s
  | .pwrHintNone p d => Sys2Proof.Machine.execPwrHintNone p d s
  | .pwrHintIdle p d => Sys2Proof.Machine.execPwrHintIdle p d s
  | .pwrHintStandbyOk p d => Sys2Proof.Machine.execPwrHintStandbyOk p d s
  | .groupForm p d => Sys2Proof.Machine.execGroupForm p d s
  | .groupLeave p d => Sys2Proof.Machine.execGroupLeave p d s
  | .faultRead p d => Sys2Proof.Machine.execFaultRead p d s
  | .faultAck p d => Sys2Proof.Machine.execFaultAck p d s
  | .forcePulse p d => Sys2Proof.Machine.execForcePulse p d s
  | .forceHold p d => Sys2Proof.Machine.execForceHold p d s
  | .forceRelease p d => Sys2Proof.Machine.execForceRelease p d s
  | .selftestStatus p d => Sys2Proof.Machine.execSelftestStatus p d s
  | .selftestPause p d => Sys2Proof.Machine.execSelftestPause p d s
  | .selftestResume p d => Sys2Proof.Machine.execSelftestResume p d s
  | .selftestRunNow p d => Sys2Proof.Machine.execSelftestRunNow p d s
  | .testpackLoad p d => Sys2Proof.Machine.execTestpackLoad p d s
  | .healthRead p d => Sys2Proof.Machine.execHealthRead p d s
  | .attestQuote p d => Sys2Proof.Machine.execAttestQuote p d s
  | .debugAuthBegin p d => Sys2Proof.Machine.execDebugAuthBegin p d s
  | .debugAuthEnd p d => Sys2Proof.Machine.execDebugAuthEnd p d s
  | .debugChallengeTimeout => Sys2Proof.Machine.execDebugChallengeTimeout s
  | .fwStage p d => Sys2Proof.Machine.execFwStage p d s
  | .fwCommit p d => Sys2Proof.Machine.execFwCommit p d s
  | .roundStart r => Sys2Proof.Machine.execRoundStart r s
  | .cardOpen f => Sys2Proof.Machine.execCardOpen f s
  | .cardClose f => Sys2Proof.Machine.execCardClose f s
  | .kernelSwitch f => Sys2Proof.Machine.execKernelSwitch f s
  | .kcapExpire f => Sys2Proof.Machine.execKcapExpire f s
  | .goldenRunEnd f => Sys2Proof.Machine.execGoldenRunEnd f s
  | .selftestSegmentStart f => Sys2Proof.Machine.execSelftestSegmentStart f s
  | .selftestSegmentEnd f matched => Sys2Proof.Machine.execSelftestSegmentEnd f matched s
  | .checkRotationOverdue f => Sys2Proof.Machine.execCheckRotationOverdue f s
  | .patternRotationOverdue f => Sys2Proof.Machine.execPatternRotationOverdue f s
  | .thallusCheckerTest checkers pairs detector => Sys2Proof.Machine.execThallusCheckerTest checkers pairs detector s
  | .comparatorInjectionTest u missed => Sys2Proof.Machine.execComparatorInjectionTest u missed s
  | .widowDifference u => Sys2Proof.Machine.execWidowDifference u s
  | .frondWakeStart f => Sys2Proof.Machine.execFrondWakeStart f s
  | .frondAstateEntry f => Sys2Proof.Machine.execFrondAstateEntry f s
  | .frondWakeDone f restoreUs => Sys2Proof.Machine.execFrondWakeDone f restoreUs s
  | .s1Entry => Sys2Proof.Machine.execS1Entry s
  | .s1Wake c => Sys2Proof.Machine.execS1Wake c s
  | .dramRead u addr units => Sys2Proof.Machine.execDramRead u addr units s
  | .dramWrite u addr data bcw => Sys2Proof.Machine.execDramWrite u addr data bcw s
  | .dramMerge u addr data => Sys2Proof.Machine.execDramMerge u addr data s
  | .dramWriteback c => Sys2Proof.Machine.execDramWriteback c s
  | .dramRefresh ch => Sys2Proof.Machine.execDramRefresh ch s
  | .exactAddedRefresh ch => Sys2Proof.Machine.execExactAddedRefresh ch s
  | .patrolScrub c => Sys2Proof.Machine.execPatrolScrub c s
  | .flitTransmit l => Sys2Proof.Machine.execFlitTransmit l s
  | .flitReceive l lanes => Sys2Proof.Machine.execFlitReceive l lanes s
  | .replayTimeout l => Sys2Proof.Machine.execReplayTimeout l s
  | .linkDetect e => Sys2Proof.Machine.execLinkDetect e s
  | .linkTrainDone l lanes => Sys2Proof.Machine.execLinkTrainDone l lanes s
  | .linkTrainTimeout l => Sys2Proof.Machine.execLinkTrainTimeout l s
  | .hezorHello l h => Sys2Proof.Machine.execHezorHello l h s
  | .linkLockLoss l => Sys2Proof.Machine.execLinkLockLoss l s
  | .fastRetrainDone l lanes ok => Sys2Proof.Machine.execFastRetrainDone l lanes ok s
  | .dataPacket l => Sys2Proof.Machine.execDataPacket l s
  | .closePacket l => Sys2Proof.Machine.execClosePacket l s
  | .commitPacket l => Sys2Proof.Machine.execCommitPacket l s
  | .gctlJoin l => Sys2Proof.Machine.execGctlJoin l s
  | .gctlLeave l => Sys2Proof.Machine.execGctlLeave l s
  | .trickLedgerExamine key entry inst => Sys2Proof.Machine.execTrickLedgerExamine key entry inst s
  | .trickTimeout key entry inst => Sys2Proof.Machine.execTrickTimeout key entry inst s
  | .clockLockLoss => Sys2Proof.Machine.execClockLockLoss s
  | .sealDecision job => Sys2Proof.Machine.execSealDecision job s
  | .twinCompare job => Sys2Proof.Machine.execTwinCompare job s
  | .ageDeadline job => Sys2Proof.Machine.execAgeDeadline job s
  | .faultSourceEvent e => Sys2Proof.Machine.execFaultSourceEvent e s
  | .brokenPair src => Sys2Proof.Machine.execBrokenPair src s
  | .collectorSelfFault => Sys2Proof.Machine.execCollectorSelfFault s
  | .fcolAck w v => Sys2Proof.Machine.execFcolAck w v s
  | .fcolForceHold w j v => Sys2Proof.Machine.execFcolForceHold w j v s
  | .fcolForcePulse w j v => Sys2Proof.Machine.execFcolForcePulse w j v s
  | .escalationTimeout => Sys2Proof.Machine.execEscalationTimeout s
  | .errPulseEnd => Sys2Proof.Machine.execErrPulseEnd s
  | .powerOnTimeSave => Sys2Proof.Machine.execPowerOnTimeSave s
  | .powerSample mw => Sys2Proof.Machine.execPowerSample mw s
  | .thermalSample temps => Sys2Proof.Machine.execThermalSample temps s
  | .thermalLimitLower => Sys2Proof.Machine.execThermalLimitLower s
  | .thermalLimitRaise => Sys2Proof.Machine.execThermalLimitRaise s
  | .thermalTrip sensor => Sys2Proof.Machine.execThermalTrip sensor s
  | .droopDetect f => Sys2Proof.Machine.execDroopDetect f s
  | .droopRecover f => Sys2Proof.Machine.execDroopRecover f s
  | .droopFault f => Sys2Proof.Machine.execDroopFault f s
  | .opChange f => Sys2Proof.Machine.execOpChange f s
  | .pllLockLoss domain => Sys2Proof.Machine.execPllLockLoss domain s
  | .avsTimeout => Sys2Proof.Machine.execAvsTimeout s
  | .pwrgdMainFail => Sys2Proof.Machine.execPwrgdMainFail s
  | .dbgChal level key => Sys2Proof.Machine.execDbgChal level key s
  | .dbgResp rs => Sys2Proof.Machine.execDbgResp rs s
  | .dbgAccRead addr => Sys2Proof.Machine.execDbgAccRead addr s
  | .dbgAccWrite addr v => Sys2Proof.Machine.execDbgAccWrite addr v s
  | .dbgHalt target => Sys2Proof.Machine.execDbgHalt target s
  | .dbgResume target => Sys2Proof.Machine.execDbgResume target s
  | .dbgStep target => Sys2Proof.Machine.execDbgStep target s
  | .dbgStage => Sys2Proof.Machine.execDbgStage s
  | .extest scan => Sys2Proof.Machine.execExtest scan s
  | .clamp => Sys2Proof.Machine.execClamp s
  | .highz => Sys2Proof.Machine.execHighz s
  | .samplePreload capture load => Sys2Proof.Machine.execSamplePreload capture load s
  | .tapReset => Sys2Proof.Machine.execTapReset s
  | .porNAssert => Sys2Proof.Machine.execPorNAssert s
  | .porNRelease b => Sys2Proof.Machine.execPorNRelease b s
  | .warmReset c => Sys2Proof.Machine.execWarmReset c s
  | .bootWatchdogExpire => Sys2Proof.Machine.execBootWatchdogExpire s
  | .nocTimeout router u second block => Sys2Proof.Machine.execNocTimeout router u second block s
  | .kernelAbort f => Sys2Proof.Machine.execKernelAbort f s
  | .frondReset f => Sys2Proof.Machine.execFrondReset f s
  | .partitionReset r => Sys2Proof.Machine.execPartitionReset r s
  | .rhizoidReset => Sys2Proof.Machine.execRhizoidReset s
  | .hezorLinkReset l => Sys2Proof.Machine.execHezorLinkReset l s
  | .hostPortReset p => Sys2Proof.Machine.execHostPortReset p s
  | .recoveryStepOverrun sc => Sys2Proof.Machine.execRecoveryStepOverrun sc s
  | .i2cWrite bytes => Sys2Proof.Machine.execI2cWrite bytes s
  | .i2cRead n => Sys2Proof.Machine.execI2cRead n s
  | .i2cWake => Sys2Proof.Machine.execI2cWake s
  | .matCorrectedWriteback bank => Sys2Proof.Machine.execMatCorrectedWriteback bank s
  | .dramMr4Report ch code => Sys2Proof.Machine.execDramMr4Report ch code s
  | .testPackRead => Sys2Proof.Machine.execTestPackRead s
  | .cpIrqMaskWrite p v => Sys2Proof.Machine.execCpIrqMaskWrite p v s
  | .deskewCalibrationSequence port => Sys2Proof.Machine.execDeskewCalibrationSequence port s

end Sys2Proof.Machine
end

