-- ==== Sys2Proof/Machine/Tick.lean ====
section
/-! DEFINITION. What an idle step does: one tick of the device clock, 38.4 MHz REFCLK, or AOCLK in S1 (R376, R387, R654; DESIGN CHOICE,
notes/assumptions). -/

namespace Sys2Proof.Machine

/-- Power-on time counts (R654): a second is 307,200,000 parts, a REFCLK tick 8 of them, an AOCLK tick 9,375. -/
def State.powerTick (s : State) : State :=
  let n := s.power.onPart + (if s.power.s1 then 9375 else 8)
  if 307200000 ≤ n then { s with power := { s.power with onPart := n - 307200000, powerOn := s.power.powerOn + 1 } }
  else { s with power := { s.power with onPart := n } }

/-- The Widows apply what debuggers did (R624): their FIFOs empty within a tick, and the action held for a full one goes on (R625). -/
def State.replayTick (s : State) : State := { s with dbg := { s.dbg with replay := [] } }.dbgGoOn

/-- One tick. Nothing while POR_N is asserted; requests of a refresh window that has ended go on (R533). -/
def refclkTick (s : State) : State := if s.sys.por then s else s.timeTick.powerTick.replayTick.dramGoOn

end Sys2Proof.Machine
end

