-- ==== Sys2Proof/Safety.lean ====
section
/-! DEFINITION. What counts as a safe run, and the terms in which the claims are stated: a command that completes, and the
conditions on a state under which a unit takes a command. -/

namespace Sys2Proof

/-- Every command waiting is well formed. -/
def Safety.queueWf (s : Machine.State) : Prop := ∀ c ∈ s.pending, c.wellFormed = true

/-- A step that goes on: it answers a next state. -/
def Safety.goesOn (s : Machine.State) : Prop := ∃ t, Machine.step s = .next t

/-- The command completes on the state, and the state after it satisfies `P`. -/
def Safety.Completes (c : Instr) (s : Machine.State) (P : Machine.State → Prop) : Prop :=
  ∃ t, Machine.exec c s = .next t ∧ P t

/-- A host port that answers memory commands: ready, settled, neither in self-refresh nor in power-down (R404, R420). -/
def Safety.PortUp (s : Machine.State) (p : Fin 4) : Prop :=
  (s.port p).ready = true ∧ (s.port p).mode ≠ .unsettled ∧ (s.port p).sr = false ∧ (s.port p).pd = false

/-- The command that stands oldest among those taken from SQ `d` of port `p` is `t`, of code `opc`, and passes the checks 1 to 4
of R475 but for the object state: layout and reserved bits, session version, device state and session, authority. `s0` is the
state on which it is handled: `s`, but that HELLO's rings are armed afresh (R456). Firmware runs it: it is neither halted nor is the device in
the safe state. -/
def Safety.Passes (s : Machine.State) (p : Fin 4) (d opc : Nat) (a : Machine.Auth) (t : Machine.Taken) (s0 : Machine.State) : Prop :=
  s.takenAt p d = some t ∧ t.opc = opc ∧ (∃ l, Machine.layOf opc t.payload = some l ∧ t.wellFormed l = true) ∧
    s0 = s.beforeCmd p t ∧ s0.verOk p t = true ∧ s0.devOk p opc = true ∧ s0.authOk p d t a = true ∧
    s.fcol.safe = false ∧ s.dbg.halted.contains 4 = false

/-- The state after a command of SQ `d` that answers `r` has completed (R458, R476). -/
def Safety.after (p : Fin 4) (d : Nat) (t : Machine.Taken) (r : Machine.Done) : Machine.State :=
  r.s.complete p d t r.st r.resp

/-- A plain or CSLOT transfer of Frond `f` that nothing turns down: no zero-fill, restore or window covers its source (R191, R533), and
every unit of both sides is memory of partition `r` (R26). -/
def Safety.MoveOk (s : Machine.State) (f r : Fin 4) (k : Machine.KernelRun) (d : Machine.DmaD) (soff doff : Nat) : Prop :=
  s.filling (Machine.copyAddr k f (d.src + 64 * soff)) (64 * d.len) = false ∧ ∀ i < d.len,
    s.dmaMay r (Machine.copyAddr k f (d.src + 64 * soff) + 64 * i) = true ∧
    s.dmaMay r (Machine.copyAddr k f (d.dst + 64 * doff) + 64 * i) = true

/-- The state in which the units of a plain transfer are in flight on channel `ch` (R133, R543). -/
def Safety.moveStarts (s : Machine.State) (f : Fin 4) (q : Nat) (w : IWord) (k : Machine.KernelRun) (ch : Nat) (d : Machine.DmaD)
    (soff doff : Nat) : Machine.State :=
  s.startDma f q w ch k.twin [(Machine.copyAddr k f (d.src + 64 * soff), 64 * d.len)]
    (s.movePieces (Machine.copyAddr k f (d.src + 64 * soff)) (Machine.copyAddr k f (d.dst + 64 * doff)) d.len)

end Sys2Proof
end

