-- ==== Sys2Proof/Certificates/Slice0/Obligations.lean ====
section
/-! DEFINITION. The statements about the device, one `def Obligations.<Name> : Prop` each, listed in OBLIGATIONS.json. A
statement that rests on a value or a behaviour the model chose names the log entry under notes/assumptions/. -/

section Statements

open Sys2Proof
open Sys2Proof.Machine Sys2Proof.Safety

/-- Rows of a host port (R406, R410): ACT opens the row of its bank, PRE closes one or all; nothing else of the port's memory
changes. -/
def Obligations.HostRows : Prop :=
  (∀ (s : State) (p : Fin 4) (b : Fin 16) (row : Nat), PortUp s p → b.val < (s.port p).banks → row < 65536 →
    ((s.port p).mode = .lpddr5 → row < 32768) →
    Completes (.act p b row) s fun t => (t.port p).rowOf b.val = some row ∧
      (∀ c, c ≠ b.val → (t.port p).rowOf c = (s.port p).rowOf c) ∧ t.mem = s.mem ∧ t.regs = s.regs) ∧
  (∀ (s : State) (p : Fin 4) (b : Fin 16), PortUp s p → b.val < (s.port p).banks →
    Completes (.pre p (some b)) s fun t => (t.port p).rowOf b.val = none ∧
      (∀ c, c ≠ b.val → (t.port p).rowOf c = (s.port p).rowOf c) ∧ t.mem = s.mem ∧ t.regs = s.regs) ∧
  (∀ (s : State) (p : Fin 4), PortUp s p →
    Completes (.pre p none) s fun t => (∀ c, (t.port p).rowOf c = none) ∧ t.mem = s.mem ∧ t.regs = s.regs)

/-- Bursts of a host port (R406, R410, R412, R413, R417, R426): the window address is (row × NB + b) × 2,048 + c; a read of an
open row answers the 32 window bytes there, an unmasked write to an open page of stored window changes those 32 bytes of
the port's SRAM and no other byte, a partly masked or unsupported write is dropped and counted. -/
def Obligations.HostBursts : Prop :=
  (∀ (s : State) (p : Fin 4) (b : Fin 16) (col row : Nat), PortUp s p → col < 64 → (s.port p).rowOf b.val = some row →
    Completes (.rd p b col) s fun t => t.out = (List.range 32).map fun i =>
      s.winByte p ((row * (if (s.port p).mode = .lpddr4x then 8 else 16) + b.val) * 2048 + 32 * col + i)) ∧
  (∀ (s : State) (p : Fin 4) (b : Fin 16) (col : Nat), PortUp s p → col < 64 → (s.port p).rowOf b.val = none →
    Completes (.rd p b col) s fun t => t.out = List.replicate 32 0xD5 ∧
      t.reg (oHpc p 0x24) = countUp (s.reg (oHpc p 0x24)) 1 ∧ t.mem = s.mem) ∧
  (∀ (s : State) (p : Fin 4) (b : Fin 16) (col row x : Nat) (d : List Byte), PortUp s p → col < 64 → d.length = 32 →
    (s.port p).rowOf b.val = some row →
    x = (row * (if (s.port p).mode = .lpddr4x then 8 else 16) + b.val) * 2048 + 32 * col →
    (s.port p).filled = true → 0x10000 ≤ x → x < 0x610000 → ¬(0x16000 ≤ x ∧ x < 0x20000) → s.pageOpen p (x / 4096) = true →
    s.sys.st ≠ .safe →
    Completes (.wr p b col d 0) s fun t => (∀ i (h : i < d.length), t.rd (sramBase p + x + i) = d[i]) ∧
      (∀ a, (∀ i < 32, a ≠ sramBase p + x + i) → t.rd a = s.rd a)) ∧
  (∀ (s : State) (p : Fin 4) (b : Fin 16) (col row : Nat) (d : List Byte) (m : BitVec 32), PortUp s p → col < 64 → d.length = 32 →
    (s.port p).rowOf b.val = some row → m ≠ 0 →
    Completes (.wr p b col d m) s fun t => t.mem = s.mem ∧
      t.reg (oHpc p 0x1C) = if m = -1 then s.reg (oHpc p 0x1C) else countUp (s.reg (oHpc p 0x1C)) 1) ∧
  (∀ (s : State) (p : Fin 4) (w : Bool), PortUp s p →
    Completes (.rd32Wr32 p w) s fun t => t.reg (oHpc p 0x20) = countUp (s.reg (oHpc p 0x20)) 1 ∧ t.mem = s.mem ∧
      (w = false → t.out = List.replicate 64 0xD5) ∧
      (w = true → t.reg (oHpc p 0x1C) = countUp (s.reg (oHpc p 0x1C)) 1))

/-- Heartbeat, sleep and restart of a host port (R410, R438, R441 to R444, R403, R447): a refresh is counted and brings
INIT or LOST to LIVE; self-refresh entry brings LIVE to SLEEPING and exit back; power-down leaves the heartbeat; a timeout loses
the host and closes its session; RESET_n empties the mode registers and rows, its end starts the heartbeat at INIT. -/
def Obligations.HostHeartbeat : Prop :=
  (∀ (s : State) (p : Fin 4), PortUp s p → (s.port p).openRows = [] →
    Completes (.ref p) s fun t => t.reg (oHpc p 0x10) = s.reg (oHpc p 0x10) + 1 ∧ t.mem = s.mem ∧
      (t.port p).hb = if (s.port p).hb = .init ∨ (s.port p).hb = .lost then .live else (s.port p).hb) ∧
  (∀ (s : State) (p : Fin 4), PortUp s p → (s.port p).mode = .lpddr5 → exec (.rfm p) s = .next s) ∧
  (∀ (s : State) (p : Fin 4), PortUp s p → (s.port p).openRows = [] →
    Completes (.sre p) s fun t => (t.port p).sr = true ∧ t.mem = s.mem ∧
      (t.port p).hb = if (s.port p).hb = .live then .sleeping else (s.port p).hb) ∧
  (∀ (s : State) (p : Fin 4), (s.port p).ready = true → (s.port p).mode ≠ .unsettled →
    Completes (.srx p) s fun t => (t.port p).sr = false ∧ (t.port p).hint = false ∧ t.mem = s.mem ∧
      (t.port p).hb = if (s.port p).hb = .sleeping then .live else (s.port p).hb) ∧
  (∀ (s : State) (p : Fin 4) (e : Bool), (s.port p).ready = true → (s.port p).mode ≠ .unsettled →
    Completes (.pdePdx p e) s fun t => (t.port p).pd = e ∧ (t.port p).hb = (s.port p).hb ∧ t.mem = s.mem) ∧
  (∀ (s : State) (p : Fin 4), (s.port p).hb = .live → s.heldBy p = [] → s.fcol.safe = false →
    Completes (.heartbeatTimeout p) s fun t => (t.port p).hb = .lost ∧ (t.port p).session = none ∧ (t.port p).irqStatus = 0) ∧
  (∀ (s : State) (p : Fin 4),
    Completes (.hostResetNAssert p) s fun t => (t.port p).mrs = [] ∧ (t.port p).openRows = [] ∧ (t.port p).fifo = [] ∧
      (t.port p).sr = false ∧ (t.port p).pd = false ∧ (t.port p).fsp = 0) ∧
  (∀ (s : State) (p : Fin 4),
    Completes (.hostResetNDeassert p) s fun t => (t.port p).hb = .init ∧ (t.port p).mode = s.lockedMode p ∧
      (t.port p).mrs = [] ∧ (t.port p).openRows = []) ∧
  (∀ (s : State) (p : Fin 4), s.sys.por = false → (s.port p).ready = false →
    Completes (.hostPortReady p) s fun t => (t.port p).ready = true ∧ (t.port p).mode = (s.port p).mode ∧ t.mem = s.mem) ∧
  (∀ (s : State) (p : Fin 4), s.sys.por = false →
    Completes (.hpSramZeroFillDone p) s fun t => (t.port p).filled = true)

/-- Mode registers and training of a host port (R403, R404, R410, R411, R422 to R424): an unambiguous MRW settles an
unsettled port; a writable register reads back as stored and a read-only one keeps its value; the identity registers
read as the manual gives them; a FIFO read gives the oldest bytes written. -/
def Obligations.HostModeRegs : Prop :=
  (∀ (s : State) (p : Fin 4) (ma : BitVec 8) (op : Byte) (v4 : Bool), (s.port p).ready = true → (s.port p).mode = .unsettled →
    Completes (.mrw p ma op (!v4) v4) s fun t => (t.port p).mode = if v4 then .lpddr4x else .lpddr5) ∧
  (∀ (s : State) (p : Fin 4) (ma : BitVec 8) (op : Byte) (v5 : Bool), (s.port p).ready = true → (s.port p).mode = .lpddr4x →
    Completes (.mrw p ma op v5 true) s fun t => (t.port p).mode = .lpddr4x ∧ t.mem = s.mem ∧
      (t.port p).mr ma.toNat = if mrFixed false ma.toNat ∨ Config.mrDefined false ma.toNat = false then (s.port p).mr ma.toNat
        else mrStored false ma.toNat ((s.port p).mr ma.toNat) op) ∧
  (∀ (s : State) (p : Fin 4) (ma : BitVec 8), PortUp s p →
    Completes (.mrr p ma) s fun t => t.out = [s.mrValue p ma.toNat] ∧ t.mem = s.mem ∧ t.regs = s.regs ∧ t.ports = s.ports) ∧
  (∀ (s : State) (p : Fin 4), s.mrValue p 5 = 0xE9 ∧ s.mrValue p 6 = 0xB0 ∧ s.mrValue p 7 = 0x32 ∧ s.mrValue p 52 = 0x47 ∧
    s.mrValue p 53 = 0x39 ∧ s.mrValue p 54 = 0x10) ∧
  (∀ (s : State) (p : Fin 4) (b : List Byte), PortUp s p → b.length = 32 →
    Completes (.trainingCommand p (.fifoWrite b)) s fun t => (t.port p).fifo = (s.port p).fifo ++ b ∧ t.mem = s.mem) ∧
  (∀ (s : State) (p : Fin 4), PortUp s p → (s.port p).fifo ≠ [] →
    Completes (.trainingCommand p .fifoRead) s fun t => t.out = (s.port p).fifo.take 32 ∧
      (t.port p).fifo = (s.port p).fifo.drop 32 ∧ t.mem = s.mem) ∧
  (∀ (s : State) (p : Fin 4) (c : Training), PortUp s p → c = .zq ∨ c = .oscillator ∨ c = .levelling →
    exec (.trainingCommand p c) s = .next s)

/-- The vector unit (R236, R242 to R249): a VEC command whose instruction stands ready with its VOP, and none of whose writes is turned
down (R154, R176), runs whole. `vecRun` leaves the issue stage, checks the rows it reads, counts, writes the output function of its
VOP on the Frond's scratchpad and completes; no flag of it means that no program fault stands. ABS, NEG and VAR_FIN take one fresh free
value, which only a result that the spec does not state shows (notes/assumptions/4, 83). -/
def Obligations.VecCommandsRun : Prop :=
  ∀ (s t : State) (f : Fin 4) (q : Fin 64) (w : IWord), s.readyIns f q.val 8 = some w →
    (∀ e ∈ [(Instr.vecAdd f q, 0x00, outOp2 0x00), (.vecSub f q, 0x01, outOp2 0x01), (.vecMul f q, 0x02, outOp2 0x02),
        (.vecMin f q, 0x03, outOp2 0x03), (.vecMax f q, 0x04, outOp2 0x04), (.vecCvt f q, 0x07, outOp1 0x07 0),
        (.vecScale2 f q, 0x08, outOp1 0x08 0), (.vecAnd f q, 0x0A, outOp2 0x0A), (.vecOr f q, 0x0B, outOp2 0x0B),
        (.vecXor f q, 0x0C, outOp2 0x0C), (.vecShl f q, 0x0D, outOp2 0x0D), (.vecShra f q, 0x0E, outOp2 0x0E),
        (.vecRsum f q, 0x10, outRsum), (.vecRmax f q, 0x11, outPick elemLt false),
        (.vecRmin f q, 0x12, outPick (fun a b => elemLt b a) false), (.vecArgmax f q, 0x13, outPick elemLt true),
        (.vecEafAdd f q, 0x18, outEafAdd), (.vecEafOut f q, 0x19, outEafOut), (.vecMeanFin f q, 0x1A, outMeanFin),
        (.vecEafCvt f q, 0x1C, outEafCvt), (.vecExpmap f q, 0x20, outExpmap)],
      (vecF w).vop = e.2.1 →
      s.vecRun f q.val 8 w (e.2.2 (s.spReader f) (vecF w) (vecOf (s.desc f (vecF w).desc))) = (t, false) →
      exec e.1 s = .next t) ∧
    (∀ e ∈ [(Instr.vecAbs f q, 0x05, outOp1 0x05), (.vecNeg f q, 0x06, outOp1 0x06), (.vecVarFin f q, 0x1B, outVarFin)],
      (vecF w).vop = e.2.1 →
      ({ s with free := s.free + 1 } : State).vecRun f q.val 8 w
        (e.2.2 (Config.freeWord s.free) (s.spReader f) (vecF w) (vecOf (s.desc f (vecF w).desc))) = (t, false) →
      exec e.1 s = .next t)

/-- Special functions (R253 to R260): an SFU command whose instruction stands ready with its FUNC, and none of whose writes is turned
down, runs whole; FUNC 0 to 9 evaluate the built-in table (its segment records are free values, notes/assumptions/5), FUNC 16 to 31
the bytes of the program's user table FUNC − 16 in slot `k`, whose SEC-DED is reported first. -/
def Obligations.SfuCommandsRun : Prop :=
  ∀ (s t : State) (f : Fin 4) (q : Fin 64) (w : IWord) (d : VecD), s.readyIns f q.val 9 = some w → vecOf (s.desc f (sfuF w).desc) = d →
    (∀ e ∈ [(Instr.sfuExp f q, 0), (.sfuLog f q, 1), (.sfuReciprocal f q, 2), (.sfuRsqrt f q, 3), (.sfuSigmoid f q, 4),
        (.sfuTanh f q, 5), (.sfuGelu f q, 6), (.sfuSilu f q, 7), (.sfuSoftplus f q, 8), (.sfuErf f q, 9)],
      (sfuF w).vop = e.2 → s.vecRun f q.val 9 w (outSfu (builtinEval e.2) (s.spReader f) (sfuF w) d) = (t, false) →
      exec e.1 s = .next t) ∧
    (∀ (r : KernelRun) (i k : Nat) (tab : List Byte), (s.frond f).kernel = some r → (sfuF w).vop = 16 + i →
      (s.frond f).userTable r.prog i = some (k, tab) →
      (s.sfuReport f (sfuWords k (sfuHdrOf tab) (s.spReader f) (sfuF w) d)).vecRun f q.val 9 w
        (outSfu (sfuEval (sfuHdrOf tab) (userSeg tab) fun _ c => c) (s.spReader f) (sfuF w) d) = (t, false) →
      exec (.sfuUserTable f q) s = .next t)

/-- Integer arithmetic of the vector unit (R242, R244): on INT32 operands ADD, SUB, MUL and SHL give the exact result clamped to
INT32 and count a saturation exactly when the exact result lies outside; MIN and MAX give one of the operands; AND, OR, XOR and
SHRA stay inside INT32 and count nothing. -/
def Obligations.VecIntegersSaturate : Prop :=
  ∀ (x y : Int), -2 ^ 31 ≤ x → x < 2 ^ 31 → -2 ^ 31 ≤ y → y < 2 ^ 31 →
    (∀ e ∈ [(0x00, x + y), (0x01, x - y), (0x02, x * y), (0x0D, x * 2 ^ (y % 32).toNat)],
      vecOp2 e.1 (.int x) (.int y) = ⟨.int (max (-2 ^ 31) (min (2 ^ 31 - 1) e.2)),
        if -2 ^ 31 ≤ e.2 ∧ e.2 < 2 ^ 31 then 0 else 1, 0⟩) ∧
    vecOp2 0x03 (.int x) (.int y) = ⟨.int (min x y), 0, 0⟩ ∧
    vecOp2 0x04 (.int x) (.int y) = ⟨.int (max x y), 0, 0⟩ ∧
    vecOp2 0x0E (.int x) (.int y) = ⟨.int (x / 2 ^ (y % 32).toNat), 0, 0⟩ ∧
    (∀ vop ∈ [0x0A, 0x0B, 0x0C, 0x0E], ∃ v : Int, vecOp2 vop (.int x) (.int y) = ⟨.int v, 0, 0⟩ ∧ -2 ^ 31 ≤ v ∧ v < 2 ^ 31)

/-- Issue of the array's instructions (R42, R43, R58, R59, R69, R76, R87, R208): a LOADW opens its sets and fetches its first cell row,
WEIGHT_SET_READY places the cell rows still to come, marks the sets ready and completes the LOADW, a STREAM or GANG joins the streams in
flight with CLEAR opening its target, or completes at once where it reads nothing, a DRAIN joins the drains, INJ_RES marks one Pinna,
and FRD_MAPOUT takes its fields while it is not locked. A flag that is not set means that no aligned magnitude passed its bound
(R96). -/
def Obligations.ArrayIssues : Prop :=
  (∀ (s t : State) (f : Fin 4) (q : Fin 64) (w : IWord) (ys : List Int), s.readyIns f q.val 1 = some w → s.loadwCan f (loadwF w) = true →
    ys = (if (loadwF w).fp then colExps (s.spReader f) (loadwF w) else []) →
    ((s.issueIns f q.val).modFrond f fun x =>
      { (loadwF w).sets.foldl (fun x i => x.putSet i ((loadwF w).opened ys)) x with
        loads := ((loadwF w).sets.foldl (fun x i => x.putSet i ((loadwF w).opened ys)) x).loads ++ [⟨q.val, w, 0, []⟩] }).loadRow f
          ((loadwF w).sets.headD 0) = (t, false) →
    exec (.loadw f q) s = .next t) ∧
  (∀ (s t : State) (f : Fin 4) (set : Fin 2) (r : LoadRun), (s.frond f).loadOf set.val = some r →
    s.loadRows f set.val ((weightRows (loadwF r.ins)).1 - r.fetched) = (t, false) →
    exec (.weightSetReady f set) s = .next ((t.modFrond f fun x =>
      { (loadwF r.ins).sets.foldl (fun x i => x.putSet i { x.wset i with st := .ready }) x with
        loads := ((loadwF r.ins).sets.foldl (fun x i => x.putSet i { x.wset i with st := .ready }) x).loads.eraseP
          fun e => (loadwF e.ins).sets = (loadwF r.ins).sets }).finishIns f r.q r.ins)) ∧
  (∀ (s s1 : State) (f : Fin 4) (q : Fin 64) (w : IWord) (g : Geo), ∀ e ∈ [(Instr.stream f q, 2), (.gang f q, 3)],
    s.readyIns f q.val e.2 = some w → g = geoOf (s.desc f (streamF w).geo) →
    ((streamF w).clear = true ∨ (s.frond f).targetAny (streamF w).target .free = false) → s.streamCan f (streamF w) g = true →
    s1 = (if (streamF w).clear then (s.issueIns f q.val).modFrond f (fun x =>
      x.modTarget (streamF w).target fun h => h.opened (streamF w) g (x.wset (streamF w).set).mirror) else s.issueIns f q.val) →
    (isDead (streamF w) g = true → exec e.1 s = .next ((if (streamF w).last then s1.modFrond f (fun x =>
      x.modTarget (streamF w).target fun h => { h with closing := true }) else s1).finishIns f q.val w)) ∧
    (∀ hs, isDead (streamF w) g = false → hs = (headerRows (streamF w) g).map (fun e => (e.2, e.1, slotHdr (s.spReader f) e.1)) →
      (hs.all fun e => slotOk g e.1 e.2.2) = true →
      exec e.1 s = .next ((s1.reportFetch (s.frondWho f e.2) f [] (hs.flatMap fun e => (List.range 4).map (e.2.1 + ·))).modFrond f
        fun x => { x with streams := x.streams ++ [⟨q.val, w, streamWide g, (streamF w).m * (if streamWide g then 4 else 1), 0, 0,
          [], hs.map (·.2), []⟩] }))) ∧
  (∀ (s : State) (f : Fin 4) (q : Fin 64) (w : IWord), s.readyIns f q.val 4 = some w →
    (∀ r ∈ (s.frond f).drains, r.read = (drainF r.ins).ne) → (s.frond f).targetAny (drainF w).half .free = false →
    exec (.drain f q) s = .next ((s.issueIns f q.val).modFrond f fun x =>
      { x with drains := x.drains ++ [⟨q.val, w, 0, [], [], 0⟩] })) ∧
  (∀ (s : State) (f : Fin 4) (p : Fin 68),
    exec (.injRes f p) s = .next (s.modFrond f fun x => { x with inj := x.inj ++ [p] })) ∧
  (∀ (s : State) (f : Fin 4) (v : Word), s.regF (oMapout f) 31 1 = 0 →
    Completes (.frdMapoutWrite f v) s fun t => t.regF (oMapout f) 31 1 = bits v.toNat 31 1 ∧
      t.regF (oMapout f) 8 1 = bits v.toNat 8 1 ∧
      t.regF (oMapout f) 0 5 = (if bits v.toNat 0 5 < 16 then bits v.toNat 0 5 else s.regF (oMapout f) 0 5) ∧
      ∀ o, o ≠ oMapout f → t.reg o = s.reg o) ∧
  (∀ (s : State) (f : Fin 4) (v : Word), s.regF (oMapout f) 31 1 = 1 →
    Completes (.frdMapoutWrite f v) s fun t => ∀ o, t.reg o = s.reg o)

/-- Rows and accumulators of the array (R50, R60, R61, R63, R67 to R70, R155, R758): the next row enters the array summed against its weights
while each LOADW in flight fetches a cell row, the oldest row is written into its entry and the last row of a STREAM completes it, a half
whose LAST row has been written and that no stream in flight targets becomes COMPLETE, the drain reads the entries in turn and
frees the half with its last one, its outputs are stored or lose arbitration, and the DRAIN signals once all are stored. A flag that is
not set means that no aligned magnitude passed its bound (R96) and no write was turned down (R154, R176). -/
def Obligations.ArrayRows : Prop :=
  (∀ (s u : State) (f : Fin 4) (r : StreamRun) (sh : Shifter), (s.frond f).entering = some r → s.nextShift f r = sh →
    (s.buildRow f r sh).2.2 = false →
    (((s.reportFetch (s.frondWho f (opc r.ins)) f r.seen (s.rowsAhead f r 0)).setNonfinite f (s.buildRow f r sh).2.1).modFrond f
      fun x => { x with
        inj := []
        rows := x.rows ++ [(s.buildRow f r sh).1]
        streams := modFirst (fun e => decide (e.entered < e.total)) (fun e => { e with
          entered := e.entered + 1
          seen := (e.seen ++ s.rowsAhead f r 0).dedup
          shift := sh }) x.streams }).loadClock f = (u, false) →
    exec (.operandRowEnter f) s = .next u) ∧
  (∀ (s : State) (f : Fin 4) (r : RowRun) (rest : List RowRun) (st : StreamRun), (s.frond f).rows = r :: rest →
    (s.frond f).writing = some st → (s.frond f).tagBad r = false →
    (st.written + 1 < st.total → exec (.accumulatorWrite f) s = .next (s.modFrond f fun x => { x.accWrite r with
        rows := rest
        streams := modFirst (fun u => decide (u.written < u.entered)) (fun u => { u with written := u.written + 1 })
          (x.accWrite r).streams })) ∧
    (st.written + 1 = st.total → exec (.accumulatorWrite f) s = .next ((s.modFrond f fun x =>
      { (if (streamF st.ins).last then (x.accWrite r).modTarget (streamF st.ins).target fun h => { h with closing := true }
          else x.accWrite r) with
        rows := rest
        streams := (if (streamF st.ins).last then (x.accWrite r).modTarget (streamF st.ins).target fun h => { h with closing := true }
          else x.accWrite r).streams.eraseP fun u => decide (u.written < u.entered) }).finishIns f st.q st.ins))) ∧
  (∀ (s : State) (f : Fin 4), Completes (.accumulatorComplete f) s fun t => ∀ i < 2,
    ((s.frond f).half i).closing = true → ((s.frond f).half i).st = .accumulating → (s.frond f).targetBusy i = false →
    ((t.frond f).half i).st = .complete ∧ ((t.frond f).half i).rows = ((s.frond f).half i).rows) ∧
  (∀ (s : State) (f : Fin 4) (r : DrainRun), (s.frond f).draining = some r → (s.frond f).drainCan r = true →
    exec (.drainEntryRead f) s = .next (s.drainEntry f r)) ∧
  (∀ (s t : State) (f : Fin 4) (r : DrainRun) (rest : List DrainRun) (o : List PendWrite) (os : List (List PendWrite)),
    (s.frond f).drains = r :: rest → r.outs = o :: os →
    ((s.modFrond f fun x => { x with drains := { r with outs := os } :: rest }).spStoreAll (s.frondWho f 4) f 1 o = (t, false) →
      exec (.drainOutputWrite f false) s = .next t) ∧
    (s.exactOn f = false →
      exec (.drainOutputWrite f true) s = .next (s.count (oFrd f 0x4010) 1))) ∧
  (∀ (s : State) (f : Fin 4) (r : DrainRun) (rest : List DrainRun), (s.frond f).drains = r :: rest →
    r.read = (drainF r.ins).ne → r.outs = [] →
    exec (.drainComplete f) s = .next ((s.modFrond f fun x => { x with drains := rest }).finishIns f r.q r.ins))

/-- Sorus and the Sampler (R223 to R230, R292 to R300): an instruction that stands ready with its operation, and that no program fault
ends, runs whole; a SAMPLE's result is its mode's output function on the Frond's scratchpad. -/
def Obligations.SorusSampleRun : Prop :=
  (∀ (s t : State) (f : Fin 4) (q : Fin 64) (w : IWord), s.readyIns f q.val 0x14 = some w →
    ((sorusF w).sop = 0 → s.sorusQk f q.val w = (t, false) → exec (.sorusQk f q) s = .next t) ∧
    ((sorusF w).sop = 1 → s.sorusPv f q.val w = (t, false) → exec (.sorusPv f q) s = .next t) ∧
    ((sorusF w).sop = 2 → exec (.sorusAppend f q) s = .next (s.doSorusAppend f q.val w))) ∧
  (∀ (s t : State) (f : Fin 4) (q : Fin 64) (w : IWord), s.readyIns f q.val 0x10 = some w →
    ∀ e ∈ [(Instr.cropResize f q, 0, cropOut), (.maxpool f q, 1, fun rd d t => poolOut rd d t false),
        (.avgpool f q, 2, fun rd d t => poolOut rd d t true)],
      (sampleOf (s.desc f (sampleF w).desc)).mode = e.2.1 →
      s.sampleRun f q.val w (e.2.2 (s.spReader f) (sampleOf (s.desc f (sampleF w).desc)) (sampleF w)) = (t, false) →
      exec e.1 s = .next t)

/-- Tokens, barriers and queue ends (R127, R131, R134, R135, R138): TOK.WAIT passes, a local TOK.SIG adds INC to its counter, a remote one
puts its signal on the way to a target Frond that runs the kernel or has room in its queue of 64, an arriving signal is added to the
kernel that runs, a BAR issues in every queue of its mask once each holds one of its BARID that is ready, and END retires its queue. -/
def Obligations.StipeTokens : Prop :=
  (∀ (s : State) (f : Fin 4) (q : Fin 64) (w : IWord), s.readyIns f q.val 0x38 = some w →
    exec (.tokWait f q) s = .next (s.runIns f q.val w)) ∧
  (∀ (s : State) (f : Fin 4) (q : Fin 64) (w : IWord) (k : KernelRun), s.readyIns f q.val 0x39 = some w →
    (s.frond f).kernel = some k → (sigF w).remote = false →
    exec (.tokSig f q) s = .next ((s.runIns f q.val w).modFrond f fun x => x.addToken (sigF w).ttok (sigF w).inc)) ∧
  (∀ (s : State) (f t : Fin 4) (q : Fin 64) (w : IWord) (k : KernelRun), s.readyIns f q.val 0x39 = some w →
    (s.frond f).kernel = some k → (sigF w).remote = true → (sigF w).tfrd = t.val →
    (s.frond t).runsKernel k.job k.inst k.kernel = true ∨ (s.frond t).remote.length + (s.frond t).inbound.length < 64 →
    exec (.tokSig f q) s = .next ((s.runIns f q.val w).modFrond t fun x =>
      { x with inbound := x.inbound ++ [⟨k.job, k.inst, k.kernel, (sigF w).ttok, (sigF w).inc⟩] })) ∧
  (∀ (s : State) (f : Fin 4) (r : RemoteSig) (rest : List RemoteSig) (j : Job), (s.frond f).inbound = r :: rest →
    s.job r.job = some j → (s.frond f).runsKernel r.job r.inst r.kernel = true →
    Completes (.remoteSignalArrive f) s fun t => (t.frond f).inbound = rest ∧
      (t.frond f).token r.ttok = tokAdd ((s.frond f).token r.ttok) r.inc ∧
      ∀ i, i ≠ r.ttok → (t.frond f).token i = (s.frond f).token i) ∧
  (∀ (s : State) (f : Fin 4) (q : Fin 64) (w : IWord), s.slotIns f q.val 0x3A = some w → (barQmask w).testBit q.val = true →
    (∀ i < 64, (barQmask w).testBit i = true → ∃ v, s.readyIns f i 0x3A = some v ∧ barId v = barId w) →
    exec (.bar f q) s = .next ((s.barsAt f (barId w) ((List.range 64).filter fun i => (barQmask w).testBit i)).foldl
      (fun s e => s.runIns f e.1 e.2) s)) ∧
  (∀ (s : State) (f : Fin 4) (q : Fin 64) (w : IWord) (u : Queue), s.readyIns f q.val 0x3F = some w →
    (s.frond f).queue q.val = some u → u.busy = 0 → s.flitsOut f q.val = false →
    (u.kind = 0 → ∀ r ∈ (s.frond f).drains, r.read < (drainF r.ins).ne → (s.frond f).targetAny (drainF r.ins).half .free = false) →
    exec (.endQueue f q) s = .next (s.modQueue f q.val fun u => { u with slot := none, retired := true }))

/-- Kernel starts, fetch, delivery and ends (R121 to R127, R134, R510): the four commands that bound a kernel and feed its queues. -/
def Obligations.StipeKernels : Prop :=
  (∀ (s : State) (f : Fin 4) (j code cap : Nat) (x : Job), (s.frond f).switching = some (j, code, cap) → (s.frond f).kernel = none →
    s.job j = some x → (s.frond f).zfill = false → (s.frond f).restore = false → code < 8 →
    exec (.kernelStart f) s = .next (((((((s.loadFieldRepairs f).applyRepairs f).loadSfu f x.prog).zeroTally f).loadStep f x).beginKernel f j x
      (⟨code / 2 % 4, Nat.mod_lt _ (by decide)⟩, decide (code % 2 = 1)) cap).applySignals f j x)) ∧
  (∀ (s : State) (f : Fin 4) (q : Fin 64) (u : Queue) (a n : Nat), (s.frond f).queue q.val = some u →
    a = u.base + 16 * u.fetch → n = u.batch → n ≠ 0 → s.blockOk a = true →
    exec (.instructionFetch f q) s = .next (((s.reportMarks (s.frondWho f 0xFF) (a / 256 * 256) 256).modQueue f q.val fun u =>
      { u with fetch := u.fetch + n, entries := u.entries ++ (List.range n).map fun i => BitVec.ofNat 128 (s.rdLe (a + 16 * i) 16) }).modFrond
      f fun x => { x with qptr := tput x.qptr q.val (a + 16 * n) })) ∧
  (∀ (s : State) (f : Fin 4) (k : KernelRun), (s.frond f).kernel = some k → s.stipeHalted f = false →
    exec (.instructionDeliver f) s = .next ((s.useStep f).setFrond f
      ((((rrOrder (s.frond f).rr).filter (s.frond f).canDeliver).take 4).foldl Frond.deliver (s.frond f)))) ∧
  (∀ (x : Frond) (q : Nat) (u : Queue) (w : IWord) (rest : List IWord), tfind x.queues q = some u → u.entries = w :: rest →
    tfind (x.deliver q).queues q = some { u with slot := some w, entries := rest } ∧ (x.deliver q).rr = q) ∧
  (∀ (s : State) (f : Fin 4) (k : KernelRun), (s.frond f).kernel = some k →
    (∀ e ∈ (s.frond f).queues, e.2.retired = true) → (s.frond f).endBad = false → (∀ i < 64, s.flitsOut f i = false) →
    exec (.kernelEnd f) s = .next ((((s.storeSignals k).copyEnded k.job k (s.copyDigest f) f).modFrond f fun y =>
      y.endKernel ((((s.storeSignals k).copyEnded k.job k (s.copyDigest f) f).nextPtrs f k).getD (s.frond f).qptr)).sweepRetired))

/-- DMA (R26, R133, R147 to R150, R542 to R547): with a footprint of the partition's own that nothing fills, COPY, GATHER and SCATTER start the
transfer that their descriptor and index name, TRANSPOSE and CSLOT theirs, a unit that arrives lands and the last one completes the
instruction, a timeout aborts the kernel, and the two work-counter operations set and take. -/
def Obligations.DmaCommands : Prop :=
  (∀ (s t : State) (f : Fin 4) (q : Fin 64) (w : IWord) (k : KernelRun) (ch : Nat) (r : Fin 4) (d : DmaD),
    s.readyIns f q.val 0xC = some w → (s.frond f).kernel = some k → (s.frond f).freeChannel = some ch → s.partOn f = some r →
    dmaOf (s.desc f (dmaF w).desc) = d →
    ((dmaF w).dop = 0 → d.plain = true → MoveOk s f r k d (dmaF w).soff (dmaF w).doff →
      exec (.copy f q) s = .next (moveStarts s f q.val w k ch d (dmaF w).soff (dmaF w).doff)) ∧
    ((dmaF w).dop = 0 → d.transpose = true →
      ((List.range d.rows).any fun i => s.filling (copyAddr k f (d.src + 64 * (dmaF w).soff) + 64 * d.spitch * i) (d.e * d.cols)) = false →
      s.transMay r d (copyAddr k f (d.src + 64 * (dmaF w).soff)) (copyAddr k f (d.dst + 64 * (dmaF w).doff)) = true →
      exec (.dmaTranspose f q) s = .next (s.startDma f q.val w ch k.twin
        ((List.range d.rows).map fun i => (copyAddr k f (d.src + 64 * (dmaF w).soff) + 64 * d.spitch * i, d.e * d.cols))
        (s.transPieces d (copyAddr k f (d.src + 64 * (dmaF w).soff)) (copyAddr k f (d.dst + 64 * (dmaF w).doff))))) ∧
    ((dmaF w).dop = 0 → d.cslot = true → MoveOk s f r k d (dmaF w).soff (dmaF w).doff →
      exec (.dmaCslot f q) s = .next (s.dmaSlots f q.val w k ch (dmaF w).soff (dmaF w).doff)) ∧
    (∀ idx s1, idx = s.rdLe (spBase f + 64 * (dmaF w).idx) 4 →
      s1 = s.reportMarks (s.frondWho f 0xC) (spBase f + 64 * (dmaF w).idx) 64 →
      (∀ e ∈ [(Instr.gather f q, 1), (.scatter f q, 2)], (dmaF w).dop = e.2 → idx = 0xFFFFFFFF → exec e.1 s = .next (s1.runIns f q.val w)) ∧
      (∀ e ∈ [(Instr.gather f q, 1, idx * (dmaF w).soff, (dmaF w).doff), (.scatter f q, 2, (dmaF w).soff, idx * (dmaF w).doff)],
        (dmaF w).dop = e.2.1 → idx ≠ 0xFFFFFFFF → s.marksIn (spBase f + 64 * (dmaF w).idx) 64 = [] → d.plain = true →
        MoveOk s f r k d e.2.2.1 e.2.2.2 → exec e.1 s = .next (moveStarts s f q.val w k ch d e.2.2.1 e.2.2.2))) ∧
    ((dmaF w).dop = 4 → exec (.workSet f q) s = .next ((s.storeChecked (s.frondWho f 0xC) (workAddr r ((dmaF w).desc % 256))
        (leBytes 4 (dmaF w).soff ++ leBytes 4 (dmaF w).doff ++ (leBytes 4 (dmaF w).soff ++ leBytes 4 (dmaF w).doff))).runIns f q.val w)) ∧
    ((dmaF w).dop = 3 → s.workTake f q.val w r = (t, false) → exec (.workTake f q) s = .next t)) ∧
  (∀ (s : State) (f : Fin 4) (ch : Fin 16) (r : DmaRun), tfind (s.frond f).dma ch.val = some r →
    (r.units = [] → exec (.dmaUnitArrive f ch) s = .next ((s.modFrond f fun x => { x with dma := tdel x.dma ch.val }).finishIns f r.q r.ins)) ∧
    (∀ u rest t, r.units = u :: rest → ¬(u.dst < dramEnd ∧ s.window = true) → s.dmaTake f ch.val r u rest = (t, false) →
      exec (.dmaUnitArrive f ch) s = .next t) ∧
    exec (.dmaTimeout f ch) s = .next
      (((s.modJob (s.frondWho f 0xC).job fun x => x.enter ⟨16 * f.val + 8, 19, ch.val, (s.frondWho f 0xC).kernel, s.now⟩).raise
        { (s.frondWho f 0xC).ev (srcOf (16 * f.val + 8) 4) 19 ch.val (dmaTimeoutUs (dmaOf (s.desc f (dmaF r.ins).desc))) with
          stepNo := 1 }).l1 f 4))

/-- Main memory (R529 to R536, R549): a read answers the bytes, a whole-block write stores them with the writer's BCW, a merge inside
one block stores them and moves the BCW by the block's change, each leaving every other byte; while a refresh window is open they wait;
a corrected unit is written back; a refresh changes nothing; an MR4 report and a patrol step move their own state. -/
def Obligations.MainMemory : Prop :=
  (∀ (s : State) (u : MemUnit) (addr : BitVec 48) (n : Nat), s.window = false → s.dramWait = [] →
    addr.toNat / 32 * 32 + 32 * n ≤ dramEnd →
    Completes (.dramRead u addr n) s fun t => t.out = (List.range (32 * n)).map (fun i => s.rd (addr.toNat / 32 * 32 + i)) ∧
      (s.marksIn (addr.toNat / 32 * 32) (32 * n) = [] → t = { s with out := t.out })) ∧
  (∀ (s : State) (u : MemUnit) (addr : BitVec 48) (d : List Byte) (w : Word), s.window = false → s.dramWait = [] → addr.toNat % 256 = 0 → d.length = 256 →
    addr.toNat + 256 ≤ dramEnd →
    Completes (.dramWrite u addr d w) s fun t => (∀ i (h : i < d.length), t.rd (addr.toNat + i) = d[i]) ∧
      (∀ a, (∀ i < 256, a ≠ addr.toNat + i) → t.rd a = s.rd a) ∧ t.bcwAt addr.toNat = w ∧
      (∀ a, a / 256 ≠ addr.toNat / 256 → t.bcwAt a = s.bcwAt a) ∧ t.regs = s.regs) ∧
  (∀ (s : State) (u : MemUnit) (addr : BitVec 48) (d : List Byte), s.window = false → s.dramWait = [] → d ≠ [] →
    addr.toNat % 256 + d.length ≤ 256 →
    addr.toNat + d.length ≤ dramEnd → s.marksIn (addr.toNat / 256 * 256) 256 = [] →
    Completes (.dramMerge u addr d) s fun t => (∀ i (h : i < d.length), t.rd (addr.toNat + i) = d[i]) ∧
      (∀ a, (∀ i < d.length, a ≠ addr.toNat + i) → t.rd a = s.rd a) ∧
      t.bcwAt addr.toNat = bcwMerge (s.bcwAt addr.toNat) (s.block addr.toNat) (splice (s.block addr.toNat) (addr.toNat % 256) d) ∧
      (∀ a, a / 256 ≠ addr.toNat / 256 → t.bcwAt a = s.bcwAt a) ∧ t.regs = s.regs) ∧
  (∀ (s : State) (u : MemUnit) (addr : BitVec 48) (n : Nat) (d : List Byte) (w : Word), s.window = true →
    exec (.dramRead u addr n) s = .next { s with dramWait := s.dramWait ++ [⟨u, addr, .read n⟩] } ∧
    exec (.dramWrite u addr d w) s = .next { s with dramWait := s.dramWait ++ [⟨u, addr, .write d w⟩] } ∧
    exec (.dramMerge u addr d) s = .next { s with dramWait := s.dramWait ++ [⟨u, addr, .merge d⟩] }) ∧
  (∀ (s : State) (c : Fin 16) (a b : Nat) (rest : List Nat), tget (fun _ => []) s.dramWb c.val = a :: rest →
    (s.wbHeld = false ∨ s.window = true) → s.mark a = .ce b →
    Completes (.dramWriteback c) s fun t => t.mark a = .none ∧ tget (fun _ => []) t.dramWb c.val = rest ∧ t.mem = s.mem) ∧
  (∀ (s : State) (ch : Fin 32), exec (.dramRefresh ch) s = .next s) ∧
  (∀ (s : State) (ch : Fin 32), s.exactClaimed = true → ch.val ∈ s.hot → s.window = false →
    exec (.exactAddedRefresh ch) s = .next ((s.count (oDrc (ch.val / 2) 0x14) 1).breakRound 3)) ∧
  (∀ (s : State) (ch : Fin 32) (code : BitVec 3), s.exactClaimed = false →
    Completes (.dramMr4Report ch code) s fun t => t.regF (oDrc (ch.val / 2) 0) (8 * (ch.val % 2)) 3 = code.toNat ∧
      (ch.val ∈ t.hot ↔ 2 ≤ code.toNat ∧ code.toNat ≤ 5)) ∧
  (∀ (s : State) (c : Fin 16), s.exactClaimed = false →
    Completes (.patrolScrub c) s fun t => t.patrol.getD c.val 0 = (s.patrol.getD c.val 0 + 1) % 262144)

/-- Scratchpad banks (R152 to R155, R167 to R176, R191): of the requests of one FCLK at most one per bank is served and it is one no other
there beats; reads served answer their rows, or the content held since a write they lost to; a write whose requests are all served is stored
(a whole block with the writer's BCW) after the rows that lost reads of it are to return have been kept; a write that loses a bank stores
nothing, and a corrected word is written back. -/
def Obligations.ScratchpadBanks : Prop :=
  (∀ (reqs : List SpReq), (spServed reqs).Pairwise (fun a b => spBank a.row ≠ spBank b.row)) ∧
  (∀ (reqs : List SpReq), ∀ a ∈ spServed reqs, a ∈ reqs ∧
    ∀ b ∈ reqs, spBank b.row = spBank a.row → a ≠ b → b.beats a = true → a.beats b = true) ∧
  (∀ (s : State) (f : Fin 4) (reqs : List SpReq), reqs.all SpReq.ok = true → (∀ r ∈ reqs, s.spFilling f r.row = false) →
    (s.frond f).heldRows = [] → (s.spArb f reqs).2.2 = none →
    Completes (.scratchpadRead f reqs) s fun t => t.out = ((spServed reqs).filter fun r => !r.write).flatMap
      fun r => s.rdN (spBase f + 64 * r.row) 64) ∧
  (∀ (s : State) (f : Fin 4) (r : SpReq) (h : HeldRow), r.ok = true → r.write = false → s.spFilling f r.row = false →
    (s.frond f).heldRows = [h] → h.unit = r.unit → h.row = r.row →
    Completes (.scratchpadRead f [r]) s fun t => t.out = h.data ∧ (t.frond f).heldRows = [] ∧ t.mem = s.mem) ∧
  (∀ (s s1 s2 : State) (f : Fin 4) (h : SpReq) (rest : List SpReq), (h :: rest).all SpReq.ok = true → h.write = true →
    (∀ r ∈ h :: rest, r.unit = h.unit → r.write = true → r ∈ spServed (h :: rest)) → (s.spArb f (h :: rest)).2 = (s1, none) →
    s2 = s1.holdRows f (((h :: rest).filter fun r => decide (r.unit = h.unit) && r.write).map (·.row))
      ((h :: rest).filter fun r => !(spServed (h :: rest)).contains r) →
    (∀ (d : List Byte) (bcw : Word) (a : Nat), d.length = 256 → a = 256 * (h.row / 4) → a + 256 ≤ s2.resByte f →
      (∀ r ∈ s2.reserved f, r ∉ rowsOf a 256) →
      exec (.scratchpadWrite f (h :: rest) d bcw) s = .next ((s2.putBlock (spBase f + a) d (crcWord d)).setBcw (spBase f + a) bcw)) ∧
    (∀ (n : Nat) (d : List Byte), 1 ≤ n → h.row % 4 + n ≤ 4 → d.length = 64 * n → 64 * h.row + 64 * n ≤ s2.resByte f →
      (∀ r ∈ s2.reserved f, r ∉ rowsOf (64 * h.row) (64 * n)) →
      exec (.scratchpadMerge f (h :: rest) n d) s =
        .next (s2.storeChecked (s2.frondWho f h.unit.opcode) (spBase f + 64 * h.row) d)) ∧
    (∀ (st : Nat) (d : List Byte), d ≠ [] → st + d.length ≤ 64 → 64 * h.row + 64 ≤ s2.resByte f →
      (∀ r ∈ s2.reserved f, r ∉ rowsOf (64 * h.row + st) d.length) →
      exec (.partialRowWrite f (h :: rest) st d) s =
        .next (s2.storeChecked (s2.frondWho f h.unit.opcode) (spBase f + (64 * h.row + st)) d))) ∧
  (∀ (s : State) (f : Fin 4) (h : SpReq) (rest : List SpReq) (d : List Byte) (bcw : Word), (h :: rest).all SpReq.ok = true →
    d.length = 256 → (∃ r ∈ h :: rest, r.unit = h.unit ∧ r.write = true ∧ r ∉ spServed (h :: rest)) →
    exec (.scratchpadWrite f (h :: rest) d bcw) s = .next ((s.spArb f (h :: rest)).2.1.spEnd f (s.spArb f (h :: rest)).2.2)) ∧
  (∀ (s : State) (f : Fin 4) (a b : Nat) (rest : List Nat), (s.frond f).wb = a :: rest → s.mark (spBase f + a) = .ce b →
    Completes (.spCeWriteback f) s fun t => t.mark (spBase f + a) = .none ∧ (t.frond f).wb = rest ∧ t.mem = s.mem)

/-- The Mat, zero-fill, restore and the repair registers (R153, R178 to R191, R194, R197, R198): Mat reads return the content from before the
NCLK's writes and wait for a zero-fill, a Mat write stores its bytes or its whole block with the writer's BCW, a corrected Mat word is written
back, the fill and the restore end and let the waiting reads go on, a field repair copies the failing row into its spare, moves an
allocation that covers a Mat row, and is ignored while the Frond runs a kernel, and FRD_SP_RESBASE takes its writes. -/
def Obligations.MatAndInit : Prop :=
  (∀ (s : State) (reqs : List MatReq), reqs.all MatReq.ok = true → s.sys.zfillMat = false → s.matHeld = [] →
    (∀ r ∈ reqs, r.writes = false) →
    Completes (.matAccess reqs) s fun t => t.out = (matServed reqs).flatMap fun r => s.rdN (matBase + r.span.1) r.span.2) ∧
  (∀ (s : State) (u : MatUnit) (o : Nat) (d : List Byte), MatReq.ok ⟨u, o, .write d⟩ = true → s.sys.zfillMat = false →
    exec (.matAccess [⟨u, o, .write d⟩]) s = .next (({ s with out := [] } : State).storeChecked (s.matWho u) (matBase + o)
      (d.take (256 - o % 256)))) ∧
  (∀ (s : State) (u : MatUnit) (o : Nat) (d : List Byte) (w : Word), MatReq.ok ⟨u, o, .writeBlock d w⟩ = true → s.sys.zfillMat = false →
    d.length = 256 → exec (.matAccess [⟨u, o, .writeBlock d w⟩]) s =
      .next (({ s with out := [] } : State).putBlock (matBase + o / 256 * 256) d w)) ∧
  (∀ (s : State) (r : MatReq), r.ok = true → r.writes = false → s.sys.zfillMat = true →
    exec (.matAccess [r]) s = .next { s with matWait := s.matWait ++ [r], out := [] }) ∧
  (∀ (s : State) (bank : Fin 64) (a b : Nat), s.matWb.find? (fun a => decide (matBank a = bank.val)) = some a →
    s.mark (matBase + a) = .ce b →
    Completes (.matCorrectedWriteback bank) s fun t => t.mark (matBase + a) = .none ∧ a ∉ t.matWb ∧ t.mem = s.mem) ∧
  (∀ (s : State) (f : Fin 4),
    exec (.zeroFillDone (some f)) s = .next ((s.modFrond f fun x => { x with zfill := false }).spGoOn f)) ∧
  (∀ (s : State), exec (.zeroFillDone none) s =
    .next (({ s with sys := { s.sys with zfillMat := false }, matWait := [] } : State).matServe s.matWait)) ∧
  (∀ (s : State) (f : Fin 4), (s.frond f).restore = true →
    exec (.residentRestoreDone f) s = .next (((s.restoreFailing f).modFrond f fun x => { x with restore := false }).spGoOn f)) ∧
  (∀ (s : State) (f : Fin 4) (b : Fin 320) (sp : Fin 32) (v : Word) (a : Nat), (s.frond f).kernel = none →
    a = 64 * (v.toNat % 2048 * 320 + b.val) →
    (v.getLsbD 31 = true → (∀ e ∈ s.marksIn (spBase f + a) 64, e.2 ≠ .ue) → exec (.frdSpRepairWrite f b sp v) s =
      .next ((s.putKeys (spSpareKey f b.val sp.val) (s.rdN (spBase f + a) 64)).writeFields (oSpRepair f b.val sp.val) v)) ∧
    (v.getLsbD 31 = true → (∃ e ∈ s.marksIn (spBase f + a) 64, e.2 = .ue) → a < s.resByte f → exec (.frdSpRepairWrite f b sp v) s =
      .next ((s.putKeys (spSpareKey f b.val sp.val) (List.replicate 64 0)).writeFields (oSpRepair f b.val sp.val) v)) ∧
    (v.getLsbD 31 = false → exec (.frdSpRepairWrite f b sp v) s = .next (s.writeFields (oSpRepair f b.val sp.val) v))) ∧
  (∀ (s : State) (f : Fin 4) (b : Fin 320) (sp : Fin 32) (v : Word) (k : KernelRun), (s.frond f).kernel = some k →
    exec (.frdSpRepairWrite f b sp v) s = .next s) ∧
  (∀ (s : State) (f : Fin 4) (v : Word), v.toNat % 2 ^ 20 % 4 = 0 → v.toNat % 2 ^ 20 ≤ 655360 →
    Completes (.frdSpResbaseWrite f v) s fun t => (t.reg (oResbase f)).toNat = v.toNat % 2 ^ 20 ∧
      ∀ o, o ≠ oResbase f → t.reg o = s.reg o) ∧
  (∀ (s : State) (f : Fin 4) (v : Word), v.toNat % 2 ^ 20 % 4 ≠ 0 ∨ 655360 < v.toNat % 2 ^ 20 →
    exec (.frdSpResbaseWrite f v) s = .next s) ∧
  (∀ (s : State) (b : Fin 64) (sp : Fin 16) (v : Word) (x : Nat), x = matBase + matRowOff b.val (v.toNat % 4096) →
    (v.getLsbD 31 = false → exec (.drcMatRepairWrite b sp v) s = .next (s.writeFields (oMatRepair b.val sp.val) v)) ∧
    (v.getLsbD 31 = true → s.matCover x = none → exec (.drcMatRepairWrite b sp v) s =
      .next ((s.putKeys (matSpareKey b.val sp.val) (s.rdN x 64)).writeFields (oMatRepair b.val sp.val) v)) ∧
    (∀ h y, v.getLsbD 31 = true → s.matCover x = some (h, y) →
      (firstFit matBase (matBase + 0xFF0000) y.mat.2 ((x / 65536 * 65536, 65536) :: s.matTaken) = none →
        exec (.drcMatRepairWrite b sp v) s = .next s) ∧
      (∀ dst s1, firstFit matBase (matBase + 0xFF0000) y.mat.2 ((x / 65536 * 65536, 65536) :: s.matTaken) = some dst →
        s1 = s.moveMat h y dst → exec (.drcMatRepairWrite b sp v) s =
        .next ((s1.putKeys (matSpareKey b.val sp.val) (s1.rdN x 64)).writeFields (oMatRepair b.val sp.val) v))))

/-- Register writes outside the rings (R5, R76, R81, R82, R379, R397, R401, R432, R646, R649): firmware that is not halted, and a
debugger at FULL, write; a window reaches its members; the registers whose write has a behaviour of its own have it. -/
def Obligations.RegisterCommands : Prop :=
  (∀ (s : State) (off : BitVec 28) (v : Word), s.dbg.halted.contains 4 = false →
    exec (.registerWrite .firmware off v) s = .next (s.fwWrite off.toNat v) ∧
    (∀ r, s.outerWindow none off.toNat = none → s.pinWindow off.toNat = none → inFrond off.toNat = none →
      arr 0x04F01000 4 1024 off.toNat = none → off.toNat ≠ oTime 0x14 → off.toNat ≠ oFcol 0xC → off.toNat ≠ oPwr 0x20 →
      (∀ c x, inStream off.toNat = some (c, x) → x ≠ 0) → arr (oTime 0x100) 0x20 8 off.toNat = none → arr (oFcol 0x200) 4 32 off.toNat = none → arr (oFcol 0x300) 4 32 off.toNat = none →
      regSpec off.toNat = some r →
      exec (.registerWrite .firmware off v) s =
        .next (s.setReg off.toNat (BitVec.ofNat 32 (regAfter r (s.reg off.toNat).toNat v.toNat))))) ∧
  (∀ (s : State) (off : BitVec 28) (v : Word), s.dbg.level = 2 →
    exec (.registerWrite .debug off v) s = .next (s.debugEntry.writeAny none off.toNat v)) ∧
  (∀ (s : State) (off : BitVec 28) (v : Word), s.dbg.level ≠ 2 → exec (.registerWrite .debug off v) s = .next s) ∧
  (∀ (s : State) (c : Option (Fin 4)) (off : BitVec 28) (w : Window), s.outerWindow c off.toNat = some w → isReg off.toNat = true →
    (∀ r, c = some r → s.noRegRead r off.toNat = false ∧ s.frondOff r off.toNat = false) →
    exec (.groupWindowAccess c off none) s = .next { (s.readAny c off.toNat).2 with out := leBytes 4 (s.readAny c off.toNat).1.toNat } ∧
    (∀ v, (c = none → exec (.groupWindowAccess c off (some v)) s =
        .next (windowWrite (fun s o => s.writeInner State.fwWriteReg o v) s w)) ∧
      (c ≠ none → noRegWrite off.toNat = false → exec (.groupWindowAccess c off (some v)) s =
        .next (windowWrite (fun s o => s.writeInner State.writeReg o v) s w)))) ∧
  (∀ (s : State) (r : Fin 4) (off : BitVec 28) (v : Option Word), s.noRegRead r off.toNat = true ∨ s.frondOff r off.toNat = true →
    exec (.groupWindowAccess (some r) off v) s = .next s) ∧
  (∀ (s : State) (v : Word), s.dbg.halted.contains 4 = false → 25 ≤ v.toNat % 256 → v.toNat % 256 ≤ 27 →
    exec (.timeIncIntWrite .firmware v) s = .next { s.writeFields (oTime 0x14) v with time := { s.time with
      incPend := some (BitVec.ofNat 64 (v.toNat % 256 * 2 ^ 32 + ((s.writeFields (oTime 0x14) v).reg (oTime 0x10)).toNat)) } }) ∧
  (∀ (s : State) (n : Fin 8) (v : Word), s.dbg.halted.contains 4 = false →
    Completes (.timeTrigCtrlWrite .firmware n v) s fun t =>
      t.time = { s.time with trig := s.time.trig.set n.val ⟨v.getLsbD 0, 0, none⟩ } ∧
      (v.getLsbD 0 = true → t.reg (oTime (0x11C + 0x20 * n.val)) = 0) ∧ t.mem = s.mem) ∧
  (∀ (s : State) (v : Word), s.dbg.halted.contains 4 = false →
    exec (.fcolAck .firmware v) s = .next { s with fcol := { s.fcol with
      pending := s.fcol.pending.filter fun e => decide (e.1 ≠ v.toNat) } }) ∧
  (∀ (s : State) (i : Fin 32) (v : Word), s.dbg.halted.contains 4 = false →
    exec (.fcolForceHold .firmware i v) s = .next ((List.range 32).foldl (fun s b =>
      if v.getLsbD b then s.forceHold (32 * i.val + b) else s.forceRelease (32 * i.val + b)) s) ∧
    exec (.fcolForcePulse .firmware i v) s = .next ((List.range 32).foldl (fun s b =>
      if v.getLsbD b then s.forcePulse (32 * i.val + b) else s) s)) ∧
  (∀ (s : State) (p : Fin 4) (v : Word),
    exec (.cpIrqClear p v) s = .next (s.modPort p fun x => { x with irqStatus := x.irqStatus &&& ~~~(BitVec.ofNat 6 v.toNat) }) ∧
    exec (.cpIrqMaskWrite p v) s = .next (s.modPort p fun x => { x with irqMask := BitVec.ofNat 6 v.toNat }))

/-- Sessions, partitions and registers over Ebwick (R3, R19, R27, R471, R474, R480, R491 to R498): each command that passes the checks of
R475 has its effect and completes. -/
def Obligations.EbwickSessions : Prop :=
  ∀ (s s0 : State) (p : Fin 4) (d : Fin 256) (t : Taken),
    (∀ v, Passes s p d.val 0x0001 .session t s0 →
      chooseVersion (fld t.payload 1 1 * 256 + fld t.payload 0 1) (fld t.payload 3 1 * 256 + fld t.payload 2 1) = some v →
      exec (.hello p d) s = .next (after p d.val t ⟨.ok, [BitVec.ofNat 8 v, BitVec.ofNat 8 (v / 256), BitVec.ofNat 8 p.val,
          BitVec.ofNat 8 s0.sys.modId.toNat] ++ leBytes 4 (s0.sys.sessions + 1),
        { s0.modPort p fun x => { x with session := some ⟨v % 256, BitVec.ofNat 32 (fld t.payload 4 4)⟩ } with
          sys := { s0.sys with sessions := s0.sys.sessions + 1 } }⟩)) ∧
    (Passes s p d.val 0x0002 .session t s0 → exec (.caps p d) s = .next (after p d.val t ⟨.ok, s0.capsResp p, s0⟩)) ∧
    (Passes s p d.val 0x0010 .session t s0 → s0.claimable t = true → (s0.doClaim p t).st = .ok →
      exec (.partClaim p d) s = .next (after p d.val t (s0.doClaim p t))) ∧
    (Passes s p d.val 0x0011 .session t s0 → s0.releasable t = true → s0.mayRelease p t = true → fld t.payload 0 1 ≤ 1 →
      exec (.partRelease p d) s = .next (after p d.val t ⟨.ok, [], s0.releaseAll (s0.cmdPart t)⟩)) ∧
    (Passes s p d.val 0x0012 .mgmt t s0 → (s0.doQuota t).st = .ok →
      exec (.quotaSet p d) s = .next (after p d.val t (s0.doQuota t))) ∧
    (∀ n, Passes s p d.val 0x0070 .claimed t s0 → fld t.payload 8 1 = n → 1 ≤ n → n ≤ 16 → s0.regState t n = true →
      regAddrOk (fld t.payload 0 8) n = true → (∀ o ∈ regNames t n, isReg o = true ∧ s0.noRegRead (s0.cmdPart t) o = false) →
      exec (.regRead p d) s = .next (after p d.val t ⟨.ok, leBytes 4 n ++ (s0.readWords (s0.cmdPart t) (regNames t n)).1,
        (s0.readWords (s0.cmdPart t) (regNames t n)).2⟩)) ∧
    (∀ o g, Passes s p d.val 0x0071 .claimed t s0 → s0.regState t 1 = true → regAddrOk (fld t.payload 0 8) 1 = true →
      fld t.payload 0 8 - regBase = o → isReg o = true → s0.noRegRead (s0.cmdPart t) o = false → noRegWrite o = false →
      regSpec (unwindow o) = some g → encOk g (fld t.payload 8 4) = true →
      exec (.regWrite p d) s = .next (after p d.val t
        ⟨.ok, [], s0.writeAny (some (s0.cmdPart t)) o (BitVec.ofNat 32 (fld t.payload 8 4))⟩))

/-- Memory, apertures, programs, jobs, Decks and groups over Ebwick (R267, R280, R433, R480, R497, R501, R504, R540, R541, R568, R570): each
command that passes its checks has its effect and completes. -/
def Obligations.EbwickWork : Prop :=
  ∀ (s s0 : State) (p : Fin 4) (d : Fin 256) (t : Taken),
    (∀ e ∈ [(Instr.memAlloc p d, 0x0018, s0.doAlloc t), (.apertureMap p d, 0x001A, s0.doMap p t),
        (.progLoad p d, 0x0020, s0.doProgLoad t), (.jobSubmit p d, 0x0028, s0.doSubmit p t),
        (.deckLoad p d, 0x0030, s0.doDeckLoad t), (.groupForm p d, 0x0048, s0.doGroupForm t)],
      Passes s p d.val e.2.1 .claimed t s0 → e.2.2.st = .ok → exec e.1 s = .next (after p d.val t e.2.2)) ∧
    (∀ e ∈ [(Instr.apertureFill p d, 0x001B, s0.doFill p t), (.apertureFlush p d, 0x001C, s0.doFlush p t)],
      Passes s p d.val e.2.1 .claimed t s0 → s0.aperMapped p t = true → e.2.2.st = .ok →
      exec e.1 s = .next (after p d.val t e.2.2)) ∧
    (∀ a r, Passes s p d.val 0x0019 .claimed t s0 → asPart t.part = some r → s0.cmdPart t = r →
      s0.allocOf r (fld t.payload 0 4) = some a → s0.inUse (fld t.payload 0 4) a = false →
      (∀ g ∈ s0.groups, g.handle ≠ fld t.payload 0 4) →
      exec (.memFree p d) s = .next (after p d.val t ⟨.ok, [], s0.freeAlloc (fld t.payload 0 4)⟩)) ∧
    (∀ g, Passes s p d.val 0x0021 .claimed t s0 → (∀ e ∈ s0.jobs, ¬(e.2.prog = fld t.payload 0 4 ∧ e.2.part.val = t.part)) →
      s0.progOfPart (s0.cmdPart t) (fld t.payload 0 4) = some g →
      exec (.progUnload p d) s = .next (after p d.val t ⟨.ok, [], s0.unloadProg (fld t.payload 0 4)⟩)) ∧
    (∀ j, Passes s p d.val 0x0029 .claimed t s0 → s0.jobOf t.part (fld t.payload 0 8) = some j →
      exec (.jobCancel p d) s = .next (after p d.val t ⟨.ok, [], s0.cancelJob (fld t.payload 0 8)⟩)) ∧
    (∀ k, Passes s p d.val 0x0031 .claimed t s0 → fld t.payload 0 1 ≤ 1 → s0.bankLoaded t = true →
      (s0.part (s0.cmdPart t)).bank (bankSel (fld t.payload 0 1)) = some k →
      (s0.part (s0.cmdPart t)).active ≠ some (bankSel (fld t.payload 0 1)) →
      (∀ e ∈ s0.jobs, e.2.part = s0.cmdPart t → e.2.golden = none → s0.bankFits k e.2 = true) →
      exec (.deckSwitch p d) s = .next (after p d.val t ⟨.ok, s0.deckAsTime (s0.switchTime (s0.part (s0.cmdPart t))),
        (s0.frondsOf (s0.cmdPart t)).foldl State.clearDeckRegs (s0.modPart (s0.cmdPart t) fun y => { y with
          switchTo := some (bankSel (fld t.payload 0 1), s0.switchTime (s0.part (s0.cmdPart t))), idleAll := false })⟩)) ∧
    (∀ g, Passes s p d.val 0x0049 .claimed t s0 → s0.groupAt (s0.cmdPart t) (fld t.payload 0 4) = some g →
      exec (.groupLeave p d) s = .next (after p d.val t ⟨.ok, [], (s0.leaveGroup g.key).sweepRetired⟩)) ∧
    (Passes s p d.val 0x0032 .claimed t s0 →
      ∃ b, exec (.latTolSet p d) s = .next (after p d.val t
        ⟨.ok, [b], s0.modPart (s0.cmdPart t) fun x => { x with tol := fld t.payload 0 4 }⟩)) ∧
    (∀ e ∈ [(Instr.pwrHintNone p d, 0), (.pwrHintIdle p d, 1), (.pwrHintStandbyOk p d, 2)], Passes s p d.val 0x0033 .claimed t s0 →
      fld t.payload 0 1 = e.2 →
      exec e.1 s = .next (after p d.val t ⟨.ok, [], s0.modPart (s0.cmdPart t) fun x =>
        { x with hint := e.2, idling := decide (e.2 ≠ 0) }⟩))

/-- Sequences over Ebwick (R267, R272 to R274, R277 to R279): SEQ_CREATE adds a sequence at generation 1, SEQ_FORK a second one that shares the
pages of a prefix with their counts raised, SEQ_EDIT cuts the table and advances the generation, SEQ_RETIRE retires. -/
def Obligations.EbwickSequences : Prop :=
  ∀ (s s0 : State) (p : Fin 4) (d : Fin 256) (t : Taken) (b : List Byte) (r : Fin 4), t.payload = b → s0.cmdPart t = r →
    (Passes s p d.val 0x0040 .claimed t s0 → fld b 0 1 < 4 → 1 ≤ fld b 1 1 → fld b 1 1 ≤ 16 → fld b 2 1 ≤ 1 → fld b 8 8 % 64 = 0 →
      (tfind s0.pools (poolKey r (fld b 0 1))).isSome = true → s0.seqRoom r = true →
      exec (.seqCreate p d) s = .next (after p d.val t ⟨.ok, leBytes 4 s0.nextId ++ leBytes 4 1, { s0 with
        nextId := s0.nextId + 1,
        seqs := tput s0.seqs s0.nextId { part := r, pool := poolKey r (fld b 0 1), nhg := fld b 1 1, hot := bit1 (fld b 2 1) 0, gen := 1, basePos := fld b 8 8, len := fld b 8 8, spans := [], retired := false } }⟩)) ∧
    (∀ x, Passes s p d.val 0x0041 .claimed t s0 → asPart t.part = some r → s0.seqOf r (fld b 0 4) = some x → x.retired = false →
      x.basePos + fld b 8 8 ≤ x.len →
      (∀ i ∈ spanPages (x.prefix (fld b 8 8)), (s0.pageOf x.pool i).taint = false ∧ (s0.pageOf x.pool i).count < 65535) →
      s0.seqRoom r = true →
      exec (.seqFork p d) s = .next (after p d.val t ⟨.ok, leBytes 4 s0.nextId ++ leBytes 4 1, { s0 with
        pools := tmod s0.pools x.pool fun y => y.incr (spanPages (x.prefix (fld b 8 8))) false,
        nextId := s0.nextId + 1,
        seqs := tput s0.seqs s0.nextId { x with gen := 1, len := x.basePos + fld b 8 8, spans := x.prefix (fld b 8 8) } }⟩)) ∧
    (∀ x pos, Passes s p d.val 0x0042 .claimed t s0 → asPart t.part = some r → s0.seqOf r (fld b 0 4) = some x → x.retired = false →
      x.gen.toNat ≠ 0xFFFFFFFF → fld b 4 1 = 0 → fld b 8 8 = pos → x.basePos ≤ pos → pos ≤ x.len →
      ∃ s1, s1 = s0.reSpan (fld b 0 4) (x.prefix (pos - x.basePos)) pos false ∧
        exec (.seqEditTruncate p d) s = .next (after p d.val t ⟨.ok, leBytes 4 (x.gen.toNat + 1),
          ({ s1 with seqs := tmod s1.seqs (fld b 0 4) fun y => { y with basePos := x.basePos } }).sweepPool x.pool⟩)) ∧
    (∀ x pos, Passes s p d.val 0x0042 .claimed t s0 → asPart t.part = some r → s0.seqOf r (fld b 0 4) = some x → x.retired = false →
      x.gen.toNat ≠ 0xFFFFFFFF → fld b 4 1 = 1 → fld b 8 8 = pos → pos % 64 = 0 → x.basePos ≤ pos → pos ≤ x.len →
      ∃ s1, s1 = s0.reSpan (fld b 0 4) (x.spans.drop ((pos - x.basePos) / 64)) x.len false ∧
        exec (.seqEditDropBelow p d) s = .next (after p d.val t ⟨.ok, leBytes 4 (x.gen.toNat + 1),
          ({ s1 with seqs := tmod s1.seqs (fld b 0 4) fun y => { y with basePos := pos } }).sweepPool x.pool⟩)) ∧
    (∀ x, Passes s p d.val 0x0043 .claimed t s0 → asPart t.part = some r → s0.seqOf r (fld b 0 4) = some x → x.retired = false →
      exec (.seqRetire p d) s = .next (after p d.val t ⟨.ok, [], s0.retireSeq (fld b 0 4)⟩))

/-- Streams and the Dealer over Ebwick (R307, R308, R328, R329, R358, R361, R371, R484, R487): a context is configured while it is stopped,
starts at frame 0 of its count and stops; the Dealer is configured, started on a checked image and stopped, with the position reached in
its response. -/
def Obligations.EbwickStreams : Prop :=
  ∀ (s s0 : State) (p : Fin 4) (d : Fin 256) (t : Taken) (b : List Byte) (c : Nat), t.payload = b → fld b 0 1 = c →
    (Passes s p d.val 0x0038 .claimed t s0 → s0.streamIdle t = true → (s0.doStreamConfig p t).st = .ok →
      exec (.streamConfig p d) s = .next (after p d.val t (s0.doStreamConfig p t))) ∧
    (Passes s p d.val 0x0039 .claimed t s0 → c < 96 → (s0.stream c).owner = some (s0.cmdPart t) → s0.strmOn c = false → s0.strmKind c ≠ 0 →
      (s0.strmKind c = 3 → (s0.ring p (s0.auxRing c)).isSome = true) → s0.pipeFits c = true →
      exec (.streamStart p d) s = .next (after p d.val t ⟨.ok, [], s0.startStream c⟩)) ∧
    (Passes s p d.val 0x003A .claimed t s0 → c < 96 → (s0.stream c).owner = some (s0.cmdPart t) → s0.strmOn c = true →
      exec (.streamStop p d) s = .next (after p d.val t ⟨.ok, [], s0.stopStream c⟩)) ∧
    (∀ g, Passes s p d.val 0x0050 .claimed t s0 → s0.dealer.run = false → dealerCfgOf (s0.cmdPart t) b = g → s0.dealerChans g = true →
      s0.dealerCfgOk b g = true →
      exec (.dealerConfig p d) s = .next (after p d.val t ⟨.ok, [], { s0 with dealer := { Dealer.reset with cfg := some g } }⟩)) ∧
    (∀ g, Passes s p d.val 0x0051 .claimed t s0 → s0.dealer.run = false → s0.dealer.cfg = some g → g.part = s0.cmdPart t →
      s0.imageOk g = true →
      ∃ u, u = ((s0.reportRead { Who.unit 75 with part := g.part.val } g.base 64).reportRead { Who.unit 75 with part := g.part.val }
          (g.base + s0.rdLe (g.base + 16) 8) (16 * s0.imgSamples g)).clearRegs (fun o => decide (0x03080010 ≤ o ∧ o < 0x03080020)) ∧
        exec (.dealerStart p d) s = .next (after p d.val t ⟨.ok, leBytes 8 (s0.imgSamples g), { u with dealer := { Dealer.reset with
          cfg := some g, run := true, nsamp := s0.imgSamples g, epoch := g.epoch0, startEpoch := g.epoch0 } }⟩)) ∧
    (∀ g, Passes s p d.val 0x0052 .claimed t s0 → s0.dealer.run = true → s0.dealer.cfg = some g → g.part = s0.cmdPart t →
      exec (.dealerStop p d) s = .next (after p d.val t ⟨.ok, leBytes 4 s0.dealer.pos ++ leBytes 4 s0.dealer.epoch,
        { s0 with dealer := { s0.dealer with run := false, lanes := [], done := [] } }⟩))

/-- Device time over Ebwick (R378 to R381, R394, R396 to R398, R480, R488): TIME_READ answers the time, the increment and the sum of steps;
TIME_INC_SET writes the fraction, then the whole part; TIME_STEP leaves one pending step; LAUNCH_SET queues a frame by launch time or
writes a trigger, its control word last. -/
def Obligations.EbwickTime : Prop :=
  ∀ (s s0 : State) (p : Fin 4) (d : Fin 256) (t : Taken) (b : List Byte), t.payload = b →
    (Passes s p d.val 0x0058 .claimed t s0 → exec (.timeRead p d) s = .next (after p d.val t
      ⟨.ok, timeBytes s0.now ++ leBytes 2 0 ++ leBytes 8 s0.time.inc.toNat ++ leBytes 8 (code 64 s0.time.stepSum), s0⟩)) ∧
    (∀ v, Passes s p d.val 0x0059 .mgmt t s0 → s0.mgmtCmd p t = true → fld b 0 8 = v → 25 * 2 ^ 32 ≤ v → v ≤ 27 * 2 ^ 32 →
      exec (.timeIncSet p d) s = .next (after p d.val t
        ⟨.ok, [], (s0.writeReg (oTime 0x10) (BitVec.ofNat 32 v)).writeReg (oTime 0x14) (BitVec.ofNat 32 (v / 2 ^ 32))⟩)) ∧
    (∀ v, Passes s p d.val 0x005A .mgmt t s0 → s0.mgmtCmd p t = true → sext 64 (fld b 0 8) = v → 0 ≤ (s0.now : Int) + v → s0.time.stepPend = none →
      exec (.timeStep p d) s = .next (after p d.val t ⟨.ok, [], { s0 with time := { s0.time with stepPend := some v } }⟩)) ∧
    (∀ m n, Passes s p d.val 0x005B .claimed t s0 → fld b 0 1 = 0 → fld b 1 1 = m → m < 8 → s0.assigned t (·.macs) m = true →
      fld b 2 1 ≤ 1 → fld b 14 2 = n → 60 ≤ n → n ≤ 1522 → fld b 4 4 < 1000000000 → zerosAt b 16 12 = true →
      ((tfind s0.time.launch m).getD []).length < 16 →
      exec (.launchSetFrame p d) s = .next (after p d.val t ⟨if fldTime b 4 ≠ 0 ∧ fldTime b 4 < s0.now then .late else .ok, [],
        { s0 with time := { s0.time with launch := tput s0.time.launch m (launchPut ⟨fldTime b 4,
          decide (fldTime b 4 ≠ 0 ∧ fldTime b 4 < s0.now), bit1 (fld b 2 1) 0, BitVec.ofNat 32 t.tag, s0.cmdPart t, slice b 32 n⟩
          ((tfind s0.time.launch m).getD [])) } }⟩)) ∧
    (∀ n, Passes s p d.val 0x005B .claimed t s0 → fld b 0 1 = 1 → fld b 1 1 = n → n < 8 → s0.assigned t (·.trigs) n = true →
      fld b 2 1 ≤ 3 → fld b 4 4 < 1000000000 → fld b 14 2 = 0 → fld b 20 4 ≠ 0 → (fld b 16 4 = 0 ∨ fld b 20 4 < fld b 16 4) →
      exec (.launchSetTrigger p d) s = .next (after p d.val t ⟨.ok, [],
        (((((((s0.writeReg (oTrig n 4) (BitVec.ofNat 32 (fld b 4 4))).writeReg (oTrig n 8) (BitVec.ofNat 32 (fld b 8 4))).writeReg
          (oTrig n 0xC) (BitVec.ofNat 32 (fld b 12 2))).writeReg (oTrig n 0x10) (BitVec.ofNat 32 (fld b 16 4))).writeReg
          (oTrig n 0x14) (BitVec.ofNat 32 (fld b 20 4))).writeReg (oTrig n 0x18) (BitVec.ofNat 32 (fld b 24 4))).writeReg
          (oTrig n 0) (BitVec.ofNat 32 (fld b 2 1)))⟩))

/-- Faults, self-test and health over Ebwick (R480, R630, R645, R648 to R650, R654): FAULT_READ answers records by their numbers, FAULT_ACK
marks one and clears HOLD when none of class U is left, FORCE acts on a present source, SELFTEST_CTRL pauses, resumes or orders a rotation,
TESTPACK_LOAD keeps a signed pack, HEALTH_READ answers the health of a unit. -/
def Obligations.EbwickHealth : Prop :=
  ∀ (s s0 : State) (p : Fin 4) (d : Fin 256) (t : Taken) (b : List Byte), t.payload = b →
    (∀ n, Passes s p d.val 0x0060 .session t s0 → fld b 4 1 = n → 1 ≤ n → n ≤ 15 →
      exec (.faultRead p d) s = .next (after p d.val t ⟨.ok, leBytes 16 n ++ (List.range n).flatMap fun i =>
        ((s0.faultRec (fld b 0 4 + i)).map FaultRec.bytes).getD (List.replicate 64 0), s0⟩)) ∧
    (∀ r, Passes s p d.val 0x0061 .session t s0 → s0.faultRec (fld b 0 4) = some r → r.cls ≠ 0 → r.acked = false → s0.isMgmt p = true →
      exec (.faultAck p d) s = .next (after p d.val t ⟨.ok, [], ({ s0 with fcol := { s0.fcol with
        ring := s0.fcol.ring.map fun (x : FaultRec) => if x.seq = fld b 0 4 then { x with acked := true } else x } }).clearHold⟩)) ∧
    (∀ e ∈ [(Instr.forceRelease p d, 0, State.forceRelease), (.forcePulse p d, 1, State.forcePulse), (.forceHold p d, 2, State.forceHold)],
      Passes s p d.val 0x0062 .mgmt t s0 → fld b 2 1 = e.2.1 → srcPresent (fld b 0 2) = true → fld b 0 2 < 1024 →
      exec e.1 s = .next (after p d.val t ⟨.ok, [], (e.2.2 s0 (fld b 0 2)).sweepRetired⟩)) ∧
    (∀ e ∈ [(Instr.selftestStatus p d, 0, s0), (.selftestPause p d, 1, { s0 with safety := { s0.safety with patPaused := true } }),
        (.selftestResume p d, 2, { s0 with safety := { s0.safety with patPaused := false } }),
        (.selftestRunNow p d, 3, { s0 with safety := { s0.safety with runNow := s0.safety.runNow.set (selfFrond b).val true } })],
      Passes s p d.val 0x0063 .mgmt t s0 → fld b 0 1 = e.2.1 → fld b 2 2 < 64 →
      exec e.1 s = .next (after p d.val t ⟨.ok, (e.2.2.selfReport (selfFrond b)).1, (e.2.2.selfReport (selfFrond b)).2⟩)) ∧
    (∀ a pk sg s1, Passes s p d.val 0x0064 .mgmt t s0 → tfind s0.allocs (fld b 0 4) = some a → s0.claimedBy p a.part.val = true →
      128 ≤ fld b 16 4 → fld b 16 4 ≤ 0x400000 → fld b 8 8 + fld b 16 4 ≤ a.size →
      s0.rdN (a.base + fld b 8 8) (fld b 16 4) = pk → s0.reportRead Who.firmware (a.base + fld b 8 8) (fld b 16 4) = s1 →
      packHeaderOk pk = true → packProgOk pk = true → fld pk 32 4 = sg → s0.vendorUsable Config.vendorTableKey = true →
      sigOk Config.vendorTableKey (pk.take sg) (slice pk sg 64) = true → fld s0.nor.pack 8 4 ≤ fld pk 8 4 →
      exec (.testpackLoad p d) s = .next (after p d.val t ⟨.ok, leBytes 4 (fld pk 8 4),
        ({ s1 with nor := { s1.nor with pack := pk } }).extendMb 3 pk⟩)) ∧
    (∀ u, Passes s p d.val 0x0065 .session t s0 → fld b 0 2 = u → u ≤ 127 ∨ u = 0xFFFF →
      exec (.healthRead p d) s = .next (after p d.val t
        ⟨.ok, leBytes 16 (s0.healthOf u).length ++ (s0.healthOf u).flatMap Health.bytes, s0⟩))

/-- Security over Ebwick (R700 to R705, R711, R719, R724, R725): ATTEST_QUOTE answers the quote, DEBUG_AUTH_BEGIN a challenge, DEBUG_AUTH_END
opens a level on a response that verifies and closes it without one, FW_STAGE appends an object's bytes and verifies it when whole, FW_COMMIT
completes and then resets. -/
def Obligations.EbwickSecurity : Prop :=
  ∀ (s s0 : State) (p : Fin 4) (d : Fin 256) (t : Taken) (b : List Byte), t.payload = b →
    (Passes s p d.val 0x0068 .session t s0 → fld b 32 1 ≠ 0 → ((fld b 32 1).testBit 3 = true → s0.sys.packRead = true) →
      exec (.attestQuote p d) s = .next (after p d.val t ⟨.ok, s0.quote (b.take 32) (fld b 32 1), s0⟩)) ∧
    (∀ level key, Passes s p d.val 0x0069 .mgmt t s0 → s0.dbg.chal = none → fld b 0 1 = level → fld b 1 1 = key → level = 1 ∨ level = 2 →
      key ≤ 1 → s0.dbg.lockout = false → s0.debugKeyOk level key = true →
      (Config.trngFails s0.free = false → exec (.debugAuthBegin p d) s =
        .next (after p d.val t ⟨.ok, digestBytes (Config.trng s0.free), s0.openChal level key false⟩)) ∧
      (Config.trngFails s0.free = true →
        exec (.debugAuthBegin p d) s = .next (after p d.val t ⟨.busy, [], s0.trngFault true⟩))) ∧
    (∀ level key c, Passes s p d.val 0x006A .mgmt t s0 → b ≠ [] → s0.dbg.chal = some (level, key, c, false) →
      s0.debugVerifies level key c (beField 512 b 0 64) = true →
      exec (.debugAuthEnd p d) s = .next (after p d.val t
        ⟨.ok, leBytes 1 (s0.debugOpened level key).dbg.level, s0.debugOpened level key⟩)) ∧
    (Passes s p d.val 0x006A .mgmt t s0 → b = [] →
      exec (.debugAuthEnd p d) s = .next (after p d.val t ⟨.ok, leBytes 1 s0.closeDebug.dbg.level, s0.closeDebug⟩)) ∧
    (s.dbg.chal.isSome = true → Completes .debugChallengeTimeout s fun u => u.dbg.chal = none ∧ u.mem = s.mem ∧
      u.dbg.fails = min 3 (s.dbg.fails + 1) ∧ (2 ≤ s.dbg.fails → u.dbg.lockout = true)) ∧
    (∀ n a, Passes s p d.val 0x0078 .mgmt t s0 → (s0.partStaged = true → s0.sys.stagePort = p) → s0.sys.dramBad = 0 → fld b 16 4 = n → n ≠ 0 →
      s0.stageSource p (fld b 0 4) (fld b 8 8) n = some a →
      ((s0.reportRead Who.firmware a n).appendStage p (s0.rdN a n)).st = .ok →
      exec (.fwStage p d) s = .next (after p d.val t ((s0.reportRead Who.firmware a n).appendStage p (s0.rdN a n)))) ∧
    (Passes s p d.val 0x0079 .mgmt t s0 → s0.sys.stageOk = true → b.take 32 = digestBytes (Config.sm3 s0.sys.stage) →
      exec (.fwCommit p d) s = .next (after p d.val t ⟨.ok, [], s0⟩).commitReset)

/-- The order of the checks (R475, checks 1 to 4): the oldest command of a ring completes with ST_ARG when it is badly laid out, else with
ST_VERSION when it is newer than the session, else with ST_STATE where the device or the session does not take it, else with ST_AUTH without
the authority; it then has no response and no effect beside its completion. -/
def Obligations.EbwickChecksOrder : Prop :=
  ∀ (s s0 : State) (p : Fin 4) (d : Fin 256) (t : Taken) (l : CmdLay) (c : Instr) (opc : Nat) (a : Auth),
    (c, opc, a) ∈ [(Instr.hello p d, 0x0001, Auth.session), (.caps p d, 0x0002, .session), (.quotaSet p d, 0x0012, .mgmt),
      (.memAlloc p d, 0x0018, .claimed), (.apertureMap p d, 0x001A, .claimed), (.progLoad p d, 0x0020, .claimed),
      (.jobSubmit p d, 0x0028, .claimed), (.deckLoad p d, 0x0030, .claimed), (.latTolSet p d, 0x0032, .claimed),
      (.seqCreate p d, 0x0040, .claimed), (.groupForm p d, 0x0048, .claimed), (.timeRead p d, 0x0058, .claimed),
      (.timeIncSet p d, 0x0059, .mgmt), (.timeStep p d, 0x005A, .mgmt), (.faultRead p d, 0x0060, .session),
      (.testpackLoad p d, 0x0064, .mgmt), (.healthRead p d, 0x0065, .session), (.attestQuote p d, 0x0068, .session),
      (.fwStage p d, 0x0078, .mgmt)] →
    s.takenAt p d.val = some t → t.opc = opc → layOf opc t.payload = some l → s0 = s.beforeCmd p t → s.fcol.safe = false →
    s.dbg.halted.contains 4 = false →
    (t.wellFormed l = false → exec c s = .next (s0.complete p d.val t .arg [])) ∧
    (t.wellFormed l = true → s0.verOk p t = false → exec c s = .next (s0.complete p d.val t .version [])) ∧
    (t.wellFormed l = true → s0.verOk p t = true → s0.devOk p opc = false → exec c s = .next (s0.complete p d.val t .state [])) ∧
    (t.wellFormed l = true → s0.verOk p t = true → s0.devOk p opc = true → s0.authOk p d.val t a = false →
      exec c s = .next (s0.complete p d.val t .auth []))

/-- A completion (R458, R468, R476): the command leaves its SQ, its promise leaves the CQ that pairs with it, and where the packet fits
without padding the CQ's storage receives it, with the command's code + 0x8000, tag and status and the CQ's next sequence number; TAIL
and NSEQ move on, both copies of the pointers agree and COMPL is set. -/
def Obligations.EbwickCompletion : Prop :=
  ∀ (p : Fin 4) (d c n : Nat) (t : Taken) (r : Done) (q k : Ring), r.s.ring p d = some q → q.pair = c → c ≠ d → r.s.ring p c = some k →
    k.agree = true → r.s.fcol.safe = false → n = 16 * cdiv (16 + r.resp.length) 16 → k.padAt k.tail n = 0 → k.used + n ≤ k.cap →
    (after p d t r).ring p d = some { q with taken := q.taken.drop 1 } ∧
    (∃ k2, (after p d t r).ring p c = some k2 ∧ k2.head = k.head % 2 ^ 30 ∧ k2.tail = (k.tail + n) % 2 ^ 30 ∧ k2.nseq = (k.nseq + 1) % 65536 ∧
      k2.agree = true ∧ k2.promises = dropPromise d k.promises ∧ k2.taken = k.taken) ∧
    (after p d t r).mem = (r.s.put (ringAddr p k k.tail)
      (packet ((t.opc + 0x8000) % 65536) k.nseq t.tag r.st.code t.part 0 r.resp)).mem ∧
    ((after p d t r).port p).irqStatus.getLsbD irqCompl = true

/-- Cameras (R309, R310, R316, R317, R325, R328, R337, R338, R340, R350): a corrected header is counted; an image line of a context's data type
joins its frame with its BCWs, with a checksum error the frame is errored, outside the frame's shape the stream is quarantined; what no
context takes is counted on the port; a frame start ends a frame left open and begins the next, a frame end verifies the tag where one is
required and completes a whole frame; a deskew sequence is noted on a D-PHY port. -/
def Obligations.CameraPackets : Prop :=
  ∀ (s : State) (port : Fin 12) (vc : Fin 16) (c : Nat),
    (exec (.csi2Packet port .unparsable) s =
      .next ((s.camerasOn port.val).foldl State.badEnd (s.count (0x03000040 + 4 * port.val) 1))) ∧
    (∀ k, s.cameraOf port.val vc.val = none →
      k = Instr.csi2Packet port (.badHeader vc) ∨ (∃ co, k = .csi2Packet port (.line vc co) ∨ k = .csi2FrameEnd port ⟨vc, co⟩) ∨
        (∃ dt co crcOk pl, k = .csi2Packet port (.long vc dt co crcOk pl)) ∨ (∃ co ph, k = .csi2FrameStart port ⟨vc, co⟩ ph) →
      exec k s = .next (s.count (0x03000040 + 4 * port.val) 1)) ∧
    (s.cameraOf port.val vc.val = some c → exec (.csi2Packet port (.line vc false)) s = .next s ∧
      Completes (.csi2Packet port (.line vc true)) s fun t => t.reg (oStrm c 0x34) = countUp (s.reg (oStrm c 0x34)) 1 ∧ t.mem = s.mem) ∧
    (∀ co s1 crcOk pl dt r, s.cameraOf port.val vc.val = some c → s.noteCorrected c co = s1 → s1.strmSt c ≠ 4 →
      dt.toNat = bits (s1.strmCfg c) 10 6 → (s1.stream c).frame = some r →
      exec (.csi2Packet port (.long vc dt co crcOk pl)) s = .next (
        if s1.regF (oStrm c 4) 0 16 < dtPixels dt.toNat pl.length ∨ s1.regF (oStrm c 4) 16 16 ≤ r.lines.length then s1.quarantine c 9
        else
          let s2 := s1.modStream c fun x => { x with
            frame := some { r with lines := r.lines ++ [pl], sums := r.sums ++ [payloadSums pl], back := none } }
          if crcOk = true ∧ s1.regF (oStrm c 4) 0 16 ≤ dtPixels dt.toNat pl.length then s2 else s2.errFrame c)) ∧
    (s.cameraOf port.val vc.val = some c → exec (.csi2Packet port (.badHeader vc)) s = .next (s.errFrame c) ∧
      ∀ co ph, exec (.csi2FrameStart port ⟨vc, co⟩ ph) s =
        .next (((s.badEnd c).frameStart c (s.capture ph.val) true).noteCorrected c co)) ∧
    (∀ co s1 r, s.cameraOf port.val vc.val = some c → s.noteCorrected c co = s1 → (s1.stream c).frame = some r →
      exec (.csi2FrameEnd port ⟨vc, co⟩) s = .next (
        if bit1 (s1.strmCfg c) 6 = true then match s1.cmacOk c r with
          | none => s1.quarantine c 11
          | some n =>
            let s2 := s1.modStream c fun x => { x with fcnt := some n, frame := some { r with sensCnt := n } }
            if s1.frameBad c r = true then s2.badEnd c else s2.goodEnd c true
        else if s1.frameBad c r = true then s1.badEnd c
        else s1.goodEnd c false)) ∧
    ((s.reg (0x03000000 + 4 * port.val)).getLsbD 3 = false →
      exec (.deskewCalibrationSequence port) s = .next (s.setRegF (0x03000000 + 4 * port.val) 2 1 1))

/-- Point streams, message streams and delivery (R311 to R316, R319, R321, R324, R327): a damaged frame is discarded and counted, a frame that
is not MACsec is sorted in the clear; the message at HEAD of an AUX context's ring is one whole frame; a stream without frame starts for GAP or without its link falls to
ABSENT, a quarantined one after its hold; the oldest complete frame is delivered; an instance starts once every bound stream has a frame
the job has not taken. -/
def Obligations.StreamEvents : Prop :=
  ∀ (s : State) (m : Fin 8) (x : Fin 96) (c : Nat), x.val = c →
    (∀ ph fr ok, 14 ≤ fr.length → ok = false ∨ 9216 < fr.length + 4 →
      exec (.ethFrameReceive m ok ph fr) s = .next (s.count (0x03000080 + 4 * m.val) 1)) ∧
    (∀ ph fr, 14 ≤ fr.length → fr.length + 4 ≤ 9216 → fldBE fr 12 2 ≠ 0x88E5 →
      exec (.ethFrameReceive m true ph fr) s = .next (s.ethClear m ph.val none fr)) ∧
    (∀ (p : Fin 4) (d : Fin 256) o r n u ph, s.auxOn c = true → (s.stream c).owner = some o → (s.part o).port = p → s.auxRing c = d.val →
      s.ring p d.val = some r → r.kind = 1 → r.part = o.val → r.agree = true → s.atHead p r = .cmd n → u = s.consume p d.val n →
      exec (.auxMessage x p d ph) s = .next (u.auxFrame c (s.capture ph.val) (Config.auxEntry (s.packetAt p r n).payload))) ∧
    (∀ t m s1, s.frameStart c t true = s1 → s1.strmSt c ≠ 4 →
      s.auxFrame c t m = if 240 < m.1.length then s1.quarantine c 9 else (s1.modStream c fun y => { y with
        frame := y.frame.map fun (r : FrameRun) => { r with lines := [m.1], sens := some m.2 } }).goodEnd c false) ∧
    (∀ t, s.strmOn c = true → (s.stream c).lastStart = some t → s.strmKind c ≠ 4 → s.strmSt c ≠ 4 →
      t + s.regF (oStrm c 0xC) 0 16 * 10000 ≤ s.now → exec (.frameStartGap x) s = .next (s.absent c 4)) ∧
    (exec (.ethLinkLoss m) s =
      .next (((s.pointsOn m.val).filter fun c => decide (s.strmSt c ≠ 4)).foldl (fun s c => s.absent c 3) s)) ∧
    (s.strmOn c = true → s.strmSt c = 4 → s.regF (oStrm c 0xC) 24 8 ≠ 0 →
      (s.stream c).quarAt + s.regF (oStrm c 0xC) 24 8 * 10000000 ≤ s.now → exec (.quarHoldExpire x) s = .next (s.absent c 12)) ∧
    (∀ d rest, (s.stream c).done = d :: rest → s.strmOn c = true → s.strmSt c = 2 ∨ s.strmSt c = 3 →
      ∃ q, q = (s.modStream c fun x => { x with done := rest }).readLines c d.run ∧
        exec (.frameDeliver x) s = .next (q.2.deliverFrame c { d with run := q.1 } (s.frameTensor c (s.jitterOf c d.run) d.run))) ∧
    (∀ j y got, s.job j = some y → y.streams ≠ [] → y.st = .waiting → y.golden = none → s.fcol.safe = false →
      (∀ c ∈ y.streams, (s.frameFor j c).isSome = true) →
      got = (y.streams.filterMap fun c => (s.frameFor j c).map fun f => (c, f)) →
      ∃ s2, exec (.jobInstanceStart j) s = .next (s2.setJob j (y.begin s.now (got.any fun e => decide (s.strmKind e.1 = 4)) (got.map (·.2)))) ∧
        s2 = got.zipIdx.foldl (fun s (e, i) => s.putBlock (y.pick + 256 * i) (padTo 256 (leBytes 4 e.2.slot))
          (crcWord (padTo 256 (leBytes 4 e.2.slot)))) (got.foldl (fun s e => s.takeFrame j y.inst e.1 e.2) s))

/-- The Dealer's records (R359, R361, R363 to R370): the next record in order starts on a free lane, a dropped one without it; a decoded
record joins those that are done, a late or corrupt one without payload; the record whose turn it is reaches its ready context and its
status is counted. -/
def Obligations.DealerEvents : Prop :=
  ∀ (s : State) (l : Fin 8) (g : DealerCfg), s.dealer.cfg = some g →
    (∀ e off b, s.dealer.run = true → tfind s.dealer.lanes l.val = none → g.past s.dealer.startEpoch = false →
      s.dealer.startEpoch * s.dealer.nsamp + s.dealer.startPos < s.dealer.epoch * s.dealer.nsamp + s.dealer.pos + 64 →
      s.imgEntry g s.dealer.startEpoch s.dealer.startPos = e → s.recOff g e.1 s.dealer.startRec = off → s.recBytes g off = b →
      exec (.dealerRecordStart l) s = .next (
        if entryOk e && s.recOk g e.1 off b && g.dropout s.dealer.startEpoch (fld b 8 8) (fld b 5 1) then
          (s.startNext g).modDealer fun x => { x with done := x.done ++ [recNone s.dealer.startEpoch s.dealer.startPos s.dealer.startRec .dropout 0 b] }
        else (s.startNext g).modDealer fun x => { x with lanes := tput x.lanes l.val ⟨s.dealer.startEpoch, s.dealer.startPos, s.dealer.startRec, off, false⟩ })) ∧
    (∀ r us e b s1, tfind s.dealer.lanes l.val = some r → s.imgEntry g r.epoch r.pos = e → s.recBytes g r.off = b →
      (∀ t, s.dealer.budget g = some t → us ≤ t) →
      s1 = (s.reportRead { Who.unit 75 with part := g.part.val } (g.base + r.off) b.length).modDealer
        (fun x => { x with lanes := tdel x.lanes l.val }) →
      ((entryOk e && s.recOk g e.1 r.off b) = false ∨ decodeRec b = none →
        exec (.dealerRecordDone l us) s = .next (s1.modDealer fun x => { x with done := x.done ++ [recNone r.epoch r.pos r.num .corrupt (min 255 (us / 1000)) b] })) ∧
      (∀ pl, (entryOk e && s.recOk g e.1 r.off b) = true → decodeRec b = some pl →
        exec (.dealerRecordDone l us) s = .next ((s1.modDealer fun x => { x with times := (us :: x.times).take 63 }).modDealer fun x => { x with done := x.done ++ [{ recNone r.epoch r.pos r.num .ok (min 255 (us / 1000)) b with payload := pl, sums := payloadSums pl, icheck := r.icheck }] }))) ∧
    (∀ r c, s.dealer.run = true → r.status = .ok → g.ctx r.chan = some c → s.dealerReady c = true →
      s.dealer.done.find? (fun r => decide (r.epoch = s.dealer.epoch ∧ r.pos = s.dealer.pos ∧ r.num = s.dealer.nextRec)) = some r →
      exec .dealerDeliver s = .next ((((((s.modDealer fun x => { x with done := x.done.filter fun q => !decide (q.epoch = s.dealer.epoch ∧ q.pos = s.dealer.pos ∧ q.num = s.dealer.nextRec) }).logRec g r).feedFrame g c r).count
          r.status.reg 1).modDealer fun x => { x with delivered := x.delivered + 1 }).deliverNext g))

/-- A decode budget that elapses (R366): the record is abandoned with status SKIPPED, its lane is free at once, its time does not enter the
median, and every other record, lane and everything beside the Dealer stays. -/
def Obligations.DecodeBudget : Prop :=
  ∀ (s : State) (l : Fin 8) (g : DealerCfg) (r : LaneRun) (t : Nat), s.dealer.cfg = some g → tfind s.dealer.lanes l.val = some r →
    s.dealer.budget g = some t →
    ∃ q d, exec (.dealerBudgetExpire l) s = .next { s with dealer := d } ∧ q.status = .skipped ∧ q.epoch = r.epoch ∧ q.pos = r.pos ∧
      q.num = r.num ∧ q.payload = [] ∧ d.done = s.dealer.done ++ [q] ∧ tfind d.lanes l.val = none ∧
      (∀ k, k ≠ l.val → tfind d.lanes k = tfind s.dealer.lanes k) ∧ d.times = s.dealer.times ∧ d.delivered = s.dealer.delivered ∧
      d.missed = s.dealer.missed ∧ d.cfg = some g

/-- TIME_INC (R377): State.reset and POR_N give device time 0 and the increment 0x0000001A_0AAAAAAB; the increments from 25.0 ns to 27.0 ns are
accepted, and any other completes with ST_ARG and no side effect. -/
def Obligations.TimeIncrement : Prop :=
  (State.reset.now = 0 ∧ State.reset.time.frac = 0 ∧ State.reset.time.inc = 0x0000001A0AAAAAAB#64) ∧
  (∀ s : State, Completes .porNAssert s fun t => t.now = 0 ∧ t.time.frac = 0 ∧ t.time.inc = 0x0000001A0AAAAAAB#64) ∧
  (∀ (s s0 : State) (p : Fin 4) (d : Fin 256) (t : Taken) (v : Nat), Passes s p d.val 0x0059 .mgmt t s0 → s0.mgmtCmd p t = true → fld t.payload 0 8 = v →
    (25 * 2 ^ 32 ≤ v ∧ v ≤ 27 * 2 ^ 32 → exec (.timeIncSet p d) s = .next (after p d.val t
        ⟨.ok, [], (s0.writeReg (oTime 0x10) (BitVec.ofNat 32 v)).writeReg (oTime 0x14) (BitVec.ofNat 32 (v / 2 ^ 32))⟩)) ∧
    (¬(25 * 2 ^ 32 ≤ v ∧ v ≤ 27 * 2 ^ 32) → exec (.timeIncSet p d) s = .next (after p d.val t ⟨.arg, [], s0⟩)))

/-- Device time (R376, R379, R380, R382, R384, R391, R393, R395, R397): a pending increment takes effect, a pending step moves the time and enters
the sum of steps, whole seconds leave the nanoseconds, a due launch goes before a forwarded frame and under transmit MACsec where the MAC
protects what it sends, a due edge starts its pulse of WIDTH. -/
def Obligations.DeviceTime : Prop :=
  ∀ (s : State) (m : Fin 8) (ph : Fin 32),
    (∀ v, s.time.incPend = some v → Completes .timeIncApply s fun t => t.time.inc = v ∧ t.time.incPend = none ∧ t.now = s.now) ∧
    (∀ d, s.time.stepPend = some d → 0 ≤ (s.now : Int) + d → (s.now : Int) + d < 2 ^ 48 * 1000000000 →
      Completes .timeStepApply s fun t => (t.now : Int) = s.now + d ∧ t.time.stepSum = s.time.stepSum + d ∧ t.time.stepPend = none ∧
        t.mem = s.mem) ∧
    (∀ sec : Nat, s.time.sec = BitVec.ofNat 48 sec → sec + s.time.ns / 1000000000 < 2 ^ 48 →
      Completes .secondsRollover s fun t => t.now = s.now ∧ t.time.ns < 1000000000) ∧
    (∀ q rest, tfind s.time.launch m.val = some (q :: rest) → q.due (s.capture ph.val) = true → q.event = false →
      Completes (.launchTransmit ⟨m, ph⟩) s fun t => tfind t.time.launch m.val = some rest ∧ t.mem = s.mem ∧ t.regs = s.regs ∧
        t.time.sent = s.time.sent ++ [(m, if Config.macTxSecured m.val = true
          then Config.gcmSeal m.val (BitVec.ofNat 32 (s.time.txPn.getD m.val 1)) q.frame else q.frame)]) ∧
    (∀ p, (tfind s.time.launch m.val).getD [] = [] → s.time.fwd.find? (fun p => decide (p.mac = m)) = some p →
      Completes (.launchTransmit ⟨m, ph⟩) s fun t => t.time.fwd = s.time.fwd.erase p ∧ t.mem = s.mem ∧ t.regs = s.regs ∧
        (Config.macTxSecured m.val = false →
          t.time.sent = s.time.sent ++ [(m, p.corrected (s.egress m.val (s.capture ph.val)))])) ∧
    (∀ e, (s.trig m.val).active = true → s.edge m.val (s.trig m.val).next = e → e ≤ s.capture ph.val → s.power.s1 = false →
      exec (.trigPulse ⟨m, ph⟩) s = .next (s.trigAfter m.val 1 (some (s.capture ph.val + (s.reg (oTrig m.val 0x14)).toNat))))

/-- Doorbells, rings and timers (R461 to R470, R475 to R477): a submission doorbell moves TAIL, closes a full ring, and under DROP takes what is
packed before abandoning the rest; a completion doorbell moves HEAD of a CQ, or clears an SQ's flags; the packet at HEAD is taken when its
completion has room; a CQ left unread sets READ_TMO once; a command at its bound completes with ST_TIMEOUT. -/
def Obligations.RingEvents : Prop :=
  ∀ (s : State) (p : Fin 4) (d : Fin 256) (v : Word) (r : Ring) (s1 : State), s.ring p d.val = some r →
    (s1 = s.modPort p (fun x => { x with sqDb := tdel x.sqDb d.val }) → tfind (s.port p).sqDb d.val = some v → s.takes = true → r.agree = true →
      (v.getLsbD 31 = false → exec (.cpSqDb p d) s = .next (s1.sqDoorbell p d.val v)) ∧
      (v.getLsbD 31 = true → exec (.cpSqDbDrop p d) s = .next (State.takeAll (r.cap / 16 + 1) (s1.sqDoorbell p d.val v) p d.val))) ∧
    (s1 = s.modPort p (fun x => { x with cqDb := tdel x.cqDb d.val }) → tfind (s.port p).cqDb d.val = some v → s.takes = true →
      (r.kind ≠ 1 → r.agree = true → exec (.cpCqDb p d) s = .next (s1.cqDoorbell p d.val v)) ∧
      (r.kind = 1 → v.getLsbD 30 = true → exec (.cpCqDbSqFlagClear p d) s =
        .next (s1.modRing p d.val fun r => { r with reset := false, overrun := false }))) ∧
    (s.takes = true → r.kind = 1 → r.agree = true → exec (.sqPacketTake p d) s = .next ((s.flushUnknown p d.val).takeOne p d.val)) ∧
    (r.kind ≠ 1 → 0 < r.used → r.tmoDone = false →
      exec (.readTimeout p d) s = .next ((s.setRing p d.val { r with tmoDone := true }).irq p irqReadTmo)) ∧
    (∀ t, r.taken.head? = some t → s.fcol.safe = false → s.dbg.halted.contains 4 = false → t.opc ≠ 0x001B →
      exec (.commandTimeout p d) s = .next (s.complete p d.val t .timeout []))

/-- Decks (R499, R503, R504, R506, R508, R511, R518, R615): the loaded bank is active from its switch time, Rounds and Cards open and close at
their times, a work Card without a kernel starts its best candidate or counts as late, a kernel over KCAP is stopped by L1, a golden run
that ended is judged. -/
def Obligations.DeckEvents : Prop :=
  ∀ (s : State) (r : Fin 4) (f : Fin 4),
    (∀ b t, (s.part r).switchTo = some (b, t) → s.sys.st = .service → t ≤ s.deckTime →
      exec (.deckBankActivate r) s = .next ((((s.closeDue r).modPart r fun y => { y with active := some b, t0 := t, round := 0, cut := none, switchTo := none, paused := false }).endBreak r).takeBudget r)) ∧
    (∀ b, (s.part r).activeBank = some b → s.sys.st = .service → (s.part r).roundStart b + b.round * 1000 ≤ s.deckTime →
      (∀ k t, (s.part r).switchTo = some (k, t) → (s.part r).roundStart b + b.round * 1000 < t) →
      ∃ s1, s1 = (s.closeDue r).modPart r (fun y => { y with round := y.round + 1, paused := false }) ∧ exec (.roundStart r) s =
        .next ((((s1.frondsOf r).foldl (fun s f => s.countWrap (oDeck f 4)) s1).endBreak r).takeBudget r)) ∧
    (∀ x b c i, s.deckOf f = some (r, x, b) → (s.frond f).card = none → s.sys.st = .service → x.paused = false →
      x.roundStart b ≤ s.deckTime → s.deckTime < x.roundStart b + b.round * 1000 → x.cardAt b f s.deckTime = some (c, i) →
      exec (.cardOpen f) s = .next (s.openCard f r x b c i)) ∧
    ((s.frond f).card.isSome = true → (s.frond f).cardEnd ≤ s.deckTime → exec (.cardClose f) s = .next (s.closeCard f)) ∧
    (∀ cd o, s.cardOn f = some cd → s.ownerOf f = some o → (s.frond f).cardUse = .work → (s.frond f).switching = none →
      s.sys.st = .service → s.deckTime < (s.frond f).cardEnd → (s.frond f).kernel = none →
      (∀ j x, pickJob (s.candidates f o cd.1) = some (j, x) → (s.frond f).awake = true → (s.frond f).holds = [] → s.mapPending f = false →
        exec (.kernelSwitch f) s = .next (s.beginSwitch f cd.1 j x)) ∧
      (pickJob (s.candidates f o cd.1) = none → exec (.kernelSwitch f) s = .next (s.startLate f 0))) ∧
    (∀ k, (s.frond f).kernel = some k → exec (.kcapExpire f) s = .next ((s.raise { (s.frondWho f 0xFF).ev (srcOf (16 * f.val) 4) 19 0 (s.fclkNs f k.kcap / 1000) with stepNo := 1 }).l1 f 4)) ∧
    (∀ j x s1, s.goldenJob f = some (j, x) → x.st = .finished →
      s1 = (((s.dropGolden j).setReg (oDeck f 0x18) 0).modFrond f fun y => { y with cardUse := .none }) →
      (s.goldenPasses x = true → exec (.goldenRunEnd f) s = .next (({ s1 with safety := { s1.safety with passAt := tput s1.safety.passAt (32 * f.val + 31) s.deckTime } } : State).endHold f 1 0)) ∧
      (s.goldenPasses x = false → exec (.goldenRunEnd f) s = .next (s1.goldenFail f)))

/-- Self-test (R512, R519, R621, R622, R626 to R630, R660, R700, R719): a segment starts when it fits in its Card and is judged at its end, an
overdue rotation is a latent condition, the checks and comparators are tested, a Widow's difference is a fault, the test pack is measured
once after SERVICE. -/
def Obligations.SelftestEvents : Prop :=
  ∀ (s : State) (f : Fin 4),
    (∀ c ns s1, (s.frond f).kernel.isSome = false → (s.startLate f 0).nextSegment f = some (c, ns, s1) → s.sys.st = .service →
      ((s.startLate f 0).frond f).cardUse = .selftest → ((s.startLate f 0).frond f).kernel = none →
      ((s.startLate f 0).frond f).stRun = none → ((s.startLate f 0).frond f).awake = true →
      (s.startLate f 0).deckTime + ns ≤ ((s.startLate f 0).frond f).cardEnd →
      exec (.selftestSegmentStart f) s = .next (s1.modFrond f fun y => { y with stRun := some c })) ∧
    (∀ c i s1, (s.frond f).stRun = some c → c / 3 = i → s1 = s.modFrond f (fun x => { x with stRun := none }) →
      (c % 3 = 0 → i ≠ 0 → exec (.selftestSegmentEnd f true) s = .next ((s1.checkPassed f i).checkAdvance f i) ∧
        exec (.selftestSegmentEnd f false) s = .next ((s1.checkFailed f i).checkAdvance f i)) ∧
      (c % 3 = 1 → exec (.selftestSegmentEnd f true) s = .next (s1.patternAdvance f i) ∧
        exec (.selftestSegmentEnd f false) s = .next ((s1.patternFailed f (packSeg (s.packOf f) i)).patternAdvance f i))) ∧
    (∀ t, s.safety.rotStart.getD f.val none = some t → t + 1000000000 ≤ s.deckTime → s.safety.overdue.getD f.val false = false →
      s.fcol.safe = false → exec (.checkRotationOverdue f) s = .next ((({ s with safety := { s.safety with overdue := s.safety.overdue.set f.val true } } : State).latent f (16 * f.val + 15) 0).raise
          { src := srcOf (16 * f.val + 15) 6, cause := 15, part := (s.ownerOf f).elim 0xFF (·.val) })) ∧
    (∀ t, s.safety.patStart.getD f.val none = some t → t + fld (s.packOf f) 16 4 * 1000000 ≤ s.deckTime →
      s.safety.patLate.getD f.val false = false → s.fcol.safe = false →
      exec (.patternRotationOverdue f) s = .next (({ s with safety := { s.safety with patLate := s.safety.patLate.set f.val true } } :
        State).latent f (16 * f.val + 15) 0)) ∧
    (∀ (l : List (Fin 128)) bad s0, s.sys.st = .service → l.map (·.val) = bad →
      s0 = (s.thallusWidow .management (bad.contains 112)).thallusWidow .safety (bad.contains 113) →
      exec (.thallusCheckerTest l [] false) s = .next (bad.foldl State.checkerMissed
        ((testedUnits.filter fun u => !bad.contains u).foldl State.checkerPassed s0))) ∧
    (∀ u m, s.sys.st = .service → s.widowHalted u = false → exec (.comparatorInjectionTest u m) s = .next (s.comparatorTest u m)) ∧
    (s.fcol.safe = false → exec (.widowDifference .management) s = .next (s.discardHeld.raise { src := srcOf 112 5, cause := 17, stepNo := 6 }) ∧
      exec (.widowDifference .safety) s = .next (s.discardHeld.raise { src := srcOf 113 5, cause := 17, stepNo := 6 }) ∧
      ((s.frondWho f 0xFF).job = 0 → exec (.widowDifference (.stipe f)) s =
        .next ((s.raise { (s.frondWho f 0xFF).ev (srcOf (16 * f.val) 5) 17 0 0 with stepNo := 2 }).l2 f))) ∧
    (s.sys.st = .service → s.sys.packRead = false → s.nor.pack.isEmpty = false →
      (s.packStands s.nor.pack = true →
        exec .testPackRead s = .next (({ s with sys := { s.sys with packRead := true } } : State).extendMb 3 s.nor.pack)) ∧
      (s.packStands s.nor.pack = false →
        exec .testPackRead s = .next (({ s with sys := { s.sys with packRead := true }, nor := { s.nor with pack := [] } } : State).raise
          { src := srcOf 116 1, cause := 30, sub := 0x1C00 })))

/-- Power states (R520 to R522, R665, R666, R668 to R671, R676): a Frond leaves an A-state only through waking, which makes it A0; it enters the
chosen state where no work is near; S1 is entered when nothing forbids it, leaves every Frond dark and the Mat zeroed, and any wake cause
ends it. -/
def Obligations.PowerStates : Prop :=
  ∀ (s : State) (f : Fin 4),
    (s.sys.st = .service → (s.frond f).astate ≠ 0 → (s.frond f).retired = false →
      exec (.frondWakeStart f) s = .next (s.modFrond f fun y => { y with waking := true })) ∧
    (∀ o x b, s.deckOf f = some (o, x, b) → s.sys.st = .service → (s.frond f).astate < s.chosen x f → (s.frond f).waking = false →
      (s.frond f).retired = false → (s.frond f).zfill = false → (s.frond f).restore = false → s.idleNow f = true →
      s.workSoon f x b (s.wakeNs f (s.chosen x f)) = false →
      exec (.frondAstateEntry f) s = .next (
        (if s.chosen x f = 1 then s.modFrond f fun y => { y with astate := 1 } else s.frondDark f (s.chosen x f)).setRail)) ∧
    (∀ us, (s.frond f).waking = true → s.sys.st = .service → (s.frond f).astate = 1 →
      exec (.frondWakeDone f us) s = .next ((((s.modFrond f fun x => { x with astate := 0, waking := false, zfill := false, restore := false }).setOp f).setRail).fullAwake)) ∧
    (s.s1Ready = true → Completes .s1Entry s fun t => t.power.s1 = true ∧ t.power.locked = false ∧
      (∀ g : Fin 4, (t.frond g).card = none ∧ (t.frond g).stRun = none)) ∧
    (∀ c, s.power.s1 = true → exec (.s1Wake c) s = .next s.wakeS1)

/-- Flits (R554 to R560): an active link sends a NAK it owes, else the next flit of a replay, else a flit of the first lane with payload and
credit, else IDLE; of the 256 bytes that the active lanes bring in lane order an intact flit in order is accepted, one out of order or damaged is discarded, a NAK or a timeout replays. -/
def Obligations.HezorFlits : Prop :=
  ∀ (s : State) (l : Fin 3) (x : Link), s.link l = x → x.st = .active → x.retrain = false → s.fcol.safe = false →
    (x.nak = .owed → exec (.flitTransmit l) s = .next (s.setLink l (x.sendBare 2))) ∧
    (x.nak ≠ .owed → 0 < x.resend → x.sendReplay.2 = false → exec (.flitTransmit l) s = .next (s.setLink l x.sendReplay.1)) ∧
    (x.nak ≠ .owed → 0 < x.resend → x.sendReplay.2 = true →
      exec (.flitTransmit l) s = .next ((s.setLink l x.sendReplay.1).fastRetrain l)) ∧
    (∀ v, x.nak ≠ .owed → x.resend = 0 → x.lane = some v → x.replay.length < 256 →
      exec (.flitTransmit l) s = .next (s.setLink l (x.sendLane v))) ∧
    (x.nak ≠ .owed → x.resend = 0 → x.lane = none → exec (.flitTransmit l) s = .next (s.setLink l (x.sendBare 0))) ∧
    (∀ on fl s1, unstripe x.lanes x.rxPos 256 on = fl → s1 = s.modLink l (fun y => { y with rxPos := y.rxPos + 256 }) →
      (crc16 (fl.take 254) ≠ fld fl 254 2 ∨ 2 < fld fl 0 1 → exec (.flitReceive l on) s = .next (s1.discardFlit l)) ∧
      (crc16 (fl.take 254) = fld fl 254 2 → fld fl 0 1 = 1 → fld fl 2 2 = x.rxSeq →
        exec (.flitReceive l on) s = .next ((s1.modLink l fun y => y.heard fl).modLink l fun y => y.accept fl))) ∧
    (∀ e t, x.replay = e :: t → exec (.replayTimeout l) s =
      .next ((s.modLink l fun y => { y with tags := y.tags.filter fun t => decide (t.2 ≠ e.seq) }).startReplay l))

/-- Training and loss of a link (R560 to R563, R732): DOWN to DETECT to TRAIN to NEGOTIATE, a failed attempt counted, HELLO to ACTIVE at the highest common
version with at least 7 lanes at both ends, a fast retrain on lost lock that goes on when its lanes came back, L4 of the link. -/
def Obligations.HezorLinks : Prop :=
  ∀ (s : State) (l : Fin 3) (x : Link), s.link l = x →
    (∀ m, s.sys.por = false → s.fcol.safe = false →
      (x.st = .down → exec (.linkDetect ⟨l, m⟩) s = .next (s.modLink l fun y => { y with st := .detect })) ∧
      (x.st = .detect → exec (.linkDetect ⟨l, m⟩) s = .next (s.modLink l fun y => { y with st := .train, lanes := m }))) ∧
    (∀ m, x.st = .train → exec (.linkTrainDone l m) s =
      .next (s.modLink l fun y => { y with st := .negotiate, lanes := y.lanes &&& m, sentHello := some (s.ownHello (y.lanes &&& m)) })) ∧
    (x.st ≠ .down → x.st ≠ .active → exec (.linkTrainTimeout l) s =
      .next ((s.setLink l { Link.reset with peer := x.peer }).count (oHzl (0x1000 * l.val + 0x10)) 1)) ∧
    (∀ (h : LinkHello) (v : Nat), x.st = .negotiate → v = min h.maxVer.toNat 0x11 → max h.minVer.toNat 0x10 ≤ v →
      h.module.toNat = (s.sys.modId.toNat + l.val + 1) % 4 → 7 ≤ laneCount x.lanes → 7 ≤ laneCount h.lanes →
      exec (.hezorHello l h) s = .next (s.setLink l { Link.reset with st := .active, lanes := x.lanes, verMaj := v / 16, verMin := v % 16, peer := h.module, noReplay := h.noReplay || s.moduleExact, credits := [8, 16, 128, 64] })) ∧
    (x.st = .active → x.retrain = false → x.noReplay = false → exec (.linkLockLoss l) s =
      .next ((s.modLink l fun y => { y with retrain := true }).raise { src := srcOf (98 + l.val) 0, cause := 0, sub := 0xFF })) ∧
    (∀ m, x.st = .active → x.retrain = true → m &&& x.lanes = x.lanes → exec (.fastRetrainDone l m true) s =
      .next (s.setLink l { x with retrain := false, lanes := x.lanes, replay := x.replay.map fun (e : SentFlit) => { e with sends := 1 }, resend := x.replay.length, txPos := 0, rxPos := 0 })) ∧
    exec (.hezorLinkReset l) s = .next (s.l4Link l)

/-- Packets (R569, R570, R575 to R578): a DATA block of a known instance lands in its slot, one outside it spoils the slot; CLOSE verifies the
slot; a COMMIT is kept and settles the instance, a VOID voids it; a matching JOIN makes its sender a member and is answered, LEAVE takes
it out and voids what awaited it. -/
def Obligations.HezorPackets : Prop :=
  ∀ (s : State) (l : Fin 3) (v : Nat) (p rest : List Byte) (g : Group) (s1 : State) (e i k : Nat), fld p 1 1 = e → fld p 8 4 = i →
    fld p 4 4 = k →
    (∀ blk src, (s.link l).nextPkt 1 = some (v, p, rest) → fld p 12 1 = src → fld p 2 2 = blk →
      (s.tookPkt l v rest).pktTrick k e i src = some (g, s1) →
      exec (.dataPacket l) s = .next (if blk < (s1.tentry g e).slice / 256 then
        s1.landBlock l g e i src blk (slice p 16 256) (BitVec.ofNat 32 (fld p 272 4))
        else s1.modTrick g.key e i fun u => u.modSlot src fun q => { q with bad := true })) ∧
    ((s.link l).nextPkt 2 = some (v, p, rest) → (s.tookPkt l v rest).pktTrick k e i (fld p 12 1) = some (g, s1) →
      exec (.closePacket l) s = .next (s1.verifySlot g e i (fld p 12 1) (fld p 2 2) (fld p 13 1) (BitVec.ofNat 64 (fld p 16 8)))) ∧
    (∀ src, (s.link l).nextPkt 3 = some (v, p, rest) → fld p 3 1 = src → (s.tookPkt l v rest).pktTrick k e i src = some (g, s1) →
      (fld p 2 1 = 0 → exec (.commitPacket l) s =
        .next ((s1.modTrick g.key e i fun u => u.modSlot src fun q => { q with commit := some true }).settle g.key e i)) ∧
      (fld p 2 1 ≠ 0 → exec (.commitPacket l) s =
        .next ((s1.modTrick g.key e i fun u => u.modSlot src fun q => { q with commit := some false }).voidTrick g.key e i))) ∧
    ((s.link l).nextPkt 4 = some (v, p, rest) → e = 1 → s1 = s.tookPkt l v rest → s1.groupOf (BitVec.ofNat 32 k) = some g →
      s1.joins g p = true →
      exec (.gctlJoin l) s = .next { s1 with groups := s1.groups.map fun (h : Group) => if h.key = g.key then { h with joined := h.joined ||| BitVec.ofNat 4 (2 ^ fld p 3 1) } else h }) ∧
    ((s.link l).nextPkt 4 = some (v, p, rest) → e = 2 → s1 = { s.tookPkt l v rest with groups := (s.tookPkt l v rest).groups.map fun (h : Group) => if h.key = BitVec.ofNat 32 k then { h with joined := h.joined &&& ~~~(BitVec.ofNat 4 (2 ^ fld p 3 1)) } else h } →
      exec (.gctlLeave l) s = .next ((s1.tricks.filter fun t => decide (t.key = BitVec.ofNat 32 k) && t.done.isNone && t.slots.any fun q =>
        decide (q.src = fld p 3 1) && !q.clean).foldl (fun s t => s.voidTrick t.key t.entry t.inst) s1))

/-- The end of an instance (R574, R576, R602, R603, R613, R617, R618): the own contribution is committed when the job's ledger is empty and else
voided; a finished instance with nothing outstanding is sealed when it is clean and else withheld; Twin digests that agree leave no
trace; a result not sealed at its deadline is reported as missing once. -/
def Obligations.SealingEvents : Prop :=
  ∀ (s : State) (j : Nat),
    (∀ key e i g t q x, s.groupOf key = some g → s.trick key e i = some t → t.slot s.sys.modId.toNat = some q → q.closed ≠ none →
      q.commit = none → t.job.bind s.job = some x →
      (x.ledger = [] → exec (.trickLedgerExamine key e i) s = .next ((s.sendVerdict g t false).settle key e i)) ∧
      (x.ledger ≠ [] → exec (.trickLedgerExamine key e i) s = .next ((s.sendVerdict g t true).voidTrick key e i))) ∧
    (∀ key e i, exec (.trickTimeout key e i) s = .next (s.voidTrick key e i)) ∧
    (∀ y s1 x, s.job j = some y → y.st = .finished → y.golden = none → s.fcol.safe = false → s.voidOpenOf j = s1 → s1.job j = some x →
      s1.sealReady x = true →
      (s1.clean x = true → exec (.sealDecision j) s = .next (s1.sealJob j x)) ∧
      (s1.clean x = false → exec (.sealDecision j) s = .next (s1.endInstance j St.withheld.code false false))) ∧
    (∀ x k a, s.job j = some x → x.digestB = [(k, a)] → tfind x.digestA k = some a → exec (.twinCompare j) s =
      .next (s.modJob j fun y => { y with digestA := tdel y.digestA k, digestB := tdel y.digestB k }).sweepRetired) ∧
    (∀ a, s.ages.find? (fun a => decide (a.job = j) && a.armed) = some a → a.stream = true → a.deadline ≤ s.deckNow → s.fcol.safe = false →
      exec (.ageDeadline j) s = .next (({ s with ages := s.ages.map fun (b : AgeEntry) => if b.job = j then { b with armed := false } else b } :
        State).missing a))

/-- The Fault Collector's events (R634 to R657): a present source whose pair is whole reacts by the kind of its event, a broken pair takes its
unit out, a self-fault is taken once, a pending escalation acts at its deadline, the ERR_N pulse ends at its end, the power-on time is
saved. -/
def Obligations.FaultEvents : Prop :=
  ∀ (s : State),
    (∀ (e : FaultInfo) u k, e.source.toNat = 8 * u + k → k < 8 → srcPresent (8 * u + k) = true → s.fcolBit 0x400 (8 * u + k) = false →
      s.fcol.safe = false →
      (k = 1 ∨ k = 2 → ¬(72 ≤ u ∧ u ≤ 75) → (e.cause.toNat = 8 → 64 ≤ u) → exec (.faultSourceEvent e) s =
        .next (s.checkFail (s.eventWho u e.job) u k e.cause.toNat e.subunit.toNat e.syndrome.toNat).sweepRetired) ∧
      (∀ f : Fin 4, k = 1 ∨ k = 2 → e.cause.toNat = 8 → u / 16 = f.val → exec (.faultSourceEvent e) s =
        .next ((s.modFrond f fun x => { x with overlap := (x.overlap ++ [u % 16]).dedup }).checkFail (s.eventWho u e.job) u k
          e.cause.toNat e.subunit.toNat e.syndrome.toNat).sweepRetired) ∧
      (k = 1 ∨ k = 2 → 72 ≤ u → u ≤ 75 → ∃ w, w.job = (s.eventWho u e.job).job ∧ exec (.faultSourceEvent e) s =
        .next ((s.markIcheck u k e.subunit.toNat).checkFail w u k e.cause.toNat e.subunit.toNat e.syndrome.toNat).sweepRetired) ∧
      (k = 0 ∨ k = 6 ∨ k = 7 → exec (.faultSourceEvent e) s =
        .next (s.raise { (s.eventWho u e.job).ev (8 * u + k) e.cause.toNat e.subunit.toNat e.syndrome.toNat with stepNo := if classOf (8 * u + k) = 2 then 6 else 0xFF }).sweepRetired)) ∧
    (∀ (src : BitVec 10) n, src.toNat = n → srcPresent n = true → s.fcolBit 0x400 n = false → s.fcol.safe = false →
      s.fcol.refound.contains n = false →
      exec (.brokenPair src) s = .next (((({ s with fcol := { s.fcol with refound := s.fcol.refound ++ [n] } } : State).raise
        { src := 918, cause := 21, sub := n, stepNo := brokenStep (n / 8) }).setFcolBit 0x400 n true).brokenReset (n / 8)).sweepRetired) ∧
    (s.fcol.self = false → exec .collectorSelfFault s = .next s.selfFault) ∧
    (∀ e, earliest s.fcol.pending = some e → e.2.1 ≤ s.deckNow.toNat → exec .escalationTimeout s =
      .next (({ s with fcol := { s.fcol with pending := s.fcol.pending.filter fun x => decide (x.1 ≠ e.1) } } : State).escalateF e.2.2)) ∧
    (s.fcol.pulse = true → s.fcol.pulseEnd ≤ s.deckNow.toNat →
      exec .errPulseEnd s = .next { s with fcol := { s.fcol with pulse := false } }) ∧
    Completes .powerOnTimeSave s fun t => t.nor.powerOn = s.power.powerOn ∧ t.mem = s.mem ∧ t.fcol = s.fcol

/-- Power, temperature and clocks (R593, R664, R674 to R682, R739, R744): a power sample moves the budget and steps the points down when it is
spent; the thermal limit moves one point at a time, at 125 °C to OP 5 with a fault for each hot sensor; a droop stretches the clock; a lost
lock, a confirmation that does not come and a failed rail are the faults the spec names. -/
def Obligations.PowerEvents : Prop :=
  ∀ (s : State) (f : Fin 4), s.fcol.safe = false → s.power.s1 = false →
    (∀ mw b n s1, s.budgetAfter mw = b → (if sustainedMw < mw then s.power.overTime + 1 else 0) = n → s.power.stepped = false →
      s1 = { s with power := { s.power with budget := b, overTime := n, pkgMw := mw } } →
      (0 < b → n < 10000 → exec (.powerSample mw) s = .next s1) ∧
      (b ≤ 0 ∨ 10000 ≤ n → exec (.powerSample mw) s =
        .next ((({ s1 with power := { s1.power with stepped := true } } : State).count (oPwr 0x34) 1).applyOps))) ∧
    (∀ l, l.length = 24 → hotSensors l = [] → exec (.thermalSample l) s = .next { s with power := { s.power with temps := l } }) ∧
    (∀ l, l.length = 24 → hotSensors l ≠ [] → s.power.tlim ≠ 5 → exec (.thermalSample l) s = .next ((hotSensors l).foldl
      (fun s i => s.raise { src := srcOf 119 6, cause := 26, sub := i }) (({ s with power := { s.power with temps := l } } : State).lowerLimit 5))) ∧
    (s.power.tlim < 5 → s.power.temps ≠ [] → (8 * s.regF (oPwr 0x20) 0 8 : Nat) ≤ (hottest s.power.temps).2 →
      exec .thermalLimitLower s = .next (s.lowerLimit (s.power.tlim + 1))) ∧
    (0 < s.power.tlim → s.power.temps ≠ [] → (hottest s.power.temps).2 ≤ (8 * s.regF (oPwr 0x20) 8 8 : Nat) →
      exec .thermalLimitRaise s = .next { s with power := { s.power with tlim := s.power.tlim - 1 } }) ∧
    (∀ i, exec (.thermalTrip i) s = .next (s.raise { src := srcOf 119 7, cause := 26, sub := i.val, stepNo := 6 })) ∧
    ((s.frond f).clocked = true → (s.frond f).droop = .none → exec (.droopDetect f) s =
      .next (((s.modFrond f fun y => { y with droop := .stretched }).count (oPwr (0x40 + 4 * f.val)) 1).breakRound 1)) ∧
    exec (.droopRecover f) s = .next (s.modFrond f fun y => { y with droop := .none }) ∧
    ((s.frond f).clocked = true → exec (.droopFault f) s =
      .next (s.raise { src := srcOf (16 * f.val + 13) 0, cause := 27, part := (s.ownerOf f).elim 0xFF (·.val) })) ∧
    exec (.opChange f) s = .next (s.setOp f).setRail ∧
    (∀ d : Fin 32, hasPll d.val = true → (clkLock s).testBit d.val = true → d.val ≠ 2 → exec (.pllLockLoss d) s =
      .next ((s.raise { src := srcOf 118 1, cause := 27, sub := d.val, stepNo := domainStepNo d.val }).domainStep d.val)) ∧
    (s.exactClaimed = true → exec .clockLockLoss s = .next ((s.breakRound 4).raise { src := srcOf 118 0, cause := 27 })) ∧
    (exec .avsTimeout s = .next (({ s with power := { s.power with avsHeld := true }, fronds := s.fronds.map fun (x : Frond) => { x with op := if x.powered then max x.op (opOfRail s.power.vdd) else x.op } } : State).raise { src := srcOf 118 4, cause := 27 })) ∧
    (s.sys.por = false → exec .pwrgdMainFail s = .next (s.raise { src := srcOf 118 7, cause := 27, stepNo := 6 }))

/-- The TAP (R624, R702 to R710, R754): a challenge and its answer, access to registers at MAINT and to every populated address at FULL,
halting, resuming and stepping a target (held while the replay FIFO of its unit is full), the boundary register on the pins, BYPASS after reset. -/
def Obligations.TapCommands : Prop :=
  ∀ (s s0 : State), s.tapOpen = true → s.otp.lifecycle ≠ 4 →
    (∀ (level : BitVec 2) key, s0 = s.tapIr 0x21 → level = 1 ∨ level = 2 → s.dbg.chal = none → s.dbg.lockout = false →
      s.debugKeyOk level.toNat key.toNat = true →
      (Config.trngFails s.free = false → exec (.dbgChal level key) s =
        .next ((s0.openChal level.toNat key.toNat true).chalAnswer .ok (Config.trng s.free))) ∧
      (Config.trngFails s.free = true → exec (.dbgChal level key) s = .next ((s0.trngFault true).chalAnswer .denied 0))) ∧
    (∀ rs lv k c, s0 = s.tapIr 0x22 → s.dbg.chal = some (lv, k, c, true) → s0.debugVerifies lv k c rs = true →
      exec (.dbgResp rs) s = .next ((s0.debugOpened lv k).chalAnswer .ok 0)) ∧
    (∀ a o, s0 = s.tapIr 0x23 → s.dbg.held = none → s0.accStatus a.toNat false = .ok → region a.toNat = .reg o →
      exec (.dbgAccRead a) s = .next ((s0.readAny none o).2.accAnswer .ok (s0.readAny none o).1)) ∧
    (∀ a o v, s0 = s.tapIr 0x23 → s.dbg.held = none → s0.accStatus a.toNat true = .ok → region a.toNat = .reg o →
      inFrond o = none → exec (.dbgAccWrite a v) s = .next ((s0.debugEntry.writeAny none o v).accAnswer .ok 0)) ∧
    (∀ t : BitVec 4, s0 = s.tapIr 0x23 → s.dbg.held = none → s0.ctlStatus t = .ok → s0.fifoFull (.halt t) = true →
      exec (.dbgHalt t) s = .next (({ s0 with dbg := { s0.dbg with held := some (.halt t) } } : State).accAnswer .pending 0)) ∧
    (∀ t : BitVec 4, s0 = s.tapIr 0x23 → s.dbg.held = none → s0.ctlStatus t = .ok → s0.fifoFull (.halt t) = false →
      Completes (.dbgHalt t) s (fun u => u.dbg.halted.contains t = true ∧ u.tap.accStatus = 0) ∧
      Completes (.dbgResume t) s (fun u => u.dbg.halted.contains t = false ∧ u.tap.accStatus = 0) ∧
      (s0.debugEntry.dbg.halted.contains t = true →
        Completes (.dbgStep t) s (fun u => u.dbg.stepped.contains t = true ∧ u.tap.accStatus = 0))) ∧
    (∀ n r, s0 = s.tapIr 0x23 → s.dbg.held = none → s.otp.lifecycle = 0 → n = min (objLen (s0.rdN (aper0 0) 12)) 0x100000 →
      r = ((s0.reportRead Who.firmware (aper0 0) n).setStage 0 [] false).appendStage 0 (s0.rdN (aper0 0) n) → r.st = .ok →
      r.s.sys.stageOk = true → exec .dbgStage s = .next (r.s.accAnswer .ok 0).commitReset) ∧
    (s.dbg.level = 2 → s.otp.lifecycle = 0 →
      (∀ sc, exec (.extest sc) s = .next { s.tapIr 0 with tap := { (s.tapIr 0).tap with boundary := sc, driving := true } }) ∧
      exec .clamp s = .next { s.tapIr 2 with tap := { (s.tapIr 2).tap with driving := true } } ∧
      exec .highz s = .next { s.tapIr 3 with tap := { (s.tapIr 3).tap with hiz := true } }) ∧
    (∀ cap ld, exec (.samplePreload cap ld) s =
      .next { s.tapIr 1 with tap := { (s.tapIr 1).tap with boundary := ld }, out := packBits cap }) ∧
    exec .tapReset s = .next (s.tapIr 0xFF)

/-- Resets and recovery steps (R405, R446, R563, R717, R719, R721 to R723, R727, R728, R730 to R733): POR_N resets all but OTP and NOR, a save that
it cuts short is lost; its release settles the ports, reads NOR, trains the DRAM and boots; a warm reset
is the step of its cause, the watchdog's counts a failed boot; a first NoC timeout is retried with a record, a second is a failed check; a
recovery command runs its step, an overrun the next one. -/
def Obligations.ResetCommands : Prop :=
  ∀ (s : State) (f : Fin 4),
    exec .porNAssert s = .next { State.reset with otp := s.otp, nor := s.nor.cut s.power.onTime, free := s.free, pending := s.pending } ∧
    (∀ b, s.sys.por = true → b.bootSrc ≠ 3 → exec (.porNRelease b) s = .next ((s.porStart b).readNor.trainDram b).boot ∧
      ∀ p : Fin 4, ((s.porStart b).port p).mode = s.lockedMode p) ∧
    (s.sys.por = false → s.fcol.safe = false → s.power.s1 = false →
      exec (.warmReset .pin) s = .next (s.l5 false) ∧ exec (.warmReset .escalation) s = .next (s.l5 true) ∧
      (s.sys.st = .startup → exec .bootWatchdogExpire s =
        .next (({ s with sys := { s.sys with bootFail := s.sys.bootFail + 1 } } : State).l5 true)) ∧
      (∀ r u b, exec (.nocTimeout r u false b) s = .next (s.raise { (s.memWho u).ev (srcOf 93 0) 19 r.val 4 with stepNo := 0 })) ∧
      (∀ r u, exec (.nocTimeout r u true none) s = .next (s.checkFail (s.memWho u) 93 4 19 r.val 4).sweepRetired) ∧
      exec (.kernelAbort f) s = .next (s.l1 f 1) ∧ exec (.frondReset f) s = .next (s.l2 f).sweepRetired ∧
      exec (.partitionReset f) s = .next (s.l3 f).sweepRetired ∧ exec .rhizoidReset s = .next s.l4Rhizoid ∧
      exec (.hostPortReset f) s = .next (s.l4Port f).sweepRetired ∧
      ∀ sc, exec (.recoveryStepOverrun sc) s = .next (s.overrun sc).sweepRetired)

/-- The I2C target (R670, R752, R753): a write leaves its first byte as the pointer, a read gives the bytes from the pointer on, modulo 256, and
moves it; the identity reads 0x47, 0x39; a 1 in WAKE wakes the device from S1. -/
def Obligations.I2cTarget : Prop :=
  ∀ (s : State), s.sys.por = false →
    (∀ (a b : Byte), exec (.i2cWrite [a]) s = .next { s with i2c := ⟨a.toNat⟩ } ∧
      (a ≠ 0x10 → exec (.i2cWrite [a, b]) s = .next { s with i2c := ⟨a.toNat⟩ }) ∧
      (b.getLsbD 0 = true → s.power.s1 = true → exec (.i2cWrite [0x10, b]) s = .next (({ s with i2c := ⟨0x10⟩ } : State).wakeS1))) ∧
    (∀ n, Completes (.i2cRead n) s fun t => t.out.length = n ∧ t.i2c.ptr = (s.i2c.ptr + n) % 256 ∧ t.mem = s.mem ∧ t.regs = s.regs ∧
      (∀ i, i < n → t.out.getD i 0 = s.i2cByte ((s.i2c.ptr + i) % 256))) ∧
    s.i2cByte 0 = 0x47 ∧ s.i2cByte 1 = 0x39 ∧ (∀ a, 0x0E ≤ a → s.i2cByte a = 0) ∧
    (s.power.s1 = true → exec .i2cWake s = .next s.wakeS1)

/-- A step takes the command at the front of the queue and runs it on the state with the queue's rest. The queue is the model's own form. -/
def Obligations.StepRunsFront : Prop :=
  ∀ (c : Instr) (s : State) (rest : List Instr), step { s with pending := c :: rest } = exec c { s with pending := rest }

/-- With an empty queue a step is one tick of the device clock (R376; that an idle step is a tick is the model's choice, notes/assumptions/1):
outside S1 and POR_N, with no action held at the TAP and no request waiting for the end of a refresh window (R533, R625), the nanoseconds and fraction taken together grow by the increment, modulo the range of the seconds count, the nanoseconds
stay below 10^9, and memory and registers stay; under POR_N nothing happens. -/
def Obligations.IdleTick : Prop :=
  ∀ (s : State), s.pending = [] →
    (s.sys.por = true → step s = .next s) ∧
    (s.sys.por = false → s.power.s1 = false → s.dbg.held = none → s.dramWait = [] → s.time.stepPend = none → s.time.incPend = none → s.time.ns < 1000000000 →
      ∃ t, step s = .next t ∧ t.pending = [] ∧ t.mem = s.mem ∧ t.regs = s.regs ∧ t.time.ns < 1000000000 ∧
        t.now * 2 ^ 32 + t.time.frac.toNat =
          (s.now * 2 ^ 32 + s.time.frac.toNat + s.time.inc.toNat) % (2 ^ 48 * 1000000000 * 2 ^ 32))

/-- The machine after reset: memory is in its canonical form with nothing listed, no command waits, POR_N is asserted, no safe state is
entered, the lifecycle is a lifecycle. -/
def Obligations.ResetCanonical : Prop :=
  Memory.wf State.reset = true ∧ State.reset.mem = [] ∧ State.reset.bcw = [] ∧ State.reset.upsets = [] ∧ State.reset.pending = [] ∧
    State.reset.fcol.safe = false ∧ State.reset.otp.lifecycle ≤ 4 ∧ State.reset.sys.por = true

/-- Every step keeps memory in its canonical form: bytes, block codes and word marks listed by strictly rising key, none at what an unlisted
one reads as. -/
def Obligations.MemoryCanonical : Prop :=
  ∀ (s t : State), Memory.wf s = true → step s = .next t → Memory.wf t = true

/-- The safe state is left only by POR_N (R653): a step that takes no POR_N_ASSERT from the front keeps it. -/
def Obligations.SafeStateHolds : Prop :=
  ∀ (s t : State), s.fcol.safe = true → step s = .next t → t.fcol.safe = true ∨ s.pending.head? = some .porNAssert

/-- Commands leave the queue first in, first out, one a step, and no command enters it: a step leaves the queue's rest. The queue is the
model's own form. -/
def Obligations.QueueFirstInFirstOut : Prop :=
  ∀ (s t : State), step s = .next t → t.pending = s.pending.tail

/-- A lifecycle transition is never undone, and the count of ROLLBACK fuses never falls (R686, R696): every step, POR_N among them, keeps or
raises both, and the lifecycle stays one of the five. -/
def Obligations.FusesNeverUndone : Prop :=
  ∀ (s t : State), s.otp.lifecycle ≤ 4 → step s = .next t →
    s.otp.lifecycle ≤ t.otp.lifecycle ∧ t.otp.lifecycle ≤ 4 ∧ s.otp.rollback ≤ t.otp.rollback

/-- ARGMAX on integer elements (R247): the index it takes is that of a largest element, and every element before it is smaller. -/
def Obligations.ArgmaxLowest : Prop :=
  ∀ (l : List Int), l ≠ [] → ∃ m, l[bestIdx elemLt (l.map Elem.int)]? = some m ∧
    (∀ x ∈ l, x ≤ m) ∧ (∀ (j : Nat) (x : Int), j < bestIdx elemLt (l.map Elem.int) → l[j]? = some x → x < m)

/-- What POR_N leaves (R377, R403, R438, R471, R527, R632, R644, R651, R671, R727 and the register tables): ports unsettled without a heartbeat or
session, partitions unclaimed, links down, no stream, job, program or group, empty measurement banks, SAFE_N low; the reset values of the
time, Fault Collector and power registers. -/
def Obligations.ResetValues : Prop :=
  (∀ p : Fin 4, (State.reset.port p).mode = .unsettled ∧ (State.reset.port p).ready = false ∧ (State.reset.port p).hb = .init ∧
    (State.reset.port p).session = none ∧ (State.reset.port p).rings = []) ∧
  (∀ r : Fin 4, (State.reset.part r).st = .unclaimed) ∧ (∀ l : Fin 3, (State.reset.link l).st = .down) ∧
  State.reset.streams = [] ∧ State.reset.jobs = [] ∧ State.reset.progs = [] ∧ State.reset.groups = [] ∧ State.reset.dealer.run = false ∧
  State.reset.mbs = List.replicate 8 0 ∧ State.reset.dbg.level = 0 ∧ State.reset.power.s1 = false ∧
  State.reset.reg (oTime 0x10) = 0x0AAAAAAB ∧ State.reset.reg (oTime 0x14) = 0x1A ∧ State.reset.reg (oFcol 4) = 0x7D0 ∧
  State.reset.reg (oFcol 8) = 0x14 ∧ State.reset.reg (oPwr 0x20) = 0x6E73

/-- A queue of well-formed commands never stops the block: from every state a step answers a next state. (What makes a command ill formed is
the model's own reading of the operands that the spec's rows allow.) -/
def Obligations.WellFormedGoesOn : Prop :=
  ∀ (s : State), queueWf s → goesOn s

/-- Who may set the time (R378): TIME_INC_SET and TIME_STEP of a port that holds no management partition, or whose PART is another partition
than the management one of its port, well laid out and taken by the device and the session, complete with ST_AUTH, without a response and without an effect beside the completion; with the management role
they go on to their own checks; TIME_READ completes for every partition that the sender claimed. -/
def Obligations.TimeManagement : Prop :=
  ∀ (s s0 : State) (p : Fin 4) (d : Fin 256) (t : Taken) (l : CmdLay),
    s.takenAt p d.val = some t → layOf t.opc t.payload = some l → t.wellFormed l = true → s0 = s.beforeCmd p t → s0.verOk p t = true →
    s0.devOk p t.opc = true → s.fcol.safe = false → s.dbg.halted.contains 4 = false →
    (t.opc = 0x0059 → s0.isMgmt p = false → exec (.timeIncSet p d) s = .next (s0.complete p d.val t .auth [])) ∧
    (t.opc = 0x005A → s0.isMgmt p = false → exec (.timeStep p d) s = .next (s0.complete p d.val t .auth [])) ∧
    (t.opc = 0x0059 → s0.partFits p d.val t = true → s0.isMgmt p = true → s0.mgmtCmd p t = false →
      exec (.timeIncSet p d) s = .next (s0.complete p d.val t .auth [])) ∧
    (t.opc = 0x005A → s0.partFits p d.val t = true → s0.isMgmt p = true → s0.mgmtCmd p t = false →
      exec (.timeStep p d) s = .next (s0.complete p d.val t .auth [])) ∧
    (t.opc = 0x0059 → s0.partFits p d.val t = true → s0.isMgmt p = true → s0.mgmtCmd p t = true → 25 * 2 ^ 32 ≤ fld t.payload 0 8 → fld t.payload 0 8 ≤ 27 * 2 ^ 32 →
      ∃ r, r.st = .ok ∧ exec (.timeIncSet p d) s = .next (after p d.val t r)) ∧
    (t.opc = 0x005A → s0.partFits p d.val t = true → s0.isMgmt p = true → s0.mgmtCmd p t = true → 0 ≤ (s0.now : Int) + sext 64 (fld t.payload 0 8) →
      s0.time.stepPend = none → ∃ r, r.st = .ok ∧ exec (.timeStep p d) s = .next (after p d.val t r)) ∧
    (t.opc = 0x0058 → s0.partFits p d.val t = true → s0.claimedBy p t.part = true →
      ∃ r, r.st = .ok ∧ exec (.timeRead p d) s = .next (after p d.val t r))

/-- The token condition (R131) and the turn (R125): an instruction at its issue stage that no lower queue of its kind outruns stands ready
exactly when (T − WVAL) mod 2^16 is below 2^15, T being the value of counter WTOK, and with WEN clear whatever the counter; a unit's
instruction that a lower queue outruns does not stand ready. -/
def Obligations.TokenCondition : Prop :=
  ∀ (s : State) (f : Fin 4) (q cls : Nat) (w : IWord), s.slotIns f q cls = some w →
    ((unitClass cls && (s.frond f).outrun q) = false →
      (wen w = true → ((s.readyIns f q cls = some w ↔ (((s.frond f).token (wtok w)).toNat - (wval w : Int)) % 2 ^ 16 < 2 ^ 15) ∧
        (s.readyIns f q cls = none ↔ 2 ^ 15 ≤ (((s.frond f).token (wtok w)).toNat - (wval w : Int)) % 2 ^ 16))) ∧
      (wen w = false → s.readyIns f q cls = some w)) ∧
    ((unitClass cls && (s.frond f).outrun q) = true → s.readyIns f q cls = none)

/-- Lanes (R552): what a link sends of a stream over its active lanes, whichever they are, the other end puts together again byte for byte,
however much of the stream went before. -/
def Obligations.LaneStriping : Prop :=
  ∀ (m : BitVec 8) (pos : Nat) (b : List Byte), m ≠ 0 → unstripe m pos b.length (stripe m pos b) = b

end Statements
end

