-- ==== Sys2Proof/Laws/State.lean ====
section
/-! SUPPORT. One lemma per field and update of State, and the laws of keyed tables: no later proof unfolds a record update. -/

namespace Sys2Proof.Machine

/-! Keyed tables. -/

variable {α : Type}

@[simp] theorem tfind_tput_self (l : List (Nat × α)) (k : Nat) (v : α) : tfind (tput l k v) k = some v := by
  induction l with
  | nil => simp [tput, tfind]
  | cons e t ih =>
    obtain ⟨j, w⟩ := e
    simp only [tput]
    split
    · simp [tfind]
    · split
      · simp [tfind]
      · rename_i h; simp [tfind, h, ih]

theorem tfind_tput_ne (l : List (Nat × α)) {k m : Nat} (v : α) (h : k ≠ m) : tfind (tput l k v) m = tfind l m := by
  induction l with
  | nil => simp [tput, tfind, h]
  | cons e t ih =>
    obtain ⟨j, w⟩ := e
    simp only [tput]
    split
    · simp [tfind, h]
    · split
      · rename_i g; subst g; simp [tfind, h]
      · simp [tfind, ih]

@[simp] theorem tfind_tdel_self (l : List (Nat × α)) (k : Nat) : tfind (tdel l k) k = none := by
  induction l with
  | nil => rfl
  | cons e t ih =>
    obtain ⟨j, w⟩ := e
    simp only [tdel]
    split
    · exact ih
    · rename_i h; simp [tfind, h, ih]

theorem tfind_tdel_ne (l : List (Nat × α)) {k m : Nat} (h : k ≠ m) : tfind (tdel l k) m = tfind l m := by
  induction l with
  | nil => rfl
  | cons e t ih =>
    obtain ⟨j, w⟩ := e
    simp only [tdel]
    split
    · rename_i g; subst g; simp [tfind, h, ih]
    · simp [tfind, ih]

@[simp] theorem tget_tset_self [DecidableEq α] (d : Nat → α) (l : List (Nat × α)) (k : Nat) (v : α) :
    tget d (tset d l k v) k = v := by
  unfold tget tset
  split
  · rename_i h; simp [h]
  · simp

theorem tget_tset_ne [DecidableEq α] (d : Nat → α) (l : List (Nat × α)) {k m : Nat} (v : α) (h : k ≠ m) :
    tget d (tset d l k v) m = tget d l m := by
  unfold tget tset
  split
  · rw [tfind_tdel_ne l h]
  · rw [tfind_tput_ne l v h]

theorem tfind_tmod_self (l : List (Nat × α)) (k : Nat) (g : α → α) : tfind (tmod l k g) k = (tfind l k).map g := by
  unfold tmod
  split <;> simp_all

theorem tfind_tmod_ne (l : List (Nat × α)) {k m : Nat} (g : α → α) (h : k ≠ m) : tfind (tmod l k g) m = tfind l m := by
  unfold tmod
  split
  · rfl
  · exact tfind_tput_ne l _ h

/-! What an update stores. -/

theorem get_set_self {n : Nat} (v : Vector α n) (f : Fin n) (x : α) : (v.set f.val x f.isLt).get f = x := by
  change (v.set f.val x f.isLt)[f.val] = x
  simp

theorem get_set_ne {n : Nat} (v : Vector α n) {f g : Fin n} (x : α) (h : f ≠ g) : (v.set f.val x f.isLt).get g = v.get g := by
  have : f.val ≠ g.val := fun e => h (Fin.ext e)
  change (v.set f.val x f.isLt)[g.val] = v[g.val]
  simp [this]

@[simp] theorem State.frond_setFrond (s : State) (f : Fin 4) (x : Frond) : (s.setFrond f x).frond f = x := get_set_self s.fronds _ _
theorem State.frond_setFrond_ne (s : State) {f g : Fin 4} (x : Frond) (h : f ≠ g) : (s.setFrond f x).frond g = s.frond g := get_set_ne s.fronds _ h
@[simp] theorem State.frond_modFrond (s : State) (f : Fin 4) (g : Frond → Frond) : (s.modFrond f g).frond f = g (s.frond f) :=
  s.frond_setFrond f _
theorem State.frond_modFrond_ne (s : State) {f h : Fin 4} (g : Frond → Frond) (n : f ≠ h) : (s.modFrond f g).frond h = s.frond h :=
  s.frond_setFrond_ne _ n
@[simp] theorem State.port_setPort (s : State) (p : Fin 4) (x : Port) : (s.setPort p x).port p = x := get_set_self s.ports _ _
theorem State.port_setPort_ne (s : State) {p q : Fin 4} (x : Port) (h : p ≠ q) : (s.setPort p x).port q = s.port q := get_set_ne s.ports _ h
@[simp] theorem State.port_modPort (s : State) (p : Fin 4) (g : Port → Port) : (s.modPort p g).port p = g (s.port p) :=
  s.port_setPort p _
theorem State.port_modPort_ne (s : State) {p q : Fin 4} (g : Port → Port) (h : p ≠ q) : (s.modPort p g).port q = s.port q :=
  s.port_setPort_ne _ h
@[simp] theorem State.part_setPart (s : State) (r : Fin 4) (x : Part) : (s.setPart r x).part r = x := get_set_self s.parts _ _
theorem State.part_setPart_ne (s : State) {p q : Fin 4} (x : Part) (h : p ≠ q) : (s.setPart p x).part q = s.part q := get_set_ne s.parts _ h
@[simp] theorem State.part_modPart (s : State) (r : Fin 4) (g : Part → Part) : (s.modPart r g).part r = g (s.part r) :=
  s.part_setPart r _
@[simp] theorem State.link_setLink (s : State) (l : Fin 3) (x : Link) : (s.setLink l x).link l = x := get_set_self s.links _ _
@[simp] theorem State.link_modLink (s : State) (l : Fin 3) (g : Link → Link) : (s.modLink l g).link l = g (s.link l) :=
  s.link_setLink l _
@[simp] theorem State.stream_setStream (s : State) (c : Nat) (x : Stream) : (s.setStream c x).stream c = x :=
  tget_tset_self (fun _ => Stream.reset) s.streams c x
@[simp] theorem State.stream_modStream (s : State) (c : Nat) (g : Stream → Stream) : (s.modStream c g).stream c = g (s.stream c) :=
  s.stream_setStream c _
@[simp] theorem State.job_setJob (s : State) (j : Nat) (x : Job) : (s.setJob j x).job j = some x := by
  simp [State.job, State.setJob]
theorem State.job_modJob (s : State) (j : Nat) (g : Job → Job) : (s.modJob j g).job j = (s.job j).map g := by
  simp [State.job, State.modJob, tfind_tmod_self]
@[simp] theorem State.reg_setReg (s : State) (o : Nat) (v : Word) : (s.setReg o v).reg o = v := by
  simp [State.reg, State.setReg]
theorem State.reg_setReg_ne (s : State) {o m : Nat} (v : Word) (h : o ≠ m) : (s.setReg o v).reg m = s.reg m := by
  simp [State.reg, State.setReg, tget_tset_ne _ _ _ h]
@[simp] theorem State.reg_count (s : State) (o n : Nat) : (s.count o n).reg o = countUp (s.reg o) n := s.reg_setReg o _
theorem State.reg_count_ne (s : State) {o m : Nat} (n : Nat) (h : o ≠ m) : (s.count o n).reg m = s.reg m := s.reg_setReg_ne _ h
@[simp] theorem State.bcwAt_setBcw (s : State) (a : Nat) (w : Word) : (s.setBcw a w).bcwAt a = w := by
  simp [State.bcwAt, State.setBcw]

/-! Fields that an update leaves. -/

@[simp] theorem State.setReg_mem (s : State) (a : Nat) (v : Word) : (s.setReg a v).mem = s.mem := rfl
@[simp] theorem State.setReg_bcw (s : State) (a : Nat) (v : Word) : (s.setReg a v).bcw = s.bcw := rfl
@[simp] theorem State.setReg_upsets (s : State) (a : Nat) (v : Word) : (s.setReg a v).upsets = s.upsets := rfl
@[simp] theorem State.setReg_latch (s : State) (a : Nat) (v : Word) : (s.setReg a v).latch = s.latch := rfl
@[simp] theorem State.setReg_fronds (s : State) (a : Nat) (v : Word) : (s.setReg a v).fronds = s.fronds := rfl
@[simp] theorem State.setReg_ports (s : State) (a : Nat) (v : Word) : (s.setReg a v).ports = s.ports := rfl
@[simp] theorem State.setReg_parts (s : State) (a : Nat) (v : Word) : (s.setReg a v).parts = s.parts := rfl
@[simp] theorem State.setReg_links (s : State) (a : Nat) (v : Word) : (s.setReg a v).links = s.links := rfl
@[simp] theorem State.setReg_streams (s : State) (a : Nat) (v : Word) : (s.setReg a v).streams = s.streams := rfl
@[simp] theorem State.setReg_dealer (s : State) (a : Nat) (v : Word) : (s.setReg a v).dealer = s.dealer := rfl
@[simp] theorem State.setReg_time (s : State) (a : Nat) (v : Word) : (s.setReg a v).time = s.time := rfl
@[simp] theorem State.setReg_allocs (s : State) (a : Nat) (v : Word) : (s.setReg a v).allocs = s.allocs := rfl
@[simp] theorem State.setReg_pools (s : State) (a : Nat) (v : Word) : (s.setReg a v).pools = s.pools := rfl
@[simp] theorem State.setReg_seqs (s : State) (a : Nat) (v : Word) : (s.setReg a v).seqs = s.seqs := rfl
@[simp] theorem State.setReg_progs (s : State) (a : Nat) (v : Word) : (s.setReg a v).progs = s.progs := rfl
@[simp] theorem State.setReg_jobs (s : State) (a : Nat) (v : Word) : (s.setReg a v).jobs = s.jobs := rfl
@[simp] theorem State.setReg_nextId (s : State) (a : Nat) (v : Word) : (s.setReg a v).nextId = s.nextId := rfl
@[simp] theorem State.setReg_groups (s : State) (a : Nat) (v : Word) : (s.setReg a v).groups = s.groups := rfl
@[simp] theorem State.setReg_tricks (s : State) (a : Nat) (v : Word) : (s.setReg a v).tricks = s.tricks := rfl
@[simp] theorem State.setReg_fcol (s : State) (a : Nat) (v : Word) : (s.setReg a v).fcol = s.fcol := rfl
@[simp] theorem State.setReg_ages (s : State) (a : Nat) (v : Word) : (s.setReg a v).ages = s.ages := rfl
@[simp] theorem State.setReg_safety (s : State) (a : Nat) (v : Word) : (s.setReg a v).safety = s.safety := rfl
@[simp] theorem State.setReg_power (s : State) (a : Nat) (v : Word) : (s.setReg a v).power = s.power := rfl
@[simp] theorem State.setReg_dbg (s : State) (a : Nat) (v : Word) : (s.setReg a v).dbg = s.dbg := rfl
@[simp] theorem State.setReg_mbs (s : State) (a : Nat) (v : Word) : (s.setReg a v).mbs = s.mbs := rfl
@[simp] theorem State.setReg_otp (s : State) (a : Nat) (v : Word) : (s.setReg a v).otp = s.otp := rfl
@[simp] theorem State.setReg_nor (s : State) (a : Nat) (v : Word) : (s.setReg a v).nor = s.nor := rfl
@[simp] theorem State.setReg_sys (s : State) (a : Nat) (v : Word) : (s.setReg a v).sys = s.sys := rfl
@[simp] theorem State.setReg_tap (s : State) (a : Nat) (v : Word) : (s.setReg a v).tap = s.tap := rfl
@[simp] theorem State.setReg_i2c (s : State) (a : Nat) (v : Word) : (s.setReg a v).i2c = s.i2c := rfl
@[simp] theorem State.setReg_dramWb (s : State) (a : Nat) (v : Word) : (s.setReg a v).dramWb = s.dramWb := rfl
@[simp] theorem State.setReg_matWb (s : State) (a : Nat) (v : Word) : (s.setReg a v).matWb = s.matWb := rfl
@[simp] theorem State.setReg_wbDone (s : State) (a : Nat) (v : Word) : (s.setReg a v).wbDone = s.wbDone := rfl
@[simp] theorem State.setReg_hot (s : State) (a : Nat) (v : Word) : (s.setReg a v).hot = s.hot := rfl
@[simp] theorem State.setReg_patrol (s : State) (a : Nat) (v : Word) : (s.setReg a v).patrol = s.patrol := rfl
@[simp] theorem State.setReg_out (s : State) (a : Nat) (v : Word) : (s.setReg a v).out = s.out := rfl
@[simp] theorem State.setReg_free (s : State) (a : Nat) (v : Word) : (s.setReg a v).free = s.free := rfl
@[simp] theorem State.setReg_pending (s : State) (a : Nat) (v : Word) : (s.setReg a v).pending = s.pending := rfl
@[simp] theorem State.setReg_repairs (s : State) (a : Nat) (v : Word) : (s.setReg a v).repairs = s.repairs := rfl
@[simp] theorem State.setReg_matHeld (s : State) (a : Nat) (v : Word) : (s.setReg a v).matHeld = s.matHeld := rfl
@[simp] theorem State.setReg_matWait (s : State) (a : Nat) (v : Word) : (s.setReg a v).matWait = s.matWait := rfl
@[simp] theorem State.setReg_dramWait (s : State) (a : Nat) (v : Word) : (s.setReg a v).dramWait = s.dramWait := rfl
@[simp] theorem State.setReg_release (s : State) (a : Nat) (v : Word) : (s.setReg a v).release = s.release := rfl
@[simp] theorem State.frond_setReg (s : State) (a : Nat) (v : Word) (f : Fin 4) : (s.setReg a v).frond f = s.frond f := rfl
@[simp] theorem State.port_setReg (s : State) (a : Nat) (v : Word) (p : Fin 4) : (s.setReg a v).port p = s.port p := rfl
@[simp] theorem State.part_setReg (s : State) (a : Nat) (v : Word) (r : Fin 4) : (s.setReg a v).part r = s.part r := rfl
@[simp] theorem State.link_setReg (s : State) (a : Nat) (v : Word) (l : Fin 3) : (s.setReg a v).link l = s.link l := rfl
@[simp] theorem State.stream_setReg (s : State) (a : Nat) (v : Word) (c : Nat) : (s.setReg a v).stream c = s.stream c := rfl
@[simp] theorem State.job_setReg (s : State) (a : Nat) (v : Word) (j : Nat) : (s.setReg a v).job j = s.job j := rfl
@[simp] theorem State.owned_setReg (s : State) (a : Nat) (v : Word) (r : Fin 4) : (s.setReg a v).owned r = s.owned r := rfl
@[simp] theorem State.now_setReg (s : State) (a : Nat) (v : Word) : (s.setReg a v).now = s.now := rfl
@[simp] theorem State.deckNow_setReg (s : State) (a : Nat) (v : Word) : (s.setReg a v).deckNow = s.deckNow := rfl
@[simp] theorem State.ring_setReg (s : State) (a : Nat) (v : Word) (p : Fin 4) (d : Nat) : (s.setReg a v).ring p d = s.ring p d := rfl
@[simp] theorem State.groupOf_setReg (s : State) (a : Nat) (v : Word) (key : Word) : (s.setReg a v).groupOf key = s.groupOf key := rfl
@[simp] theorem State.setRegF_mem (s : State) (a lo len v : Nat) : (s.setRegF a lo len v).mem = s.mem := rfl
@[simp] theorem State.setRegF_bcw (s : State) (a lo len v : Nat) : (s.setRegF a lo len v).bcw = s.bcw := rfl
@[simp] theorem State.setRegF_upsets (s : State) (a lo len v : Nat) : (s.setRegF a lo len v).upsets = s.upsets := rfl
@[simp] theorem State.setRegF_latch (s : State) (a lo len v : Nat) : (s.setRegF a lo len v).latch = s.latch := rfl
@[simp] theorem State.setRegF_fronds (s : State) (a lo len v : Nat) : (s.setRegF a lo len v).fronds = s.fronds := rfl
@[simp] theorem State.setRegF_ports (s : State) (a lo len v : Nat) : (s.setRegF a lo len v).ports = s.ports := rfl
@[simp] theorem State.setRegF_parts (s : State) (a lo len v : Nat) : (s.setRegF a lo len v).parts = s.parts := rfl
@[simp] theorem State.setRegF_links (s : State) (a lo len v : Nat) : (s.setRegF a lo len v).links = s.links := rfl
@[simp] theorem State.setRegF_streams (s : State) (a lo len v : Nat) : (s.setRegF a lo len v).streams = s.streams := rfl
@[simp] theorem State.setRegF_dealer (s : State) (a lo len v : Nat) : (s.setRegF a lo len v).dealer = s.dealer := rfl
@[simp] theorem State.setRegF_time (s : State) (a lo len v : Nat) : (s.setRegF a lo len v).time = s.time := rfl
@[simp] theorem State.setRegF_allocs (s : State) (a lo len v : Nat) : (s.setRegF a lo len v).allocs = s.allocs := rfl
@[simp] theorem State.setRegF_pools (s : State) (a lo len v : Nat) : (s.setRegF a lo len v).pools = s.pools := rfl
@[simp] theorem State.setRegF_seqs (s : State) (a lo len v : Nat) : (s.setRegF a lo len v).seqs = s.seqs := rfl
@[simp] theorem State.setRegF_progs (s : State) (a lo len v : Nat) : (s.setRegF a lo len v).progs = s.progs := rfl
@[simp] theorem State.setRegF_jobs (s : State) (a lo len v : Nat) : (s.setRegF a lo len v).jobs = s.jobs := rfl
@[simp] theorem State.setRegF_nextId (s : State) (a lo len v : Nat) : (s.setRegF a lo len v).nextId = s.nextId := rfl
@[simp] theorem State.setRegF_groups (s : State) (a lo len v : Nat) : (s.setRegF a lo len v).groups = s.groups := rfl
@[simp] theorem State.setRegF_tricks (s : State) (a lo len v : Nat) : (s.setRegF a lo len v).tricks = s.tricks := rfl
@[simp] theorem State.setRegF_fcol (s : State) (a lo len v : Nat) : (s.setRegF a lo len v).fcol = s.fcol := rfl
@[simp] theorem State.setRegF_ages (s : State) (a lo len v : Nat) : (s.setRegF a lo len v).ages = s.ages := rfl
@[simp] theorem State.setRegF_safety (s : State) (a lo len v : Nat) : (s.setRegF a lo len v).safety = s.safety := rfl
@[simp] theorem State.setRegF_power (s : State) (a lo len v : Nat) : (s.setRegF a lo len v).power = s.power := rfl
@[simp] theorem State.setRegF_dbg (s : State) (a lo len v : Nat) : (s.setRegF a lo len v).dbg = s.dbg := rfl
@[simp] theorem State.setRegF_mbs (s : State) (a lo len v : Nat) : (s.setRegF a lo len v).mbs = s.mbs := rfl
@[simp] theorem State.setRegF_otp (s : State) (a lo len v : Nat) : (s.setRegF a lo len v).otp = s.otp := rfl
@[simp] theorem State.setRegF_nor (s : State) (a lo len v : Nat) : (s.setRegF a lo len v).nor = s.nor := rfl
@[simp] theorem State.setRegF_sys (s : State) (a lo len v : Nat) : (s.setRegF a lo len v).sys = s.sys := rfl
@[simp] theorem State.setRegF_tap (s : State) (a lo len v : Nat) : (s.setRegF a lo len v).tap = s.tap := rfl
@[simp] theorem State.setRegF_i2c (s : State) (a lo len v : Nat) : (s.setRegF a lo len v).i2c = s.i2c := rfl
@[simp] theorem State.setRegF_dramWb (s : State) (a lo len v : Nat) : (s.setRegF a lo len v).dramWb = s.dramWb := rfl
@[simp] theorem State.setRegF_matWb (s : State) (a lo len v : Nat) : (s.setRegF a lo len v).matWb = s.matWb := rfl
@[simp] theorem State.setRegF_wbDone (s : State) (a lo len v : Nat) : (s.setRegF a lo len v).wbDone = s.wbDone := rfl
@[simp] theorem State.setRegF_hot (s : State) (a lo len v : Nat) : (s.setRegF a lo len v).hot = s.hot := rfl
@[simp] theorem State.setRegF_patrol (s : State) (a lo len v : Nat) : (s.setRegF a lo len v).patrol = s.patrol := rfl
@[simp] theorem State.setRegF_out (s : State) (a lo len v : Nat) : (s.setRegF a lo len v).out = s.out := rfl
@[simp] theorem State.setRegF_free (s : State) (a lo len v : Nat) : (s.setRegF a lo len v).free = s.free := rfl
@[simp] theorem State.setRegF_pending (s : State) (a lo len v : Nat) : (s.setRegF a lo len v).pending = s.pending := rfl
@[simp] theorem State.setRegF_repairs (s : State) (a lo len v : Nat) : (s.setRegF a lo len v).repairs = s.repairs := rfl
@[simp] theorem State.setRegF_matHeld (s : State) (a lo len v : Nat) : (s.setRegF a lo len v).matHeld = s.matHeld := rfl
@[simp] theorem State.setRegF_matWait (s : State) (a lo len v : Nat) : (s.setRegF a lo len v).matWait = s.matWait := rfl
@[simp] theorem State.setRegF_dramWait (s : State) (a lo len v : Nat) : (s.setRegF a lo len v).dramWait = s.dramWait := rfl
@[simp] theorem State.setRegF_release (s : State) (a lo len v : Nat) : (s.setRegF a lo len v).release = s.release := rfl
@[simp] theorem State.frond_setRegF (s : State) (a lo len v : Nat) (f : Fin 4) : (s.setRegF a lo len v).frond f = s.frond f := rfl
@[simp] theorem State.port_setRegF (s : State) (a lo len v : Nat) (p : Fin 4) : (s.setRegF a lo len v).port p = s.port p := rfl
@[simp] theorem State.part_setRegF (s : State) (a lo len v : Nat) (r : Fin 4) : (s.setRegF a lo len v).part r = s.part r := rfl
@[simp] theorem State.link_setRegF (s : State) (a lo len v : Nat) (l : Fin 3) : (s.setRegF a lo len v).link l = s.link l := rfl
@[simp] theorem State.stream_setRegF (s : State) (a lo len v : Nat) (c : Nat) : (s.setRegF a lo len v).stream c = s.stream c := rfl
@[simp] theorem State.job_setRegF (s : State) (a lo len v : Nat) (j : Nat) : (s.setRegF a lo len v).job j = s.job j := rfl
@[simp] theorem State.owned_setRegF (s : State) (a lo len v : Nat) (r : Fin 4) : (s.setRegF a lo len v).owned r = s.owned r := rfl
@[simp] theorem State.now_setRegF (s : State) (a lo len v : Nat) : (s.setRegF a lo len v).now = s.now := rfl
@[simp] theorem State.deckNow_setRegF (s : State) (a lo len v : Nat) : (s.setRegF a lo len v).deckNow = s.deckNow := rfl
@[simp] theorem State.ring_setRegF (s : State) (a lo len v : Nat) (p : Fin 4) (d : Nat) : (s.setRegF a lo len v).ring p d = s.ring p d := rfl
@[simp] theorem State.groupOf_setRegF (s : State) (a lo len v : Nat) (key : Word) : (s.setRegF a lo len v).groupOf key = s.groupOf key := rfl
@[simp] theorem State.count_mem (s : State) (a n : Nat) : (s.count a n).mem = s.mem := rfl
@[simp] theorem State.count_bcw (s : State) (a n : Nat) : (s.count a n).bcw = s.bcw := rfl
@[simp] theorem State.count_upsets (s : State) (a n : Nat) : (s.count a n).upsets = s.upsets := rfl
@[simp] theorem State.count_latch (s : State) (a n : Nat) : (s.count a n).latch = s.latch := rfl
@[simp] theorem State.count_fronds (s : State) (a n : Nat) : (s.count a n).fronds = s.fronds := rfl
@[simp] theorem State.count_ports (s : State) (a n : Nat) : (s.count a n).ports = s.ports := rfl
@[simp] theorem State.count_parts (s : State) (a n : Nat) : (s.count a n).parts = s.parts := rfl
@[simp] theorem State.count_links (s : State) (a n : Nat) : (s.count a n).links = s.links := rfl
@[simp] theorem State.count_streams (s : State) (a n : Nat) : (s.count a n).streams = s.streams := rfl
@[simp] theorem State.count_dealer (s : State) (a n : Nat) : (s.count a n).dealer = s.dealer := rfl
@[simp] theorem State.count_time (s : State) (a n : Nat) : (s.count a n).time = s.time := rfl
@[simp] theorem State.count_allocs (s : State) (a n : Nat) : (s.count a n).allocs = s.allocs := rfl
@[simp] theorem State.count_pools (s : State) (a n : Nat) : (s.count a n).pools = s.pools := rfl
@[simp] theorem State.count_seqs (s : State) (a n : Nat) : (s.count a n).seqs = s.seqs := rfl
@[simp] theorem State.count_progs (s : State) (a n : Nat) : (s.count a n).progs = s.progs := rfl
@[simp] theorem State.count_jobs (s : State) (a n : Nat) : (s.count a n).jobs = s.jobs := rfl
@[simp] theorem State.count_nextId (s : State) (a n : Nat) : (s.count a n).nextId = s.nextId := rfl
@[simp] theorem State.count_groups (s : State) (a n : Nat) : (s.count a n).groups = s.groups := rfl
@[simp] theorem State.count_tricks (s : State) (a n : Nat) : (s.count a n).tricks = s.tricks := rfl
@[simp] theorem State.count_fcol (s : State) (a n : Nat) : (s.count a n).fcol = s.fcol := rfl
@[simp] theorem State.count_ages (s : State) (a n : Nat) : (s.count a n).ages = s.ages := rfl
@[simp] theorem State.count_safety (s : State) (a n : Nat) : (s.count a n).safety = s.safety := rfl
@[simp] theorem State.count_power (s : State) (a n : Nat) : (s.count a n).power = s.power := rfl
@[simp] theorem State.count_dbg (s : State) (a n : Nat) : (s.count a n).dbg = s.dbg := rfl
@[simp] theorem State.count_mbs (s : State) (a n : Nat) : (s.count a n).mbs = s.mbs := rfl
@[simp] theorem State.count_otp (s : State) (a n : Nat) : (s.count a n).otp = s.otp := rfl
@[simp] theorem State.count_nor (s : State) (a n : Nat) : (s.count a n).nor = s.nor := rfl
@[simp] theorem State.count_sys (s : State) (a n : Nat) : (s.count a n).sys = s.sys := rfl
@[simp] theorem State.count_tap (s : State) (a n : Nat) : (s.count a n).tap = s.tap := rfl
@[simp] theorem State.count_i2c (s : State) (a n : Nat) : (s.count a n).i2c = s.i2c := rfl
@[simp] theorem State.count_dramWb (s : State) (a n : Nat) : (s.count a n).dramWb = s.dramWb := rfl
@[simp] theorem State.count_matWb (s : State) (a n : Nat) : (s.count a n).matWb = s.matWb := rfl
@[simp] theorem State.count_wbDone (s : State) (a n : Nat) : (s.count a n).wbDone = s.wbDone := rfl
@[simp] theorem State.count_hot (s : State) (a n : Nat) : (s.count a n).hot = s.hot := rfl
@[simp] theorem State.count_patrol (s : State) (a n : Nat) : (s.count a n).patrol = s.patrol := rfl
@[simp] theorem State.count_out (s : State) (a n : Nat) : (s.count a n).out = s.out := rfl
@[simp] theorem State.count_free (s : State) (a n : Nat) : (s.count a n).free = s.free := rfl
@[simp] theorem State.count_pending (s : State) (a n : Nat) : (s.count a n).pending = s.pending := rfl
@[simp] theorem State.count_repairs (s : State) (a n : Nat) : (s.count a n).repairs = s.repairs := rfl
@[simp] theorem State.count_matHeld (s : State) (a n : Nat) : (s.count a n).matHeld = s.matHeld := rfl
@[simp] theorem State.count_matWait (s : State) (a n : Nat) : (s.count a n).matWait = s.matWait := rfl
@[simp] theorem State.count_dramWait (s : State) (a n : Nat) : (s.count a n).dramWait = s.dramWait := rfl
@[simp] theorem State.count_release (s : State) (a n : Nat) : (s.count a n).release = s.release := rfl
@[simp] theorem State.frond_count (s : State) (a n : Nat) (f : Fin 4) : (s.count a n).frond f = s.frond f := rfl
@[simp] theorem State.port_count (s : State) (a n : Nat) (p : Fin 4) : (s.count a n).port p = s.port p := rfl
@[simp] theorem State.part_count (s : State) (a n : Nat) (r : Fin 4) : (s.count a n).part r = s.part r := rfl
@[simp] theorem State.link_count (s : State) (a n : Nat) (l : Fin 3) : (s.count a n).link l = s.link l := rfl
@[simp] theorem State.stream_count (s : State) (a n : Nat) (c : Nat) : (s.count a n).stream c = s.stream c := rfl
@[simp] theorem State.job_count (s : State) (a n : Nat) (j : Nat) : (s.count a n).job j = s.job j := rfl
@[simp] theorem State.owned_count (s : State) (a n : Nat) (r : Fin 4) : (s.count a n).owned r = s.owned r := rfl
@[simp] theorem State.now_count (s : State) (a n : Nat) : (s.count a n).now = s.now := rfl
@[simp] theorem State.deckNow_count (s : State) (a n : Nat) : (s.count a n).deckNow = s.deckNow := rfl
@[simp] theorem State.ring_count (s : State) (a n : Nat) (p : Fin 4) (d : Nat) : (s.count a n).ring p d = s.ring p d := rfl
@[simp] theorem State.groupOf_count (s : State) (a n : Nat) (key : Word) : (s.count a n).groupOf key = s.groupOf key := rfl
@[simp] theorem State.countWrap_mem (s : State) (a : Nat) : (s.countWrap a).mem = s.mem := rfl
@[simp] theorem State.countWrap_bcw (s : State) (a : Nat) : (s.countWrap a).bcw = s.bcw := rfl
@[simp] theorem State.countWrap_upsets (s : State) (a : Nat) : (s.countWrap a).upsets = s.upsets := rfl
@[simp] theorem State.countWrap_latch (s : State) (a : Nat) : (s.countWrap a).latch = s.latch := rfl
@[simp] theorem State.countWrap_fronds (s : State) (a : Nat) : (s.countWrap a).fronds = s.fronds := rfl
@[simp] theorem State.countWrap_ports (s : State) (a : Nat) : (s.countWrap a).ports = s.ports := rfl
@[simp] theorem State.countWrap_parts (s : State) (a : Nat) : (s.countWrap a).parts = s.parts := rfl
@[simp] theorem State.countWrap_links (s : State) (a : Nat) : (s.countWrap a).links = s.links := rfl
@[simp] theorem State.countWrap_streams (s : State) (a : Nat) : (s.countWrap a).streams = s.streams := rfl
@[simp] theorem State.countWrap_dealer (s : State) (a : Nat) : (s.countWrap a).dealer = s.dealer := rfl
@[simp] theorem State.countWrap_time (s : State) (a : Nat) : (s.countWrap a).time = s.time := rfl
@[simp] theorem State.countWrap_allocs (s : State) (a : Nat) : (s.countWrap a).allocs = s.allocs := rfl
@[simp] theorem State.countWrap_pools (s : State) (a : Nat) : (s.countWrap a).pools = s.pools := rfl
@[simp] theorem State.countWrap_seqs (s : State) (a : Nat) : (s.countWrap a).seqs = s.seqs := rfl
@[simp] theorem State.countWrap_progs (s : State) (a : Nat) : (s.countWrap a).progs = s.progs := rfl
@[simp] theorem State.countWrap_jobs (s : State) (a : Nat) : (s.countWrap a).jobs = s.jobs := rfl
@[simp] theorem State.countWrap_nextId (s : State) (a : Nat) : (s.countWrap a).nextId = s.nextId := rfl
@[simp] theorem State.countWrap_groups (s : State) (a : Nat) : (s.countWrap a).groups = s.groups := rfl
@[simp] theorem State.countWrap_tricks (s : State) (a : Nat) : (s.countWrap a).tricks = s.tricks := rfl
@[simp] theorem State.countWrap_fcol (s : State) (a : Nat) : (s.countWrap a).fcol = s.fcol := rfl
@[simp] theorem State.countWrap_ages (s : State) (a : Nat) : (s.countWrap a).ages = s.ages := rfl
@[simp] theorem State.countWrap_safety (s : State) (a : Nat) : (s.countWrap a).safety = s.safety := rfl
@[simp] theorem State.countWrap_power (s : State) (a : Nat) : (s.countWrap a).power = s.power := rfl
@[simp] theorem State.countWrap_dbg (s : State) (a : Nat) : (s.countWrap a).dbg = s.dbg := rfl
@[simp] theorem State.countWrap_mbs (s : State) (a : Nat) : (s.countWrap a).mbs = s.mbs := rfl
@[simp] theorem State.countWrap_otp (s : State) (a : Nat) : (s.countWrap a).otp = s.otp := rfl
@[simp] theorem State.countWrap_nor (s : State) (a : Nat) : (s.countWrap a).nor = s.nor := rfl
@[simp] theorem State.countWrap_sys (s : State) (a : Nat) : (s.countWrap a).sys = s.sys := rfl
@[simp] theorem State.countWrap_tap (s : State) (a : Nat) : (s.countWrap a).tap = s.tap := rfl
@[simp] theorem State.countWrap_i2c (s : State) (a : Nat) : (s.countWrap a).i2c = s.i2c := rfl
@[simp] theorem State.countWrap_dramWb (s : State) (a : Nat) : (s.countWrap a).dramWb = s.dramWb := rfl
@[simp] theorem State.countWrap_matWb (s : State) (a : Nat) : (s.countWrap a).matWb = s.matWb := rfl
@[simp] theorem State.countWrap_wbDone (s : State) (a : Nat) : (s.countWrap a).wbDone = s.wbDone := rfl
@[simp] theorem State.countWrap_hot (s : State) (a : Nat) : (s.countWrap a).hot = s.hot := rfl
@[simp] theorem State.countWrap_patrol (s : State) (a : Nat) : (s.countWrap a).patrol = s.patrol := rfl
@[simp] theorem State.countWrap_out (s : State) (a : Nat) : (s.countWrap a).out = s.out := rfl
@[simp] theorem State.countWrap_free (s : State) (a : Nat) : (s.countWrap a).free = s.free := rfl
@[simp] theorem State.countWrap_pending (s : State) (a : Nat) : (s.countWrap a).pending = s.pending := rfl
@[simp] theorem State.countWrap_repairs (s : State) (a : Nat) : (s.countWrap a).repairs = s.repairs := rfl
@[simp] theorem State.countWrap_matHeld (s : State) (a : Nat) : (s.countWrap a).matHeld = s.matHeld := rfl
@[simp] theorem State.countWrap_matWait (s : State) (a : Nat) : (s.countWrap a).matWait = s.matWait := rfl
@[simp] theorem State.countWrap_dramWait (s : State) (a : Nat) : (s.countWrap a).dramWait = s.dramWait := rfl
@[simp] theorem State.countWrap_release (s : State) (a : Nat) : (s.countWrap a).release = s.release := rfl
@[simp] theorem State.frond_countWrap (s : State) (a : Nat) (f : Fin 4) : (s.countWrap a).frond f = s.frond f := rfl
@[simp] theorem State.port_countWrap (s : State) (a : Nat) (p : Fin 4) : (s.countWrap a).port p = s.port p := rfl
@[simp] theorem State.part_countWrap (s : State) (a : Nat) (r : Fin 4) : (s.countWrap a).part r = s.part r := rfl
@[simp] theorem State.link_countWrap (s : State) (a : Nat) (l : Fin 3) : (s.countWrap a).link l = s.link l := rfl
@[simp] theorem State.stream_countWrap (s : State) (a : Nat) (c : Nat) : (s.countWrap a).stream c = s.stream c := rfl
@[simp] theorem State.job_countWrap (s : State) (a : Nat) (j : Nat) : (s.countWrap a).job j = s.job j := rfl
@[simp] theorem State.owned_countWrap (s : State) (a : Nat) (r : Fin 4) : (s.countWrap a).owned r = s.owned r := rfl
@[simp] theorem State.now_countWrap (s : State) (a : Nat) : (s.countWrap a).now = s.now := rfl
@[simp] theorem State.deckNow_countWrap (s : State) (a : Nat) : (s.countWrap a).deckNow = s.deckNow := rfl
@[simp] theorem State.ring_countWrap (s : State) (a : Nat) (p : Fin 4) (d : Nat) : (s.countWrap a).ring p d = s.ring p d := rfl
@[simp] theorem State.groupOf_countWrap (s : State) (a : Nat) (key : Word) : (s.countWrap a).groupOf key = s.groupOf key := rfl
@[simp] theorem State.clearRegs_mem (s : State) (q : Nat → Bool) : (s.clearRegs q).mem = s.mem := rfl
@[simp] theorem State.clearRegs_bcw (s : State) (q : Nat → Bool) : (s.clearRegs q).bcw = s.bcw := rfl
@[simp] theorem State.clearRegs_upsets (s : State) (q : Nat → Bool) : (s.clearRegs q).upsets = s.upsets := rfl
@[simp] theorem State.clearRegs_latch (s : State) (q : Nat → Bool) : (s.clearRegs q).latch = s.latch := rfl
@[simp] theorem State.clearRegs_fronds (s : State) (q : Nat → Bool) : (s.clearRegs q).fronds = s.fronds := rfl
@[simp] theorem State.clearRegs_ports (s : State) (q : Nat → Bool) : (s.clearRegs q).ports = s.ports := rfl
@[simp] theorem State.clearRegs_parts (s : State) (q : Nat → Bool) : (s.clearRegs q).parts = s.parts := rfl
@[simp] theorem State.clearRegs_links (s : State) (q : Nat → Bool) : (s.clearRegs q).links = s.links := rfl
@[simp] theorem State.clearRegs_streams (s : State) (q : Nat → Bool) : (s.clearRegs q).streams = s.streams := rfl
@[simp] theorem State.clearRegs_dealer (s : State) (q : Nat → Bool) : (s.clearRegs q).dealer = s.dealer := rfl
@[simp] theorem State.clearRegs_time (s : State) (q : Nat → Bool) : (s.clearRegs q).time = s.time := rfl
@[simp] theorem State.clearRegs_allocs (s : State) (q : Nat → Bool) : (s.clearRegs q).allocs = s.allocs := rfl
@[simp] theorem State.clearRegs_pools (s : State) (q : Nat → Bool) : (s.clearRegs q).pools = s.pools := rfl
@[simp] theorem State.clearRegs_seqs (s : State) (q : Nat → Bool) : (s.clearRegs q).seqs = s.seqs := rfl
@[simp] theorem State.clearRegs_progs (s : State) (q : Nat → Bool) : (s.clearRegs q).progs = s.progs := rfl
@[simp] theorem State.clearRegs_jobs (s : State) (q : Nat → Bool) : (s.clearRegs q).jobs = s.jobs := rfl
@[simp] theorem State.clearRegs_nextId (s : State) (q : Nat → Bool) : (s.clearRegs q).nextId = s.nextId := rfl
@[simp] theorem State.clearRegs_groups (s : State) (q : Nat → Bool) : (s.clearRegs q).groups = s.groups := rfl
@[simp] theorem State.clearRegs_tricks (s : State) (q : Nat → Bool) : (s.clearRegs q).tricks = s.tricks := rfl
@[simp] theorem State.clearRegs_fcol (s : State) (q : Nat → Bool) : (s.clearRegs q).fcol = s.fcol := rfl
@[simp] theorem State.clearRegs_ages (s : State) (q : Nat → Bool) : (s.clearRegs q).ages = s.ages := rfl
@[simp] theorem State.clearRegs_safety (s : State) (q : Nat → Bool) : (s.clearRegs q).safety = s.safety := rfl
@[simp] theorem State.clearRegs_power (s : State) (q : Nat → Bool) : (s.clearRegs q).power = s.power := rfl
@[simp] theorem State.clearRegs_dbg (s : State) (q : Nat → Bool) : (s.clearRegs q).dbg = s.dbg := rfl
@[simp] theorem State.clearRegs_mbs (s : State) (q : Nat → Bool) : (s.clearRegs q).mbs = s.mbs := rfl
@[simp] theorem State.clearRegs_otp (s : State) (q : Nat → Bool) : (s.clearRegs q).otp = s.otp := rfl
@[simp] theorem State.clearRegs_nor (s : State) (q : Nat → Bool) : (s.clearRegs q).nor = s.nor := rfl
@[simp] theorem State.clearRegs_sys (s : State) (q : Nat → Bool) : (s.clearRegs q).sys = s.sys := rfl
@[simp] theorem State.clearRegs_tap (s : State) (q : Nat → Bool) : (s.clearRegs q).tap = s.tap := rfl
@[simp] theorem State.clearRegs_i2c (s : State) (q : Nat → Bool) : (s.clearRegs q).i2c = s.i2c := rfl
@[simp] theorem State.clearRegs_dramWb (s : State) (q : Nat → Bool) : (s.clearRegs q).dramWb = s.dramWb := rfl
@[simp] theorem State.clearRegs_matWb (s : State) (q : Nat → Bool) : (s.clearRegs q).matWb = s.matWb := rfl
@[simp] theorem State.clearRegs_wbDone (s : State) (q : Nat → Bool) : (s.clearRegs q).wbDone = s.wbDone := rfl
@[simp] theorem State.clearRegs_hot (s : State) (q : Nat → Bool) : (s.clearRegs q).hot = s.hot := rfl
@[simp] theorem State.clearRegs_patrol (s : State) (q : Nat → Bool) : (s.clearRegs q).patrol = s.patrol := rfl
@[simp] theorem State.clearRegs_out (s : State) (q : Nat → Bool) : (s.clearRegs q).out = s.out := rfl
@[simp] theorem State.clearRegs_free (s : State) (q : Nat → Bool) : (s.clearRegs q).free = s.free := rfl
@[simp] theorem State.clearRegs_pending (s : State) (q : Nat → Bool) : (s.clearRegs q).pending = s.pending := rfl
@[simp] theorem State.clearRegs_repairs (s : State) (q : Nat → Bool) : (s.clearRegs q).repairs = s.repairs := rfl
@[simp] theorem State.clearRegs_matHeld (s : State) (q : Nat → Bool) : (s.clearRegs q).matHeld = s.matHeld := rfl
@[simp] theorem State.clearRegs_matWait (s : State) (q : Nat → Bool) : (s.clearRegs q).matWait = s.matWait := rfl
@[simp] theorem State.clearRegs_dramWait (s : State) (q : Nat → Bool) : (s.clearRegs q).dramWait = s.dramWait := rfl
@[simp] theorem State.clearRegs_release (s : State) (q : Nat → Bool) : (s.clearRegs q).release = s.release := rfl
@[simp] theorem State.frond_clearRegs (s : State) (q : Nat → Bool) (f : Fin 4) : (s.clearRegs q).frond f = s.frond f := rfl
@[simp] theorem State.port_clearRegs (s : State) (q : Nat → Bool) (p : Fin 4) : (s.clearRegs q).port p = s.port p := rfl
@[simp] theorem State.part_clearRegs (s : State) (q : Nat → Bool) (r : Fin 4) : (s.clearRegs q).part r = s.part r := rfl
@[simp] theorem State.link_clearRegs (s : State) (q : Nat → Bool) (l : Fin 3) : (s.clearRegs q).link l = s.link l := rfl
@[simp] theorem State.stream_clearRegs (s : State) (q : Nat → Bool) (c : Nat) : (s.clearRegs q).stream c = s.stream c := rfl
@[simp] theorem State.job_clearRegs (s : State) (q : Nat → Bool) (j : Nat) : (s.clearRegs q).job j = s.job j := rfl
@[simp] theorem State.owned_clearRegs (s : State) (q : Nat → Bool) (r : Fin 4) : (s.clearRegs q).owned r = s.owned r := rfl
@[simp] theorem State.now_clearRegs (s : State) (q : Nat → Bool) : (s.clearRegs q).now = s.now := rfl
@[simp] theorem State.deckNow_clearRegs (s : State) (q : Nat → Bool) : (s.clearRegs q).deckNow = s.deckNow := rfl
@[simp] theorem State.ring_clearRegs (s : State) (q : Nat → Bool) (p : Fin 4) (d : Nat) : (s.clearRegs q).ring p d = s.ring p d := rfl
@[simp] theorem State.groupOf_clearRegs (s : State) (q : Nat → Bool) (key : Word) : (s.clearRegs q).groupOf key = s.groupOf key := rfl
@[simp] theorem State.setFrond_mem (s : State) (h : Fin 4) (x : Frond) : (s.setFrond h x).mem = s.mem := rfl
@[simp] theorem State.setFrond_bcw (s : State) (h : Fin 4) (x : Frond) : (s.setFrond h x).bcw = s.bcw := rfl
@[simp] theorem State.setFrond_upsets (s : State) (h : Fin 4) (x : Frond) : (s.setFrond h x).upsets = s.upsets := rfl
@[simp] theorem State.setFrond_regs (s : State) (h : Fin 4) (x : Frond) : (s.setFrond h x).regs = s.regs := rfl
@[simp] theorem State.setFrond_latch (s : State) (h : Fin 4) (x : Frond) : (s.setFrond h x).latch = s.latch := rfl
@[simp] theorem State.setFrond_ports (s : State) (h : Fin 4) (x : Frond) : (s.setFrond h x).ports = s.ports := rfl
@[simp] theorem State.setFrond_parts (s : State) (h : Fin 4) (x : Frond) : (s.setFrond h x).parts = s.parts := rfl
@[simp] theorem State.setFrond_links (s : State) (h : Fin 4) (x : Frond) : (s.setFrond h x).links = s.links := rfl
@[simp] theorem State.setFrond_streams (s : State) (h : Fin 4) (x : Frond) : (s.setFrond h x).streams = s.streams := rfl
@[simp] theorem State.setFrond_dealer (s : State) (h : Fin 4) (x : Frond) : (s.setFrond h x).dealer = s.dealer := rfl
@[simp] theorem State.setFrond_time (s : State) (h : Fin 4) (x : Frond) : (s.setFrond h x).time = s.time := rfl
@[simp] theorem State.setFrond_allocs (s : State) (h : Fin 4) (x : Frond) : (s.setFrond h x).allocs = s.allocs := rfl
@[simp] theorem State.setFrond_pools (s : State) (h : Fin 4) (x : Frond) : (s.setFrond h x).pools = s.pools := rfl
@[simp] theorem State.setFrond_seqs (s : State) (h : Fin 4) (x : Frond) : (s.setFrond h x).seqs = s.seqs := rfl
@[simp] theorem State.setFrond_progs (s : State) (h : Fin 4) (x : Frond) : (s.setFrond h x).progs = s.progs := rfl
@[simp] theorem State.setFrond_jobs (s : State) (h : Fin 4) (x : Frond) : (s.setFrond h x).jobs = s.jobs := rfl
@[simp] theorem State.setFrond_nextId (s : State) (h : Fin 4) (x : Frond) : (s.setFrond h x).nextId = s.nextId := rfl
@[simp] theorem State.setFrond_groups (s : State) (h : Fin 4) (x : Frond) : (s.setFrond h x).groups = s.groups := rfl
@[simp] theorem State.setFrond_tricks (s : State) (h : Fin 4) (x : Frond) : (s.setFrond h x).tricks = s.tricks := rfl
@[simp] theorem State.setFrond_fcol (s : State) (h : Fin 4) (x : Frond) : (s.setFrond h x).fcol = s.fcol := rfl
@[simp] theorem State.setFrond_ages (s : State) (h : Fin 4) (x : Frond) : (s.setFrond h x).ages = s.ages := rfl
@[simp] theorem State.setFrond_safety (s : State) (h : Fin 4) (x : Frond) : (s.setFrond h x).safety = s.safety := rfl
@[simp] theorem State.setFrond_power (s : State) (h : Fin 4) (x : Frond) : (s.setFrond h x).power = s.power := rfl
@[simp] theorem State.setFrond_dbg (s : State) (h : Fin 4) (x : Frond) : (s.setFrond h x).dbg = s.dbg := rfl
@[simp] theorem State.setFrond_mbs (s : State) (h : Fin 4) (x : Frond) : (s.setFrond h x).mbs = s.mbs := rfl
@[simp] theorem State.setFrond_otp (s : State) (h : Fin 4) (x : Frond) : (s.setFrond h x).otp = s.otp := rfl
@[simp] theorem State.setFrond_nor (s : State) (h : Fin 4) (x : Frond) : (s.setFrond h x).nor = s.nor := rfl
@[simp] theorem State.setFrond_sys (s : State) (h : Fin 4) (x : Frond) : (s.setFrond h x).sys = s.sys := rfl
@[simp] theorem State.setFrond_tap (s : State) (h : Fin 4) (x : Frond) : (s.setFrond h x).tap = s.tap := rfl
@[simp] theorem State.setFrond_i2c (s : State) (h : Fin 4) (x : Frond) : (s.setFrond h x).i2c = s.i2c := rfl
@[simp] theorem State.setFrond_dramWb (s : State) (h : Fin 4) (x : Frond) : (s.setFrond h x).dramWb = s.dramWb := rfl
@[simp] theorem State.setFrond_matWb (s : State) (h : Fin 4) (x : Frond) : (s.setFrond h x).matWb = s.matWb := rfl
@[simp] theorem State.setFrond_wbDone (s : State) (h : Fin 4) (x : Frond) : (s.setFrond h x).wbDone = s.wbDone := rfl
@[simp] theorem State.setFrond_hot (s : State) (h : Fin 4) (x : Frond) : (s.setFrond h x).hot = s.hot := rfl
@[simp] theorem State.setFrond_patrol (s : State) (h : Fin 4) (x : Frond) : (s.setFrond h x).patrol = s.patrol := rfl
@[simp] theorem State.setFrond_out (s : State) (h : Fin 4) (x : Frond) : (s.setFrond h x).out = s.out := rfl
@[simp] theorem State.setFrond_free (s : State) (h : Fin 4) (x : Frond) : (s.setFrond h x).free = s.free := rfl
@[simp] theorem State.setFrond_pending (s : State) (h : Fin 4) (x : Frond) : (s.setFrond h x).pending = s.pending := rfl
@[simp] theorem State.setFrond_repairs (s : State) (h : Fin 4) (x : Frond) : (s.setFrond h x).repairs = s.repairs := rfl
@[simp] theorem State.setFrond_matHeld (s : State) (h : Fin 4) (x : Frond) : (s.setFrond h x).matHeld = s.matHeld := rfl
@[simp] theorem State.setFrond_matWait (s : State) (h : Fin 4) (x : Frond) : (s.setFrond h x).matWait = s.matWait := rfl
@[simp] theorem State.setFrond_dramWait (s : State) (h : Fin 4) (x : Frond) : (s.setFrond h x).dramWait = s.dramWait := rfl
@[simp] theorem State.setFrond_release (s : State) (h : Fin 4) (x : Frond) : (s.setFrond h x).release = s.release := rfl
@[simp] theorem State.port_setFrond (s : State) (h : Fin 4) (x : Frond) (p : Fin 4) : (s.setFrond h x).port p = s.port p := rfl
@[simp] theorem State.part_setFrond (s : State) (h : Fin 4) (x : Frond) (r : Fin 4) : (s.setFrond h x).part r = s.part r := rfl
@[simp] theorem State.link_setFrond (s : State) (h : Fin 4) (x : Frond) (l : Fin 3) : (s.setFrond h x).link l = s.link l := rfl
@[simp] theorem State.stream_setFrond (s : State) (h : Fin 4) (x : Frond) (c : Nat) : (s.setFrond h x).stream c = s.stream c := rfl
@[simp] theorem State.job_setFrond (s : State) (h : Fin 4) (x : Frond) (j : Nat) : (s.setFrond h x).job j = s.job j := rfl
@[simp] theorem State.reg_setFrond (s : State) (h : Fin 4) (x : Frond) (o : Nat) : (s.setFrond h x).reg o = s.reg o := rfl
@[simp] theorem State.owned_setFrond (s : State) (h : Fin 4) (x : Frond) (r : Fin 4) : (s.setFrond h x).owned r = s.owned r := rfl
@[simp] theorem State.now_setFrond (s : State) (h : Fin 4) (x : Frond) : (s.setFrond h x).now = s.now := rfl
@[simp] theorem State.deckNow_setFrond (s : State) (h : Fin 4) (x : Frond) : (s.setFrond h x).deckNow = s.deckNow := rfl
@[simp] theorem State.ring_setFrond (s : State) (h : Fin 4) (x : Frond) (p : Fin 4) (d : Nat) : (s.setFrond h x).ring p d = s.ring p d := rfl
@[simp] theorem State.groupOf_setFrond (s : State) (h : Fin 4) (x : Frond) (key : Word) : (s.setFrond h x).groupOf key = s.groupOf key := rfl
@[simp] theorem State.modFrond_mem (s : State) (h : Fin 4) (g : Frond → Frond) : (s.modFrond h g).mem = s.mem := rfl
@[simp] theorem State.modFrond_bcw (s : State) (h : Fin 4) (g : Frond → Frond) : (s.modFrond h g).bcw = s.bcw := rfl
@[simp] theorem State.modFrond_upsets (s : State) (h : Fin 4) (g : Frond → Frond) : (s.modFrond h g).upsets = s.upsets := rfl
@[simp] theorem State.modFrond_regs (s : State) (h : Fin 4) (g : Frond → Frond) : (s.modFrond h g).regs = s.regs := rfl
@[simp] theorem State.modFrond_latch (s : State) (h : Fin 4) (g : Frond → Frond) : (s.modFrond h g).latch = s.latch := rfl
@[simp] theorem State.modFrond_ports (s : State) (h : Fin 4) (g : Frond → Frond) : (s.modFrond h g).ports = s.ports := rfl
@[simp] theorem State.modFrond_parts (s : State) (h : Fin 4) (g : Frond → Frond) : (s.modFrond h g).parts = s.parts := rfl
@[simp] theorem State.modFrond_links (s : State) (h : Fin 4) (g : Frond → Frond) : (s.modFrond h g).links = s.links := rfl
@[simp] theorem State.modFrond_streams (s : State) (h : Fin 4) (g : Frond → Frond) : (s.modFrond h g).streams = s.streams := rfl
@[simp] theorem State.modFrond_dealer (s : State) (h : Fin 4) (g : Frond → Frond) : (s.modFrond h g).dealer = s.dealer := rfl
@[simp] theorem State.modFrond_time (s : State) (h : Fin 4) (g : Frond → Frond) : (s.modFrond h g).time = s.time := rfl
@[simp] theorem State.modFrond_allocs (s : State) (h : Fin 4) (g : Frond → Frond) : (s.modFrond h g).allocs = s.allocs := rfl
@[simp] theorem State.modFrond_pools (s : State) (h : Fin 4) (g : Frond → Frond) : (s.modFrond h g).pools = s.pools := rfl
@[simp] theorem State.modFrond_seqs (s : State) (h : Fin 4) (g : Frond → Frond) : (s.modFrond h g).seqs = s.seqs := rfl
@[simp] theorem State.modFrond_progs (s : State) (h : Fin 4) (g : Frond → Frond) : (s.modFrond h g).progs = s.progs := rfl
@[simp] theorem State.modFrond_jobs (s : State) (h : Fin 4) (g : Frond → Frond) : (s.modFrond h g).jobs = s.jobs := rfl
@[simp] theorem State.modFrond_nextId (s : State) (h : Fin 4) (g : Frond → Frond) : (s.modFrond h g).nextId = s.nextId := rfl
@[simp] theorem State.modFrond_groups (s : State) (h : Fin 4) (g : Frond → Frond) : (s.modFrond h g).groups = s.groups := rfl
@[simp] theorem State.modFrond_tricks (s : State) (h : Fin 4) (g : Frond → Frond) : (s.modFrond h g).tricks = s.tricks := rfl
@[simp] theorem State.modFrond_fcol (s : State) (h : Fin 4) (g : Frond → Frond) : (s.modFrond h g).fcol = s.fcol := rfl
@[simp] theorem State.modFrond_ages (s : State) (h : Fin 4) (g : Frond → Frond) : (s.modFrond h g).ages = s.ages := rfl
@[simp] theorem State.modFrond_safety (s : State) (h : Fin 4) (g : Frond → Frond) : (s.modFrond h g).safety = s.safety := rfl
@[simp] theorem State.modFrond_power (s : State) (h : Fin 4) (g : Frond → Frond) : (s.modFrond h g).power = s.power := rfl
@[simp] theorem State.modFrond_dbg (s : State) (h : Fin 4) (g : Frond → Frond) : (s.modFrond h g).dbg = s.dbg := rfl
@[simp] theorem State.modFrond_mbs (s : State) (h : Fin 4) (g : Frond → Frond) : (s.modFrond h g).mbs = s.mbs := rfl
@[simp] theorem State.modFrond_otp (s : State) (h : Fin 4) (g : Frond → Frond) : (s.modFrond h g).otp = s.otp := rfl
@[simp] theorem State.modFrond_nor (s : State) (h : Fin 4) (g : Frond → Frond) : (s.modFrond h g).nor = s.nor := rfl
@[simp] theorem State.modFrond_sys (s : State) (h : Fin 4) (g : Frond → Frond) : (s.modFrond h g).sys = s.sys := rfl
@[simp] theorem State.modFrond_tap (s : State) (h : Fin 4) (g : Frond → Frond) : (s.modFrond h g).tap = s.tap := rfl
@[simp] theorem State.modFrond_i2c (s : State) (h : Fin 4) (g : Frond → Frond) : (s.modFrond h g).i2c = s.i2c := rfl
@[simp] theorem State.modFrond_dramWb (s : State) (h : Fin 4) (g : Frond → Frond) : (s.modFrond h g).dramWb = s.dramWb := rfl
@[simp] theorem State.modFrond_matWb (s : State) (h : Fin 4) (g : Frond → Frond) : (s.modFrond h g).matWb = s.matWb := rfl
@[simp] theorem State.modFrond_wbDone (s : State) (h : Fin 4) (g : Frond → Frond) : (s.modFrond h g).wbDone = s.wbDone := rfl
@[simp] theorem State.modFrond_hot (s : State) (h : Fin 4) (g : Frond → Frond) : (s.modFrond h g).hot = s.hot := rfl
@[simp] theorem State.modFrond_patrol (s : State) (h : Fin 4) (g : Frond → Frond) : (s.modFrond h g).patrol = s.patrol := rfl
@[simp] theorem State.modFrond_out (s : State) (h : Fin 4) (g : Frond → Frond) : (s.modFrond h g).out = s.out := rfl
@[simp] theorem State.modFrond_free (s : State) (h : Fin 4) (g : Frond → Frond) : (s.modFrond h g).free = s.free := rfl
@[simp] theorem State.modFrond_pending (s : State) (h : Fin 4) (g : Frond → Frond) : (s.modFrond h g).pending = s.pending := rfl
@[simp] theorem State.modFrond_repairs (s : State) (h : Fin 4) (g : Frond → Frond) : (s.modFrond h g).repairs = s.repairs := rfl
@[simp] theorem State.modFrond_matHeld (s : State) (h : Fin 4) (g : Frond → Frond) : (s.modFrond h g).matHeld = s.matHeld := rfl
@[simp] theorem State.modFrond_matWait (s : State) (h : Fin 4) (g : Frond → Frond) : (s.modFrond h g).matWait = s.matWait := rfl
@[simp] theorem State.modFrond_dramWait (s : State) (h : Fin 4) (g : Frond → Frond) : (s.modFrond h g).dramWait = s.dramWait := rfl
@[simp] theorem State.modFrond_release (s : State) (h : Fin 4) (g : Frond → Frond) : (s.modFrond h g).release = s.release := rfl
@[simp] theorem State.port_modFrond (s : State) (h : Fin 4) (g : Frond → Frond) (p : Fin 4) : (s.modFrond h g).port p = s.port p := rfl
@[simp] theorem State.part_modFrond (s : State) (h : Fin 4) (g : Frond → Frond) (r : Fin 4) : (s.modFrond h g).part r = s.part r := rfl
@[simp] theorem State.link_modFrond (s : State) (h : Fin 4) (g : Frond → Frond) (l : Fin 3) : (s.modFrond h g).link l = s.link l := rfl
@[simp] theorem State.stream_modFrond (s : State) (h : Fin 4) (g : Frond → Frond) (c : Nat) : (s.modFrond h g).stream c = s.stream c := rfl
@[simp] theorem State.job_modFrond (s : State) (h : Fin 4) (g : Frond → Frond) (j : Nat) : (s.modFrond h g).job j = s.job j := rfl
@[simp] theorem State.reg_modFrond (s : State) (h : Fin 4) (g : Frond → Frond) (o : Nat) : (s.modFrond h g).reg o = s.reg o := rfl
@[simp] theorem State.owned_modFrond (s : State) (h : Fin 4) (g : Frond → Frond) (r : Fin 4) : (s.modFrond h g).owned r = s.owned r := rfl
@[simp] theorem State.now_modFrond (s : State) (h : Fin 4) (g : Frond → Frond) : (s.modFrond h g).now = s.now := rfl
@[simp] theorem State.deckNow_modFrond (s : State) (h : Fin 4) (g : Frond → Frond) : (s.modFrond h g).deckNow = s.deckNow := rfl
@[simp] theorem State.ring_modFrond (s : State) (h : Fin 4) (g : Frond → Frond) (p : Fin 4) (d : Nat) : (s.modFrond h g).ring p d = s.ring p d := rfl
@[simp] theorem State.groupOf_modFrond (s : State) (h : Fin 4) (g : Frond → Frond) (key : Word) : (s.modFrond h g).groupOf key = s.groupOf key := rfl
@[simp] theorem State.setPort_mem (s : State) (h : Fin 4) (x : Port) : (s.setPort h x).mem = s.mem := rfl
@[simp] theorem State.setPort_bcw (s : State) (h : Fin 4) (x : Port) : (s.setPort h x).bcw = s.bcw := rfl
@[simp] theorem State.setPort_upsets (s : State) (h : Fin 4) (x : Port) : (s.setPort h x).upsets = s.upsets := rfl
@[simp] theorem State.setPort_regs (s : State) (h : Fin 4) (x : Port) : (s.setPort h x).regs = s.regs := rfl
@[simp] theorem State.setPort_latch (s : State) (h : Fin 4) (x : Port) : (s.setPort h x).latch = s.latch := rfl
@[simp] theorem State.setPort_fronds (s : State) (h : Fin 4) (x : Port) : (s.setPort h x).fronds = s.fronds := rfl
@[simp] theorem State.setPort_parts (s : State) (h : Fin 4) (x : Port) : (s.setPort h x).parts = s.parts := rfl
@[simp] theorem State.setPort_links (s : State) (h : Fin 4) (x : Port) : (s.setPort h x).links = s.links := rfl
@[simp] theorem State.setPort_streams (s : State) (h : Fin 4) (x : Port) : (s.setPort h x).streams = s.streams := rfl
@[simp] theorem State.setPort_dealer (s : State) (h : Fin 4) (x : Port) : (s.setPort h x).dealer = s.dealer := rfl
@[simp] theorem State.setPort_time (s : State) (h : Fin 4) (x : Port) : (s.setPort h x).time = s.time := rfl
@[simp] theorem State.setPort_allocs (s : State) (h : Fin 4) (x : Port) : (s.setPort h x).allocs = s.allocs := rfl
@[simp] theorem State.setPort_pools (s : State) (h : Fin 4) (x : Port) : (s.setPort h x).pools = s.pools := rfl
@[simp] theorem State.setPort_seqs (s : State) (h : Fin 4) (x : Port) : (s.setPort h x).seqs = s.seqs := rfl
@[simp] theorem State.setPort_progs (s : State) (h : Fin 4) (x : Port) : (s.setPort h x).progs = s.progs := rfl
@[simp] theorem State.setPort_jobs (s : State) (h : Fin 4) (x : Port) : (s.setPort h x).jobs = s.jobs := rfl
@[simp] theorem State.setPort_nextId (s : State) (h : Fin 4) (x : Port) : (s.setPort h x).nextId = s.nextId := rfl
@[simp] theorem State.setPort_groups (s : State) (h : Fin 4) (x : Port) : (s.setPort h x).groups = s.groups := rfl
@[simp] theorem State.setPort_tricks (s : State) (h : Fin 4) (x : Port) : (s.setPort h x).tricks = s.tricks := rfl
@[simp] theorem State.setPort_fcol (s : State) (h : Fin 4) (x : Port) : (s.setPort h x).fcol = s.fcol := rfl
@[simp] theorem State.setPort_ages (s : State) (h : Fin 4) (x : Port) : (s.setPort h x).ages = s.ages := rfl
@[simp] theorem State.setPort_safety (s : State) (h : Fin 4) (x : Port) : (s.setPort h x).safety = s.safety := rfl
@[simp] theorem State.setPort_power (s : State) (h : Fin 4) (x : Port) : (s.setPort h x).power = s.power := rfl
@[simp] theorem State.setPort_dbg (s : State) (h : Fin 4) (x : Port) : (s.setPort h x).dbg = s.dbg := rfl
@[simp] theorem State.setPort_mbs (s : State) (h : Fin 4) (x : Port) : (s.setPort h x).mbs = s.mbs := rfl
@[simp] theorem State.setPort_otp (s : State) (h : Fin 4) (x : Port) : (s.setPort h x).otp = s.otp := rfl
@[simp] theorem State.setPort_nor (s : State) (h : Fin 4) (x : Port) : (s.setPort h x).nor = s.nor := rfl
@[simp] theorem State.setPort_sys (s : State) (h : Fin 4) (x : Port) : (s.setPort h x).sys = s.sys := rfl
@[simp] theorem State.setPort_tap (s : State) (h : Fin 4) (x : Port) : (s.setPort h x).tap = s.tap := rfl
@[simp] theorem State.setPort_i2c (s : State) (h : Fin 4) (x : Port) : (s.setPort h x).i2c = s.i2c := rfl
@[simp] theorem State.setPort_dramWb (s : State) (h : Fin 4) (x : Port) : (s.setPort h x).dramWb = s.dramWb := rfl
@[simp] theorem State.setPort_matWb (s : State) (h : Fin 4) (x : Port) : (s.setPort h x).matWb = s.matWb := rfl
@[simp] theorem State.setPort_wbDone (s : State) (h : Fin 4) (x : Port) : (s.setPort h x).wbDone = s.wbDone := rfl
@[simp] theorem State.setPort_hot (s : State) (h : Fin 4) (x : Port) : (s.setPort h x).hot = s.hot := rfl
@[simp] theorem State.setPort_patrol (s : State) (h : Fin 4) (x : Port) : (s.setPort h x).patrol = s.patrol := rfl
@[simp] theorem State.setPort_out (s : State) (h : Fin 4) (x : Port) : (s.setPort h x).out = s.out := rfl
@[simp] theorem State.setPort_free (s : State) (h : Fin 4) (x : Port) : (s.setPort h x).free = s.free := rfl
@[simp] theorem State.setPort_pending (s : State) (h : Fin 4) (x : Port) : (s.setPort h x).pending = s.pending := rfl
@[simp] theorem State.setPort_repairs (s : State) (h : Fin 4) (x : Port) : (s.setPort h x).repairs = s.repairs := rfl
@[simp] theorem State.setPort_matHeld (s : State) (h : Fin 4) (x : Port) : (s.setPort h x).matHeld = s.matHeld := rfl
@[simp] theorem State.setPort_matWait (s : State) (h : Fin 4) (x : Port) : (s.setPort h x).matWait = s.matWait := rfl
@[simp] theorem State.setPort_dramWait (s : State) (h : Fin 4) (x : Port) : (s.setPort h x).dramWait = s.dramWait := rfl
@[simp] theorem State.setPort_release (s : State) (h : Fin 4) (x : Port) : (s.setPort h x).release = s.release := rfl
@[simp] theorem State.frond_setPort (s : State) (h : Fin 4) (x : Port) (f : Fin 4) : (s.setPort h x).frond f = s.frond f := rfl
@[simp] theorem State.part_setPort (s : State) (h : Fin 4) (x : Port) (r : Fin 4) : (s.setPort h x).part r = s.part r := rfl
@[simp] theorem State.link_setPort (s : State) (h : Fin 4) (x : Port) (l : Fin 3) : (s.setPort h x).link l = s.link l := rfl
@[simp] theorem State.stream_setPort (s : State) (h : Fin 4) (x : Port) (c : Nat) : (s.setPort h x).stream c = s.stream c := rfl
@[simp] theorem State.job_setPort (s : State) (h : Fin 4) (x : Port) (j : Nat) : (s.setPort h x).job j = s.job j := rfl
@[simp] theorem State.reg_setPort (s : State) (h : Fin 4) (x : Port) (o : Nat) : (s.setPort h x).reg o = s.reg o := rfl
@[simp] theorem State.owned_setPort (s : State) (h : Fin 4) (x : Port) (r : Fin 4) : (s.setPort h x).owned r = s.owned r := rfl
@[simp] theorem State.now_setPort (s : State) (h : Fin 4) (x : Port) : (s.setPort h x).now = s.now := rfl
@[simp] theorem State.deckNow_setPort (s : State) (h : Fin 4) (x : Port) : (s.setPort h x).deckNow = s.deckNow := rfl
@[simp] theorem State.groupOf_setPort (s : State) (h : Fin 4) (x : Port) (key : Word) : (s.setPort h x).groupOf key = s.groupOf key := rfl
@[simp] theorem State.modPort_mem (s : State) (h : Fin 4) (g : Port → Port) : (s.modPort h g).mem = s.mem := rfl
@[simp] theorem State.modPort_bcw (s : State) (h : Fin 4) (g : Port → Port) : (s.modPort h g).bcw = s.bcw := rfl
@[simp] theorem State.modPort_upsets (s : State) (h : Fin 4) (g : Port → Port) : (s.modPort h g).upsets = s.upsets := rfl
@[simp] theorem State.modPort_regs (s : State) (h : Fin 4) (g : Port → Port) : (s.modPort h g).regs = s.regs := rfl
@[simp] theorem State.modPort_latch (s : State) (h : Fin 4) (g : Port → Port) : (s.modPort h g).latch = s.latch := rfl
@[simp] theorem State.modPort_fronds (s : State) (h : Fin 4) (g : Port → Port) : (s.modPort h g).fronds = s.fronds := rfl
@[simp] theorem State.modPort_parts (s : State) (h : Fin 4) (g : Port → Port) : (s.modPort h g).parts = s.parts := rfl
@[simp] theorem State.modPort_links (s : State) (h : Fin 4) (g : Port → Port) : (s.modPort h g).links = s.links := rfl
@[simp] theorem State.modPort_streams (s : State) (h : Fin 4) (g : Port → Port) : (s.modPort h g).streams = s.streams := rfl
@[simp] theorem State.modPort_dealer (s : State) (h : Fin 4) (g : Port → Port) : (s.modPort h g).dealer = s.dealer := rfl
@[simp] theorem State.modPort_time (s : State) (h : Fin 4) (g : Port → Port) : (s.modPort h g).time = s.time := rfl
@[simp] theorem State.modPort_allocs (s : State) (h : Fin 4) (g : Port → Port) : (s.modPort h g).allocs = s.allocs := rfl
@[simp] theorem State.modPort_pools (s : State) (h : Fin 4) (g : Port → Port) : (s.modPort h g).pools = s.pools := rfl
@[simp] theorem State.modPort_seqs (s : State) (h : Fin 4) (g : Port → Port) : (s.modPort h g).seqs = s.seqs := rfl
@[simp] theorem State.modPort_progs (s : State) (h : Fin 4) (g : Port → Port) : (s.modPort h g).progs = s.progs := rfl
@[simp] theorem State.modPort_jobs (s : State) (h : Fin 4) (g : Port → Port) : (s.modPort h g).jobs = s.jobs := rfl
@[simp] theorem State.modPort_nextId (s : State) (h : Fin 4) (g : Port → Port) : (s.modPort h g).nextId = s.nextId := rfl
@[simp] theorem State.modPort_groups (s : State) (h : Fin 4) (g : Port → Port) : (s.modPort h g).groups = s.groups := rfl
@[simp] theorem State.modPort_tricks (s : State) (h : Fin 4) (g : Port → Port) : (s.modPort h g).tricks = s.tricks := rfl
@[simp] theorem State.modPort_fcol (s : State) (h : Fin 4) (g : Port → Port) : (s.modPort h g).fcol = s.fcol := rfl
@[simp] theorem State.modPort_ages (s : State) (h : Fin 4) (g : Port → Port) : (s.modPort h g).ages = s.ages := rfl
@[simp] theorem State.modPort_safety (s : State) (h : Fin 4) (g : Port → Port) : (s.modPort h g).safety = s.safety := rfl
@[simp] theorem State.modPort_power (s : State) (h : Fin 4) (g : Port → Port) : (s.modPort h g).power = s.power := rfl
@[simp] theorem State.modPort_dbg (s : State) (h : Fin 4) (g : Port → Port) : (s.modPort h g).dbg = s.dbg := rfl
@[simp] theorem State.modPort_mbs (s : State) (h : Fin 4) (g : Port → Port) : (s.modPort h g).mbs = s.mbs := rfl
@[simp] theorem State.modPort_otp (s : State) (h : Fin 4) (g : Port → Port) : (s.modPort h g).otp = s.otp := rfl
@[simp] theorem State.modPort_nor (s : State) (h : Fin 4) (g : Port → Port) : (s.modPort h g).nor = s.nor := rfl
@[simp] theorem State.modPort_sys (s : State) (h : Fin 4) (g : Port → Port) : (s.modPort h g).sys = s.sys := rfl
@[simp] theorem State.modPort_tap (s : State) (h : Fin 4) (g : Port → Port) : (s.modPort h g).tap = s.tap := rfl
@[simp] theorem State.modPort_i2c (s : State) (h : Fin 4) (g : Port → Port) : (s.modPort h g).i2c = s.i2c := rfl
@[simp] theorem State.modPort_dramWb (s : State) (h : Fin 4) (g : Port → Port) : (s.modPort h g).dramWb = s.dramWb := rfl
@[simp] theorem State.modPort_matWb (s : State) (h : Fin 4) (g : Port → Port) : (s.modPort h g).matWb = s.matWb := rfl
@[simp] theorem State.modPort_wbDone (s : State) (h : Fin 4) (g : Port → Port) : (s.modPort h g).wbDone = s.wbDone := rfl
@[simp] theorem State.modPort_hot (s : State) (h : Fin 4) (g : Port → Port) : (s.modPort h g).hot = s.hot := rfl
@[simp] theorem State.modPort_patrol (s : State) (h : Fin 4) (g : Port → Port) : (s.modPort h g).patrol = s.patrol := rfl
@[simp] theorem State.modPort_out (s : State) (h : Fin 4) (g : Port → Port) : (s.modPort h g).out = s.out := rfl
@[simp] theorem State.modPort_free (s : State) (h : Fin 4) (g : Port → Port) : (s.modPort h g).free = s.free := rfl
@[simp] theorem State.modPort_pending (s : State) (h : Fin 4) (g : Port → Port) : (s.modPort h g).pending = s.pending := rfl
@[simp] theorem State.modPort_repairs (s : State) (h : Fin 4) (g : Port → Port) : (s.modPort h g).repairs = s.repairs := rfl
@[simp] theorem State.modPort_matHeld (s : State) (h : Fin 4) (g : Port → Port) : (s.modPort h g).matHeld = s.matHeld := rfl
@[simp] theorem State.modPort_matWait (s : State) (h : Fin 4) (g : Port → Port) : (s.modPort h g).matWait = s.matWait := rfl
@[simp] theorem State.modPort_dramWait (s : State) (h : Fin 4) (g : Port → Port) : (s.modPort h g).dramWait = s.dramWait := rfl
@[simp] theorem State.modPort_release (s : State) (h : Fin 4) (g : Port → Port) : (s.modPort h g).release = s.release := rfl
@[simp] theorem State.frond_modPort (s : State) (h : Fin 4) (g : Port → Port) (f : Fin 4) : (s.modPort h g).frond f = s.frond f := rfl
@[simp] theorem State.part_modPort (s : State) (h : Fin 4) (g : Port → Port) (r : Fin 4) : (s.modPort h g).part r = s.part r := rfl
@[simp] theorem State.link_modPort (s : State) (h : Fin 4) (g : Port → Port) (l : Fin 3) : (s.modPort h g).link l = s.link l := rfl
@[simp] theorem State.stream_modPort (s : State) (h : Fin 4) (g : Port → Port) (c : Nat) : (s.modPort h g).stream c = s.stream c := rfl
@[simp] theorem State.job_modPort (s : State) (h : Fin 4) (g : Port → Port) (j : Nat) : (s.modPort h g).job j = s.job j := rfl
@[simp] theorem State.reg_modPort (s : State) (h : Fin 4) (g : Port → Port) (o : Nat) : (s.modPort h g).reg o = s.reg o := rfl
@[simp] theorem State.owned_modPort (s : State) (h : Fin 4) (g : Port → Port) (r : Fin 4) : (s.modPort h g).owned r = s.owned r := rfl
@[simp] theorem State.now_modPort (s : State) (h : Fin 4) (g : Port → Port) : (s.modPort h g).now = s.now := rfl
@[simp] theorem State.deckNow_modPort (s : State) (h : Fin 4) (g : Port → Port) : (s.modPort h g).deckNow = s.deckNow := rfl
@[simp] theorem State.groupOf_modPort (s : State) (h : Fin 4) (g : Port → Port) (key : Word) : (s.modPort h g).groupOf key = s.groupOf key := rfl
@[simp] theorem State.setPart_mem (s : State) (h : Fin 4) (x : Part) : (s.setPart h x).mem = s.mem := rfl
@[simp] theorem State.setPart_bcw (s : State) (h : Fin 4) (x : Part) : (s.setPart h x).bcw = s.bcw := rfl
@[simp] theorem State.setPart_upsets (s : State) (h : Fin 4) (x : Part) : (s.setPart h x).upsets = s.upsets := rfl
@[simp] theorem State.setPart_regs (s : State) (h : Fin 4) (x : Part) : (s.setPart h x).regs = s.regs := rfl
@[simp] theorem State.setPart_latch (s : State) (h : Fin 4) (x : Part) : (s.setPart h x).latch = s.latch := rfl
@[simp] theorem State.setPart_fronds (s : State) (h : Fin 4) (x : Part) : (s.setPart h x).fronds = s.fronds := rfl
@[simp] theorem State.setPart_ports (s : State) (h : Fin 4) (x : Part) : (s.setPart h x).ports = s.ports := rfl
@[simp] theorem State.setPart_links (s : State) (h : Fin 4) (x : Part) : (s.setPart h x).links = s.links := rfl
@[simp] theorem State.setPart_streams (s : State) (h : Fin 4) (x : Part) : (s.setPart h x).streams = s.streams := rfl
@[simp] theorem State.setPart_dealer (s : State) (h : Fin 4) (x : Part) : (s.setPart h x).dealer = s.dealer := rfl
@[simp] theorem State.setPart_time (s : State) (h : Fin 4) (x : Part) : (s.setPart h x).time = s.time := rfl
@[simp] theorem State.setPart_allocs (s : State) (h : Fin 4) (x : Part) : (s.setPart h x).allocs = s.allocs := rfl
@[simp] theorem State.setPart_pools (s : State) (h : Fin 4) (x : Part) : (s.setPart h x).pools = s.pools := rfl
@[simp] theorem State.setPart_seqs (s : State) (h : Fin 4) (x : Part) : (s.setPart h x).seqs = s.seqs := rfl
@[simp] theorem State.setPart_progs (s : State) (h : Fin 4) (x : Part) : (s.setPart h x).progs = s.progs := rfl
@[simp] theorem State.setPart_jobs (s : State) (h : Fin 4) (x : Part) : (s.setPart h x).jobs = s.jobs := rfl
@[simp] theorem State.setPart_nextId (s : State) (h : Fin 4) (x : Part) : (s.setPart h x).nextId = s.nextId := rfl
@[simp] theorem State.setPart_groups (s : State) (h : Fin 4) (x : Part) : (s.setPart h x).groups = s.groups := rfl
@[simp] theorem State.setPart_tricks (s : State) (h : Fin 4) (x : Part) : (s.setPart h x).tricks = s.tricks := rfl
@[simp] theorem State.setPart_fcol (s : State) (h : Fin 4) (x : Part) : (s.setPart h x).fcol = s.fcol := rfl
@[simp] theorem State.setPart_ages (s : State) (h : Fin 4) (x : Part) : (s.setPart h x).ages = s.ages := rfl
@[simp] theorem State.setPart_safety (s : State) (h : Fin 4) (x : Part) : (s.setPart h x).safety = s.safety := rfl
@[simp] theorem State.setPart_power (s : State) (h : Fin 4) (x : Part) : (s.setPart h x).power = s.power := rfl
@[simp] theorem State.setPart_dbg (s : State) (h : Fin 4) (x : Part) : (s.setPart h x).dbg = s.dbg := rfl
@[simp] theorem State.setPart_mbs (s : State) (h : Fin 4) (x : Part) : (s.setPart h x).mbs = s.mbs := rfl
@[simp] theorem State.setPart_otp (s : State) (h : Fin 4) (x : Part) : (s.setPart h x).otp = s.otp := rfl
@[simp] theorem State.setPart_nor (s : State) (h : Fin 4) (x : Part) : (s.setPart h x).nor = s.nor := rfl
@[simp] theorem State.setPart_sys (s : State) (h : Fin 4) (x : Part) : (s.setPart h x).sys = s.sys := rfl
@[simp] theorem State.setPart_tap (s : State) (h : Fin 4) (x : Part) : (s.setPart h x).tap = s.tap := rfl
@[simp] theorem State.setPart_i2c (s : State) (h : Fin 4) (x : Part) : (s.setPart h x).i2c = s.i2c := rfl
@[simp] theorem State.setPart_dramWb (s : State) (h : Fin 4) (x : Part) : (s.setPart h x).dramWb = s.dramWb := rfl
@[simp] theorem State.setPart_matWb (s : State) (h : Fin 4) (x : Part) : (s.setPart h x).matWb = s.matWb := rfl
@[simp] theorem State.setPart_wbDone (s : State) (h : Fin 4) (x : Part) : (s.setPart h x).wbDone = s.wbDone := rfl
@[simp] theorem State.setPart_hot (s : State) (h : Fin 4) (x : Part) : (s.setPart h x).hot = s.hot := rfl
@[simp] theorem State.setPart_patrol (s : State) (h : Fin 4) (x : Part) : (s.setPart h x).patrol = s.patrol := rfl
@[simp] theorem State.setPart_out (s : State) (h : Fin 4) (x : Part) : (s.setPart h x).out = s.out := rfl
@[simp] theorem State.setPart_free (s : State) (h : Fin 4) (x : Part) : (s.setPart h x).free = s.free := rfl
@[simp] theorem State.setPart_pending (s : State) (h : Fin 4) (x : Part) : (s.setPart h x).pending = s.pending := rfl
@[simp] theorem State.setPart_repairs (s : State) (h : Fin 4) (x : Part) : (s.setPart h x).repairs = s.repairs := rfl
@[simp] theorem State.setPart_matHeld (s : State) (h : Fin 4) (x : Part) : (s.setPart h x).matHeld = s.matHeld := rfl
@[simp] theorem State.setPart_matWait (s : State) (h : Fin 4) (x : Part) : (s.setPart h x).matWait = s.matWait := rfl
@[simp] theorem State.setPart_dramWait (s : State) (h : Fin 4) (x : Part) : (s.setPart h x).dramWait = s.dramWait := rfl
@[simp] theorem State.setPart_release (s : State) (h : Fin 4) (x : Part) : (s.setPart h x).release = s.release := rfl
@[simp] theorem State.frond_setPart (s : State) (h : Fin 4) (x : Part) (f : Fin 4) : (s.setPart h x).frond f = s.frond f := rfl
@[simp] theorem State.port_setPart (s : State) (h : Fin 4) (x : Part) (p : Fin 4) : (s.setPart h x).port p = s.port p := rfl
@[simp] theorem State.link_setPart (s : State) (h : Fin 4) (x : Part) (l : Fin 3) : (s.setPart h x).link l = s.link l := rfl
@[simp] theorem State.stream_setPart (s : State) (h : Fin 4) (x : Part) (c : Nat) : (s.setPart h x).stream c = s.stream c := rfl
@[simp] theorem State.job_setPart (s : State) (h : Fin 4) (x : Part) (j : Nat) : (s.setPart h x).job j = s.job j := rfl
@[simp] theorem State.reg_setPart (s : State) (h : Fin 4) (x : Part) (o : Nat) : (s.setPart h x).reg o = s.reg o := rfl
@[simp] theorem State.owned_setPart (s : State) (h : Fin 4) (x : Part) (r : Fin 4) : (s.setPart h x).owned r = s.owned r := rfl
@[simp] theorem State.now_setPart (s : State) (h : Fin 4) (x : Part) : (s.setPart h x).now = s.now := rfl
@[simp] theorem State.deckNow_setPart (s : State) (h : Fin 4) (x : Part) : (s.setPart h x).deckNow = s.deckNow := rfl
@[simp] theorem State.ring_setPart (s : State) (h : Fin 4) (x : Part) (p : Fin 4) (d : Nat) : (s.setPart h x).ring p d = s.ring p d := rfl
@[simp] theorem State.groupOf_setPart (s : State) (h : Fin 4) (x : Part) (key : Word) : (s.setPart h x).groupOf key = s.groupOf key := rfl
@[simp] theorem State.modPart_mem (s : State) (h : Fin 4) (g : Part → Part) : (s.modPart h g).mem = s.mem := rfl
@[simp] theorem State.modPart_bcw (s : State) (h : Fin 4) (g : Part → Part) : (s.modPart h g).bcw = s.bcw := rfl
@[simp] theorem State.modPart_upsets (s : State) (h : Fin 4) (g : Part → Part) : (s.modPart h g).upsets = s.upsets := rfl
@[simp] theorem State.modPart_regs (s : State) (h : Fin 4) (g : Part → Part) : (s.modPart h g).regs = s.regs := rfl
@[simp] theorem State.modPart_latch (s : State) (h : Fin 4) (g : Part → Part) : (s.modPart h g).latch = s.latch := rfl
@[simp] theorem State.modPart_fronds (s : State) (h : Fin 4) (g : Part → Part) : (s.modPart h g).fronds = s.fronds := rfl
@[simp] theorem State.modPart_ports (s : State) (h : Fin 4) (g : Part → Part) : (s.modPart h g).ports = s.ports := rfl
@[simp] theorem State.modPart_links (s : State) (h : Fin 4) (g : Part → Part) : (s.modPart h g).links = s.links := rfl
@[simp] theorem State.modPart_streams (s : State) (h : Fin 4) (g : Part → Part) : (s.modPart h g).streams = s.streams := rfl
@[simp] theorem State.modPart_dealer (s : State) (h : Fin 4) (g : Part → Part) : (s.modPart h g).dealer = s.dealer := rfl
@[simp] theorem State.modPart_time (s : State) (h : Fin 4) (g : Part → Part) : (s.modPart h g).time = s.time := rfl
@[simp] theorem State.modPart_allocs (s : State) (h : Fin 4) (g : Part → Part) : (s.modPart h g).allocs = s.allocs := rfl
@[simp] theorem State.modPart_pools (s : State) (h : Fin 4) (g : Part → Part) : (s.modPart h g).pools = s.pools := rfl
@[simp] theorem State.modPart_seqs (s : State) (h : Fin 4) (g : Part → Part) : (s.modPart h g).seqs = s.seqs := rfl
@[simp] theorem State.modPart_progs (s : State) (h : Fin 4) (g : Part → Part) : (s.modPart h g).progs = s.progs := rfl
@[simp] theorem State.modPart_jobs (s : State) (h : Fin 4) (g : Part → Part) : (s.modPart h g).jobs = s.jobs := rfl
@[simp] theorem State.modPart_nextId (s : State) (h : Fin 4) (g : Part → Part) : (s.modPart h g).nextId = s.nextId := rfl
@[simp] theorem State.modPart_groups (s : State) (h : Fin 4) (g : Part → Part) : (s.modPart h g).groups = s.groups := rfl
@[simp] theorem State.modPart_tricks (s : State) (h : Fin 4) (g : Part → Part) : (s.modPart h g).tricks = s.tricks := rfl
@[simp] theorem State.modPart_fcol (s : State) (h : Fin 4) (g : Part → Part) : (s.modPart h g).fcol = s.fcol := rfl
@[simp] theorem State.modPart_ages (s : State) (h : Fin 4) (g : Part → Part) : (s.modPart h g).ages = s.ages := rfl
@[simp] theorem State.modPart_safety (s : State) (h : Fin 4) (g : Part → Part) : (s.modPart h g).safety = s.safety := rfl
@[simp] theorem State.modPart_power (s : State) (h : Fin 4) (g : Part → Part) : (s.modPart h g).power = s.power := rfl
@[simp] theorem State.modPart_dbg (s : State) (h : Fin 4) (g : Part → Part) : (s.modPart h g).dbg = s.dbg := rfl
@[simp] theorem State.modPart_mbs (s : State) (h : Fin 4) (g : Part → Part) : (s.modPart h g).mbs = s.mbs := rfl
@[simp] theorem State.modPart_otp (s : State) (h : Fin 4) (g : Part → Part) : (s.modPart h g).otp = s.otp := rfl
@[simp] theorem State.modPart_nor (s : State) (h : Fin 4) (g : Part → Part) : (s.modPart h g).nor = s.nor := rfl
@[simp] theorem State.modPart_sys (s : State) (h : Fin 4) (g : Part → Part) : (s.modPart h g).sys = s.sys := rfl
@[simp] theorem State.modPart_tap (s : State) (h : Fin 4) (g : Part → Part) : (s.modPart h g).tap = s.tap := rfl
@[simp] theorem State.modPart_i2c (s : State) (h : Fin 4) (g : Part → Part) : (s.modPart h g).i2c = s.i2c := rfl
@[simp] theorem State.modPart_dramWb (s : State) (h : Fin 4) (g : Part → Part) : (s.modPart h g).dramWb = s.dramWb := rfl
@[simp] theorem State.modPart_matWb (s : State) (h : Fin 4) (g : Part → Part) : (s.modPart h g).matWb = s.matWb := rfl
@[simp] theorem State.modPart_wbDone (s : State) (h : Fin 4) (g : Part → Part) : (s.modPart h g).wbDone = s.wbDone := rfl
@[simp] theorem State.modPart_hot (s : State) (h : Fin 4) (g : Part → Part) : (s.modPart h g).hot = s.hot := rfl
@[simp] theorem State.modPart_patrol (s : State) (h : Fin 4) (g : Part → Part) : (s.modPart h g).patrol = s.patrol := rfl
@[simp] theorem State.modPart_out (s : State) (h : Fin 4) (g : Part → Part) : (s.modPart h g).out = s.out := rfl
@[simp] theorem State.modPart_free (s : State) (h : Fin 4) (g : Part → Part) : (s.modPart h g).free = s.free := rfl
@[simp] theorem State.modPart_pending (s : State) (h : Fin 4) (g : Part → Part) : (s.modPart h g).pending = s.pending := rfl
@[simp] theorem State.modPart_repairs (s : State) (h : Fin 4) (g : Part → Part) : (s.modPart h g).repairs = s.repairs := rfl
@[simp] theorem State.modPart_matHeld (s : State) (h : Fin 4) (g : Part → Part) : (s.modPart h g).matHeld = s.matHeld := rfl
@[simp] theorem State.modPart_matWait (s : State) (h : Fin 4) (g : Part → Part) : (s.modPart h g).matWait = s.matWait := rfl
@[simp] theorem State.modPart_dramWait (s : State) (h : Fin 4) (g : Part → Part) : (s.modPart h g).dramWait = s.dramWait := rfl
@[simp] theorem State.modPart_release (s : State) (h : Fin 4) (g : Part → Part) : (s.modPart h g).release = s.release := rfl
@[simp] theorem State.frond_modPart (s : State) (h : Fin 4) (g : Part → Part) (f : Fin 4) : (s.modPart h g).frond f = s.frond f := rfl
@[simp] theorem State.port_modPart (s : State) (h : Fin 4) (g : Part → Part) (p : Fin 4) : (s.modPart h g).port p = s.port p := rfl
@[simp] theorem State.link_modPart (s : State) (h : Fin 4) (g : Part → Part) (l : Fin 3) : (s.modPart h g).link l = s.link l := rfl
@[simp] theorem State.stream_modPart (s : State) (h : Fin 4) (g : Part → Part) (c : Nat) : (s.modPart h g).stream c = s.stream c := rfl
@[simp] theorem State.job_modPart (s : State) (h : Fin 4) (g : Part → Part) (j : Nat) : (s.modPart h g).job j = s.job j := rfl
@[simp] theorem State.reg_modPart (s : State) (h : Fin 4) (g : Part → Part) (o : Nat) : (s.modPart h g).reg o = s.reg o := rfl
@[simp] theorem State.owned_modPart (s : State) (h : Fin 4) (g : Part → Part) (r : Fin 4) : (s.modPart h g).owned r = s.owned r := rfl
@[simp] theorem State.now_modPart (s : State) (h : Fin 4) (g : Part → Part) : (s.modPart h g).now = s.now := rfl
@[simp] theorem State.deckNow_modPart (s : State) (h : Fin 4) (g : Part → Part) : (s.modPart h g).deckNow = s.deckNow := rfl
@[simp] theorem State.ring_modPart (s : State) (h : Fin 4) (g : Part → Part) (p : Fin 4) (d : Nat) : (s.modPart h g).ring p d = s.ring p d := rfl
@[simp] theorem State.groupOf_modPart (s : State) (h : Fin 4) (g : Part → Part) (key : Word) : (s.modPart h g).groupOf key = s.groupOf key := rfl
@[simp] theorem State.setLink_mem (s : State) (h : Fin 3) (x : Link) : (s.setLink h x).mem = s.mem := rfl
@[simp] theorem State.setLink_bcw (s : State) (h : Fin 3) (x : Link) : (s.setLink h x).bcw = s.bcw := rfl
@[simp] theorem State.setLink_upsets (s : State) (h : Fin 3) (x : Link) : (s.setLink h x).upsets = s.upsets := rfl
@[simp] theorem State.setLink_regs (s : State) (h : Fin 3) (x : Link) : (s.setLink h x).regs = s.regs := rfl
@[simp] theorem State.setLink_latch (s : State) (h : Fin 3) (x : Link) : (s.setLink h x).latch = s.latch := rfl
@[simp] theorem State.setLink_fronds (s : State) (h : Fin 3) (x : Link) : (s.setLink h x).fronds = s.fronds := rfl
@[simp] theorem State.setLink_ports (s : State) (h : Fin 3) (x : Link) : (s.setLink h x).ports = s.ports := rfl
@[simp] theorem State.setLink_parts (s : State) (h : Fin 3) (x : Link) : (s.setLink h x).parts = s.parts := rfl
@[simp] theorem State.setLink_streams (s : State) (h : Fin 3) (x : Link) : (s.setLink h x).streams = s.streams := rfl
@[simp] theorem State.setLink_dealer (s : State) (h : Fin 3) (x : Link) : (s.setLink h x).dealer = s.dealer := rfl
@[simp] theorem State.setLink_time (s : State) (h : Fin 3) (x : Link) : (s.setLink h x).time = s.time := rfl
@[simp] theorem State.setLink_allocs (s : State) (h : Fin 3) (x : Link) : (s.setLink h x).allocs = s.allocs := rfl
@[simp] theorem State.setLink_pools (s : State) (h : Fin 3) (x : Link) : (s.setLink h x).pools = s.pools := rfl
@[simp] theorem State.setLink_seqs (s : State) (h : Fin 3) (x : Link) : (s.setLink h x).seqs = s.seqs := rfl
@[simp] theorem State.setLink_progs (s : State) (h : Fin 3) (x : Link) : (s.setLink h x).progs = s.progs := rfl
@[simp] theorem State.setLink_jobs (s : State) (h : Fin 3) (x : Link) : (s.setLink h x).jobs = s.jobs := rfl
@[simp] theorem State.setLink_nextId (s : State) (h : Fin 3) (x : Link) : (s.setLink h x).nextId = s.nextId := rfl
@[simp] theorem State.setLink_groups (s : State) (h : Fin 3) (x : Link) : (s.setLink h x).groups = s.groups := rfl
@[simp] theorem State.setLink_tricks (s : State) (h : Fin 3) (x : Link) : (s.setLink h x).tricks = s.tricks := rfl
@[simp] theorem State.setLink_fcol (s : State) (h : Fin 3) (x : Link) : (s.setLink h x).fcol = s.fcol := rfl
@[simp] theorem State.setLink_ages (s : State) (h : Fin 3) (x : Link) : (s.setLink h x).ages = s.ages := rfl
@[simp] theorem State.setLink_safety (s : State) (h : Fin 3) (x : Link) : (s.setLink h x).safety = s.safety := rfl
@[simp] theorem State.setLink_power (s : State) (h : Fin 3) (x : Link) : (s.setLink h x).power = s.power := rfl
@[simp] theorem State.setLink_dbg (s : State) (h : Fin 3) (x : Link) : (s.setLink h x).dbg = s.dbg := rfl
@[simp] theorem State.setLink_mbs (s : State) (h : Fin 3) (x : Link) : (s.setLink h x).mbs = s.mbs := rfl
@[simp] theorem State.setLink_otp (s : State) (h : Fin 3) (x : Link) : (s.setLink h x).otp = s.otp := rfl
@[simp] theorem State.setLink_nor (s : State) (h : Fin 3) (x : Link) : (s.setLink h x).nor = s.nor := rfl
@[simp] theorem State.setLink_sys (s : State) (h : Fin 3) (x : Link) : (s.setLink h x).sys = s.sys := rfl
@[simp] theorem State.setLink_tap (s : State) (h : Fin 3) (x : Link) : (s.setLink h x).tap = s.tap := rfl
@[simp] theorem State.setLink_i2c (s : State) (h : Fin 3) (x : Link) : (s.setLink h x).i2c = s.i2c := rfl
@[simp] theorem State.setLink_dramWb (s : State) (h : Fin 3) (x : Link) : (s.setLink h x).dramWb = s.dramWb := rfl
@[simp] theorem State.setLink_matWb (s : State) (h : Fin 3) (x : Link) : (s.setLink h x).matWb = s.matWb := rfl
@[simp] theorem State.setLink_wbDone (s : State) (h : Fin 3) (x : Link) : (s.setLink h x).wbDone = s.wbDone := rfl
@[simp] theorem State.setLink_hot (s : State) (h : Fin 3) (x : Link) : (s.setLink h x).hot = s.hot := rfl
@[simp] theorem State.setLink_patrol (s : State) (h : Fin 3) (x : Link) : (s.setLink h x).patrol = s.patrol := rfl
@[simp] theorem State.setLink_out (s : State) (h : Fin 3) (x : Link) : (s.setLink h x).out = s.out := rfl
@[simp] theorem State.setLink_free (s : State) (h : Fin 3) (x : Link) : (s.setLink h x).free = s.free := rfl
@[simp] theorem State.setLink_pending (s : State) (h : Fin 3) (x : Link) : (s.setLink h x).pending = s.pending := rfl
@[simp] theorem State.setLink_repairs (s : State) (h : Fin 3) (x : Link) : (s.setLink h x).repairs = s.repairs := rfl
@[simp] theorem State.setLink_matHeld (s : State) (h : Fin 3) (x : Link) : (s.setLink h x).matHeld = s.matHeld := rfl
@[simp] theorem State.setLink_matWait (s : State) (h : Fin 3) (x : Link) : (s.setLink h x).matWait = s.matWait := rfl
@[simp] theorem State.setLink_dramWait (s : State) (h : Fin 3) (x : Link) : (s.setLink h x).dramWait = s.dramWait := rfl
@[simp] theorem State.setLink_release (s : State) (h : Fin 3) (x : Link) : (s.setLink h x).release = s.release := rfl
@[simp] theorem State.frond_setLink (s : State) (h : Fin 3) (x : Link) (f : Fin 4) : (s.setLink h x).frond f = s.frond f := rfl
@[simp] theorem State.port_setLink (s : State) (h : Fin 3) (x : Link) (p : Fin 4) : (s.setLink h x).port p = s.port p := rfl
@[simp] theorem State.part_setLink (s : State) (h : Fin 3) (x : Link) (r : Fin 4) : (s.setLink h x).part r = s.part r := rfl
@[simp] theorem State.stream_setLink (s : State) (h : Fin 3) (x : Link) (c : Nat) : (s.setLink h x).stream c = s.stream c := rfl
@[simp] theorem State.job_setLink (s : State) (h : Fin 3) (x : Link) (j : Nat) : (s.setLink h x).job j = s.job j := rfl
@[simp] theorem State.reg_setLink (s : State) (h : Fin 3) (x : Link) (o : Nat) : (s.setLink h x).reg o = s.reg o := rfl
@[simp] theorem State.owned_setLink (s : State) (h : Fin 3) (x : Link) (r : Fin 4) : (s.setLink h x).owned r = s.owned r := rfl
@[simp] theorem State.now_setLink (s : State) (h : Fin 3) (x : Link) : (s.setLink h x).now = s.now := rfl
@[simp] theorem State.deckNow_setLink (s : State) (h : Fin 3) (x : Link) : (s.setLink h x).deckNow = s.deckNow := rfl
@[simp] theorem State.ring_setLink (s : State) (h : Fin 3) (x : Link) (p : Fin 4) (d : Nat) : (s.setLink h x).ring p d = s.ring p d := rfl
@[simp] theorem State.groupOf_setLink (s : State) (h : Fin 3) (x : Link) (key : Word) : (s.setLink h x).groupOf key = s.groupOf key := rfl
@[simp] theorem State.modLink_mem (s : State) (h : Fin 3) (g : Link → Link) : (s.modLink h g).mem = s.mem := rfl
@[simp] theorem State.modLink_bcw (s : State) (h : Fin 3) (g : Link → Link) : (s.modLink h g).bcw = s.bcw := rfl
@[simp] theorem State.modLink_upsets (s : State) (h : Fin 3) (g : Link → Link) : (s.modLink h g).upsets = s.upsets := rfl
@[simp] theorem State.modLink_regs (s : State) (h : Fin 3) (g : Link → Link) : (s.modLink h g).regs = s.regs := rfl
@[simp] theorem State.modLink_latch (s : State) (h : Fin 3) (g : Link → Link) : (s.modLink h g).latch = s.latch := rfl
@[simp] theorem State.modLink_fronds (s : State) (h : Fin 3) (g : Link → Link) : (s.modLink h g).fronds = s.fronds := rfl
@[simp] theorem State.modLink_ports (s : State) (h : Fin 3) (g : Link → Link) : (s.modLink h g).ports = s.ports := rfl
@[simp] theorem State.modLink_parts (s : State) (h : Fin 3) (g : Link → Link) : (s.modLink h g).parts = s.parts := rfl
@[simp] theorem State.modLink_streams (s : State) (h : Fin 3) (g : Link → Link) : (s.modLink h g).streams = s.streams := rfl
@[simp] theorem State.modLink_dealer (s : State) (h : Fin 3) (g : Link → Link) : (s.modLink h g).dealer = s.dealer := rfl
@[simp] theorem State.modLink_time (s : State) (h : Fin 3) (g : Link → Link) : (s.modLink h g).time = s.time := rfl
@[simp] theorem State.modLink_allocs (s : State) (h : Fin 3) (g : Link → Link) : (s.modLink h g).allocs = s.allocs := rfl
@[simp] theorem State.modLink_pools (s : State) (h : Fin 3) (g : Link → Link) : (s.modLink h g).pools = s.pools := rfl
@[simp] theorem State.modLink_seqs (s : State) (h : Fin 3) (g : Link → Link) : (s.modLink h g).seqs = s.seqs := rfl
@[simp] theorem State.modLink_progs (s : State) (h : Fin 3) (g : Link → Link) : (s.modLink h g).progs = s.progs := rfl
@[simp] theorem State.modLink_jobs (s : State) (h : Fin 3) (g : Link → Link) : (s.modLink h g).jobs = s.jobs := rfl
@[simp] theorem State.modLink_nextId (s : State) (h : Fin 3) (g : Link → Link) : (s.modLink h g).nextId = s.nextId := rfl
@[simp] theorem State.modLink_groups (s : State) (h : Fin 3) (g : Link → Link) : (s.modLink h g).groups = s.groups := rfl
@[simp] theorem State.modLink_tricks (s : State) (h : Fin 3) (g : Link → Link) : (s.modLink h g).tricks = s.tricks := rfl
@[simp] theorem State.modLink_fcol (s : State) (h : Fin 3) (g : Link → Link) : (s.modLink h g).fcol = s.fcol := rfl
@[simp] theorem State.modLink_ages (s : State) (h : Fin 3) (g : Link → Link) : (s.modLink h g).ages = s.ages := rfl
@[simp] theorem State.modLink_safety (s : State) (h : Fin 3) (g : Link → Link) : (s.modLink h g).safety = s.safety := rfl
@[simp] theorem State.modLink_power (s : State) (h : Fin 3) (g : Link → Link) : (s.modLink h g).power = s.power := rfl
@[simp] theorem State.modLink_dbg (s : State) (h : Fin 3) (g : Link → Link) : (s.modLink h g).dbg = s.dbg := rfl
@[simp] theorem State.modLink_mbs (s : State) (h : Fin 3) (g : Link → Link) : (s.modLink h g).mbs = s.mbs := rfl
@[simp] theorem State.modLink_otp (s : State) (h : Fin 3) (g : Link → Link) : (s.modLink h g).otp = s.otp := rfl
@[simp] theorem State.modLink_nor (s : State) (h : Fin 3) (g : Link → Link) : (s.modLink h g).nor = s.nor := rfl
@[simp] theorem State.modLink_sys (s : State) (h : Fin 3) (g : Link → Link) : (s.modLink h g).sys = s.sys := rfl
@[simp] theorem State.modLink_tap (s : State) (h : Fin 3) (g : Link → Link) : (s.modLink h g).tap = s.tap := rfl
@[simp] theorem State.modLink_i2c (s : State) (h : Fin 3) (g : Link → Link) : (s.modLink h g).i2c = s.i2c := rfl
@[simp] theorem State.modLink_dramWb (s : State) (h : Fin 3) (g : Link → Link) : (s.modLink h g).dramWb = s.dramWb := rfl
@[simp] theorem State.modLink_matWb (s : State) (h : Fin 3) (g : Link → Link) : (s.modLink h g).matWb = s.matWb := rfl
@[simp] theorem State.modLink_wbDone (s : State) (h : Fin 3) (g : Link → Link) : (s.modLink h g).wbDone = s.wbDone := rfl
@[simp] theorem State.modLink_hot (s : State) (h : Fin 3) (g : Link → Link) : (s.modLink h g).hot = s.hot := rfl
@[simp] theorem State.modLink_patrol (s : State) (h : Fin 3) (g : Link → Link) : (s.modLink h g).patrol = s.patrol := rfl
@[simp] theorem State.modLink_out (s : State) (h : Fin 3) (g : Link → Link) : (s.modLink h g).out = s.out := rfl
@[simp] theorem State.modLink_free (s : State) (h : Fin 3) (g : Link → Link) : (s.modLink h g).free = s.free := rfl
@[simp] theorem State.modLink_pending (s : State) (h : Fin 3) (g : Link → Link) : (s.modLink h g).pending = s.pending := rfl
@[simp] theorem State.modLink_repairs (s : State) (h : Fin 3) (g : Link → Link) : (s.modLink h g).repairs = s.repairs := rfl
@[simp] theorem State.modLink_matHeld (s : State) (h : Fin 3) (g : Link → Link) : (s.modLink h g).matHeld = s.matHeld := rfl
@[simp] theorem State.modLink_matWait (s : State) (h : Fin 3) (g : Link → Link) : (s.modLink h g).matWait = s.matWait := rfl
@[simp] theorem State.modLink_dramWait (s : State) (h : Fin 3) (g : Link → Link) : (s.modLink h g).dramWait = s.dramWait := rfl
@[simp] theorem State.modLink_release (s : State) (h : Fin 3) (g : Link → Link) : (s.modLink h g).release = s.release := rfl
@[simp] theorem State.frond_modLink (s : State) (h : Fin 3) (g : Link → Link) (f : Fin 4) : (s.modLink h g).frond f = s.frond f := rfl
@[simp] theorem State.port_modLink (s : State) (h : Fin 3) (g : Link → Link) (p : Fin 4) : (s.modLink h g).port p = s.port p := rfl
@[simp] theorem State.part_modLink (s : State) (h : Fin 3) (g : Link → Link) (r : Fin 4) : (s.modLink h g).part r = s.part r := rfl
@[simp] theorem State.stream_modLink (s : State) (h : Fin 3) (g : Link → Link) (c : Nat) : (s.modLink h g).stream c = s.stream c := rfl
@[simp] theorem State.job_modLink (s : State) (h : Fin 3) (g : Link → Link) (j : Nat) : (s.modLink h g).job j = s.job j := rfl
@[simp] theorem State.reg_modLink (s : State) (h : Fin 3) (g : Link → Link) (o : Nat) : (s.modLink h g).reg o = s.reg o := rfl
@[simp] theorem State.owned_modLink (s : State) (h : Fin 3) (g : Link → Link) (r : Fin 4) : (s.modLink h g).owned r = s.owned r := rfl
@[simp] theorem State.now_modLink (s : State) (h : Fin 3) (g : Link → Link) : (s.modLink h g).now = s.now := rfl
@[simp] theorem State.deckNow_modLink (s : State) (h : Fin 3) (g : Link → Link) : (s.modLink h g).deckNow = s.deckNow := rfl
@[simp] theorem State.ring_modLink (s : State) (h : Fin 3) (g : Link → Link) (p : Fin 4) (d : Nat) : (s.modLink h g).ring p d = s.ring p d := rfl
@[simp] theorem State.groupOf_modLink (s : State) (h : Fin 3) (g : Link → Link) (key : Word) : (s.modLink h g).groupOf key = s.groupOf key := rfl
@[simp] theorem State.setStream_mem (s : State) (h : Nat) (x : Stream) : (s.setStream h x).mem = s.mem := rfl
@[simp] theorem State.setStream_bcw (s : State) (h : Nat) (x : Stream) : (s.setStream h x).bcw = s.bcw := rfl
@[simp] theorem State.setStream_upsets (s : State) (h : Nat) (x : Stream) : (s.setStream h x).upsets = s.upsets := rfl
@[simp] theorem State.setStream_regs (s : State) (h : Nat) (x : Stream) : (s.setStream h x).regs = s.regs := rfl
@[simp] theorem State.setStream_latch (s : State) (h : Nat) (x : Stream) : (s.setStream h x).latch = s.latch := rfl
@[simp] theorem State.setStream_fronds (s : State) (h : Nat) (x : Stream) : (s.setStream h x).fronds = s.fronds := rfl
@[simp] theorem State.setStream_ports (s : State) (h : Nat) (x : Stream) : (s.setStream h x).ports = s.ports := rfl
@[simp] theorem State.setStream_parts (s : State) (h : Nat) (x : Stream) : (s.setStream h x).parts = s.parts := rfl
@[simp] theorem State.setStream_links (s : State) (h : Nat) (x : Stream) : (s.setStream h x).links = s.links := rfl
@[simp] theorem State.setStream_dealer (s : State) (h : Nat) (x : Stream) : (s.setStream h x).dealer = s.dealer := rfl
@[simp] theorem State.setStream_time (s : State) (h : Nat) (x : Stream) : (s.setStream h x).time = s.time := rfl
@[simp] theorem State.setStream_allocs (s : State) (h : Nat) (x : Stream) : (s.setStream h x).allocs = s.allocs := rfl
@[simp] theorem State.setStream_pools (s : State) (h : Nat) (x : Stream) : (s.setStream h x).pools = s.pools := rfl
@[simp] theorem State.setStream_seqs (s : State) (h : Nat) (x : Stream) : (s.setStream h x).seqs = s.seqs := rfl
@[simp] theorem State.setStream_progs (s : State) (h : Nat) (x : Stream) : (s.setStream h x).progs = s.progs := rfl
@[simp] theorem State.setStream_jobs (s : State) (h : Nat) (x : Stream) : (s.setStream h x).jobs = s.jobs := rfl
@[simp] theorem State.setStream_nextId (s : State) (h : Nat) (x : Stream) : (s.setStream h x).nextId = s.nextId := rfl
@[simp] theorem State.setStream_groups (s : State) (h : Nat) (x : Stream) : (s.setStream h x).groups = s.groups := rfl
@[simp] theorem State.setStream_tricks (s : State) (h : Nat) (x : Stream) : (s.setStream h x).tricks = s.tricks := rfl
@[simp] theorem State.setStream_fcol (s : State) (h : Nat) (x : Stream) : (s.setStream h x).fcol = s.fcol := rfl
@[simp] theorem State.setStream_ages (s : State) (h : Nat) (x : Stream) : (s.setStream h x).ages = s.ages := rfl
@[simp] theorem State.setStream_safety (s : State) (h : Nat) (x : Stream) : (s.setStream h x).safety = s.safety := rfl
@[simp] theorem State.setStream_power (s : State) (h : Nat) (x : Stream) : (s.setStream h x).power = s.power := rfl
@[simp] theorem State.setStream_dbg (s : State) (h : Nat) (x : Stream) : (s.setStream h x).dbg = s.dbg := rfl
@[simp] theorem State.setStream_mbs (s : State) (h : Nat) (x : Stream) : (s.setStream h x).mbs = s.mbs := rfl
@[simp] theorem State.setStream_otp (s : State) (h : Nat) (x : Stream) : (s.setStream h x).otp = s.otp := rfl
@[simp] theorem State.setStream_nor (s : State) (h : Nat) (x : Stream) : (s.setStream h x).nor = s.nor := rfl
@[simp] theorem State.setStream_sys (s : State) (h : Nat) (x : Stream) : (s.setStream h x).sys = s.sys := rfl
@[simp] theorem State.setStream_tap (s : State) (h : Nat) (x : Stream) : (s.setStream h x).tap = s.tap := rfl
@[simp] theorem State.setStream_i2c (s : State) (h : Nat) (x : Stream) : (s.setStream h x).i2c = s.i2c := rfl
@[simp] theorem State.setStream_dramWb (s : State) (h : Nat) (x : Stream) : (s.setStream h x).dramWb = s.dramWb := rfl
@[simp] theorem State.setStream_matWb (s : State) (h : Nat) (x : Stream) : (s.setStream h x).matWb = s.matWb := rfl
@[simp] theorem State.setStream_wbDone (s : State) (h : Nat) (x : Stream) : (s.setStream h x).wbDone = s.wbDone := rfl
@[simp] theorem State.setStream_hot (s : State) (h : Nat) (x : Stream) : (s.setStream h x).hot = s.hot := rfl
@[simp] theorem State.setStream_patrol (s : State) (h : Nat) (x : Stream) : (s.setStream h x).patrol = s.patrol := rfl
@[simp] theorem State.setStream_out (s : State) (h : Nat) (x : Stream) : (s.setStream h x).out = s.out := rfl
@[simp] theorem State.setStream_free (s : State) (h : Nat) (x : Stream) : (s.setStream h x).free = s.free := rfl
@[simp] theorem State.setStream_pending (s : State) (h : Nat) (x : Stream) : (s.setStream h x).pending = s.pending := rfl
@[simp] theorem State.setStream_repairs (s : State) (h : Nat) (x : Stream) : (s.setStream h x).repairs = s.repairs := rfl
@[simp] theorem State.setStream_matHeld (s : State) (h : Nat) (x : Stream) : (s.setStream h x).matHeld = s.matHeld := rfl
@[simp] theorem State.setStream_matWait (s : State) (h : Nat) (x : Stream) : (s.setStream h x).matWait = s.matWait := rfl
@[simp] theorem State.setStream_dramWait (s : State) (h : Nat) (x : Stream) : (s.setStream h x).dramWait = s.dramWait := rfl
@[simp] theorem State.setStream_release (s : State) (h : Nat) (x : Stream) : (s.setStream h x).release = s.release := rfl
@[simp] theorem State.frond_setStream (s : State) (h : Nat) (x : Stream) (f : Fin 4) : (s.setStream h x).frond f = s.frond f := rfl
@[simp] theorem State.port_setStream (s : State) (h : Nat) (x : Stream) (p : Fin 4) : (s.setStream h x).port p = s.port p := rfl
@[simp] theorem State.part_setStream (s : State) (h : Nat) (x : Stream) (r : Fin 4) : (s.setStream h x).part r = s.part r := rfl
@[simp] theorem State.link_setStream (s : State) (h : Nat) (x : Stream) (l : Fin 3) : (s.setStream h x).link l = s.link l := rfl
@[simp] theorem State.job_setStream (s : State) (h : Nat) (x : Stream) (j : Nat) : (s.setStream h x).job j = s.job j := rfl
@[simp] theorem State.reg_setStream (s : State) (h : Nat) (x : Stream) (o : Nat) : (s.setStream h x).reg o = s.reg o := rfl
@[simp] theorem State.owned_setStream (s : State) (h : Nat) (x : Stream) (r : Fin 4) : (s.setStream h x).owned r = s.owned r := rfl
@[simp] theorem State.now_setStream (s : State) (h : Nat) (x : Stream) : (s.setStream h x).now = s.now := rfl
@[simp] theorem State.deckNow_setStream (s : State) (h : Nat) (x : Stream) : (s.setStream h x).deckNow = s.deckNow := rfl
@[simp] theorem State.ring_setStream (s : State) (h : Nat) (x : Stream) (p : Fin 4) (d : Nat) : (s.setStream h x).ring p d = s.ring p d := rfl
@[simp] theorem State.groupOf_setStream (s : State) (h : Nat) (x : Stream) (key : Word) : (s.setStream h x).groupOf key = s.groupOf key := rfl
@[simp] theorem State.modStream_mem (s : State) (h : Nat) (g : Stream → Stream) : (s.modStream h g).mem = s.mem := rfl
@[simp] theorem State.modStream_bcw (s : State) (h : Nat) (g : Stream → Stream) : (s.modStream h g).bcw = s.bcw := rfl
@[simp] theorem State.modStream_upsets (s : State) (h : Nat) (g : Stream → Stream) : (s.modStream h g).upsets = s.upsets := rfl
@[simp] theorem State.modStream_regs (s : State) (h : Nat) (g : Stream → Stream) : (s.modStream h g).regs = s.regs := rfl
@[simp] theorem State.modStream_latch (s : State) (h : Nat) (g : Stream → Stream) : (s.modStream h g).latch = s.latch := rfl
@[simp] theorem State.modStream_fronds (s : State) (h : Nat) (g : Stream → Stream) : (s.modStream h g).fronds = s.fronds := rfl
@[simp] theorem State.modStream_ports (s : State) (h : Nat) (g : Stream → Stream) : (s.modStream h g).ports = s.ports := rfl
@[simp] theorem State.modStream_parts (s : State) (h : Nat) (g : Stream → Stream) : (s.modStream h g).parts = s.parts := rfl
@[simp] theorem State.modStream_links (s : State) (h : Nat) (g : Stream → Stream) : (s.modStream h g).links = s.links := rfl
@[simp] theorem State.modStream_dealer (s : State) (h : Nat) (g : Stream → Stream) : (s.modStream h g).dealer = s.dealer := rfl
@[simp] theorem State.modStream_time (s : State) (h : Nat) (g : Stream → Stream) : (s.modStream h g).time = s.time := rfl
@[simp] theorem State.modStream_allocs (s : State) (h : Nat) (g : Stream → Stream) : (s.modStream h g).allocs = s.allocs := rfl
@[simp] theorem State.modStream_pools (s : State) (h : Nat) (g : Stream → Stream) : (s.modStream h g).pools = s.pools := rfl
@[simp] theorem State.modStream_seqs (s : State) (h : Nat) (g : Stream → Stream) : (s.modStream h g).seqs = s.seqs := rfl
@[simp] theorem State.modStream_progs (s : State) (h : Nat) (g : Stream → Stream) : (s.modStream h g).progs = s.progs := rfl
@[simp] theorem State.modStream_jobs (s : State) (h : Nat) (g : Stream → Stream) : (s.modStream h g).jobs = s.jobs := rfl
@[simp] theorem State.modStream_nextId (s : State) (h : Nat) (g : Stream → Stream) : (s.modStream h g).nextId = s.nextId := rfl
@[simp] theorem State.modStream_groups (s : State) (h : Nat) (g : Stream → Stream) : (s.modStream h g).groups = s.groups := rfl
@[simp] theorem State.modStream_tricks (s : State) (h : Nat) (g : Stream → Stream) : (s.modStream h g).tricks = s.tricks := rfl
@[simp] theorem State.modStream_fcol (s : State) (h : Nat) (g : Stream → Stream) : (s.modStream h g).fcol = s.fcol := rfl
@[simp] theorem State.modStream_ages (s : State) (h : Nat) (g : Stream → Stream) : (s.modStream h g).ages = s.ages := rfl
@[simp] theorem State.modStream_safety (s : State) (h : Nat) (g : Stream → Stream) : (s.modStream h g).safety = s.safety := rfl
@[simp] theorem State.modStream_power (s : State) (h : Nat) (g : Stream → Stream) : (s.modStream h g).power = s.power := rfl
@[simp] theorem State.modStream_dbg (s : State) (h : Nat) (g : Stream → Stream) : (s.modStream h g).dbg = s.dbg := rfl
@[simp] theorem State.modStream_mbs (s : State) (h : Nat) (g : Stream → Stream) : (s.modStream h g).mbs = s.mbs := rfl
@[simp] theorem State.modStream_otp (s : State) (h : Nat) (g : Stream → Stream) : (s.modStream h g).otp = s.otp := rfl
@[simp] theorem State.modStream_nor (s : State) (h : Nat) (g : Stream → Stream) : (s.modStream h g).nor = s.nor := rfl
@[simp] theorem State.modStream_sys (s : State) (h : Nat) (g : Stream → Stream) : (s.modStream h g).sys = s.sys := rfl
@[simp] theorem State.modStream_tap (s : State) (h : Nat) (g : Stream → Stream) : (s.modStream h g).tap = s.tap := rfl
@[simp] theorem State.modStream_i2c (s : State) (h : Nat) (g : Stream → Stream) : (s.modStream h g).i2c = s.i2c := rfl
@[simp] theorem State.modStream_dramWb (s : State) (h : Nat) (g : Stream → Stream) : (s.modStream h g).dramWb = s.dramWb := rfl
@[simp] theorem State.modStream_matWb (s : State) (h : Nat) (g : Stream → Stream) : (s.modStream h g).matWb = s.matWb := rfl
@[simp] theorem State.modStream_wbDone (s : State) (h : Nat) (g : Stream → Stream) : (s.modStream h g).wbDone = s.wbDone := rfl
@[simp] theorem State.modStream_hot (s : State) (h : Nat) (g : Stream → Stream) : (s.modStream h g).hot = s.hot := rfl
@[simp] theorem State.modStream_patrol (s : State) (h : Nat) (g : Stream → Stream) : (s.modStream h g).patrol = s.patrol := rfl
@[simp] theorem State.modStream_out (s : State) (h : Nat) (g : Stream → Stream) : (s.modStream h g).out = s.out := rfl
@[simp] theorem State.modStream_free (s : State) (h : Nat) (g : Stream → Stream) : (s.modStream h g).free = s.free := rfl
@[simp] theorem State.modStream_pending (s : State) (h : Nat) (g : Stream → Stream) : (s.modStream h g).pending = s.pending := rfl
@[simp] theorem State.modStream_repairs (s : State) (h : Nat) (g : Stream → Stream) : (s.modStream h g).repairs = s.repairs := rfl
@[simp] theorem State.modStream_matHeld (s : State) (h : Nat) (g : Stream → Stream) : (s.modStream h g).matHeld = s.matHeld := rfl
@[simp] theorem State.modStream_matWait (s : State) (h : Nat) (g : Stream → Stream) : (s.modStream h g).matWait = s.matWait := rfl
@[simp] theorem State.modStream_dramWait (s : State) (h : Nat) (g : Stream → Stream) : (s.modStream h g).dramWait = s.dramWait := rfl
@[simp] theorem State.modStream_release (s : State) (h : Nat) (g : Stream → Stream) : (s.modStream h g).release = s.release := rfl
@[simp] theorem State.frond_modStream (s : State) (h : Nat) (g : Stream → Stream) (f : Fin 4) : (s.modStream h g).frond f = s.frond f := rfl
@[simp] theorem State.port_modStream (s : State) (h : Nat) (g : Stream → Stream) (p : Fin 4) : (s.modStream h g).port p = s.port p := rfl
@[simp] theorem State.part_modStream (s : State) (h : Nat) (g : Stream → Stream) (r : Fin 4) : (s.modStream h g).part r = s.part r := rfl
@[simp] theorem State.link_modStream (s : State) (h : Nat) (g : Stream → Stream) (l : Fin 3) : (s.modStream h g).link l = s.link l := rfl
@[simp] theorem State.job_modStream (s : State) (h : Nat) (g : Stream → Stream) (j : Nat) : (s.modStream h g).job j = s.job j := rfl
@[simp] theorem State.reg_modStream (s : State) (h : Nat) (g : Stream → Stream) (o : Nat) : (s.modStream h g).reg o = s.reg o := rfl
@[simp] theorem State.owned_modStream (s : State) (h : Nat) (g : Stream → Stream) (r : Fin 4) : (s.modStream h g).owned r = s.owned r := rfl
@[simp] theorem State.now_modStream (s : State) (h : Nat) (g : Stream → Stream) : (s.modStream h g).now = s.now := rfl
@[simp] theorem State.deckNow_modStream (s : State) (h : Nat) (g : Stream → Stream) : (s.modStream h g).deckNow = s.deckNow := rfl
@[simp] theorem State.ring_modStream (s : State) (h : Nat) (g : Stream → Stream) (p : Fin 4) (d : Nat) : (s.modStream h g).ring p d = s.ring p d := rfl
@[simp] theorem State.groupOf_modStream (s : State) (h : Nat) (g : Stream → Stream) (key : Word) : (s.modStream h g).groupOf key = s.groupOf key := rfl
@[simp] theorem State.setJob_mem (s : State) (h : Nat) (x : Job) : (s.setJob h x).mem = s.mem := rfl
@[simp] theorem State.setJob_bcw (s : State) (h : Nat) (x : Job) : (s.setJob h x).bcw = s.bcw := rfl
@[simp] theorem State.setJob_upsets (s : State) (h : Nat) (x : Job) : (s.setJob h x).upsets = s.upsets := rfl
@[simp] theorem State.setJob_regs (s : State) (h : Nat) (x : Job) : (s.setJob h x).regs = s.regs := rfl
@[simp] theorem State.setJob_latch (s : State) (h : Nat) (x : Job) : (s.setJob h x).latch = s.latch := rfl
@[simp] theorem State.setJob_fronds (s : State) (h : Nat) (x : Job) : (s.setJob h x).fronds = s.fronds := rfl
@[simp] theorem State.setJob_ports (s : State) (h : Nat) (x : Job) : (s.setJob h x).ports = s.ports := rfl
@[simp] theorem State.setJob_parts (s : State) (h : Nat) (x : Job) : (s.setJob h x).parts = s.parts := rfl
@[simp] theorem State.setJob_links (s : State) (h : Nat) (x : Job) : (s.setJob h x).links = s.links := rfl
@[simp] theorem State.setJob_streams (s : State) (h : Nat) (x : Job) : (s.setJob h x).streams = s.streams := rfl
@[simp] theorem State.setJob_dealer (s : State) (h : Nat) (x : Job) : (s.setJob h x).dealer = s.dealer := rfl
@[simp] theorem State.setJob_time (s : State) (h : Nat) (x : Job) : (s.setJob h x).time = s.time := rfl
@[simp] theorem State.setJob_allocs (s : State) (h : Nat) (x : Job) : (s.setJob h x).allocs = s.allocs := rfl
@[simp] theorem State.setJob_pools (s : State) (h : Nat) (x : Job) : (s.setJob h x).pools = s.pools := rfl
@[simp] theorem State.setJob_seqs (s : State) (h : Nat) (x : Job) : (s.setJob h x).seqs = s.seqs := rfl
@[simp] theorem State.setJob_progs (s : State) (h : Nat) (x : Job) : (s.setJob h x).progs = s.progs := rfl
@[simp] theorem State.setJob_nextId (s : State) (h : Nat) (x : Job) : (s.setJob h x).nextId = s.nextId := rfl
@[simp] theorem State.setJob_groups (s : State) (h : Nat) (x : Job) : (s.setJob h x).groups = s.groups := rfl
@[simp] theorem State.setJob_tricks (s : State) (h : Nat) (x : Job) : (s.setJob h x).tricks = s.tricks := rfl
@[simp] theorem State.setJob_fcol (s : State) (h : Nat) (x : Job) : (s.setJob h x).fcol = s.fcol := rfl
@[simp] theorem State.setJob_ages (s : State) (h : Nat) (x : Job) : (s.setJob h x).ages = s.ages := rfl
@[simp] theorem State.setJob_safety (s : State) (h : Nat) (x : Job) : (s.setJob h x).safety = s.safety := rfl
@[simp] theorem State.setJob_power (s : State) (h : Nat) (x : Job) : (s.setJob h x).power = s.power := rfl
@[simp] theorem State.setJob_dbg (s : State) (h : Nat) (x : Job) : (s.setJob h x).dbg = s.dbg := rfl
@[simp] theorem State.setJob_mbs (s : State) (h : Nat) (x : Job) : (s.setJob h x).mbs = s.mbs := rfl
@[simp] theorem State.setJob_otp (s : State) (h : Nat) (x : Job) : (s.setJob h x).otp = s.otp := rfl
@[simp] theorem State.setJob_nor (s : State) (h : Nat) (x : Job) : (s.setJob h x).nor = s.nor := rfl
@[simp] theorem State.setJob_sys (s : State) (h : Nat) (x : Job) : (s.setJob h x).sys = s.sys := rfl
@[simp] theorem State.setJob_tap (s : State) (h : Nat) (x : Job) : (s.setJob h x).tap = s.tap := rfl
@[simp] theorem State.setJob_i2c (s : State) (h : Nat) (x : Job) : (s.setJob h x).i2c = s.i2c := rfl
@[simp] theorem State.setJob_dramWb (s : State) (h : Nat) (x : Job) : (s.setJob h x).dramWb = s.dramWb := rfl
@[simp] theorem State.setJob_matWb (s : State) (h : Nat) (x : Job) : (s.setJob h x).matWb = s.matWb := rfl
@[simp] theorem State.setJob_wbDone (s : State) (h : Nat) (x : Job) : (s.setJob h x).wbDone = s.wbDone := rfl
@[simp] theorem State.setJob_hot (s : State) (h : Nat) (x : Job) : (s.setJob h x).hot = s.hot := rfl
@[simp] theorem State.setJob_patrol (s : State) (h : Nat) (x : Job) : (s.setJob h x).patrol = s.patrol := rfl
@[simp] theorem State.setJob_out (s : State) (h : Nat) (x : Job) : (s.setJob h x).out = s.out := rfl
@[simp] theorem State.setJob_free (s : State) (h : Nat) (x : Job) : (s.setJob h x).free = s.free := rfl
@[simp] theorem State.setJob_pending (s : State) (h : Nat) (x : Job) : (s.setJob h x).pending = s.pending := rfl
@[simp] theorem State.setJob_repairs (s : State) (h : Nat) (x : Job) : (s.setJob h x).repairs = s.repairs := rfl
@[simp] theorem State.setJob_matHeld (s : State) (h : Nat) (x : Job) : (s.setJob h x).matHeld = s.matHeld := rfl
@[simp] theorem State.setJob_matWait (s : State) (h : Nat) (x : Job) : (s.setJob h x).matWait = s.matWait := rfl
@[simp] theorem State.setJob_dramWait (s : State) (h : Nat) (x : Job) : (s.setJob h x).dramWait = s.dramWait := rfl
@[simp] theorem State.setJob_release (s : State) (h : Nat) (x : Job) : (s.setJob h x).release = s.release := rfl
@[simp] theorem State.frond_setJob (s : State) (h : Nat) (x : Job) (f : Fin 4) : (s.setJob h x).frond f = s.frond f := rfl
@[simp] theorem State.port_setJob (s : State) (h : Nat) (x : Job) (p : Fin 4) : (s.setJob h x).port p = s.port p := rfl
@[simp] theorem State.part_setJob (s : State) (h : Nat) (x : Job) (r : Fin 4) : (s.setJob h x).part r = s.part r := rfl
@[simp] theorem State.link_setJob (s : State) (h : Nat) (x : Job) (l : Fin 3) : (s.setJob h x).link l = s.link l := rfl
@[simp] theorem State.stream_setJob (s : State) (h : Nat) (x : Job) (c : Nat) : (s.setJob h x).stream c = s.stream c := rfl
@[simp] theorem State.reg_setJob (s : State) (h : Nat) (x : Job) (o : Nat) : (s.setJob h x).reg o = s.reg o := rfl
@[simp] theorem State.owned_setJob (s : State) (h : Nat) (x : Job) (r : Fin 4) : (s.setJob h x).owned r = s.owned r := rfl
@[simp] theorem State.now_setJob (s : State) (h : Nat) (x : Job) : (s.setJob h x).now = s.now := rfl
@[simp] theorem State.deckNow_setJob (s : State) (h : Nat) (x : Job) : (s.setJob h x).deckNow = s.deckNow := rfl
@[simp] theorem State.ring_setJob (s : State) (h : Nat) (x : Job) (p : Fin 4) (d : Nat) : (s.setJob h x).ring p d = s.ring p d := rfl
@[simp] theorem State.groupOf_setJob (s : State) (h : Nat) (x : Job) (key : Word) : (s.setJob h x).groupOf key = s.groupOf key := rfl
@[simp] theorem State.modJob_mem (s : State) (h : Nat) (g : Job → Job) : (s.modJob h g).mem = s.mem := rfl
@[simp] theorem State.modJob_bcw (s : State) (h : Nat) (g : Job → Job) : (s.modJob h g).bcw = s.bcw := rfl
@[simp] theorem State.modJob_upsets (s : State) (h : Nat) (g : Job → Job) : (s.modJob h g).upsets = s.upsets := rfl
@[simp] theorem State.modJob_regs (s : State) (h : Nat) (g : Job → Job) : (s.modJob h g).regs = s.regs := rfl
@[simp] theorem State.modJob_latch (s : State) (h : Nat) (g : Job → Job) : (s.modJob h g).latch = s.latch := rfl
@[simp] theorem State.modJob_fronds (s : State) (h : Nat) (g : Job → Job) : (s.modJob h g).fronds = s.fronds := rfl
@[simp] theorem State.modJob_ports (s : State) (h : Nat) (g : Job → Job) : (s.modJob h g).ports = s.ports := rfl
@[simp] theorem State.modJob_parts (s : State) (h : Nat) (g : Job → Job) : (s.modJob h g).parts = s.parts := rfl
@[simp] theorem State.modJob_links (s : State) (h : Nat) (g : Job → Job) : (s.modJob h g).links = s.links := rfl
@[simp] theorem State.modJob_streams (s : State) (h : Nat) (g : Job → Job) : (s.modJob h g).streams = s.streams := rfl
@[simp] theorem State.modJob_dealer (s : State) (h : Nat) (g : Job → Job) : (s.modJob h g).dealer = s.dealer := rfl
@[simp] theorem State.modJob_time (s : State) (h : Nat) (g : Job → Job) : (s.modJob h g).time = s.time := rfl
@[simp] theorem State.modJob_allocs (s : State) (h : Nat) (g : Job → Job) : (s.modJob h g).allocs = s.allocs := rfl
@[simp] theorem State.modJob_pools (s : State) (h : Nat) (g : Job → Job) : (s.modJob h g).pools = s.pools := rfl
@[simp] theorem State.modJob_seqs (s : State) (h : Nat) (g : Job → Job) : (s.modJob h g).seqs = s.seqs := rfl
@[simp] theorem State.modJob_progs (s : State) (h : Nat) (g : Job → Job) : (s.modJob h g).progs = s.progs := rfl
@[simp] theorem State.modJob_nextId (s : State) (h : Nat) (g : Job → Job) : (s.modJob h g).nextId = s.nextId := rfl
@[simp] theorem State.modJob_groups (s : State) (h : Nat) (g : Job → Job) : (s.modJob h g).groups = s.groups := rfl
@[simp] theorem State.modJob_tricks (s : State) (h : Nat) (g : Job → Job) : (s.modJob h g).tricks = s.tricks := rfl
@[simp] theorem State.modJob_fcol (s : State) (h : Nat) (g : Job → Job) : (s.modJob h g).fcol = s.fcol := rfl
@[simp] theorem State.modJob_ages (s : State) (h : Nat) (g : Job → Job) : (s.modJob h g).ages = s.ages := rfl
@[simp] theorem State.modJob_safety (s : State) (h : Nat) (g : Job → Job) : (s.modJob h g).safety = s.safety := rfl
@[simp] theorem State.modJob_power (s : State) (h : Nat) (g : Job → Job) : (s.modJob h g).power = s.power := rfl
@[simp] theorem State.modJob_dbg (s : State) (h : Nat) (g : Job → Job) : (s.modJob h g).dbg = s.dbg := rfl
@[simp] theorem State.modJob_mbs (s : State) (h : Nat) (g : Job → Job) : (s.modJob h g).mbs = s.mbs := rfl
@[simp] theorem State.modJob_otp (s : State) (h : Nat) (g : Job → Job) : (s.modJob h g).otp = s.otp := rfl
@[simp] theorem State.modJob_nor (s : State) (h : Nat) (g : Job → Job) : (s.modJob h g).nor = s.nor := rfl
@[simp] theorem State.modJob_sys (s : State) (h : Nat) (g : Job → Job) : (s.modJob h g).sys = s.sys := rfl
@[simp] theorem State.modJob_tap (s : State) (h : Nat) (g : Job → Job) : (s.modJob h g).tap = s.tap := rfl
@[simp] theorem State.modJob_i2c (s : State) (h : Nat) (g : Job → Job) : (s.modJob h g).i2c = s.i2c := rfl
@[simp] theorem State.modJob_dramWb (s : State) (h : Nat) (g : Job → Job) : (s.modJob h g).dramWb = s.dramWb := rfl
@[simp] theorem State.modJob_matWb (s : State) (h : Nat) (g : Job → Job) : (s.modJob h g).matWb = s.matWb := rfl
@[simp] theorem State.modJob_wbDone (s : State) (h : Nat) (g : Job → Job) : (s.modJob h g).wbDone = s.wbDone := rfl
@[simp] theorem State.modJob_hot (s : State) (h : Nat) (g : Job → Job) : (s.modJob h g).hot = s.hot := rfl
@[simp] theorem State.modJob_patrol (s : State) (h : Nat) (g : Job → Job) : (s.modJob h g).patrol = s.patrol := rfl
@[simp] theorem State.modJob_out (s : State) (h : Nat) (g : Job → Job) : (s.modJob h g).out = s.out := rfl
@[simp] theorem State.modJob_free (s : State) (h : Nat) (g : Job → Job) : (s.modJob h g).free = s.free := rfl
@[simp] theorem State.modJob_pending (s : State) (h : Nat) (g : Job → Job) : (s.modJob h g).pending = s.pending := rfl
@[simp] theorem State.modJob_repairs (s : State) (h : Nat) (g : Job → Job) : (s.modJob h g).repairs = s.repairs := rfl
@[simp] theorem State.modJob_matHeld (s : State) (h : Nat) (g : Job → Job) : (s.modJob h g).matHeld = s.matHeld := rfl
@[simp] theorem State.modJob_matWait (s : State) (h : Nat) (g : Job → Job) : (s.modJob h g).matWait = s.matWait := rfl
@[simp] theorem State.modJob_dramWait (s : State) (h : Nat) (g : Job → Job) : (s.modJob h g).dramWait = s.dramWait := rfl
@[simp] theorem State.modJob_release (s : State) (h : Nat) (g : Job → Job) : (s.modJob h g).release = s.release := rfl
@[simp] theorem State.frond_modJob (s : State) (h : Nat) (g : Job → Job) (f : Fin 4) : (s.modJob h g).frond f = s.frond f := rfl
@[simp] theorem State.port_modJob (s : State) (h : Nat) (g : Job → Job) (p : Fin 4) : (s.modJob h g).port p = s.port p := rfl
@[simp] theorem State.part_modJob (s : State) (h : Nat) (g : Job → Job) (r : Fin 4) : (s.modJob h g).part r = s.part r := rfl
@[simp] theorem State.link_modJob (s : State) (h : Nat) (g : Job → Job) (l : Fin 3) : (s.modJob h g).link l = s.link l := rfl
@[simp] theorem State.stream_modJob (s : State) (h : Nat) (g : Job → Job) (c : Nat) : (s.modJob h g).stream c = s.stream c := rfl
@[simp] theorem State.reg_modJob (s : State) (h : Nat) (g : Job → Job) (o : Nat) : (s.modJob h g).reg o = s.reg o := rfl
@[simp] theorem State.owned_modJob (s : State) (h : Nat) (g : Job → Job) (r : Fin 4) : (s.modJob h g).owned r = s.owned r := rfl
@[simp] theorem State.now_modJob (s : State) (h : Nat) (g : Job → Job) : (s.modJob h g).now = s.now := rfl
@[simp] theorem State.deckNow_modJob (s : State) (h : Nat) (g : Job → Job) : (s.modJob h g).deckNow = s.deckNow := rfl
@[simp] theorem State.ring_modJob (s : State) (h : Nat) (g : Job → Job) (p : Fin 4) (d : Nat) : (s.modJob h g).ring p d = s.ring p d := rfl
@[simp] theorem State.groupOf_modJob (s : State) (h : Nat) (g : Job → Job) (key : Word) : (s.modJob h g).groupOf key = s.groupOf key := rfl
@[simp] theorem State.setBcw_mem (s : State) (a : Nat) (w : Word) : (s.setBcw a w).mem = s.mem := rfl
@[simp] theorem State.setBcw_regs (s : State) (a : Nat) (w : Word) : (s.setBcw a w).regs = s.regs := rfl
@[simp] theorem State.setBcw_latch (s : State) (a : Nat) (w : Word) : (s.setBcw a w).latch = s.latch := rfl
@[simp] theorem State.setBcw_fronds (s : State) (a : Nat) (w : Word) : (s.setBcw a w).fronds = s.fronds := rfl
@[simp] theorem State.setBcw_ports (s : State) (a : Nat) (w : Word) : (s.setBcw a w).ports = s.ports := rfl
@[simp] theorem State.setBcw_parts (s : State) (a : Nat) (w : Word) : (s.setBcw a w).parts = s.parts := rfl
@[simp] theorem State.setBcw_links (s : State) (a : Nat) (w : Word) : (s.setBcw a w).links = s.links := rfl
@[simp] theorem State.setBcw_streams (s : State) (a : Nat) (w : Word) : (s.setBcw a w).streams = s.streams := rfl
@[simp] theorem State.setBcw_dealer (s : State) (a : Nat) (w : Word) : (s.setBcw a w).dealer = s.dealer := rfl
@[simp] theorem State.setBcw_time (s : State) (a : Nat) (w : Word) : (s.setBcw a w).time = s.time := rfl
@[simp] theorem State.setBcw_allocs (s : State) (a : Nat) (w : Word) : (s.setBcw a w).allocs = s.allocs := rfl
@[simp] theorem State.setBcw_pools (s : State) (a : Nat) (w : Word) : (s.setBcw a w).pools = s.pools := rfl
@[simp] theorem State.setBcw_seqs (s : State) (a : Nat) (w : Word) : (s.setBcw a w).seqs = s.seqs := rfl
@[simp] theorem State.setBcw_progs (s : State) (a : Nat) (w : Word) : (s.setBcw a w).progs = s.progs := rfl
@[simp] theorem State.setBcw_jobs (s : State) (a : Nat) (w : Word) : (s.setBcw a w).jobs = s.jobs := rfl
@[simp] theorem State.setBcw_nextId (s : State) (a : Nat) (w : Word) : (s.setBcw a w).nextId = s.nextId := rfl
@[simp] theorem State.setBcw_groups (s : State) (a : Nat) (w : Word) : (s.setBcw a w).groups = s.groups := rfl
@[simp] theorem State.setBcw_tricks (s : State) (a : Nat) (w : Word) : (s.setBcw a w).tricks = s.tricks := rfl
@[simp] theorem State.setBcw_fcol (s : State) (a : Nat) (w : Word) : (s.setBcw a w).fcol = s.fcol := rfl
@[simp] theorem State.setBcw_ages (s : State) (a : Nat) (w : Word) : (s.setBcw a w).ages = s.ages := rfl
@[simp] theorem State.setBcw_safety (s : State) (a : Nat) (w : Word) : (s.setBcw a w).safety = s.safety := rfl
@[simp] theorem State.setBcw_power (s : State) (a : Nat) (w : Word) : (s.setBcw a w).power = s.power := rfl
@[simp] theorem State.setBcw_dbg (s : State) (a : Nat) (w : Word) : (s.setBcw a w).dbg = s.dbg := rfl
@[simp] theorem State.setBcw_mbs (s : State) (a : Nat) (w : Word) : (s.setBcw a w).mbs = s.mbs := rfl
@[simp] theorem State.setBcw_otp (s : State) (a : Nat) (w : Word) : (s.setBcw a w).otp = s.otp := rfl
@[simp] theorem State.setBcw_nor (s : State) (a : Nat) (w : Word) : (s.setBcw a w).nor = s.nor := rfl
@[simp] theorem State.setBcw_sys (s : State) (a : Nat) (w : Word) : (s.setBcw a w).sys = s.sys := rfl
@[simp] theorem State.setBcw_tap (s : State) (a : Nat) (w : Word) : (s.setBcw a w).tap = s.tap := rfl
@[simp] theorem State.setBcw_i2c (s : State) (a : Nat) (w : Word) : (s.setBcw a w).i2c = s.i2c := rfl
@[simp] theorem State.setBcw_dramWb (s : State) (a : Nat) (w : Word) : (s.setBcw a w).dramWb = s.dramWb := rfl
@[simp] theorem State.setBcw_matWb (s : State) (a : Nat) (w : Word) : (s.setBcw a w).matWb = s.matWb := rfl
@[simp] theorem State.setBcw_wbDone (s : State) (a : Nat) (w : Word) : (s.setBcw a w).wbDone = s.wbDone := rfl
@[simp] theorem State.setBcw_hot (s : State) (a : Nat) (w : Word) : (s.setBcw a w).hot = s.hot := rfl
@[simp] theorem State.setBcw_patrol (s : State) (a : Nat) (w : Word) : (s.setBcw a w).patrol = s.patrol := rfl
@[simp] theorem State.setBcw_out (s : State) (a : Nat) (w : Word) : (s.setBcw a w).out = s.out := rfl
@[simp] theorem State.setBcw_free (s : State) (a : Nat) (w : Word) : (s.setBcw a w).free = s.free := rfl
@[simp] theorem State.setBcw_pending (s : State) (a : Nat) (w : Word) : (s.setBcw a w).pending = s.pending := rfl
@[simp] theorem State.setBcw_repairs (s : State) (a : Nat) (w : Word) : (s.setBcw a w).repairs = s.repairs := rfl
@[simp] theorem State.setBcw_matHeld (s : State) (a : Nat) (w : Word) : (s.setBcw a w).matHeld = s.matHeld := rfl
@[simp] theorem State.setBcw_matWait (s : State) (a : Nat) (w : Word) : (s.setBcw a w).matWait = s.matWait := rfl
@[simp] theorem State.setBcw_dramWait (s : State) (a : Nat) (w : Word) : (s.setBcw a w).dramWait = s.dramWait := rfl
@[simp] theorem State.setBcw_release (s : State) (a : Nat) (w : Word) : (s.setBcw a w).release = s.release := rfl
@[simp] theorem State.frond_setBcw (s : State) (a : Nat) (w : Word) (f : Fin 4) : (s.setBcw a w).frond f = s.frond f := rfl
@[simp] theorem State.port_setBcw (s : State) (a : Nat) (w : Word) (p : Fin 4) : (s.setBcw a w).port p = s.port p := rfl
@[simp] theorem State.part_setBcw (s : State) (a : Nat) (w : Word) (r : Fin 4) : (s.setBcw a w).part r = s.part r := rfl
@[simp] theorem State.link_setBcw (s : State) (a : Nat) (w : Word) (l : Fin 3) : (s.setBcw a w).link l = s.link l := rfl
@[simp] theorem State.stream_setBcw (s : State) (a : Nat) (w : Word) (c : Nat) : (s.setBcw a w).stream c = s.stream c := rfl
@[simp] theorem State.job_setBcw (s : State) (a : Nat) (w : Word) (j : Nat) : (s.setBcw a w).job j = s.job j := rfl
@[simp] theorem State.reg_setBcw (s : State) (a : Nat) (w : Word) (o : Nat) : (s.setBcw a w).reg o = s.reg o := rfl
@[simp] theorem State.owned_setBcw (s : State) (a : Nat) (w : Word) (r : Fin 4) : (s.setBcw a w).owned r = s.owned r := rfl
@[simp] theorem State.now_setBcw (s : State) (a : Nat) (w : Word) : (s.setBcw a w).now = s.now := rfl
@[simp] theorem State.deckNow_setBcw (s : State) (a : Nat) (w : Word) : (s.setBcw a w).deckNow = s.deckNow := rfl
@[simp] theorem State.ring_setBcw (s : State) (a : Nat) (w : Word) (p : Fin 4) (d : Nat) : (s.setBcw a w).ring p d = s.ring p d := rfl
@[simp] theorem State.groupOf_setBcw (s : State) (a : Nat) (w : Word) (key : Word) : (s.setBcw a w).groupOf key = s.groupOf key := rfl
@[simp] theorem State.setMark_mem (s : State) (a : Nat) (u : Upset) : (s.setMark a u).mem = s.mem := rfl
@[simp] theorem State.setMark_bcw (s : State) (a : Nat) (u : Upset) : (s.setMark a u).bcw = s.bcw := rfl
@[simp] theorem State.setMark_regs (s : State) (a : Nat) (u : Upset) : (s.setMark a u).regs = s.regs := rfl
@[simp] theorem State.setMark_latch (s : State) (a : Nat) (u : Upset) : (s.setMark a u).latch = s.latch := rfl
@[simp] theorem State.setMark_fronds (s : State) (a : Nat) (u : Upset) : (s.setMark a u).fronds = s.fronds := rfl
@[simp] theorem State.setMark_ports (s : State) (a : Nat) (u : Upset) : (s.setMark a u).ports = s.ports := rfl
@[simp] theorem State.setMark_parts (s : State) (a : Nat) (u : Upset) : (s.setMark a u).parts = s.parts := rfl
@[simp] theorem State.setMark_links (s : State) (a : Nat) (u : Upset) : (s.setMark a u).links = s.links := rfl
@[simp] theorem State.setMark_streams (s : State) (a : Nat) (u : Upset) : (s.setMark a u).streams = s.streams := rfl
@[simp] theorem State.setMark_dealer (s : State) (a : Nat) (u : Upset) : (s.setMark a u).dealer = s.dealer := rfl
@[simp] theorem State.setMark_time (s : State) (a : Nat) (u : Upset) : (s.setMark a u).time = s.time := rfl
@[simp] theorem State.setMark_allocs (s : State) (a : Nat) (u : Upset) : (s.setMark a u).allocs = s.allocs := rfl
@[simp] theorem State.setMark_pools (s : State) (a : Nat) (u : Upset) : (s.setMark a u).pools = s.pools := rfl
@[simp] theorem State.setMark_seqs (s : State) (a : Nat) (u : Upset) : (s.setMark a u).seqs = s.seqs := rfl
@[simp] theorem State.setMark_progs (s : State) (a : Nat) (u : Upset) : (s.setMark a u).progs = s.progs := rfl
@[simp] theorem State.setMark_jobs (s : State) (a : Nat) (u : Upset) : (s.setMark a u).jobs = s.jobs := rfl
@[simp] theorem State.setMark_nextId (s : State) (a : Nat) (u : Upset) : (s.setMark a u).nextId = s.nextId := rfl
@[simp] theorem State.setMark_groups (s : State) (a : Nat) (u : Upset) : (s.setMark a u).groups = s.groups := rfl
@[simp] theorem State.setMark_tricks (s : State) (a : Nat) (u : Upset) : (s.setMark a u).tricks = s.tricks := rfl
@[simp] theorem State.setMark_fcol (s : State) (a : Nat) (u : Upset) : (s.setMark a u).fcol = s.fcol := rfl
@[simp] theorem State.setMark_ages (s : State) (a : Nat) (u : Upset) : (s.setMark a u).ages = s.ages := rfl
@[simp] theorem State.setMark_safety (s : State) (a : Nat) (u : Upset) : (s.setMark a u).safety = s.safety := rfl
@[simp] theorem State.setMark_power (s : State) (a : Nat) (u : Upset) : (s.setMark a u).power = s.power := rfl
@[simp] theorem State.setMark_dbg (s : State) (a : Nat) (u : Upset) : (s.setMark a u).dbg = s.dbg := rfl
@[simp] theorem State.setMark_mbs (s : State) (a : Nat) (u : Upset) : (s.setMark a u).mbs = s.mbs := rfl
@[simp] theorem State.setMark_otp (s : State) (a : Nat) (u : Upset) : (s.setMark a u).otp = s.otp := rfl
@[simp] theorem State.setMark_nor (s : State) (a : Nat) (u : Upset) : (s.setMark a u).nor = s.nor := rfl
@[simp] theorem State.setMark_sys (s : State) (a : Nat) (u : Upset) : (s.setMark a u).sys = s.sys := rfl
@[simp] theorem State.setMark_tap (s : State) (a : Nat) (u : Upset) : (s.setMark a u).tap = s.tap := rfl
@[simp] theorem State.setMark_i2c (s : State) (a : Nat) (u : Upset) : (s.setMark a u).i2c = s.i2c := rfl
@[simp] theorem State.setMark_dramWb (s : State) (a : Nat) (u : Upset) : (s.setMark a u).dramWb = s.dramWb := rfl
@[simp] theorem State.setMark_matWb (s : State) (a : Nat) (u : Upset) : (s.setMark a u).matWb = s.matWb := rfl
@[simp] theorem State.setMark_wbDone (s : State) (a : Nat) (u : Upset) : (s.setMark a u).wbDone = s.wbDone := rfl
@[simp] theorem State.setMark_hot (s : State) (a : Nat) (u : Upset) : (s.setMark a u).hot = s.hot := rfl
@[simp] theorem State.setMark_patrol (s : State) (a : Nat) (u : Upset) : (s.setMark a u).patrol = s.patrol := rfl
@[simp] theorem State.setMark_out (s : State) (a : Nat) (u : Upset) : (s.setMark a u).out = s.out := rfl
@[simp] theorem State.setMark_free (s : State) (a : Nat) (u : Upset) : (s.setMark a u).free = s.free := rfl
@[simp] theorem State.setMark_pending (s : State) (a : Nat) (u : Upset) : (s.setMark a u).pending = s.pending := rfl
@[simp] theorem State.setMark_repairs (s : State) (a : Nat) (u : Upset) : (s.setMark a u).repairs = s.repairs := rfl
@[simp] theorem State.setMark_matHeld (s : State) (a : Nat) (u : Upset) : (s.setMark a u).matHeld = s.matHeld := rfl
@[simp] theorem State.setMark_matWait (s : State) (a : Nat) (u : Upset) : (s.setMark a u).matWait = s.matWait := rfl
@[simp] theorem State.setMark_dramWait (s : State) (a : Nat) (u : Upset) : (s.setMark a u).dramWait = s.dramWait := rfl
@[simp] theorem State.setMark_release (s : State) (a : Nat) (u : Upset) : (s.setMark a u).release = s.release := rfl
@[simp] theorem State.frond_setMark (s : State) (a : Nat) (u : Upset) (f : Fin 4) : (s.setMark a u).frond f = s.frond f := rfl
@[simp] theorem State.port_setMark (s : State) (a : Nat) (u : Upset) (p : Fin 4) : (s.setMark a u).port p = s.port p := rfl
@[simp] theorem State.part_setMark (s : State) (a : Nat) (u : Upset) (r : Fin 4) : (s.setMark a u).part r = s.part r := rfl
@[simp] theorem State.link_setMark (s : State) (a : Nat) (u : Upset) (l : Fin 3) : (s.setMark a u).link l = s.link l := rfl
@[simp] theorem State.stream_setMark (s : State) (a : Nat) (u : Upset) (c : Nat) : (s.setMark a u).stream c = s.stream c := rfl
@[simp] theorem State.job_setMark (s : State) (a : Nat) (u : Upset) (j : Nat) : (s.setMark a u).job j = s.job j := rfl
@[simp] theorem State.reg_setMark (s : State) (a : Nat) (u : Upset) (o : Nat) : (s.setMark a u).reg o = s.reg o := rfl
@[simp] theorem State.owned_setMark (s : State) (a : Nat) (u : Upset) (r : Fin 4) : (s.setMark a u).owned r = s.owned r := rfl
@[simp] theorem State.now_setMark (s : State) (a : Nat) (u : Upset) : (s.setMark a u).now = s.now := rfl
@[simp] theorem State.deckNow_setMark (s : State) (a : Nat) (u : Upset) : (s.setMark a u).deckNow = s.deckNow := rfl
@[simp] theorem State.ring_setMark (s : State) (a : Nat) (u : Upset) (p : Fin 4) (d : Nat) : (s.setMark a u).ring p d = s.ring p d := rfl
@[simp] theorem State.groupOf_setMark (s : State) (a : Nat) (u : Upset) (key : Word) : (s.setMark a u).groupOf key = s.groupOf key := rfl
@[simp] theorem State.wr_bcw (s : State) (a : Nat) (b : Byte) : (s.wr a b).bcw = s.bcw := rfl
@[simp] theorem State.wr_upsets (s : State) (a : Nat) (b : Byte) : (s.wr a b).upsets = s.upsets := rfl
@[simp] theorem State.wr_regs (s : State) (a : Nat) (b : Byte) : (s.wr a b).regs = s.regs := rfl
@[simp] theorem State.wr_latch (s : State) (a : Nat) (b : Byte) : (s.wr a b).latch = s.latch := rfl
@[simp] theorem State.wr_fronds (s : State) (a : Nat) (b : Byte) : (s.wr a b).fronds = s.fronds := rfl
@[simp] theorem State.wr_ports (s : State) (a : Nat) (b : Byte) : (s.wr a b).ports = s.ports := rfl
@[simp] theorem State.wr_parts (s : State) (a : Nat) (b : Byte) : (s.wr a b).parts = s.parts := rfl
@[simp] theorem State.wr_links (s : State) (a : Nat) (b : Byte) : (s.wr a b).links = s.links := rfl
@[simp] theorem State.wr_streams (s : State) (a : Nat) (b : Byte) : (s.wr a b).streams = s.streams := rfl
@[simp] theorem State.wr_dealer (s : State) (a : Nat) (b : Byte) : (s.wr a b).dealer = s.dealer := rfl
@[simp] theorem State.wr_time (s : State) (a : Nat) (b : Byte) : (s.wr a b).time = s.time := rfl
@[simp] theorem State.wr_allocs (s : State) (a : Nat) (b : Byte) : (s.wr a b).allocs = s.allocs := rfl
@[simp] theorem State.wr_pools (s : State) (a : Nat) (b : Byte) : (s.wr a b).pools = s.pools := rfl
@[simp] theorem State.wr_seqs (s : State) (a : Nat) (b : Byte) : (s.wr a b).seqs = s.seqs := rfl
@[simp] theorem State.wr_progs (s : State) (a : Nat) (b : Byte) : (s.wr a b).progs = s.progs := rfl
@[simp] theorem State.wr_jobs (s : State) (a : Nat) (b : Byte) : (s.wr a b).jobs = s.jobs := rfl
@[simp] theorem State.wr_nextId (s : State) (a : Nat) (b : Byte) : (s.wr a b).nextId = s.nextId := rfl
@[simp] theorem State.wr_groups (s : State) (a : Nat) (b : Byte) : (s.wr a b).groups = s.groups := rfl
@[simp] theorem State.wr_tricks (s : State) (a : Nat) (b : Byte) : (s.wr a b).tricks = s.tricks := rfl
@[simp] theorem State.wr_fcol (s : State) (a : Nat) (b : Byte) : (s.wr a b).fcol = s.fcol := rfl
@[simp] theorem State.wr_ages (s : State) (a : Nat) (b : Byte) : (s.wr a b).ages = s.ages := rfl
@[simp] theorem State.wr_safety (s : State) (a : Nat) (b : Byte) : (s.wr a b).safety = s.safety := rfl
@[simp] theorem State.wr_power (s : State) (a : Nat) (b : Byte) : (s.wr a b).power = s.power := rfl
@[simp] theorem State.wr_dbg (s : State) (a : Nat) (b : Byte) : (s.wr a b).dbg = s.dbg := rfl
@[simp] theorem State.wr_mbs (s : State) (a : Nat) (b : Byte) : (s.wr a b).mbs = s.mbs := rfl
@[simp] theorem State.wr_otp (s : State) (a : Nat) (b : Byte) : (s.wr a b).otp = s.otp := rfl
@[simp] theorem State.wr_nor (s : State) (a : Nat) (b : Byte) : (s.wr a b).nor = s.nor := rfl
@[simp] theorem State.wr_sys (s : State) (a : Nat) (b : Byte) : (s.wr a b).sys = s.sys := rfl
@[simp] theorem State.wr_tap (s : State) (a : Nat) (b : Byte) : (s.wr a b).tap = s.tap := rfl
@[simp] theorem State.wr_i2c (s : State) (a : Nat) (b : Byte) : (s.wr a b).i2c = s.i2c := rfl
@[simp] theorem State.wr_dramWb (s : State) (a : Nat) (b : Byte) : (s.wr a b).dramWb = s.dramWb := rfl
@[simp] theorem State.wr_matWb (s : State) (a : Nat) (b : Byte) : (s.wr a b).matWb = s.matWb := rfl
@[simp] theorem State.wr_wbDone (s : State) (a : Nat) (b : Byte) : (s.wr a b).wbDone = s.wbDone := rfl
@[simp] theorem State.wr_hot (s : State) (a : Nat) (b : Byte) : (s.wr a b).hot = s.hot := rfl
@[simp] theorem State.wr_patrol (s : State) (a : Nat) (b : Byte) : (s.wr a b).patrol = s.patrol := rfl
@[simp] theorem State.wr_out (s : State) (a : Nat) (b : Byte) : (s.wr a b).out = s.out := rfl
@[simp] theorem State.wr_free (s : State) (a : Nat) (b : Byte) : (s.wr a b).free = s.free := rfl
@[simp] theorem State.wr_pending (s : State) (a : Nat) (b : Byte) : (s.wr a b).pending = s.pending := rfl
@[simp] theorem State.wr_repairs (s : State) (a : Nat) (b : Byte) : (s.wr a b).repairs = s.repairs := rfl
@[simp] theorem State.wr_matHeld (s : State) (a : Nat) (b : Byte) : (s.wr a b).matHeld = s.matHeld := rfl
@[simp] theorem State.wr_matWait (s : State) (a : Nat) (b : Byte) : (s.wr a b).matWait = s.matWait := rfl
@[simp] theorem State.wr_dramWait (s : State) (a : Nat) (b : Byte) : (s.wr a b).dramWait = s.dramWait := rfl
@[simp] theorem State.wr_release (s : State) (a : Nat) (b : Byte) : (s.wr a b).release = s.release := rfl
@[simp] theorem State.frond_wr (s : State) (a : Nat) (b : Byte) (f : Fin 4) : (s.wr a b).frond f = s.frond f := rfl
@[simp] theorem State.port_wr (s : State) (a : Nat) (b : Byte) (p : Fin 4) : (s.wr a b).port p = s.port p := rfl
@[simp] theorem State.part_wr (s : State) (a : Nat) (b : Byte) (r : Fin 4) : (s.wr a b).part r = s.part r := rfl
@[simp] theorem State.link_wr (s : State) (a : Nat) (b : Byte) (l : Fin 3) : (s.wr a b).link l = s.link l := rfl
@[simp] theorem State.stream_wr (s : State) (a : Nat) (b : Byte) (c : Nat) : (s.wr a b).stream c = s.stream c := rfl
@[simp] theorem State.job_wr (s : State) (a : Nat) (b : Byte) (j : Nat) : (s.wr a b).job j = s.job j := rfl
@[simp] theorem State.reg_wr (s : State) (a : Nat) (b : Byte) (o : Nat) : (s.wr a b).reg o = s.reg o := rfl
@[simp] theorem State.owned_wr (s : State) (a : Nat) (b : Byte) (r : Fin 4) : (s.wr a b).owned r = s.owned r := rfl
@[simp] theorem State.now_wr (s : State) (a : Nat) (b : Byte) : (s.wr a b).now = s.now := rfl
@[simp] theorem State.deckNow_wr (s : State) (a : Nat) (b : Byte) : (s.wr a b).deckNow = s.deckNow := rfl
@[simp] theorem State.ring_wr (s : State) (a : Nat) (b : Byte) (p : Fin 4) (d : Nat) : (s.wr a b).ring p d = s.ring p d := rfl
@[simp] theorem State.groupOf_wr (s : State) (a : Nat) (b : Byte) (key : Word) : (s.wr a b).groupOf key = s.groupOf key := rfl
@[simp] theorem State.irq_mem (s : State) (h : Fin 4) (b : Nat) : (s.irq h b).mem = s.mem := rfl
@[simp] theorem State.irq_bcw (s : State) (h : Fin 4) (b : Nat) : (s.irq h b).bcw = s.bcw := rfl
@[simp] theorem State.irq_upsets (s : State) (h : Fin 4) (b : Nat) : (s.irq h b).upsets = s.upsets := rfl
@[simp] theorem State.irq_regs (s : State) (h : Fin 4) (b : Nat) : (s.irq h b).regs = s.regs := rfl
@[simp] theorem State.irq_latch (s : State) (h : Fin 4) (b : Nat) : (s.irq h b).latch = s.latch := rfl
@[simp] theorem State.irq_fronds (s : State) (h : Fin 4) (b : Nat) : (s.irq h b).fronds = s.fronds := rfl
@[simp] theorem State.irq_parts (s : State) (h : Fin 4) (b : Nat) : (s.irq h b).parts = s.parts := rfl
@[simp] theorem State.irq_links (s : State) (h : Fin 4) (b : Nat) : (s.irq h b).links = s.links := rfl
@[simp] theorem State.irq_streams (s : State) (h : Fin 4) (b : Nat) : (s.irq h b).streams = s.streams := rfl
@[simp] theorem State.irq_dealer (s : State) (h : Fin 4) (b : Nat) : (s.irq h b).dealer = s.dealer := rfl
@[simp] theorem State.irq_time (s : State) (h : Fin 4) (b : Nat) : (s.irq h b).time = s.time := rfl
@[simp] theorem State.irq_allocs (s : State) (h : Fin 4) (b : Nat) : (s.irq h b).allocs = s.allocs := rfl
@[simp] theorem State.irq_pools (s : State) (h : Fin 4) (b : Nat) : (s.irq h b).pools = s.pools := rfl
@[simp] theorem State.irq_seqs (s : State) (h : Fin 4) (b : Nat) : (s.irq h b).seqs = s.seqs := rfl
@[simp] theorem State.irq_progs (s : State) (h : Fin 4) (b : Nat) : (s.irq h b).progs = s.progs := rfl
@[simp] theorem State.irq_jobs (s : State) (h : Fin 4) (b : Nat) : (s.irq h b).jobs = s.jobs := rfl
@[simp] theorem State.irq_nextId (s : State) (h : Fin 4) (b : Nat) : (s.irq h b).nextId = s.nextId := rfl
@[simp] theorem State.irq_groups (s : State) (h : Fin 4) (b : Nat) : (s.irq h b).groups = s.groups := rfl
@[simp] theorem State.irq_tricks (s : State) (h : Fin 4) (b : Nat) : (s.irq h b).tricks = s.tricks := rfl
@[simp] theorem State.irq_fcol (s : State) (h : Fin 4) (b : Nat) : (s.irq h b).fcol = s.fcol := rfl
@[simp] theorem State.irq_ages (s : State) (h : Fin 4) (b : Nat) : (s.irq h b).ages = s.ages := rfl
@[simp] theorem State.irq_safety (s : State) (h : Fin 4) (b : Nat) : (s.irq h b).safety = s.safety := rfl
@[simp] theorem State.irq_power (s : State) (h : Fin 4) (b : Nat) : (s.irq h b).power = s.power := rfl
@[simp] theorem State.irq_dbg (s : State) (h : Fin 4) (b : Nat) : (s.irq h b).dbg = s.dbg := rfl
@[simp] theorem State.irq_mbs (s : State) (h : Fin 4) (b : Nat) : (s.irq h b).mbs = s.mbs := rfl
@[simp] theorem State.irq_otp (s : State) (h : Fin 4) (b : Nat) : (s.irq h b).otp = s.otp := rfl
@[simp] theorem State.irq_nor (s : State) (h : Fin 4) (b : Nat) : (s.irq h b).nor = s.nor := rfl
@[simp] theorem State.irq_sys (s : State) (h : Fin 4) (b : Nat) : (s.irq h b).sys = s.sys := rfl
@[simp] theorem State.irq_tap (s : State) (h : Fin 4) (b : Nat) : (s.irq h b).tap = s.tap := rfl
@[simp] theorem State.irq_i2c (s : State) (h : Fin 4) (b : Nat) : (s.irq h b).i2c = s.i2c := rfl
@[simp] theorem State.irq_dramWb (s : State) (h : Fin 4) (b : Nat) : (s.irq h b).dramWb = s.dramWb := rfl
@[simp] theorem State.irq_matWb (s : State) (h : Fin 4) (b : Nat) : (s.irq h b).matWb = s.matWb := rfl
@[simp] theorem State.irq_wbDone (s : State) (h : Fin 4) (b : Nat) : (s.irq h b).wbDone = s.wbDone := rfl
@[simp] theorem State.irq_hot (s : State) (h : Fin 4) (b : Nat) : (s.irq h b).hot = s.hot := rfl
@[simp] theorem State.irq_patrol (s : State) (h : Fin 4) (b : Nat) : (s.irq h b).patrol = s.patrol := rfl
@[simp] theorem State.irq_out (s : State) (h : Fin 4) (b : Nat) : (s.irq h b).out = s.out := rfl
@[simp] theorem State.irq_free (s : State) (h : Fin 4) (b : Nat) : (s.irq h b).free = s.free := rfl
@[simp] theorem State.irq_pending (s : State) (h : Fin 4) (b : Nat) : (s.irq h b).pending = s.pending := rfl
@[simp] theorem State.irq_repairs (s : State) (h : Fin 4) (b : Nat) : (s.irq h b).repairs = s.repairs := rfl
@[simp] theorem State.irq_matHeld (s : State) (h : Fin 4) (b : Nat) : (s.irq h b).matHeld = s.matHeld := rfl
@[simp] theorem State.irq_matWait (s : State) (h : Fin 4) (b : Nat) : (s.irq h b).matWait = s.matWait := rfl
@[simp] theorem State.irq_dramWait (s : State) (h : Fin 4) (b : Nat) : (s.irq h b).dramWait = s.dramWait := rfl
@[simp] theorem State.irq_release (s : State) (h : Fin 4) (b : Nat) : (s.irq h b).release = s.release := rfl
@[simp] theorem State.frond_irq (s : State) (h : Fin 4) (b : Nat) (f : Fin 4) : (s.irq h b).frond f = s.frond f := rfl
@[simp] theorem State.part_irq (s : State) (h : Fin 4) (b : Nat) (r : Fin 4) : (s.irq h b).part r = s.part r := rfl
@[simp] theorem State.link_irq (s : State) (h : Fin 4) (b : Nat) (l : Fin 3) : (s.irq h b).link l = s.link l := rfl
@[simp] theorem State.stream_irq (s : State) (h : Fin 4) (b : Nat) (c : Nat) : (s.irq h b).stream c = s.stream c := rfl
@[simp] theorem State.job_irq (s : State) (h : Fin 4) (b : Nat) (j : Nat) : (s.irq h b).job j = s.job j := rfl
@[simp] theorem State.reg_irq (s : State) (h : Fin 4) (b : Nat) (o : Nat) : (s.irq h b).reg o = s.reg o := rfl
@[simp] theorem State.owned_irq (s : State) (h : Fin 4) (b : Nat) (r : Fin 4) : (s.irq h b).owned r = s.owned r := rfl
@[simp] theorem State.now_irq (s : State) (h : Fin 4) (b : Nat) : (s.irq h b).now = s.now := rfl
@[simp] theorem State.deckNow_irq (s : State) (h : Fin 4) (b : Nat) : (s.irq h b).deckNow = s.deckNow := rfl
@[simp] theorem State.groupOf_irq (s : State) (h : Fin 4) (b : Nat) (key : Word) : (s.irq h b).groupOf key = s.groupOf key := rfl
@[simp] theorem State.setRing_mem (s : State) (h : Fin 4) (a : Nat) (x : Ring) : (s.setRing h a x).mem = s.mem := rfl
@[simp] theorem State.setRing_bcw (s : State) (h : Fin 4) (a : Nat) (x : Ring) : (s.setRing h a x).bcw = s.bcw := rfl
@[simp] theorem State.setRing_upsets (s : State) (h : Fin 4) (a : Nat) (x : Ring) : (s.setRing h a x).upsets = s.upsets := rfl
@[simp] theorem State.setRing_regs (s : State) (h : Fin 4) (a : Nat) (x : Ring) : (s.setRing h a x).regs = s.regs := rfl
@[simp] theorem State.setRing_latch (s : State) (h : Fin 4) (a : Nat) (x : Ring) : (s.setRing h a x).latch = s.latch := rfl
@[simp] theorem State.setRing_fronds (s : State) (h : Fin 4) (a : Nat) (x : Ring) : (s.setRing h a x).fronds = s.fronds := rfl
@[simp] theorem State.setRing_parts (s : State) (h : Fin 4) (a : Nat) (x : Ring) : (s.setRing h a x).parts = s.parts := rfl
@[simp] theorem State.setRing_links (s : State) (h : Fin 4) (a : Nat) (x : Ring) : (s.setRing h a x).links = s.links := rfl
@[simp] theorem State.setRing_streams (s : State) (h : Fin 4) (a : Nat) (x : Ring) : (s.setRing h a x).streams = s.streams := rfl
@[simp] theorem State.setRing_dealer (s : State) (h : Fin 4) (a : Nat) (x : Ring) : (s.setRing h a x).dealer = s.dealer := rfl
@[simp] theorem State.setRing_time (s : State) (h : Fin 4) (a : Nat) (x : Ring) : (s.setRing h a x).time = s.time := rfl
@[simp] theorem State.setRing_allocs (s : State) (h : Fin 4) (a : Nat) (x : Ring) : (s.setRing h a x).allocs = s.allocs := rfl
@[simp] theorem State.setRing_pools (s : State) (h : Fin 4) (a : Nat) (x : Ring) : (s.setRing h a x).pools = s.pools := rfl
@[simp] theorem State.setRing_seqs (s : State) (h : Fin 4) (a : Nat) (x : Ring) : (s.setRing h a x).seqs = s.seqs := rfl
@[simp] theorem State.setRing_progs (s : State) (h : Fin 4) (a : Nat) (x : Ring) : (s.setRing h a x).progs = s.progs := rfl
@[simp] theorem State.setRing_jobs (s : State) (h : Fin 4) (a : Nat) (x : Ring) : (s.setRing h a x).jobs = s.jobs := rfl
@[simp] theorem State.setRing_nextId (s : State) (h : Fin 4) (a : Nat) (x : Ring) : (s.setRing h a x).nextId = s.nextId := rfl
@[simp] theorem State.setRing_groups (s : State) (h : Fin 4) (a : Nat) (x : Ring) : (s.setRing h a x).groups = s.groups := rfl
@[simp] theorem State.setRing_tricks (s : State) (h : Fin 4) (a : Nat) (x : Ring) : (s.setRing h a x).tricks = s.tricks := rfl
@[simp] theorem State.setRing_fcol (s : State) (h : Fin 4) (a : Nat) (x : Ring) : (s.setRing h a x).fcol = s.fcol := rfl
@[simp] theorem State.setRing_ages (s : State) (h : Fin 4) (a : Nat) (x : Ring) : (s.setRing h a x).ages = s.ages := rfl
@[simp] theorem State.setRing_safety (s : State) (h : Fin 4) (a : Nat) (x : Ring) : (s.setRing h a x).safety = s.safety := rfl
@[simp] theorem State.setRing_power (s : State) (h : Fin 4) (a : Nat) (x : Ring) : (s.setRing h a x).power = s.power := rfl
@[simp] theorem State.setRing_dbg (s : State) (h : Fin 4) (a : Nat) (x : Ring) : (s.setRing h a x).dbg = s.dbg := rfl
@[simp] theorem State.setRing_mbs (s : State) (h : Fin 4) (a : Nat) (x : Ring) : (s.setRing h a x).mbs = s.mbs := rfl
@[simp] theorem State.setRing_otp (s : State) (h : Fin 4) (a : Nat) (x : Ring) : (s.setRing h a x).otp = s.otp := rfl
@[simp] theorem State.setRing_nor (s : State) (h : Fin 4) (a : Nat) (x : Ring) : (s.setRing h a x).nor = s.nor := rfl
@[simp] theorem State.setRing_sys (s : State) (h : Fin 4) (a : Nat) (x : Ring) : (s.setRing h a x).sys = s.sys := rfl
@[simp] theorem State.setRing_tap (s : State) (h : Fin 4) (a : Nat) (x : Ring) : (s.setRing h a x).tap = s.tap := rfl
@[simp] theorem State.setRing_i2c (s : State) (h : Fin 4) (a : Nat) (x : Ring) : (s.setRing h a x).i2c = s.i2c := rfl
@[simp] theorem State.setRing_dramWb (s : State) (h : Fin 4) (a : Nat) (x : Ring) : (s.setRing h a x).dramWb = s.dramWb := rfl
@[simp] theorem State.setRing_matWb (s : State) (h : Fin 4) (a : Nat) (x : Ring) : (s.setRing h a x).matWb = s.matWb := rfl
@[simp] theorem State.setRing_wbDone (s : State) (h : Fin 4) (a : Nat) (x : Ring) : (s.setRing h a x).wbDone = s.wbDone := rfl
@[simp] theorem State.setRing_hot (s : State) (h : Fin 4) (a : Nat) (x : Ring) : (s.setRing h a x).hot = s.hot := rfl
@[simp] theorem State.setRing_patrol (s : State) (h : Fin 4) (a : Nat) (x : Ring) : (s.setRing h a x).patrol = s.patrol := rfl
@[simp] theorem State.setRing_out (s : State) (h : Fin 4) (a : Nat) (x : Ring) : (s.setRing h a x).out = s.out := rfl
@[simp] theorem State.setRing_free (s : State) (h : Fin 4) (a : Nat) (x : Ring) : (s.setRing h a x).free = s.free := rfl
@[simp] theorem State.setRing_pending (s : State) (h : Fin 4) (a : Nat) (x : Ring) : (s.setRing h a x).pending = s.pending := rfl
@[simp] theorem State.setRing_repairs (s : State) (h : Fin 4) (a : Nat) (x : Ring) : (s.setRing h a x).repairs = s.repairs := rfl
@[simp] theorem State.setRing_matHeld (s : State) (h : Fin 4) (a : Nat) (x : Ring) : (s.setRing h a x).matHeld = s.matHeld := rfl
@[simp] theorem State.setRing_matWait (s : State) (h : Fin 4) (a : Nat) (x : Ring) : (s.setRing h a x).matWait = s.matWait := rfl
@[simp] theorem State.setRing_dramWait (s : State) (h : Fin 4) (a : Nat) (x : Ring) : (s.setRing h a x).dramWait = s.dramWait := rfl
@[simp] theorem State.frond_setRing (s : State) (h : Fin 4) (a : Nat) (x : Ring) (f : Fin 4) : (s.setRing h a x).frond f = s.frond f := rfl
@[simp] theorem State.part_setRing (s : State) (h : Fin 4) (a : Nat) (x : Ring) (r : Fin 4) : (s.setRing h a x).part r = s.part r := rfl
@[simp] theorem State.link_setRing (s : State) (h : Fin 4) (a : Nat) (x : Ring) (l : Fin 3) : (s.setRing h a x).link l = s.link l := rfl
@[simp] theorem State.stream_setRing (s : State) (h : Fin 4) (a : Nat) (x : Ring) (c : Nat) : (s.setRing h a x).stream c = s.stream c := rfl
@[simp] theorem State.job_setRing (s : State) (h : Fin 4) (a : Nat) (x : Ring) (j : Nat) : (s.setRing h a x).job j = s.job j := rfl
@[simp] theorem State.reg_setRing (s : State) (h : Fin 4) (a : Nat) (x : Ring) (o : Nat) : (s.setRing h a x).reg o = s.reg o := rfl
@[simp] theorem State.owned_setRing (s : State) (h : Fin 4) (a : Nat) (x : Ring) (r : Fin 4) : (s.setRing h a x).owned r = s.owned r := rfl
@[simp] theorem State.now_setRing (s : State) (h : Fin 4) (a : Nat) (x : Ring) : (s.setRing h a x).now = s.now := rfl
@[simp] theorem State.deckNow_setRing (s : State) (h : Fin 4) (a : Nat) (x : Ring) : (s.setRing h a x).deckNow = s.deckNow := rfl
@[simp] theorem State.groupOf_setRing (s : State) (h : Fin 4) (a : Nat) (x : Ring) (key : Word) : (s.setRing h a x).groupOf key = s.groupOf key := rfl
@[simp] theorem State.modTrick_mem (s : State) (k : Word) (e i : Nat) (g : Trick → Trick) : (s.modTrick k e i g).mem = s.mem := rfl
@[simp] theorem State.modTrick_bcw (s : State) (k : Word) (e i : Nat) (g : Trick → Trick) : (s.modTrick k e i g).bcw = s.bcw := rfl
@[simp] theorem State.modTrick_upsets (s : State) (k : Word) (e i : Nat) (g : Trick → Trick) : (s.modTrick k e i g).upsets = s.upsets := rfl
@[simp] theorem State.modTrick_regs (s : State) (k : Word) (e i : Nat) (g : Trick → Trick) : (s.modTrick k e i g).regs = s.regs := rfl
@[simp] theorem State.modTrick_latch (s : State) (k : Word) (e i : Nat) (g : Trick → Trick) : (s.modTrick k e i g).latch = s.latch := rfl
@[simp] theorem State.modTrick_fronds (s : State) (k : Word) (e i : Nat) (g : Trick → Trick) : (s.modTrick k e i g).fronds = s.fronds := rfl
@[simp] theorem State.modTrick_ports (s : State) (k : Word) (e i : Nat) (g : Trick → Trick) : (s.modTrick k e i g).ports = s.ports := rfl
@[simp] theorem State.modTrick_parts (s : State) (k : Word) (e i : Nat) (g : Trick → Trick) : (s.modTrick k e i g).parts = s.parts := rfl
@[simp] theorem State.modTrick_links (s : State) (k : Word) (e i : Nat) (g : Trick → Trick) : (s.modTrick k e i g).links = s.links := rfl
@[simp] theorem State.modTrick_streams (s : State) (k : Word) (e i : Nat) (g : Trick → Trick) : (s.modTrick k e i g).streams = s.streams := rfl
@[simp] theorem State.modTrick_dealer (s : State) (k : Word) (e i : Nat) (g : Trick → Trick) : (s.modTrick k e i g).dealer = s.dealer := rfl
@[simp] theorem State.modTrick_time (s : State) (k : Word) (e i : Nat) (g : Trick → Trick) : (s.modTrick k e i g).time = s.time := rfl
@[simp] theorem State.modTrick_allocs (s : State) (k : Word) (e i : Nat) (g : Trick → Trick) : (s.modTrick k e i g).allocs = s.allocs := rfl
@[simp] theorem State.modTrick_pools (s : State) (k : Word) (e i : Nat) (g : Trick → Trick) : (s.modTrick k e i g).pools = s.pools := rfl
@[simp] theorem State.modTrick_seqs (s : State) (k : Word) (e i : Nat) (g : Trick → Trick) : (s.modTrick k e i g).seqs = s.seqs := rfl
@[simp] theorem State.modTrick_progs (s : State) (k : Word) (e i : Nat) (g : Trick → Trick) : (s.modTrick k e i g).progs = s.progs := rfl
@[simp] theorem State.modTrick_jobs (s : State) (k : Word) (e i : Nat) (g : Trick → Trick) : (s.modTrick k e i g).jobs = s.jobs := rfl
@[simp] theorem State.modTrick_nextId (s : State) (k : Word) (e i : Nat) (g : Trick → Trick) : (s.modTrick k e i g).nextId = s.nextId := rfl
@[simp] theorem State.modTrick_groups (s : State) (k : Word) (e i : Nat) (g : Trick → Trick) : (s.modTrick k e i g).groups = s.groups := rfl
@[simp] theorem State.modTrick_fcol (s : State) (k : Word) (e i : Nat) (g : Trick → Trick) : (s.modTrick k e i g).fcol = s.fcol := rfl
@[simp] theorem State.modTrick_ages (s : State) (k : Word) (e i : Nat) (g : Trick → Trick) : (s.modTrick k e i g).ages = s.ages := rfl
@[simp] theorem State.modTrick_safety (s : State) (k : Word) (e i : Nat) (g : Trick → Trick) : (s.modTrick k e i g).safety = s.safety := rfl
@[simp] theorem State.modTrick_power (s : State) (k : Word) (e i : Nat) (g : Trick → Trick) : (s.modTrick k e i g).power = s.power := rfl
@[simp] theorem State.modTrick_dbg (s : State) (k : Word) (e i : Nat) (g : Trick → Trick) : (s.modTrick k e i g).dbg = s.dbg := rfl
@[simp] theorem State.modTrick_mbs (s : State) (k : Word) (e i : Nat) (g : Trick → Trick) : (s.modTrick k e i g).mbs = s.mbs := rfl
@[simp] theorem State.modTrick_otp (s : State) (k : Word) (e i : Nat) (g : Trick → Trick) : (s.modTrick k e i g).otp = s.otp := rfl
@[simp] theorem State.modTrick_nor (s : State) (k : Word) (e i : Nat) (g : Trick → Trick) : (s.modTrick k e i g).nor = s.nor := rfl
@[simp] theorem State.modTrick_sys (s : State) (k : Word) (e i : Nat) (g : Trick → Trick) : (s.modTrick k e i g).sys = s.sys := rfl
@[simp] theorem State.modTrick_tap (s : State) (k : Word) (e i : Nat) (g : Trick → Trick) : (s.modTrick k e i g).tap = s.tap := rfl
@[simp] theorem State.modTrick_i2c (s : State) (k : Word) (e i : Nat) (g : Trick → Trick) : (s.modTrick k e i g).i2c = s.i2c := rfl
@[simp] theorem State.modTrick_dramWb (s : State) (k : Word) (e i : Nat) (g : Trick → Trick) : (s.modTrick k e i g).dramWb = s.dramWb := rfl
@[simp] theorem State.modTrick_matWb (s : State) (k : Word) (e i : Nat) (g : Trick → Trick) : (s.modTrick k e i g).matWb = s.matWb := rfl
@[simp] theorem State.modTrick_wbDone (s : State) (k : Word) (e i : Nat) (g : Trick → Trick) : (s.modTrick k e i g).wbDone = s.wbDone := rfl
@[simp] theorem State.modTrick_hot (s : State) (k : Word) (e i : Nat) (g : Trick → Trick) : (s.modTrick k e i g).hot = s.hot := rfl
@[simp] theorem State.modTrick_patrol (s : State) (k : Word) (e i : Nat) (g : Trick → Trick) : (s.modTrick k e i g).patrol = s.patrol := rfl
@[simp] theorem State.modTrick_out (s : State) (k : Word) (e i : Nat) (g : Trick → Trick) : (s.modTrick k e i g).out = s.out := rfl
@[simp] theorem State.modTrick_free (s : State) (k : Word) (e i : Nat) (g : Trick → Trick) : (s.modTrick k e i g).free = s.free := rfl
@[simp] theorem State.modTrick_pending (s : State) (k : Word) (e i : Nat) (g : Trick → Trick) : (s.modTrick k e i g).pending = s.pending := rfl
@[simp] theorem State.modTrick_repairs (s : State) (k : Word) (e i : Nat) (g : Trick → Trick) : (s.modTrick k e i g).repairs = s.repairs := rfl
@[simp] theorem State.modTrick_matHeld (s : State) (k : Word) (e i : Nat) (g : Trick → Trick) : (s.modTrick k e i g).matHeld = s.matHeld := rfl
@[simp] theorem State.modTrick_matWait (s : State) (k : Word) (e i : Nat) (g : Trick → Trick) : (s.modTrick k e i g).matWait = s.matWait := rfl
@[simp] theorem State.modTrick_dramWait (s : State) (k : Word) (e i : Nat) (g : Trick → Trick) : (s.modTrick k e i g).dramWait = s.dramWait := rfl
@[simp] theorem State.modTrick_release (s : State) (k : Word) (e i : Nat) (g : Trick → Trick) : (s.modTrick k e i g).release = s.release := rfl
@[simp] theorem State.frond_modTrick (s : State) (k : Word) (e i : Nat) (g : Trick → Trick) (f : Fin 4) : (s.modTrick k e i g).frond f = s.frond f := rfl
@[simp] theorem State.port_modTrick (s : State) (k : Word) (e i : Nat) (g : Trick → Trick) (p : Fin 4) : (s.modTrick k e i g).port p = s.port p := rfl
@[simp] theorem State.part_modTrick (s : State) (k : Word) (e i : Nat) (g : Trick → Trick) (r : Fin 4) : (s.modTrick k e i g).part r = s.part r := rfl
@[simp] theorem State.link_modTrick (s : State) (k : Word) (e i : Nat) (g : Trick → Trick) (l : Fin 3) : (s.modTrick k e i g).link l = s.link l := rfl
@[simp] theorem State.stream_modTrick (s : State) (k : Word) (e i : Nat) (g : Trick → Trick) (c : Nat) : (s.modTrick k e i g).stream c = s.stream c := rfl
@[simp] theorem State.job_modTrick (s : State) (k : Word) (e i : Nat) (g : Trick → Trick) (j : Nat) : (s.modTrick k e i g).job j = s.job j := rfl
@[simp] theorem State.reg_modTrick (s : State) (k : Word) (e i : Nat) (g : Trick → Trick) (o : Nat) : (s.modTrick k e i g).reg o = s.reg o := rfl
@[simp] theorem State.owned_modTrick (s : State) (k : Word) (e i : Nat) (g : Trick → Trick) (r : Fin 4) : (s.modTrick k e i g).owned r = s.owned r := rfl
@[simp] theorem State.now_modTrick (s : State) (k : Word) (e i : Nat) (g : Trick → Trick) : (s.modTrick k e i g).now = s.now := rfl
@[simp] theorem State.deckNow_modTrick (s : State) (k : Word) (e i : Nat) (g : Trick → Trick) : (s.modTrick k e i g).deckNow = s.deckNow := rfl
@[simp] theorem State.ring_modTrick (s : State) (k : Word) (e i : Nat) (g : Trick → Trick) (p : Fin 4) (d : Nat) : (s.modTrick k e i g).ring p d = s.ring p d := rfl
@[simp] theorem State.groupOf_modTrick (s : State) (k : Word) (e i : Nat) (g : Trick → Trick) (key : Word) : (s.modTrick k e i g).groupOf key = s.groupOf key := rfl
@[simp] theorem State.modDealer_mem (s : State) (g : Dealer → Dealer) : (s.modDealer g).mem = s.mem := rfl
@[simp] theorem State.modDealer_bcw (s : State) (g : Dealer → Dealer) : (s.modDealer g).bcw = s.bcw := rfl
@[simp] theorem State.modDealer_upsets (s : State) (g : Dealer → Dealer) : (s.modDealer g).upsets = s.upsets := rfl
@[simp] theorem State.modDealer_regs (s : State) (g : Dealer → Dealer) : (s.modDealer g).regs = s.regs := rfl
@[simp] theorem State.modDealer_latch (s : State) (g : Dealer → Dealer) : (s.modDealer g).latch = s.latch := rfl
@[simp] theorem State.modDealer_fronds (s : State) (g : Dealer → Dealer) : (s.modDealer g).fronds = s.fronds := rfl
@[simp] theorem State.modDealer_ports (s : State) (g : Dealer → Dealer) : (s.modDealer g).ports = s.ports := rfl
@[simp] theorem State.modDealer_parts (s : State) (g : Dealer → Dealer) : (s.modDealer g).parts = s.parts := rfl
@[simp] theorem State.modDealer_links (s : State) (g : Dealer → Dealer) : (s.modDealer g).links = s.links := rfl
@[simp] theorem State.modDealer_streams (s : State) (g : Dealer → Dealer) : (s.modDealer g).streams = s.streams := rfl
@[simp] theorem State.modDealer_time (s : State) (g : Dealer → Dealer) : (s.modDealer g).time = s.time := rfl
@[simp] theorem State.modDealer_allocs (s : State) (g : Dealer → Dealer) : (s.modDealer g).allocs = s.allocs := rfl
@[simp] theorem State.modDealer_pools (s : State) (g : Dealer → Dealer) : (s.modDealer g).pools = s.pools := rfl
@[simp] theorem State.modDealer_seqs (s : State) (g : Dealer → Dealer) : (s.modDealer g).seqs = s.seqs := rfl
@[simp] theorem State.modDealer_progs (s : State) (g : Dealer → Dealer) : (s.modDealer g).progs = s.progs := rfl
@[simp] theorem State.modDealer_jobs (s : State) (g : Dealer → Dealer) : (s.modDealer g).jobs = s.jobs := rfl
@[simp] theorem State.modDealer_nextId (s : State) (g : Dealer → Dealer) : (s.modDealer g).nextId = s.nextId := rfl
@[simp] theorem State.modDealer_groups (s : State) (g : Dealer → Dealer) : (s.modDealer g).groups = s.groups := rfl
@[simp] theorem State.modDealer_tricks (s : State) (g : Dealer → Dealer) : (s.modDealer g).tricks = s.tricks := rfl
@[simp] theorem State.modDealer_fcol (s : State) (g : Dealer → Dealer) : (s.modDealer g).fcol = s.fcol := rfl
@[simp] theorem State.modDealer_ages (s : State) (g : Dealer → Dealer) : (s.modDealer g).ages = s.ages := rfl
@[simp] theorem State.modDealer_safety (s : State) (g : Dealer → Dealer) : (s.modDealer g).safety = s.safety := rfl
@[simp] theorem State.modDealer_power (s : State) (g : Dealer → Dealer) : (s.modDealer g).power = s.power := rfl
@[simp] theorem State.modDealer_dbg (s : State) (g : Dealer → Dealer) : (s.modDealer g).dbg = s.dbg := rfl
@[simp] theorem State.modDealer_mbs (s : State) (g : Dealer → Dealer) : (s.modDealer g).mbs = s.mbs := rfl
@[simp] theorem State.modDealer_otp (s : State) (g : Dealer → Dealer) : (s.modDealer g).otp = s.otp := rfl
@[simp] theorem State.modDealer_nor (s : State) (g : Dealer → Dealer) : (s.modDealer g).nor = s.nor := rfl
@[simp] theorem State.modDealer_sys (s : State) (g : Dealer → Dealer) : (s.modDealer g).sys = s.sys := rfl
@[simp] theorem State.modDealer_tap (s : State) (g : Dealer → Dealer) : (s.modDealer g).tap = s.tap := rfl
@[simp] theorem State.modDealer_i2c (s : State) (g : Dealer → Dealer) : (s.modDealer g).i2c = s.i2c := rfl
@[simp] theorem State.modDealer_dramWb (s : State) (g : Dealer → Dealer) : (s.modDealer g).dramWb = s.dramWb := rfl
@[simp] theorem State.modDealer_matWb (s : State) (g : Dealer → Dealer) : (s.modDealer g).matWb = s.matWb := rfl
@[simp] theorem State.modDealer_wbDone (s : State) (g : Dealer → Dealer) : (s.modDealer g).wbDone = s.wbDone := rfl
@[simp] theorem State.modDealer_hot (s : State) (g : Dealer → Dealer) : (s.modDealer g).hot = s.hot := rfl
@[simp] theorem State.modDealer_patrol (s : State) (g : Dealer → Dealer) : (s.modDealer g).patrol = s.patrol := rfl
@[simp] theorem State.modDealer_out (s : State) (g : Dealer → Dealer) : (s.modDealer g).out = s.out := rfl
@[simp] theorem State.modDealer_free (s : State) (g : Dealer → Dealer) : (s.modDealer g).free = s.free := rfl
@[simp] theorem State.modDealer_pending (s : State) (g : Dealer → Dealer) : (s.modDealer g).pending = s.pending := rfl
@[simp] theorem State.modDealer_repairs (s : State) (g : Dealer → Dealer) : (s.modDealer g).repairs = s.repairs := rfl
@[simp] theorem State.modDealer_matHeld (s : State) (g : Dealer → Dealer) : (s.modDealer g).matHeld = s.matHeld := rfl
@[simp] theorem State.modDealer_matWait (s : State) (g : Dealer → Dealer) : (s.modDealer g).matWait = s.matWait := rfl
@[simp] theorem State.modDealer_dramWait (s : State) (g : Dealer → Dealer) : (s.modDealer g).dramWait = s.dramWait := rfl
@[simp] theorem State.modDealer_release (s : State) (g : Dealer → Dealer) : (s.modDealer g).release = s.release := rfl
@[simp] theorem State.frond_modDealer (s : State) (g : Dealer → Dealer) (f : Fin 4) : (s.modDealer g).frond f = s.frond f := rfl
@[simp] theorem State.port_modDealer (s : State) (g : Dealer → Dealer) (p : Fin 4) : (s.modDealer g).port p = s.port p := rfl
@[simp] theorem State.part_modDealer (s : State) (g : Dealer → Dealer) (r : Fin 4) : (s.modDealer g).part r = s.part r := rfl
@[simp] theorem State.link_modDealer (s : State) (g : Dealer → Dealer) (l : Fin 3) : (s.modDealer g).link l = s.link l := rfl
@[simp] theorem State.stream_modDealer (s : State) (g : Dealer → Dealer) (c : Nat) : (s.modDealer g).stream c = s.stream c := rfl
@[simp] theorem State.job_modDealer (s : State) (g : Dealer → Dealer) (j : Nat) : (s.modDealer g).job j = s.job j := rfl
@[simp] theorem State.reg_modDealer (s : State) (g : Dealer → Dealer) (o : Nat) : (s.modDealer g).reg o = s.reg o := rfl
@[simp] theorem State.owned_modDealer (s : State) (g : Dealer → Dealer) (r : Fin 4) : (s.modDealer g).owned r = s.owned r := rfl
@[simp] theorem State.now_modDealer (s : State) (g : Dealer → Dealer) : (s.modDealer g).now = s.now := rfl
@[simp] theorem State.deckNow_modDealer (s : State) (g : Dealer → Dealer) : (s.modDealer g).deckNow = s.deckNow := rfl
@[simp] theorem State.ring_modDealer (s : State) (g : Dealer → Dealer) (p : Fin 4) (d : Nat) : (s.modDealer g).ring p d = s.ring p d := rfl
@[simp] theorem State.groupOf_modDealer (s : State) (g : Dealer → Dealer) (key : Word) : (s.modDealer g).groupOf key = s.groupOf key := rfl
@[simp] theorem State.setTrig_mem (s : State) (a : Nat) (x : Trig) : (s.setTrig a x).mem = s.mem := rfl
@[simp] theorem State.setTrig_bcw (s : State) (a : Nat) (x : Trig) : (s.setTrig a x).bcw = s.bcw := rfl
@[simp] theorem State.setTrig_upsets (s : State) (a : Nat) (x : Trig) : (s.setTrig a x).upsets = s.upsets := rfl
@[simp] theorem State.setTrig_regs (s : State) (a : Nat) (x : Trig) : (s.setTrig a x).regs = s.regs := rfl
@[simp] theorem State.setTrig_latch (s : State) (a : Nat) (x : Trig) : (s.setTrig a x).latch = s.latch := rfl
@[simp] theorem State.setTrig_fronds (s : State) (a : Nat) (x : Trig) : (s.setTrig a x).fronds = s.fronds := rfl
@[simp] theorem State.setTrig_ports (s : State) (a : Nat) (x : Trig) : (s.setTrig a x).ports = s.ports := rfl
@[simp] theorem State.setTrig_parts (s : State) (a : Nat) (x : Trig) : (s.setTrig a x).parts = s.parts := rfl
@[simp] theorem State.setTrig_links (s : State) (a : Nat) (x : Trig) : (s.setTrig a x).links = s.links := rfl
@[simp] theorem State.setTrig_streams (s : State) (a : Nat) (x : Trig) : (s.setTrig a x).streams = s.streams := rfl
@[simp] theorem State.setTrig_dealer (s : State) (a : Nat) (x : Trig) : (s.setTrig a x).dealer = s.dealer := rfl
@[simp] theorem State.setTrig_allocs (s : State) (a : Nat) (x : Trig) : (s.setTrig a x).allocs = s.allocs := rfl
@[simp] theorem State.setTrig_pools (s : State) (a : Nat) (x : Trig) : (s.setTrig a x).pools = s.pools := rfl
@[simp] theorem State.setTrig_seqs (s : State) (a : Nat) (x : Trig) : (s.setTrig a x).seqs = s.seqs := rfl
@[simp] theorem State.setTrig_progs (s : State) (a : Nat) (x : Trig) : (s.setTrig a x).progs = s.progs := rfl
@[simp] theorem State.setTrig_jobs (s : State) (a : Nat) (x : Trig) : (s.setTrig a x).jobs = s.jobs := rfl
@[simp] theorem State.setTrig_nextId (s : State) (a : Nat) (x : Trig) : (s.setTrig a x).nextId = s.nextId := rfl
@[simp] theorem State.setTrig_groups (s : State) (a : Nat) (x : Trig) : (s.setTrig a x).groups = s.groups := rfl
@[simp] theorem State.setTrig_tricks (s : State) (a : Nat) (x : Trig) : (s.setTrig a x).tricks = s.tricks := rfl
@[simp] theorem State.setTrig_fcol (s : State) (a : Nat) (x : Trig) : (s.setTrig a x).fcol = s.fcol := rfl
@[simp] theorem State.setTrig_ages (s : State) (a : Nat) (x : Trig) : (s.setTrig a x).ages = s.ages := rfl
@[simp] theorem State.setTrig_safety (s : State) (a : Nat) (x : Trig) : (s.setTrig a x).safety = s.safety := rfl
@[simp] theorem State.setTrig_power (s : State) (a : Nat) (x : Trig) : (s.setTrig a x).power = s.power := rfl
@[simp] theorem State.setTrig_dbg (s : State) (a : Nat) (x : Trig) : (s.setTrig a x).dbg = s.dbg := rfl
@[simp] theorem State.setTrig_mbs (s : State) (a : Nat) (x : Trig) : (s.setTrig a x).mbs = s.mbs := rfl
@[simp] theorem State.setTrig_otp (s : State) (a : Nat) (x : Trig) : (s.setTrig a x).otp = s.otp := rfl
@[simp] theorem State.setTrig_nor (s : State) (a : Nat) (x : Trig) : (s.setTrig a x).nor = s.nor := rfl
@[simp] theorem State.setTrig_sys (s : State) (a : Nat) (x : Trig) : (s.setTrig a x).sys = s.sys := rfl
@[simp] theorem State.setTrig_tap (s : State) (a : Nat) (x : Trig) : (s.setTrig a x).tap = s.tap := rfl
@[simp] theorem State.setTrig_i2c (s : State) (a : Nat) (x : Trig) : (s.setTrig a x).i2c = s.i2c := rfl
@[simp] theorem State.setTrig_dramWb (s : State) (a : Nat) (x : Trig) : (s.setTrig a x).dramWb = s.dramWb := rfl
@[simp] theorem State.setTrig_matWb (s : State) (a : Nat) (x : Trig) : (s.setTrig a x).matWb = s.matWb := rfl
@[simp] theorem State.setTrig_wbDone (s : State) (a : Nat) (x : Trig) : (s.setTrig a x).wbDone = s.wbDone := rfl
@[simp] theorem State.setTrig_hot (s : State) (a : Nat) (x : Trig) : (s.setTrig a x).hot = s.hot := rfl
@[simp] theorem State.setTrig_patrol (s : State) (a : Nat) (x : Trig) : (s.setTrig a x).patrol = s.patrol := rfl
@[simp] theorem State.setTrig_out (s : State) (a : Nat) (x : Trig) : (s.setTrig a x).out = s.out := rfl
@[simp] theorem State.setTrig_free (s : State) (a : Nat) (x : Trig) : (s.setTrig a x).free = s.free := rfl
@[simp] theorem State.setTrig_pending (s : State) (a : Nat) (x : Trig) : (s.setTrig a x).pending = s.pending := rfl
@[simp] theorem State.setTrig_repairs (s : State) (a : Nat) (x : Trig) : (s.setTrig a x).repairs = s.repairs := rfl
@[simp] theorem State.setTrig_matHeld (s : State) (a : Nat) (x : Trig) : (s.setTrig a x).matHeld = s.matHeld := rfl
@[simp] theorem State.setTrig_matWait (s : State) (a : Nat) (x : Trig) : (s.setTrig a x).matWait = s.matWait := rfl
@[simp] theorem State.setTrig_dramWait (s : State) (a : Nat) (x : Trig) : (s.setTrig a x).dramWait = s.dramWait := rfl
@[simp] theorem State.setTrig_release (s : State) (a : Nat) (x : Trig) : (s.setTrig a x).release = s.release := rfl
@[simp] theorem State.frond_setTrig (s : State) (a : Nat) (x : Trig) (f : Fin 4) : (s.setTrig a x).frond f = s.frond f := rfl
@[simp] theorem State.port_setTrig (s : State) (a : Nat) (x : Trig) (p : Fin 4) : (s.setTrig a x).port p = s.port p := rfl
@[simp] theorem State.part_setTrig (s : State) (a : Nat) (x : Trig) (r : Fin 4) : (s.setTrig a x).part r = s.part r := rfl
@[simp] theorem State.link_setTrig (s : State) (a : Nat) (x : Trig) (l : Fin 3) : (s.setTrig a x).link l = s.link l := rfl
@[simp] theorem State.stream_setTrig (s : State) (a : Nat) (x : Trig) (c : Nat) : (s.setTrig a x).stream c = s.stream c := rfl
@[simp] theorem State.job_setTrig (s : State) (a : Nat) (x : Trig) (j : Nat) : (s.setTrig a x).job j = s.job j := rfl
@[simp] theorem State.reg_setTrig (s : State) (a : Nat) (x : Trig) (o : Nat) : (s.setTrig a x).reg o = s.reg o := rfl
@[simp] theorem State.owned_setTrig (s : State) (a : Nat) (x : Trig) (r : Fin 4) : (s.setTrig a x).owned r = s.owned r := rfl
@[simp] theorem State.ring_setTrig (s : State) (a : Nat) (x : Trig) (p : Fin 4) (d : Nat) : (s.setTrig a x).ring p d = s.ring p d := rfl
@[simp] theorem State.groupOf_setTrig (s : State) (a : Nat) (x : Trig) (key : Word) : (s.setTrig a x).groupOf key = s.groupOf key := rfl

end Sys2Proof.Machine
end

