-- ==== Sys2Proof/Laws/Memory.lean ====
section
/-! SUPPORT. The laws of memory: where a byte lies, a read after a write, and what a write leaves alone. -/

namespace Sys2Proof.Machine

/-- Where no spare row can stand: outside the scratchpads and the Mat. -/
def direct (a : Nat) : Prop := (∀ f x, region a ≠ .sp f x) ∧ ∀ x, region a ≠ .mat x

theorem physAddr_direct (s : State) {a : Nat} (h : direct a) : physAddr s a = a := by
  unfold physAddr
  split
  · rename_i f x e; exact absurd e (h.1 f x)
  · rename_i x e; exact absurd e (h.2 x)
  · rfl

theorem region_dram {a : Nat} (h : a < dramEnd) : region a = .dram := by
  unfold region; rw [if_pos h]

theorem direct_dram {a : Nat} (h : a < dramEnd) : direct a := by
  constructor <;> intros <;> rw [region_dram h] <;> nofun

theorem region_sram (p : Fin 4) {x : Nat} (h : x < 0x800000) : region (sramBase p + x) = .sram p x := by
  have hp := p.isLt
  have h1 : sramBase p + x - 0x1080000000 = p.val * 0x1000000 + x := by unfold sramBase; omega
  have h2 : (p.val * 0x1000000 + x) % 0x01000000 = x := by omega
  have h3 : (p.val * 0x1000000 + x) / 0x01000000 = p.val := by omega
  unfold region
  rw [if_neg (by unfold sramBase dramEnd; omega), if_neg (by unfold sramBase matBase; omega), if_neg (by unfold sramBase matBase; omega),
    if_neg (by unfold sramBase; omega), if_neg (by unfold sramBase; omega), if_neg (by unfold sramBase; omega),
    if_pos (by unfold sramBase; omega)]
  dsimp only
  simp only [h1, h2, h3]
  rw [if_pos (by omega)]
  exact congrArg (Region.sram · x) (Fin.ext (Nat.mod_eq_of_lt hp))

theorem direct_sram (p : Fin 4) {x : Nat} (h : x < 0x800000) : direct (sramBase p + x) := by
  constructor <;> intros <;> rw [region_sram p h] <;> nofun

theorem physAddr_regs {s t : State} (h : t.regs = s.regs) (g : t.repairs = s.repairs) (a : Nat) : physAddr t a = physAddr s a := by
  unfold physAddr spareFor
  rw [h, g]

@[simp] theorem State.regs_wr (s : State) (a : Nat) (b : Byte) : (s.wr a b).regs = s.regs := rfl

@[simp] theorem State.regs_wrN (s : State) (a : Nat) (l : List Byte) : (s.wrN a l).regs = s.regs := by
  induction l generalizing s a with
  | nil => rfl
  | cons b t ih => exact ih _ _

@[simp] theorem State.repairs_wr (s : State) (a : Nat) (b : Byte) : (s.wr a b).repairs = s.repairs := rfl

@[simp] theorem State.repairs_wrN (s : State) (a : Nat) (l : List Byte) : (s.wrN a l).repairs = s.repairs := by
  induction l generalizing s a with
  | nil => rfl
  | cons b t ih => exact ih _ _

@[simp] theorem State.physAddr_wrN (s : State) (a : Nat) (l : List Byte) (x : Nat) : physAddr (s.wrN a l) x = physAddr s x :=
  physAddr_regs (by simp) (by simp) x

theorem State.rd_wr (s : State) (a x : Nat) (b : Byte) :
    (s.wr a b).rd x = if physAddr s x = physAddr s a then b else s.rd x := by
  unfold State.rd
  rw [physAddr_regs (s.regs_wr a b) (s.repairs_wr a b)]
  unfold State.wr
  dsimp only
  split
  · rename_i h; rw [h, tget_tset_self]
  · rename_i h; rw [tget_tset_ne _ _ _ (Ne.symm h)]

/-- A write leaves alone every byte that shares no storage with the bytes written. -/
theorem State.rd_wrN_other (s : State) (a : Nat) (l : List Byte) (x : Nat)
    (h : ∀ i < l.length, physAddr s x ≠ physAddr s (a + i)) : (s.wrN a l).rd x = s.rd x := by
  induction l generalizing s a with
  | nil => rfl
  | cons b t ih =>
    change ((s.wr a b).wrN (a + 1) t).rd x = _
    rw [ih, State.rd_wr, if_neg (by simpa using h 0 (by simp))]
    intro i hi
    rw [physAddr_regs (s.regs_wr a b) (s.repairs_wr a b), physAddr_regs (s.regs_wr a b) (s.repairs_wr a b)]
    have := h (i + 1) (by simp; omega)
    rwa [Nat.add_assoc, Nat.add_comm 1 i]

/-- A byte just written reads as written. -/
theorem State.rd_wrN_same (s : State) (a : Nat) (l : List Byte) (i : Nat) (hi : i < l.length)
    (h : ∀ j < l.length, ∀ k < l.length, physAddr s (a + j) = physAddr s (a + k) → j = k) :
    (s.wrN a l).rd (a + i) = l[i] := by
  induction l generalizing s a i with
  | nil => simp at hi
  | cons b t ih =>
    change ((s.wr a b).wrN (a + 1) t).rd (a + i) = _
    cases i with
    | zero =>
      rw [State.rd_wrN_other, State.rd_wr]
      · simp
      · intro i hi e
        rw [physAddr_regs (s.regs_wr a b) (s.repairs_wr a b), physAddr_regs (s.regs_wr a b) (s.repairs_wr a b)] at e
        have := h 0 (by simp) (i + 1) (by simp; omega) (by rw [e]; congr 1; omega)
        omega
    | succ i =>
      have h1 : a + (i + 1) = a + 1 + i := by omega
      rw [h1, ih (s.wr a b) (a + 1) i (by simpa using hi)]
      · simp
      · intro j hj k hk e
        rw [physAddr_regs (s.regs_wr a b) (s.repairs_wr a b), physAddr_regs (s.regs_wr a b) (s.repairs_wr a b)] at e
        have := h (j + 1) (by simp; omega) (k + 1) (by simp; omega) (by
          rw [show a + (j + 1) = a + 1 + j by omega, show a + (k + 1) = a + 1 + k by omega]; exact e)
        omega

/-! Marks and check words touch no byte. -/

@[simp] theorem State.rd_setMark (s : State) (a : Nat) (u : Upset) (x : Nat) : (s.setMark a u).rd x = s.rd x := rfl
@[simp] theorem State.regs_setMark (s : State) (a : Nat) (u : Upset) : (s.setMark a u).regs = s.regs := rfl
@[simp] theorem State.rd_setBcw (s : State) (a : Nat) (w : Word) (x : Nat) : (s.setBcw a w).rd x = s.rd x := rfl

@[simp] theorem State.rd_cleanN (s : State) (a n x : Nat) : (s.cleanN a n).rd x = s.rd x := by
  unfold State.cleanN
  generalize unitsOf a n = l
  induction l generalizing s with
  | nil => rfl
  | cons u t ih => exact ih (s.setMark u .none)

@[simp] theorem State.rd_put (s : State) (a : Nat) (l : List Byte) (x : Nat) : (s.put a l).rd x = (s.wrN a l).rd x := by
  unfold State.put; simp

@[simp] theorem State.rd_putBlock (s : State) (a : Nat) (l : List Byte) (w : Word) (x : Nat) :
    (s.putBlock a l w).rd x = (s.wrN a l).rd x := by
  unfold State.putBlock; simp

/-- A range outside the repaired memories reads as written. -/
theorem State.rd_wrN_direct (s : State) (a : Nat) (l : List Byte) (hd : ∀ i < l.length, direct (a + i)) (i : Nat) (hi : i < l.length) :
    (s.wrN a l).rd (a + i) = l[i] := by
  apply s.rd_wrN_same a l i hi
  intro j hj k hk e
  rw [physAddr_direct s (hd j hj), physAddr_direct s (hd k hk)] at e
  omega

/-! Registers outside the Mat's repair table move no byte (R198); the scratchpads' spares in use stand beside their registers. -/

/-- Whether an offset is an entry of the Mat's repair table (R198). -/
def repairReg (o : Nat) : Prop := 0x04F01000 ≤ o ∧ o < 0x04F02000

theorem find?_tput {α : Type} (l : List (Nat × α)) (k : Nat) (v : α) (p : Nat × α → Bool) (h : ∀ w, p (k, w) = false) :
    (tput l k v).find? p = l.find? p := by
  induction l with
  | nil => simp [tput, h]
  | cons e t ih =>
    obtain ⟨j, w⟩ := e
    simp only [tput]
    split
    · rw [List.find?_cons, h]
    · split
      · rename_i g; subst g; rw [List.find?_cons, List.find?_cons, h, h]
      · simp only [List.find?_cons, ih]

theorem find?_tdel {α : Type} (l : List (Nat × α)) (k : Nat) (p : Nat × α → Bool) (h : ∀ w, p (k, w) = false) :
    (tdel l k).find? p = l.find? p := by
  induction l with
  | nil => rfl
  | cons e t ih =>
    obtain ⟨j, w⟩ := e
    simp only [tdel]
    split
    · rename_i g; subst g; rw [List.find?_cons, h, ih]
    · simp only [List.find?_cons, ih]

theorem spareFor_tset (l : List (Nat × Word)) (d : Nat → Word) (o : Nat) (v : Word) (lo n w brow : Nat) (h : ¬(lo ≤ o ∧ o < lo + 4 * n)) :
    spareFor (tset d l o v) lo n w brow = spareFor l lo n w brow := by
  have hp : ∀ x : Word, (decide (lo ≤ o ∧ o < lo + 4 * n) && x.getLsbD 31 && decide (bits x.toNat 0 w = brow)) = false := by
    intro x; simp [h]
  unfold spareFor tset
  split
  · rw [find?_tdel _ _ _ hp]
  · rw [find?_tput _ _ _ _ hp]

theorem physAddr_setReg (s : State) (o : Nat) (v : Word) (h : ¬repairReg o) (a : Nat) :
    physAddr (s.setReg o v) a = physAddr s a := by
  unfold repairReg at h
  unfold physAddr
  split
  · rfl
  · rename_i x _
    have hb : x / 256 % 64 < 64 := Nat.mod_lt _ (by decide)
    dsimp only [State.setReg]
    rw [spareFor_tset]
    generalize x / 256 % 64 = b at *
    unfold oMatRepair
    omega
  · rfl

theorem State.rd_setReg (s : State) (o : Nat) (v : Word) (h : ¬repairReg o) (a : Nat) : (s.setReg o v).rd a = s.rd a := by
  unfold State.rd
  rw [physAddr_setReg s o v h]
  rfl

theorem State.rd_count (s : State) (o n : Nat) (h : ¬repairReg o) (a : Nat) : (s.count o n).rd a = s.rd a := s.rd_setReg o _ h a

theorem State.rd_setRegF (s : State) (o lo len v : Nat) (h : ¬repairReg o) (a : Nat) : (s.setRegF o lo len v).rd a = s.rd a :=
  s.rd_setReg o _ h a

theorem repairReg_oHpc (p : Fin 4) {o : Nat} (h : o < 0x10000) : ¬repairReg (oHpc p o) := by
  have := p.isLt
  unfold repairReg oHpc
  omega

/-- A byte lies at its address or in spare storage. -/
theorem physAddr_cases (s : State) (a : Nat) : physAddr s a = a ∨ spareBase ≤ physAddr s a := by
  unfold physAddr
  split
  · dsimp only
    split
    · right; unfold spSpareKey; omega
    · left; rfl
  · dsimp only
    split
    · right; unfold matSpareKey; omega
    · left; rfl
  · left; rfl

/-- A write to a range of directly held bytes leaves every other byte alone. -/
theorem State.rd_wrN_frame (s : State) (a : Nat) (l : List Byte) (hd : ∀ i < l.length, direct (a + i)) (ht : a + l.length ≤ spareBase)
    (x : Nat) (hx : ∀ i < l.length, x ≠ a + i) : (s.wrN a l).rd x = s.rd x := by
  apply s.rd_wrN_other
  intro i hi
  rw [physAddr_direct s (hd i hi)]
  rcases physAddr_cases s x with h | h
  · rw [h]; exact hx i hi
  · omega

end Sys2Proof.Machine
end

