-- ==== Sys2Proof/Laws/Commands.lean ====
section
/-! SUPPORT. What a command over Ebwick does once it passes the checks of R475: it answers its own effect, completed. -/

namespace Sys2Proof.Laws
open Sys2Proof.Machine Sys2Proof.Safety

/-- Checks that all hold leave the guarded answer. -/
theorem checks_ok (l : List (Bool × St)) (s : State) (r : Done) (h : ∀ e ∈ l, e.1 = true) : checks l s r = r := by
  unfold checks
  have : firstFail l = none := by
    induction l with
    | nil => rfl
    | cons e t ih => unfold firstFail; rw [h e (by simp), if_pos rfl]; exact ih (fun x hx => h x (by simp [hx]))
  rw [this]

/-- A command that passes its checks answers its body's answer, completed, then what follows the completion. -/
theorem runCmdThen_eq {s s0 : State} {p : Fin 4} {d opc : Nat} {a : Auth} {t : Taken} (h : Passes s p d opc a t s0)
    (pick : List Byte → Bool) (obj : State → Taken → Bool) (body : State → Taken → Done) (fin : Done → State → State)
    (hp : pick t.payload = true) (ho : obj s0 t = true) :
    s.runCmdThen p d opc pick obj a body fin = fin (body s0 t) (after p d t (body s0 t)) := by
  obtain ⟨h1, h2, ⟨l, h3, h4⟩, h5, h6, h7, h8, h9, h10⟩ := h
  unfold State.runCmdThen
  rw [h1]; dsimp only
  rw [if_pos ⟨h9, h10, h2, hp⟩, h3]; dsimp only
  rw [← h5]
  rw [checks_ok _ _ _ (by simp [h4, h6, h7, h8, ho])]
  rfl

/-- A command that passes its checks answers its body's answer, completed. -/
theorem runCmd_eq {s s0 : State} {p : Fin 4} {d opc : Nat} {a : Auth} {t : Taken} (h : Passes s p d opc a t s0)
    (pick : List Byte → Bool) (obj : State → Taken → Bool) (body : State → Taken → Done)
    (hp : pick t.payload = true) (ho : obj s0 t = true) :
    s.runCmd p d opc pick obj a body = after p d t (body s0 t) := by
  unfold State.runCmd
  exact runCmdThen_eq h pick obj body _ hp ho

/-- The same as the outcome of the command. -/
theorem runCmd_next {s s0 : State} {p : Fin 4} {d opc : Nat} {a : Auth} {t : Taken} (h : Passes s p d opc a t s0)
    (pick : List Byte → Bool) (obj : State → Taken → Bool) (body : State → Taken → Done)
    (hp : pick t.payload = true) (ho : obj s0 t = true) (r : Done) (hr : body s0 t = r) :
    (Host.Outcome.next (s.runCmd p d opc pick obj a body) : Host.Outcome State Fault Refusal) = .next (after p d t r) := by
  rw [← hr]; exact congrArg Host.Outcome.next (runCmd_eq h pick obj body hp ho)

theorem tfind_tput {α : Type} (l : List (Nat × α)) (k : Nat) (v : α) : tfind (tput l k v) k = some v := by
  induction l with
  | nil => simp [tput, tfind]
  | cons e t ih => obtain ⟨j, w⟩ := e; unfold tput; split
                   · simp [tfind]
                   · split
                     · simp [tfind]
                     · rename_i h; simp [tfind, h, ih]

theorem tfind_tput_ne {α : Type} (l : List (Nat × α)) (k j : Nat) (v : α) (h : j ≠ k) : tfind (tput l k v) j = tfind l j := by
  induction l with
  | nil => simp [tput, tfind, Ne.symm h]
  | cons e t ih => obtain ⟨i, w⟩ := e; unfold tput; split
                   · simp [tfind, Ne.symm h]
                   · split
                     · rename_i h2; subst h2; simp [tfind, Ne.symm h]
                     · simp only [tfind, ih]

theorem modPort_port (s : State) (p : Fin 4) (g : Port → Port) : (s.modPort p g).port p = g (s.port p) := by
  unfold State.modPort State.setPort State.port; exact Vector.getElem_set_self p.isLt

/-- The release buffer moves no port. -/
theorem held_port (s : State) (i : Held) (p : Fin 4) : (s.held i).port p = s.port p := rfl

theorem modRing_ring (s : State) (p : Fin 4) (d : Nat) (g : Ring → Ring) : (s.modRing p d g).ring p d = (s.ring p d).map g := by
  unfold State.modRing State.ring; rw [modPort_port]; dsimp only; rw [held_port]; unfold tmod
  cases h : tfind (s.port p).rings d with
  | none => simpa using h
  | some v => simp [tfind_tput]

theorem modRing_ring_ne (s : State) (p : Fin 4) (d e : Nat) (g : Ring → Ring) (h : e ≠ d) : (s.modRing p d g).ring p e = s.ring p e := by
  unfold State.modRing State.ring; rw [modPort_port]; dsimp only; unfold tmod
  split
  · rfl
  · exact tfind_tput_ne _ _ _ _ h

theorem setRing_ring (s : State) (p : Fin 4) (d : Nat) (k : Ring) : (s.setRing p d k).ring p d = some k := by
  unfold State.setRing State.ring; rw [modPort_port]; exact tfind_tput _ _ _

theorem setRing_ring_ne (s : State) (p : Fin 4) (d e : Nat) (k : Ring) (h : e ≠ d) : (s.setRing p d k).ring p e = s.ring p e := by
  unfold State.setRing State.ring; rw [modPort_port]; exact tfind_tput_ne _ _ _ _ h

theorem irq_ring (s : State) (p : Fin 4) (b d : Nat) : (s.irq p b).ring p d = s.ring p d := by
  unfold State.irq State.ring; rw [modPort_port]

theorem irq_bit (s : State) (p : Fin 4) : ((s.irq p irqCompl).port p).irqStatus.getLsbD irqCompl = true := by
  unfold State.irq; rw [modPort_port]; simp [irqCompl]

theorem agree_setPtr (r : Ring) (a b c : Nat) : (r.setPtr a b c).agree = true := by
  simp [Ring.agree, Ring.setPtr]

theorem agree_tmo (r : Ring) (b : Bool) : ({ r with tmoDone := b } : Ring).agree = r.agree := rfl

theorem wrN_congr (l : List Byte) : ∀ (a : Nat) (s u : State), s.regs = u.regs → s.repairs = u.repairs → s.mem = u.mem → (s.wrN a l).mem = (u.wrN a l).mem := by
  induction l with
  | nil => intro a s u _ _ h; exact h
  | cons b t ih =>
    intro a s u h1 h3 h2
    refine ih _ _ _ h1 h3 ?_
    have : physAddr s a = physAddr u a := physAddr_regs h1 h3 a
    unfold State.wr; dsimp only; rw [this, h2]

theorem wrN_ports (l : List Byte) : ∀ (a : Nat) (s : State), (s.wrN a l).ports = s.ports := by
  induction l with
  | nil => intro a s; rfl
  | cons b t ih => intro a s; exact ih _ _

theorem marks_keep (l : List Nat) : ∀ (s : State), (l.foldl (fun s u => s.setMark u .none) s).mem = s.mem ∧
    (l.foldl (fun s u => s.setMark u .none) s).ports = s.ports := by
  induction l with
  | nil => intro s; exact ⟨rfl, rfl⟩
  | cons b t ih => intro s; exact ih _

theorem put_congr (s u : State) (h1 : s.regs = u.regs) (h3 : s.repairs = u.repairs) (h2 : s.mem = u.mem) (a : Nat) (l : List Byte) :
    (s.put a l).mem = (u.put a l).mem := by
  unfold State.put State.cleanN
  rw [(marks_keep _ _).1, (marks_keep _ _).1]; exact wrN_congr _ _ _ _ h1 h3 h2

theorem put_ring (s : State) (a : Nat) (l : List Byte) (p : Fin 4) (e : Nat) : (s.put a l).ring p e = s.ring p e := by
  have : (s.put a l).ports = s.ports := by unfold State.put State.cleanN; rw [(marks_keep _ _).2, wrN_ports]
  unfold State.ring State.port; rw [this]

theorem hostPut_mem (s : State) (a : Nat) (l : List Byte) : (s.hostPut a l).mem = (s.put a l).mem :=
  put_congr (s.held _) s rfl rfl rfl a l

theorem hostPut_ring (s : State) (a : Nat) (l : List Byte) (p : Fin 4) (e : Nat) : (s.hostPut a l).ring p e = s.ring p e := by
  unfold State.hostPut; rw [put_ring]; rfl

theorem padAt_pr (k : Ring) (l) (t n : Nat) : ({ k with promises := l } : Ring).padAt t n = k.padAt t n := rfl

theorem used_pr (k : Ring) (l) : ({ k with promises := l } : Ring).used = k.used := rfl

theorem cap_pr (k : Ring) (l) : ({ k with promises := l } : Ring).cap = k.cap := rfl

theorem addr_pr (k : Ring) (l) (p t) : ringAddr p { k with promises := l } t = ringAddr p k t := rfl

theorem ringPutIn_fits {s : State} {p : Fin 4} {d : Nat} {k : Ring} (h : s.ring p d = some k) (opc tag status part : Nat) (pl : List Byte)
    (hp : k.padAt k.tail (16 * cdiv (16 + pl.length) 16) = 0) (hr : k.used + 16 * cdiv (16 + pl.length) 16 ≤ k.cap) :
    s.ringPutIn false p d opc tag status part pl = ((s.hostPut (ringAddr p k k.tail) (packet opc k.nseq tag status part 0 pl)).setRing p d
      { k.setPtr k.head (k.tail + 16 * cdiv (16 + pl.length) 16) (k.nseq + 1) with tmoDone := false }).irq p irqCompl := by
  unfold State.ringPutIn
  rw [h]; dsimp only
  rw [hp, if_neg Bool.false_ne_true, if_pos (by simpa using hr), if_pos rfl, h]

theorem run_fails {s s0 : State} {p : Fin 4} {d opc : Nat} {a : Auth} {t : Taken} {l : CmdLay} (h1 : s.takenAt p d = some t)
    (h2 : t.opc = opc) (h3 : layOf opc t.payload = some l) (h4 : s0 = s.beforeCmd p t) (h5 : s.fcol.safe = false)
    (h6 : s.dbg.halted.contains 4 = false) (body : State → Taken → Done) :
    (t.wellFormed l = false → s.runCmd p d opc anyPl anyObj a body = s0.complete p d t .arg []) ∧
    (t.wellFormed l = true → s0.verOk p t = false → s.runCmd p d opc anyPl anyObj a body = s0.complete p d t .version []) ∧
    (t.wellFormed l = true → s0.verOk p t = true → s0.devOk p opc = false → s.runCmd p d opc anyPl anyObj a body = s0.complete p d t .state []) ∧
    (t.wellFormed l = true → s0.verOk p t = true → s0.devOk p opc = true → s0.authOk p d t a = false →
      s.runCmd p d opc anyPl anyObj a body = s0.complete p d t .auth []) := by
  unfold State.runCmd State.runCmdThen
  rw [h1]; dsimp only
  rw [if_pos ⟨h5, h6, h2, rfl⟩, h3]; dsimp only
  rw [← h4]
  refine ⟨?_, ?_, ?_, ?_⟩
  · intro w; simp [checks, firstFail, w, refuse]
  · intro w v; simp [checks, firstFail, w, v, refuse]
  · intro w v x; simp [checks, firstFail, w, v, x, refuse]
  · intro w v x y; simp [checks, firstFail, w, v, x, y, refuse, anyObj]

end Sys2Proof.Laws
end

