-- ==== Sys2Proof/Laws/Keeps.lean ====
section
/-! SUPPORT. What every operation and every command but POR_N_ASSERT keeps: the queue, the canonical form of memory, the
safe state once entered, and blown fuses. One lemma per operation; a step's three invariants follow from them. -/

namespace Sys2Proof.Machine

/-! Canonical tables. -/

theorem tsorted_weaken {α : Type} {a b : Nat} (h : a ≤ b) (l : List (Nat × α)) (s : tsorted b l = true) : tsorted a l = true := by
  cases l with
  | nil => rfl
  | cons e t => simp only [tsorted, Bool.and_eq_true, decide_eq_true_eq] at *; exact ⟨Nat.le_trans h s.1, s.2⟩

theorem tsorted_tput {α : Type} (l : List (Nat × α)) (b k : Nat) (v : α) (hb : b ≤ k) (h : tsorted b l = true) :
    tsorted b (tput l k v) = true := by
  induction l generalizing b with
  | nil => simp [tput, tsorted, hb]
  | cons e t ih =>
    obtain ⟨j, w⟩ := e
    simp only [tsorted, Bool.and_eq_true, decide_eq_true_eq] at h
    simp only [tput]
    split
    · rename_i g; simp only [tsorted, Bool.and_eq_true, decide_eq_true_eq]; exact ⟨hb, by omega, h.2⟩
    · split
      · rename_i g; subst g; simp only [tsorted, Bool.and_eq_true, decide_eq_true_eq]; exact h
      · simp only [tsorted, Bool.and_eq_true, decide_eq_true_eq]; exact ⟨h.1, ih (j + 1) (by omega) h.2⟩

theorem tsorted_filter {α : Type} (l : List (Nat × α)) (p : Nat × α → Bool) (b : Nat) (h : tsorted b l = true) :
    tsorted b (l.filter p) = true := by
  induction l generalizing b with
  | nil => rfl
  | cons e t ih =>
    obtain ⟨j, w⟩ := e
    simp only [tsorted, Bool.and_eq_true, decide_eq_true_eq] at h
    simp only [List.filter_cons]
    split
    · simp only [tsorted, Bool.and_eq_true, decide_eq_true_eq]; exact ⟨h.1, ih _ h.2⟩
    · exact tsorted_weaken (by omega) _ (ih _ h.2)

theorem tdel_eq_filter {α : Type} (l : List (Nat × α)) (k : Nat) : tdel l k = l.filter fun e => !decide (e.1 = k) := by
  induction l with
  | nil => rfl
  | cons e t ih => obtain ⟨j, w⟩ := e; simp only [tdel, List.filter_cons]; by_cases h : j = k <;> simp [h, ih]

theorem tput_mem {α : Type} (l : List (Nat × α)) (k : Nat) (v : α) {e : Nat × α} (h : e ∈ tput l k v) : e = (k, v) ∨ e ∈ l := by
  induction l with
  | nil => simp [tput] at h; exact .inl h
  | cons d t ih =>
    obtain ⟨j, w⟩ := d
    simp only [tput] at h
    split at h
    · simp at h ⊢; tauto
    · split at h
      · simp at h ⊢; tauto
      · simp at h ⊢; rcases h with h | h
        · exact .inr (.inl h)
        · rcases ih h with h | h <;> tauto

theorem tcanon_tset {α : Type} [DecidableEq α] (d : Nat → α) (l : List (Nat × α)) (k : Nat) (v : α) (h : tcanon d l = true) :
    tcanon d (tset d l k v) = true := by
  simp only [tcanon, Bool.and_eq_true, List.all_eq_true, decide_eq_true_eq] at *
  unfold tset
  split
  · rw [tdel_eq_filter]; exact ⟨tsorted_filter _ _ _ h.1, fun e he => h.2 e (List.mem_filter.1 he).1⟩
  · rename_i g
    refine ⟨tsorted_tput _ _ _ _ (Nat.zero_le _) h.1, fun e he => ?_⟩
    rcases tput_mem l k v he with rfl | he
    · exact g
    · exact h.2 e he

theorem tcanon_tdrop {α : Type} [DecidableEq α] (d : Nat → α) (p : Nat → Bool) (l : List (Nat × α)) (h : tcanon d l = true) :
    tcanon d (tdrop p l) = true := by
  simp only [tcanon, Bool.and_eq_true, List.all_eq_true, decide_eq_true_eq, tdrop] at *
  exact ⟨tsorted_filter _ _ _ h.1, fun e he => h.2 e (List.mem_filter.1 he).1⟩

theorem tcanon_foldl {α : Type} [DecidableEq α] (d : Nat → α) (v : α) (key : Nat → Nat) (is : List Nat) (l : List (Nat × α))
    (h : tcanon d l = true) : tcanon d (is.foldl (fun m i => tset d m (key i) v) l) = true := by
  induction is generalizing l with
  | nil => exact h
  | cons i t ih => exact ih _ (tcanon_tset _ _ _ _ h)

/-! What is kept. -/

/-- From `s` to `t` the queue stays, canonical memory stays canonical, an entered safe state stays entered, and no fuse
of the lifecycle or of the rollback count is undone. -/
structure Keeps (s t : State) : Prop where
  queue : t.pending = s.pending
  canon : Memory.wf s = true → Memory.wf t = true
  safe : s.fcol.safe = true → t.fcol.safe = true
  fuses : s.otp.lifecycle ≤ 4 → s.otp.lifecycle ≤ t.otp.lifecycle ∧ t.otp.lifecycle ≤ 4
  count : s.otp.rollback ≤ t.otp.rollback

/-- The same of an outcome: when it is a next state. -/
def KeepsOut (s : State) (o : Host.Outcome State Fault Refusal) : Prop := ∀ t, o = .next t → Keeps s t

theorem Keeps.rfl' (s : State) : Keeps s s := ⟨rfl, fun h => h, fun h => h, fun h => ⟨Nat.le_refl _, h⟩, Nat.le_refl _⟩

theorem Keeps.trans {r s t : State} (h : Keeps r s) (g : Keeps s t) : Keeps r t :=
  ⟨g.queue.trans h.queue, fun w => g.canon (h.canon w), fun w => g.safe (h.safe w),
    fun w => ⟨Nat.le_trans (h.fuses w).1 (g.fuses (h.fuses w).2).1, (g.fuses (h.fuses w).2).2⟩, Nat.le_trans h.count g.count⟩

theorem Keeps.mem {r s t : State} (h : Keeps r s) (hp : t.pending = s.pending) (hf : t.fcol = s.fcol) (ho : t.otp = s.otp)
    (hc : Memory.wf s = true → Memory.wf t = true) : Keeps r t :=
  h.trans ⟨hp, hc, by rw [hf]; exact id, by rw [ho]; exact fun w => ⟨Nat.le_refl _, w⟩, by rw [ho]⟩

theorem KeepsOut.next {r s : State} (h : Keeps r s) : KeepsOut r (.next s) := by
  intro t e; cases e; exact h

theorem KeepsOut.fault (r : State) (x : Fault) : KeepsOut r (.fault x) := by
  intro t e; cases e

theorem Keeps.of {r s t : State} (h : Keeps r s) (hm : t.mem = s.mem) (hb : t.bcw = s.bcw) (hu : t.upsets = s.upsets)
    (hp : t.pending = s.pending) (hs : s.fcol.safe = true → t.fcol.safe = true) (hl : t.otp.lifecycle = s.otp.lifecycle)
    (hr : s.otp.rollback ≤ t.otp.rollback) : Keeps r t :=
  h.trans ⟨hp, by simp only [Memory.wf, hm, hb, hu]; exact id, hs, fun w => ⟨by omega, by omega⟩, hr⟩

theorem Keeps.ite {r a b : State} {c : Prop} [Decidable c] (ha : Keeps r a) (hb : Keeps r b) : Keeps r (if c then a else b) := by
  split
  · exact ha
  · exact hb

theorem Keeps.foldl {α : Type} {r s : State} {f : State → α → State} {l : List α} (h : Keeps r s)
    (hf : ∀ u a, Keeps r u → Keeps r (f u a)) : Keeps r (l.foldl f s) := by
  induction l generalizing s with
  | nil => exact h
  | cons a t ih => exact ih (hf _ _ h)

theorem Keeps.foldlP {α β : Type} {r : State} {s : State × β} {f : State × β → α → State × β} {l : List α} (h : Keeps r s.1)
    (hf : ∀ u a, Keeps r u.1 → Keeps r (f u a).1) : Keeps r (l.foldl f s).1 := by
  induction l generalizing s with
  | nil => exact h
  | cons a t ih => exact ih (hf _ _ h)

theorem Keeps.upd {r s : State} {xrepairs} {xmatHeld} {xmatWait} {xdramWait} {xregs} {xlatch} {xfronds} {xports} {xparts} {xlinks} {xstreams} {xdealer} {xtime} {xallocs} {xpools} {xseqs} {xprogs} {xjobs} {xnextId} {xgroups} {xtricks} {xfcol} {xages} {xsafety} {xpower} {xdbg} {xmbs} {xotp} {xnor} {xsys} {xtap} {xi2c} {xdramWb} {xmatWb} {xwbDone} {xhot} {xpatrol} {xrelease} {xout} {xfree}
    (hs : xfcol.safe = s.fcol.safe)
    (hl : xotp.lifecycle = s.otp.lifecycle) (hr : xotp.rollback = s.otp.rollback) :
    Keeps r { mem := s.mem, bcw := s.bcw, upsets := s.upsets, repairs := xrepairs, matHeld := xmatHeld, matWait := xmatWait, dramWait := xdramWait, regs := xregs, latch := xlatch, fronds := xfronds, ports := xports, parts := xparts, links := xlinks, streams := xstreams, dealer := xdealer, time := xtime, allocs := xallocs, pools := xpools, seqs := xseqs, progs := xprogs, jobs := xjobs, nextId := xnextId, groups := xgroups, tricks := xtricks, fcol := xfcol, ages := xages, safety := xsafety, power := xpower, dbg := xdbg, mbs := xmbs, otp := xotp, nor := xnor, sys := xsys, tap := xtap, i2c := xi2c, dramWb := xdramWb, matWb := xmatWb, wbDone := xwbDone, hot := xhot, patrol := xpatrol, release := xrelease, out := xout, free := xfree, pending := s.pending } ↔ Keeps r s :=
  ⟨fun h => h.of rfl rfl rfl rfl (by simp only [hs]; exact id) hl.symm (by simp only [hr]; exact Nat.le_refl _),
    fun h => h.of rfl rfl rfl rfl (by simp only [hs]; exact id) hl (by simp only [hr]; exact Nat.le_refl _)⟩

end Sys2Proof.Machine
end

