-- ==== Sys2Proof/Laws/KeepsOps.lean ====
section
/-! SUPPORT. What every shared operation keeps (Laws/Keeps.lean), in the order of use. -/

namespace Sys2Proof.Machine

theorem State.setMark_keeps {k0 s : State} (a : Nat) (u : Upset) (h : Keeps k0 s) : Keeps k0 (s.setMark a u) := by
  refine h.mem rfl rfl rfl fun w => ?_
  simp only [Memory.wf, Bool.and_eq_true] at *
  exact ⟨w.1, tcanon_tset _ _ _ _ w.2⟩

theorem State.writeBack_keeps {k0 : State} {s : State} (a : ℕ) (h_s : Keeps k0 s) :
    Keeps k0 (State.writeBack s a) := by
  unfold State.writeBack
  repeat' (first | with_reducible assumption | with_reducible intro _ | with_reducible apply State.setMark_keeps | with_reducible apply Keeps.ite | with_reducible apply Keeps.foldl | with_reducible apply Keeps.foldlP | split | dsimp only | simp only [Keeps.upd])

theorem State.saveNor_keeps {k0 : State} {s : State} (r : ℕ) (h_s : Keeps k0 s) :
    Keeps k0 (State.saveNor s r) := by
  unfold State.saveNor
  repeat' (first | with_reducible assumption | with_reducible intro _ | with_reducible apply Keeps.ite | with_reducible apply Keeps.foldl | with_reducible apply Keeps.foldlP | split | dsimp only | simp only [Keeps.upd])

theorem State.programImage_keeps {k0 : State} {s : State} (obj : List Byte) (h_s : Keeps k0 s) :
    Keeps k0 (State.programImage s obj) := by
  unfold State.programImage
  repeat' (first | with_reducible assumption | with_reducible intro _ | with_reducible apply Keeps.ite | with_reducible apply Keeps.foldl | with_reducible apply Keeps.foldlP | split | dsimp only | simp only [Keeps.upd])

theorem State.setLifecycle_keeps {k0 s : State} (t : Nat) (lo : s.otp.lifecycle ≤ 4 → s.otp.lifecycle ≤ t) (hi : t ≤ 4) (h : Keeps k0 s) :
    Keeps k0 (s.setLifecycle t) := by
  unfold State.setLifecycle
  split
  all_goals exact h.trans ⟨rfl, id, id, fun w => ⟨lo w, hi⟩, Nat.le_refl _⟩

theorem State.applyRec_keeps {k0 s : State} (x : Nat × List Byte) (n : x.1 ≠ 1) (h : Keeps k0 s) :
    Keeps k0 (s.applyRec x) ∧ (s.applyRec x).otp.lifecycle = s.otp.lifecycle := by
  unfold State.applyRec
  split
  · contradiction
  all_goals try split
  all_goals exact ⟨by first | exact h | exact h.of rfl rfl rfl rfl id rfl (Nat.le_refl _), rfl⟩

theorem State.extendMb_keeps {k0 : State} {s : State} (k : ℕ) (event : List Byte) (h_s : Keeps k0 s) :
    Keeps k0 (State.extendMb s k event) := by
  unfold State.extendMb
  repeat' (first | with_reducible assumption | with_reducible intro _ | with_reducible apply Keeps.ite | with_reducible apply Keeps.foldl | with_reducible apply Keeps.foldlP | split | dsimp only | simp only [Keeps.upd])

theorem nodup_filter_one {l : List (Nat × List Byte)} (h : (l.map (·.1)).Nodup) : (l.filter fun x => decide (x.1 = 1)).length ≤ 1 := by
  have h1 := List.nodup_iff_count_le_one.1 h 1
  rw [List.count_eq_countP, List.countP_map, List.countP_eq_length_filter] at h1
  exact h1

theorem ifOk {c : Prop} [Decidable c] {x y : St} (h : (if c then x else y) = .ok) (hx : x ≠ .ok) : ¬c ∧ y = .ok := by
  split at h
  · exact absurd h hx
  · exact ⟨‹_›, h⟩

theorem State.packageOk_records {s : State} {o : List Byte} (h : s.packageOk o = true) :
    (((objRecords o).getD []).map (·.1)).Nodup ∧ ∀ x ∈ (objRecords o).getD [], ∃ b, s.recAllowed b x = true := by
  unfold State.packageOk at h
  simp only [Bool.and_eq_true, decide_eq_true_eq] at h
  have hk := h.1.1
  have hc := h.1.2
  unfold State.checkObject at hc
  dsimp only at hc
  have h1 := (ifOk (ifOk (ifOk (ifOk (ifOk hc nofun).2 nofun).2 nofun).2 nofun).2 nofun).2
  have h3 : (decide (((objRecords o).getD []).map (·.1)).Nodup && ((objRecords o).getD []).all
      (s.recAllowed (((objRecords o).getD []).any fun r => decide (r.1 = 2)))) = true := by
    by_contra hb
    exact (ifOk h1 nofun).1 ⟨hk, by simp only [Bool.not_eq_true] at hb; rw [hb]; rfl⟩
  rw [Bool.and_eq_true, decide_eq_true_eq, List.all_eq_true] at h3
  exact ⟨h3.1, fun x hx => ⟨_, h3.2 x hx⟩⟩

theorem State.applyRecs_keeps {k0 s : State} (l : List (Nat × List Byte)) (n : ∀ x ∈ l, x.1 ≠ 1) (h : Keeps k0 s) :
    Keeps k0 (l.foldl State.applyRec s) ∧ (l.foldl State.applyRec s).otp.lifecycle = s.otp.lifecycle := by
  induction l generalizing s with
  | nil => exact ⟨h, rfl⟩
  | cons a t ih =>
    have h1 := State.applyRec_keeps a (n a List.mem_cons_self) h
    have h2 := ih (fun x hx => n x (List.mem_cons_of_mem _ hx)) h1.1
    exact ⟨h2.1, h2.2.trans h1.2⟩

theorem State.recAllowed_lifecycle {s : State} {b : Bool} {x : Nat × List Byte} (h : s.recAllowed b x = true) (e : x.1 = 1) :
    (s.otp.lifecycle ≤ 4 → s.otp.lifecycle ≤ fld x.2 0 1) ∧ fld x.2 0 1 ≤ 4 := by
  obtain ⟨n, d⟩ := x
  change n = 1 at e
  subst e
  have h2 := (Bool.and_eq_true_iff.1 (show (_ && _) = true from h)).2
  change (s.otp.lifecycle ≤ 4 → s.otp.lifecycle ≤ fld d 0 1) ∧ fld d 0 1 ≤ 4
  generalize fld d 0 1 = t at *
  split at h2
  · rw [decide_eq_true_eq] at h2; omega
  · rw [Bool.and_eq_true, decide_eq_true_eq] at h2; omega
  · rw [decide_eq_true_eq] at h2; omega
  · omega
  · cases h2

theorem State.applyPending_keeps {k0 s : State} (h : Keeps k0 s) : Keeps k0 s.applyPending := by
  unfold State.applyPending
  dsimp only
  split
  · exact h
  · have h0 : Keeps k0 (({ s with nor := { s.nor with pending := [] } } : State).saveNor 0) := h.of rfl rfl rfl rfl id rfl (Nat.le_refl _)
    split
    · rename_i hp
      obtain ⟨hn, ha⟩ := State.packageOk_records hp
      generalize hs0 : ({ s with nor := { s.nor with pending := [] } } : State).saveNor 0 = s0 at *
      have hl0 : s0.otp = s.otp := by rw [← hs0]; rfl
      generalize (objRecords s.nor.pending).getD [] = rs at *
      obtain ⟨k1, e1⟩ := State.applyRecs_keeps (rs.filter fun r => decide (r.1 ≠ 1)) (by simp) h0
      generalize List.foldl State.applyRec s0 _ = s1 at *
      apply State.extendMb_keeps
      apply State.saveNor_keeps
      generalize hs2 : ({ s1 with nor := { s1.nor with serial := _, rollDue := _ } } : State) = s2
      have k2 : Keeps k0 s2 := hs2 ▸ k1.of rfl rfl rfl rfl id rfl (Nat.le_refl _)
      have e2 : s2.otp.lifecycle = s.otp.lifecycle := by
        rw [← hs2]
        change s1.otp.lifecycle = _
        rw [e1, hl0]
      have hlen := nodup_filter_one hn
      rcases hf : rs.filter (fun r => decide (r.1 = 1)) with _ | ⟨a, t⟩
      · rw [hf]; exact k2
      · rw [hf] at hlen ⊢
        have ht : t = [] := by cases t with | nil => rfl | cons _ _ => simp at hlen
        have ham : a ∈ rs.filter (fun r => decide (r.1 = 1)) := hf ▸ List.mem_cons_self
        rw [List.mem_filter, decide_eq_true_eq] at ham
        obtain ⟨b, hb⟩ := ha a ham.1
        have hr := State.recAllowed_lifecycle hb ham.2
        subst ht
        change Keeps k0 (s2.applyRec a)
        unfold State.applyRec
        rw [ham.2]
        exact State.setLifecycle_keeps _ (by rw [e2]; exact hr.1) hr.2 k2
    · exact h0

theorem State.dropHalts_keeps {k0 : State} {s : State} (h_s : Keeps k0 s) :
    Keeps k0 (State.dropHalts s) := by
  unfold State.dropHalts
  repeat' (first | with_reducible assumption | with_reducible intro _ | with_reducible apply Keeps.ite | with_reducible apply Keeps.foldl | with_reducible apply Keeps.foldlP | split | dsimp only | simp only [Keeps.upd])

theorem State.closeDebug_keeps {k0 : State} {s : State} (h_s : Keeps k0 s) :
    Keeps k0 (State.closeDebug s) := by
  unfold State.closeDebug
  repeat' (first | with_reducible assumption | with_reducible intro _ | with_reducible apply Keeps.ite | with_reducible apply Keeps.foldl | with_reducible apply Keeps.foldlP | split | dsimp only | simp only [Keeps.upd])

theorem State.cleanN_keeps {k0 : State} {s : State} (a : ℕ) (n : ℕ) (h_s : Keeps k0 s) :
    Keeps k0 (State.cleanN s a n) := by
  unfold State.cleanN
  repeat' (first | with_reducible assumption | with_reducible intro _ | with_reducible apply State.setMark_keeps | with_reducible apply Keeps.ite | with_reducible apply Keeps.foldl | with_reducible apply Keeps.foldlP | split | dsimp only | simp only [Keeps.upd])

theorem State.wr_keeps {k0 s : State} (a : Nat) (b : Byte) (h : Keeps k0 s) : Keeps k0 (s.wr a b) := by
  refine h.mem rfl rfl rfl fun w => ?_
  simp only [Memory.wf, Bool.and_eq_true] at *
  exact ⟨⟨tcanon_tset _ _ _ _ w.1.1, w.1.2⟩, w.2⟩

theorem State.wrN_keeps {k0 s : State} (a : Nat) (l : List Byte) (h : Keeps k0 s) : Keeps k0 (s.wrN a l) := by
  induction l generalizing s a with
  | nil => exact h
  | cons b t ih => exact ih _ (State.wr_keeps _ _ h)

theorem State.put_keeps {k0 : State} {s : State} (a : ℕ) (l : List Byte) (h_s : Keeps k0 s) :
    Keeps k0 (State.put s a l) := by
  unfold State.put
  repeat' (first | with_reducible assumption | with_reducible intro _ | with_reducible apply State.cleanN_keeps | with_reducible apply State.wrN_keeps | with_reducible apply Keeps.ite | with_reducible apply Keeps.foldl | with_reducible apply Keeps.foldlP | split | dsimp only | simp only [Keeps.upd])

theorem State.held_keeps {k0 : State} {s : State} (i : Held) (h_s : Keeps k0 s) :
    Keeps k0 (State.held s i) := by
  unfold State.held
  repeat' (first | with_reducible assumption | with_reducible intro _ | with_reducible apply Keeps.ite | with_reducible apply Keeps.foldl | with_reducible apply Keeps.foldlP | split | dsimp only | simp only [Keeps.upd])

theorem State.hostPut_keeps {k0 : State} {s : State} (a : ℕ) (l : List Byte) (h_s : Keeps k0 s) :
    Keeps k0 (State.hostPut s a l) := by
  unfold State.hostPut
  repeat' (first | with_reducible assumption | with_reducible intro _ | with_reducible apply State.put_keeps | with_reducible apply State.held_keeps | with_reducible apply Keeps.ite | with_reducible apply Keeps.foldl | with_reducible apply Keeps.foldlP | split | dsimp only | simp only [Keeps.upd])

theorem State.setPort_keeps {k0 : State} {s : State} (p : Fin 4) (x : Port) (h_s : Keeps k0 s) :
    Keeps k0 (State.setPort s p x) := by
  unfold State.setPort
  repeat' (first | with_reducible assumption | with_reducible intro _ | with_reducible apply Keeps.ite | with_reducible apply Keeps.foldl | with_reducible apply Keeps.foldlP | split | dsimp only | simp only [Keeps.upd])

theorem State.modPort_keeps {k0 : State} {s : State} (p : Fin 4) (g : Port → Port) (h_s : Keeps k0 s) :
    Keeps k0 (State.modPort s p g) := by
  unfold State.modPort
  repeat' (first | with_reducible assumption | with_reducible intro _ | with_reducible apply State.setPort_keeps | with_reducible apply Keeps.ite | with_reducible apply Keeps.foldl | with_reducible apply Keeps.foldlP | split | dsimp only | simp only [Keeps.upd])

theorem State.setRing_keeps {k0 : State} {s : State} (p : Fin 4) (d : ℕ) (r : Ring) (h_s : Keeps k0 s) :
    Keeps k0 (State.setRing s p d r) := by
  unfold State.setRing
  repeat' (first | with_reducible assumption | with_reducible intro _ | with_reducible apply State.modPort_keeps | with_reducible apply State.held_keeps | with_reducible apply Keeps.ite | with_reducible apply Keeps.foldl | with_reducible apply Keeps.foldlP | split | dsimp only | simp only [Keeps.upd])

theorem State.setReg_keeps {k0 : State} {s : State} (o : ℕ) (v : Word) (h_s : Keeps k0 s) :
    Keeps k0 (State.setReg s o v) := by
  unfold State.setReg
  repeat' (first | with_reducible assumption | with_reducible intro _ | with_reducible apply Keeps.ite | with_reducible apply Keeps.foldl | with_reducible apply Keeps.foldlP | split | dsimp only | simp only [Keeps.upd])

theorem State.setRegF_keeps {k0 : State} {s : State} (o : ℕ) (lo : ℕ) (len : ℕ) (v : ℕ) (h_s : Keeps k0 s) :
    Keeps k0 (State.setRegF s o lo len v) := by
  unfold State.setRegF
  repeat' (first | with_reducible assumption | with_reducible intro _ | with_reducible apply State.setReg_keeps | with_reducible apply Keeps.ite | with_reducible apply Keeps.foldl | with_reducible apply Keeps.foldlP | split | dsimp only | simp only [Keeps.upd])

theorem State.setPages_keeps {k0 : State} {s : State} (p : Fin 4) (first : ℕ) (n : ℕ) (v : Bool) (h_s : Keeps k0 s) :
    Keeps k0 (State.setPages s p first n v) := by
  unfold State.setPages
  repeat' (first | with_reducible assumption | with_reducible intro _ | with_reducible apply State.setRegF_keeps | with_reducible apply Keeps.ite | with_reducible apply Keeps.foldl | with_reducible apply Keeps.foldlP | split | dsimp only | simp only [Keeps.upd])

theorem State.armSession_keeps {k0 : State} {s : State} (p : Fin 4) (h_s : Keeps k0 s) :
    Keeps k0 (State.armSession s p) := by
  unfold State.armSession
  repeat' (first | with_reducible assumption | with_reducible intro _ | with_reducible apply State.hostPut_keeps | with_reducible apply State.setRing_keeps | with_reducible apply State.setPages_keeps | with_reducible apply Keeps.ite | with_reducible apply Keeps.foldl | with_reducible apply Keeps.foldlP | split | dsimp only | simp only [Keeps.upd])

theorem State.irq_keeps {k0 : State} {s : State} (p : Fin 4) (b : ℕ) (h_s : Keeps k0 s) :
    Keeps k0 (State.irq s p b) := by
  unfold State.irq
  repeat' (first | with_reducible assumption | with_reducible intro _ | with_reducible apply State.modPort_keeps | with_reducible apply Keeps.ite | with_reducible apply Keeps.foldl | with_reducible apply Keeps.foldlP | split | dsimp only | simp only [Keeps.upd])

theorem State.setDev_keeps {k0 : State} {s : State} (d : DevSt) (h_s : Keeps k0 s) :
    Keeps k0 (State.setDev s d) := by
  unfold State.setDev
  repeat' (first | with_reducible assumption | with_reducible intro _ | with_reducible apply State.irq_keeps | with_reducible apply Keeps.ite | with_reducible apply Keeps.foldl | with_reducible apply Keeps.foldlP | split | dsimp only | simp only [Keeps.upd])

theorem State.enterRecovery_keeps {k0 : State} {s : State} (h_s : Keeps k0 s) :
    Keeps k0 (State.enterRecovery s) := by
  unfold State.enterRecovery
  repeat' (first | with_reducible assumption | with_reducible intro _ | with_reducible apply State.armSession_keeps | with_reducible apply State.setDev_keeps | with_reducible apply Keeps.ite | with_reducible apply Keeps.foldl | with_reducible apply Keeps.foldlP | split | dsimp only | simp only [Keeps.upd])

theorem State.booted_keeps {k0 : State} {s : State} (h_s : Keeps k0 s) :
    Keeps k0 (State.booted s) := by
  unfold State.booted
  repeat' (first | with_reducible assumption | with_reducible intro _ | with_reducible apply Keeps.ite | with_reducible apply Keeps.foldl | with_reducible apply Keeps.foldlP | split | dsimp only | simp only [Keeps.upd])

theorem State.setRail_keeps {k0 : State} {s : State} (h_s : Keeps k0 s) :
    Keeps k0 (State.setRail s) := by
  unfold State.setRail
  repeat' (first | with_reducible assumption | with_reducible intro _ | with_reducible apply Keeps.ite | with_reducible apply Keeps.foldl | with_reducible apply Keeps.foldlP | split | dsimp only | simp only [Keeps.upd])

theorem State.setFrond_keeps {k0 : State} {s : State} (f : Fin 4) (x : Frond) (h_s : Keeps k0 s) :
    Keeps k0 (State.setFrond s f x) := by
  unfold State.setFrond
  repeat' (first | with_reducible assumption | with_reducible intro _ | with_reducible apply Keeps.ite | with_reducible apply Keeps.foldl | with_reducible apply Keeps.foldlP | split | dsimp only | simp only [Keeps.upd])

theorem State.modFrond_keeps {k0 : State} {s : State} (f : Fin 4) (g : Frond → Frond) (h_s : Keeps k0 s) :
    Keeps k0 (State.modFrond s f g) := by
  unfold State.modFrond
  repeat' (first | with_reducible assumption | with_reducible intro _ | with_reducible apply State.setFrond_keeps | with_reducible apply Keeps.ite | with_reducible apply Keeps.foldl | with_reducible apply Keeps.foldlP | split | dsimp only | simp only [Keeps.upd])

theorem State.setOp_keeps {k0 : State} {s : State} (f : Fin 4) (h_s : Keeps k0 s) :
    Keeps k0 (State.setOp s f) := by
  unfold State.setOp
  repeat' (first | with_reducible assumption | with_reducible intro _ | with_reducible apply State.modFrond_keeps | with_reducible apply Keeps.ite | with_reducible apply Keeps.foldl | with_reducible apply Keeps.foldlP | split | dsimp only | simp only [Keeps.upd])

theorem State.applyOps_keeps {k0 : State} {s : State} (h_s : Keeps k0 s) :
    Keeps k0 (State.applyOps s) := by
  unfold State.applyOps
  repeat' (first | with_reducible assumption | with_reducible intro _ | with_reducible apply State.setRail_keeps | with_reducible apply State.setOp_keeps | with_reducible apply Keeps.ite | with_reducible apply Keeps.foldl | with_reducible apply Keeps.foldlP | split | dsimp only | simp only [Keeps.upd])

theorem State.loadCaps_keeps {k0 : State} {s : State} (h_s : Keeps k0 s) :
    Keeps k0 (State.loadCaps s) := by
  unfold State.loadCaps
  repeat' (first | with_reducible assumption | with_reducible intro _ | with_reducible apply State.setRegF_keeps | with_reducible apply Keeps.ite | with_reducible apply Keeps.foldl | with_reducible apply Keeps.foldlP | split | dsimp only | simp only [Keeps.upd])

theorem State.loadHb_keeps {k0 : State} {s : State} (h_s : Keeps k0 s) :
    Keeps k0 (State.loadHb s) := by
  unfold State.loadHb
  repeat' (first | with_reducible assumption | with_reducible intro _ | with_reducible apply State.setRegF_keeps | with_reducible apply Keeps.ite | with_reducible apply Keeps.foldl | with_reducible apply Keeps.foldlP | split | dsimp only | simp only [Keeps.upd])

theorem State.loadParts_keeps {k0 : State} {s : State} (h_s : Keeps k0 s) :
    Keeps k0 (State.loadParts s) := by
  unfold State.loadParts
  repeat' (first | with_reducible assumption | with_reducible intro _ | with_reducible apply Keeps.ite | with_reducible apply Keeps.foldl | with_reducible apply Keeps.foldlP | split | dsimp only | simp only [Keeps.upd])

theorem State.bootFronds_keeps {k0 : State} {s : State} (h_s : Keeps k0 s) :
    Keeps k0 (State.bootFronds s) := by
  unfold State.bootFronds
  repeat' (first | with_reducible assumption | with_reducible intro _ | with_reducible apply Keeps.ite | with_reducible apply Keeps.foldl | with_reducible apply Keeps.foldlP | split | dsimp only | simp only [Keeps.upd])

theorem State.zeroKey_keeps {k0 s : State} (k : Nat) (h : Keeps k0 s) : Keeps k0 (s.zeroKey k) := by
  refine h.mem rfl rfl rfl fun w => ?_
  simp only [Memory.wf, State.zeroKey, Bool.and_eq_true] at *
  exact ⟨⟨tcanon_foldl memDefault 0 (k + ·) _ _ w.1.1, w.1.2⟩, tcanon_foldl markDefault .none (k + 8 * ·) _ _ w.2⟩

theorem State.zeroRange_keeps {k0 s : State} (a n : Nat) (h : Keeps k0 s) : Keeps k0 (s.zeroRange a n) := by
  refine h.mem rfl rfl rfl fun w => ?_
  simp only [Memory.wf, State.zeroRange, Bool.and_eq_true] at *
  exact ⟨⟨tcanon_tdrop _ _ _ w.1.1, tcanon_tdrop _ _ _ w.1.2⟩, tcanon_tdrop _ _ _ w.2⟩

theorem State.zeroSpRange_keeps {k0 : State} {s : State} (f : Fin 4) (a : ℕ) (n : ℕ) (h_s : Keeps k0 s) :
    Keeps k0 (State.zeroSpRange s f a n) := by
  unfold State.zeroSpRange
  repeat' (first | with_reducible assumption | with_reducible intro _ | with_reducible apply State.zeroKey_keeps | with_reducible apply State.zeroRange_keeps | with_reducible apply Keeps.ite | with_reducible apply Keeps.foldl | with_reducible apply Keeps.foldlP | split | dsimp only | simp only [Keeps.upd])

theorem State.zeroSp_keeps {k0 : State} {s : State} (f : Fin 4) (h_s : Keeps k0 s) :
    Keeps k0 (State.zeroSp s f) := by
  unfold State.zeroSp
  repeat' (first | with_reducible assumption | with_reducible intro _ | with_reducible apply State.zeroSpRange_keeps | with_reducible apply Keeps.ite | with_reducible apply Keeps.foldl | with_reducible apply Keeps.foldlP | split | dsimp only | simp only [Keeps.upd])

theorem State.zeroMat_keeps {k0 : State} {s : State} (a : ℕ) (n : ℕ) (h_s : Keeps k0 s) :
    Keeps k0 (State.zeroMat s a n) := by
  unfold State.zeroMat
  repeat' (first | with_reducible assumption | with_reducible intro _ | with_reducible apply State.zeroKey_keeps | with_reducible apply State.zeroRange_keeps | with_reducible apply Keeps.ite | with_reducible apply Keeps.foldl | with_reducible apply Keeps.foldlP | split | dsimp only | simp only [Keeps.upd])

theorem State.zeroAll_keeps {k0 : State} {s : State} (h_s : Keeps k0 s) :
    Keeps k0 (State.zeroAll s) := by
  unfold State.zeroAll
  repeat' (first | with_reducible assumption | with_reducible intro _ | with_reducible apply State.zeroSp_keeps | with_reducible apply State.zeroMat_keeps | with_reducible apply Keeps.ite | with_reducible apply Keeps.foldl | with_reducible apply Keeps.foldlP | split | dsimp only | simp only [Keeps.upd])

theorem State.loadMapout_keeps {k0 : State} {s : State} (f : Fin 4) (h_s : Keeps k0 s) :
    Keeps k0 (State.loadMapout s f) := by
  unfold State.loadMapout
  repeat' (first | with_reducible assumption | with_reducible intro _ | with_reducible apply State.setReg_keeps | with_reducible apply Keeps.ite | with_reducible apply Keeps.foldl | with_reducible apply Keeps.foldlP | split | dsimp only | simp only [Keeps.upd])

theorem State.dropSpares_keeps {k0 : State} {s : State} (lo : ℕ) (n : ℕ) (w : ℕ) (sp : ℕ) (row : ℕ) (h_s : Keeps k0 s) :
    Keeps k0 (State.dropSpares s lo n w sp row) := by
  unfold State.dropSpares
  repeat' (first | with_reducible assumption | with_reducible intro _ | with_reducible apply State.setRegF_keeps | with_reducible apply Keeps.ite | with_reducible apply Keeps.foldl | with_reducible apply Keeps.foldlP | split | dsimp only | simp only [Keeps.upd])

theorem State.loadRepair_keeps {k0 : State} {s : State} (lo : ℕ) (n : ℕ) (w : ℕ) (fld : ℕ) (sp : ℕ) (row : ℕ) (h_s : Keeps k0 s) :
    Keeps k0 (State.loadRepair s lo n w fld sp row) := by
  unfold State.loadRepair
  repeat' (first | with_reducible assumption | with_reducible intro _ | with_reducible apply State.setReg_keeps | with_reducible apply State.dropSpares_keeps | with_reducible apply Keeps.ite | with_reducible apply Keeps.foldl | with_reducible apply Keeps.foldlP | split | dsimp only | simp only [Keeps.upd])

theorem State.applyRepairs_keeps {k0 : State} {s : State} (f : Fin 4) (h_s : Keeps k0 s) :
    Keeps k0 (State.applyRepairs s f) := by
  unfold State.applyRepairs
  repeat' (first | with_reducible assumption | with_reducible intro _ | with_reducible apply Keeps.ite | with_reducible apply Keeps.foldl | with_reducible apply Keeps.foldlP | split | dsimp only | simp only [Keeps.upd])

theorem State.loadSpRepair_keeps {k0 : State} {s : State} (f : Fin 4) (h_s : Keeps k0 s) :
    Keeps k0 (State.loadSpRepair s f) := by
  unfold State.loadSpRepair
  repeat' (first | with_reducible assumption | with_reducible intro _ | with_reducible apply State.loadRepair_keeps | with_reducible apply State.applyRepairs_keeps | with_reducible apply Keeps.ite | with_reducible apply Keeps.foldl | with_reducible apply Keeps.foldlP | split | dsimp only | simp only [Keeps.upd])

theorem State.loadMatRepair_keeps {k0 : State} {s : State} (h_s : Keeps k0 s) :
    Keeps k0 (State.loadMatRepair s) := by
  unfold State.loadMatRepair
  repeat' (first | with_reducible assumption | with_reducible intro _ | with_reducible apply State.loadRepair_keeps | with_reducible apply Keeps.ite | with_reducible apply Keeps.foldl | with_reducible apply Keeps.foldlP | split | dsimp only | simp only [Keeps.upd])

theorem State.loadRepairs_keeps {k0 : State} {s : State} (h_s : Keeps k0 s) :
    Keeps k0 (State.loadRepairs s) := by
  unfold State.loadRepairs
  repeat' (first | with_reducible assumption | with_reducible intro _ | with_reducible apply State.loadMapout_keeps | with_reducible apply State.loadSpRepair_keeps | with_reducible apply State.loadMatRepair_keeps | with_reducible apply Keeps.ite | with_reducible apply Keeps.foldl | with_reducible apply Keeps.foldlP | split | dsimp only | simp only [Keeps.upd])

theorem State.measureBoot_keeps {k0 : State} {s : State} (img : List Byte) (h_s : Keeps k0 s) :
    Keeps k0 (State.measureBoot s img) := by
  unfold State.measureBoot
  repeat' (first | with_reducible assumption | with_reducible intro _ | with_reducible apply State.extendMb_keeps | with_reducible apply Keeps.ite | with_reducible apply Keeps.foldl | with_reducible apply Keeps.foldlP | split | dsimp only | simp only [Keeps.upd])

theorem State.setImage_keeps {k0 : State} {s : State} (img : List Byte) (h_s : Keeps k0 s) :
    Keeps k0 (State.setImage s img) := by
  unfold State.setImage
  repeat' (first | with_reducible assumption | with_reducible intro _ | with_reducible apply Keeps.ite | with_reducible apply Keeps.foldl | with_reducible apply Keeps.foldlP | split | dsimp only | simp only [Keeps.upd])

theorem State.count_keeps {k0 : State} {s : State} (o : ℕ) (n : ℕ) (h_s : Keeps k0 s) :
    Keeps k0 (State.count s o n) := by
  unfold State.count
  repeat' (first | with_reducible assumption | with_reducible intro _ | with_reducible apply State.setReg_keeps | with_reducible apply Keeps.ite | with_reducible apply Keeps.foldl | with_reducible apply Keeps.foldlP | split | dsimp only | simp only [Keeps.upd])

theorem State.bootCheck_keeps {k0 : State} {s : State} (f : Fin 4) (h_s : Keeps k0 s) :
    Keeps k0 (State.bootCheck s f) := by
  unfold State.bootCheck
  repeat' (first | with_reducible assumption | with_reducible intro _ | with_reducible apply State.count_keeps | with_reducible apply Keeps.ite | with_reducible apply Keeps.foldl | with_reducible apply Keeps.foldlP | split | dsimp only | simp only [Keeps.upd])

theorem State.inService_keeps {k0 s : State} (img : List Byte) (h : Keeps k0 s) : Keeps k0 (s.inService img) :=
  h.of rfl rfl rfl rfl id rfl (Nat.le_trans (Nat.le_max_left _ _) (Nat.le_max_left _ _))

theorem State.keepTraining_keeps {k0 : State} {s : State} (h_s : Keeps k0 s) :
    Keeps k0 (State.keepTraining s) := by
  unfold State.keepTraining
  repeat' (first | with_reducible assumption | with_reducible intro _ | with_reducible apply State.saveNor_keeps | with_reducible apply Keeps.ite | with_reducible apply Keeps.foldl | with_reducible apply Keeps.foldlP | split | dsimp only | simp only [Keeps.upd])

theorem State.bootFirmware_keeps {k0 : State} {s : State} (img : List Byte) (h_s : Keeps k0 s) :
    Keeps k0 (State.bootFirmware s img) := by
  unfold State.bootFirmware
  repeat' (first | with_reducible assumption | with_reducible intro _ | with_reducible apply State.booted_keeps | with_reducible apply State.applyOps_keeps | with_reducible apply State.loadCaps_keeps | with_reducible apply State.loadHb_keeps | with_reducible apply State.loadParts_keeps | with_reducible apply State.bootFronds_keeps | with_reducible apply State.zeroAll_keeps | with_reducible apply State.loadRepairs_keeps | with_reducible apply State.measureBoot_keeps | with_reducible apply State.setImage_keeps | with_reducible apply State.setDev_keeps | with_reducible apply State.bootCheck_keeps | with_reducible apply State.inService_keeps | with_reducible apply State.armSession_keeps | with_reducible apply State.keepTraining_keeps | with_reducible apply Keeps.ite | with_reducible apply Keeps.foldl | with_reducible apply Keeps.foldlP | split | dsimp only | simp only [Keeps.upd])

theorem State.boot_keeps {k0 : State} {s : State} (h_s : Keeps k0 s) :
    Keeps k0 (State.boot s) := by
  unfold State.boot
  repeat' (first | with_reducible assumption | with_reducible intro _ | with_reducible apply State.saveNor_keeps | with_reducible apply State.programImage_keeps | with_reducible apply State.applyPending_keeps | with_reducible apply State.dropHalts_keeps | with_reducible apply State.closeDebug_keeps | with_reducible apply State.enterRecovery_keeps | with_reducible apply State.bootFirmware_keeps | with_reducible apply Keeps.ite | with_reducible apply Keeps.foldl | with_reducible apply Keeps.foldlP | split | dsimp only | simp only [Keeps.upd])

theorem State.errPulse_keeps {k0 : State} {s : State} (cls : ℕ) (h_s : Keeps k0 s) :
    Keeps k0 (State.errPulse s cls) := by
  unfold State.errPulse
  repeat' (first | with_reducible assumption | with_reducible intro _ | with_reducible apply Keeps.ite | with_reducible apply Keeps.foldl | with_reducible apply Keeps.foldlP | split | dsimp only | simp only [Keeps.upd])

theorem State.retire_keeps {k0 : State} {s : State} (unit : ℕ) (elem : ℕ) (h_s : Keeps k0 s) :
    Keeps k0 (State.retire s unit elem).1 := by
  unfold State.retire
  repeat' (first | with_reducible assumption | with_reducible intro _ | with_reducible apply State.saveNor_keeps | with_reducible apply Keeps.ite | with_reducible apply Keeps.foldl | with_reducible apply Keeps.foldlP | split | dsimp only | simp only [Keeps.upd])

theorem State.healthCount_keeps {k0 : State} {s : State} (unit : ℕ) (elem : ℕ) (ce : Bool) (ue : Bool) (hard : Bool) (h_s : Keeps k0 s) :
    Keeps k0 (State.healthCount s unit elem ce ue hard) := by
  unfold State.healthCount
  repeat' (first | with_reducible assumption | with_reducible intro _ | with_reducible apply State.saveNor_keeps | with_reducible apply State.retire_keeps | with_reducible apply Keeps.ite | with_reducible apply Keeps.foldl | with_reducible apply Keeps.foldlP | split | dsimp only | simp only [Keeps.upd])

theorem State.charge_keeps {k0 : State} {s : State} (e : Ev) (h_s : Keeps k0 s) :
    Keeps k0 (State.charge s e) := by
  unfold State.charge
  repeat' (first | with_reducible assumption | with_reducible intro _ | with_reducible apply State.healthCount_keeps | with_reducible apply Keeps.ite | with_reducible apply Keeps.foldl | with_reducible apply Keeps.foldlP | split | dsimp only | simp only [Keeps.upd])

theorem State.enterSafe_keeps {k0 s : State} (h : Keeps k0 s) : Keeps k0 s.enterSafe := by
  unfold State.enterSafe
  split
  · exact h
  · have h1 : Keeps k0 { s with fcol := { s.fcol with safe := true, safeLow := true } } := h.of rfl rfl rfl rfl (fun _ => rfl) rfl (Nat.le_refl _)
    repeat' (first | with_reducible assumption | with_reducible intro _ | with_reducible apply State.setDev_keeps | with_reducible apply State.zeroRange_keeps | with_reducible apply State.saveNor_keeps | with_reducible apply Keeps.ite | with_reducible apply Keeps.foldl | with_reducible apply Keeps.foldlP | split | dsimp only | simp only [Keeps.upd])

theorem State.countWrap_keeps {k0 : State} {s : State} (o : ℕ) (h_s : Keeps k0 s) :
    Keeps k0 (State.countWrap s o) := by
  unfold State.countWrap
  repeat' (first | with_reducible assumption | with_reducible intro _ | with_reducible apply State.setReg_keeps | with_reducible apply Keeps.ite | with_reducible apply Keeps.foldl | with_reducible apply Keeps.foldlP | split | dsimp only | simp only [Keeps.upd])

theorem State.pushRec_keeps {k0 : State} {s : State} (r : FaultRec) (h_s : Keeps k0 s) :
    Keeps k0 (State.pushRec s r) := by
  unfold State.pushRec
  repeat' (first | with_reducible assumption | with_reducible intro _ | with_reducible apply State.count_keeps | with_reducible apply State.countWrap_keeps | with_reducible apply Keeps.ite | with_reducible apply Keeps.foldl | with_reducible apply Keeps.foldlP | split | dsimp only | simp only [Keeps.upd])

theorem State.escalateF_keeps {k0 : State} {s : State} (src : ℕ) (h_s : Keeps k0 s) :
    Keeps k0 (State.escalateF s src) := by
  unfold State.escalateF
  repeat' (first | with_reducible assumption | with_reducible intro _ | with_reducible apply State.enterSafe_keeps | with_reducible apply State.errPulse_keeps | with_reducible apply State.pushRec_keeps | with_reducible apply Keeps.ite | with_reducible apply Keeps.foldl | with_reducible apply Keeps.foldlP | split | dsimp only | simp only [Keeps.upd])

theorem State.deadline_keeps {k0 : State} {s : State} (seq : ℕ) (src : ℕ) (h_s : Keeps k0 s) :
    Keeps k0 (State.deadline s seq src) := by
  unfold State.deadline
  repeat' (first | with_reducible assumption | with_reducible intro _ | with_reducible apply State.escalateF_keeps | with_reducible apply Keeps.ite | with_reducible apply Keeps.foldl | with_reducible apply Keeps.foldlP | split | dsimp only | simp only [Keeps.upd])

theorem State.hostZero_keeps {k0 : State} {s : State} (a : ℕ) (n : ℕ) (h_s : Keeps k0 s) :
    Keeps k0 (State.hostZero s a n) := by
  unfold State.hostZero
  repeat' (first | with_reducible assumption | with_reducible intro _ | with_reducible apply State.zeroRange_keeps | with_reducible apply State.held_keeps | with_reducible apply Keeps.ite | with_reducible apply Keeps.foldl | with_reducible apply Keeps.foldlP | split | dsimp only | simp only [Keeps.upd])

theorem State.ringClear_keeps {k0 : State} {s : State} (p : Fin 4) (d : ℕ) (h_s : Keeps k0 s) :
    Keeps k0 (State.ringClear s p d) := by
  unfold State.ringClear
  repeat' (first | with_reducible assumption | with_reducible intro _ | with_reducible apply State.hostZero_keeps | with_reducible apply State.setPages_keeps | with_reducible apply State.setRing_keeps | with_reducible apply Keeps.ite | with_reducible apply Keeps.foldl | with_reducible apply Keeps.foldlP | split | dsimp only | simp only [Keeps.upd])

theorem State.ringPad_keeps {k0 : State} {s : State} (p : Fin 4) (d : ℕ) (h_s : Keeps k0 s) :
    Keeps k0 (State.ringPad s p d) := by
  unfold State.ringPad
  repeat' (first | with_reducible assumption | with_reducible intro _ | with_reducible apply State.setRing_keeps | with_reducible apply State.hostPut_keeps | with_reducible apply Keeps.ite | with_reducible apply Keeps.foldl | with_reducible apply Keeps.foldlP | split | dsimp only | simp only [Keeps.upd])

theorem State.ringPutIn_keeps {k0 : State} {s : State} (keep : Bool) (p : Fin 4) (d : ℕ) (opc : ℕ) (tag : ℕ) (status : ℕ) (part : ℕ) (pl : List Byte) (h_s : Keeps k0 s) :
    Keeps k0 (State.ringPutIn s keep p d opc tag status part pl) := by
  unfold State.ringPutIn
  repeat' (first | with_reducible assumption | with_reducible intro _ | with_reducible apply State.ringPad_keeps | with_reducible apply State.hostPut_keeps | with_reducible apply State.irq_keeps | with_reducible apply State.setRing_keeps | with_reducible apply Keeps.ite | with_reducible apply Keeps.foldl | with_reducible apply Keeps.foldlP | split | dsimp only | simp only [Keeps.upd])

theorem State.ringPut_keeps {k0 : State} {s : State} (p : Fin 4) (d : ℕ) (opc : ℕ) (tag : ℕ) (status : ℕ) (part : ℕ) (pl : List Byte) (h_s : Keeps k0 s) :
    Keeps k0 (State.ringPut s p d opc tag status part pl) := by
  unfold State.ringPut
  repeat' (first | with_reducible assumption | with_reducible intro _ | with_reducible apply State.ringPutIn_keeps | with_reducible apply Keeps.ite | with_reducible apply Keeps.foldl | with_reducible apply Keeps.foldlP | split | dsimp only | simp only [Keeps.upd])

theorem State.faultNotice_keeps {k0 : State} {s : State} (r : FaultRec) (q : Fin 4) (h_s : Keeps k0 s) :
    Keeps k0 (State.faultNotice s r q) := by
  unfold State.faultNotice
  repeat' (first | with_reducible assumption | with_reducible intro _ | with_reducible apply State.irq_keeps | with_reducible apply State.ringPut_keeps | with_reducible apply Keeps.ite | with_reducible apply Keeps.foldl | with_reducible apply Keeps.foldlP | split | dsimp only | simp only [Keeps.upd])

theorem State.ringResetNotice_keeps {k0 : State} {s : State} (p : Fin 4) (d : ℕ) (disc : ℕ) (seqCause : Bool) (h_s : Keeps k0 s) :
    Keeps k0 (State.ringResetNotice s p d disc seqCause) := by
  unfold State.ringResetNotice
  repeat' (first | with_reducible assumption | with_reducible intro _ | with_reducible apply State.ringPut_keeps | with_reducible apply Keeps.ite | with_reducible apply Keeps.foldl | with_reducible apply Keeps.foldlP | split | dsimp only | simp only [Keeps.upd])

theorem State.raiseN_keeps {k0 s : State} (n : Nat) (e : Ev) (h : Keeps k0 s) : Keeps k0 (State.raiseN n s e) := by
  induction n generalizing s e with
  | zero => exact h
  | succ n ih =>
    unfold State.raiseN
    repeat' (first | with_reducible assumption | with_reducible apply ih | with_reducible intro _ | with_reducible apply State.errPulse_keeps | with_reducible apply State.charge_keeps | with_reducible apply State.enterSafe_keeps | with_reducible apply State.pushRec_keeps | with_reducible apply State.deadline_keeps | with_reducible apply State.setRegF_keeps | with_reducible apply State.ringClear_keeps | with_reducible apply State.faultNotice_keeps | with_reducible apply State.ringResetNotice_keeps | with_reducible apply Keeps.ite | with_reducible apply Keeps.foldl | with_reducible apply Keeps.foldlP | split | dsimp only | simp only [Keeps.upd])

theorem State.raise_keeps {k0 : State} {s : State} (e : Ev) (h_s : Keeps k0 s) :
    Keeps k0 (State.raise s e) := by
  unfold State.raise
  repeat' (first | with_reducible assumption | with_reducible intro _ | with_reducible apply State.raiseN_keeps | with_reducible apply Keeps.ite | with_reducible apply Keeps.foldl | with_reducible apply Keeps.foldlP | split | dsimp only | simp only [Keeps.upd])

theorem State.readNor_keeps {k0 : State} {s : State} (h_s : Keeps k0 s) :
    Keeps k0 (State.readNor s) := by
  unfold State.readNor
  repeat' (first | with_reducible assumption | with_reducible intro _ | with_reducible apply State.raise_keeps | with_reducible apply Keeps.ite | with_reducible apply Keeps.foldl | with_reducible apply Keeps.foldlP | split | dsimp only | simp only [Keeps.upd])

theorem State.clearRegs_keeps {k0 : State} {s : State} (p : ℕ → Bool) (h_s : Keeps k0 s) :
    Keeps k0 (State.clearRegs s p) := by
  unfold State.clearRegs
  repeat' (first | with_reducible assumption | with_reducible intro _ | with_reducible apply Keeps.ite | with_reducible apply Keeps.foldl | with_reducible apply Keeps.foldlP | split | dsimp only | simp only [Keeps.upd])

theorem State.cleared_keeps {k0 : State} {s : State} (h_s : Keeps k0 s) :
    Keeps k0 (State.cleared s) := by
  unfold State.cleared
  repeat' (first | with_reducible assumption | with_reducible intro _ | with_reducible apply Keeps.ite | with_reducible apply Keeps.foldl | with_reducible apply Keeps.foldlP | split | dsimp only | simp only [Keeps.upd])

theorem State.warmClear_keeps {k0 s : State} (h : Keeps k0 s) : Keeps k0 s.warmClear := by
  have h1 : Keeps k0 (s.cleared.clearRegs fun o => !warmKeeps o) := State.clearRegs_keeps _ (State.cleared_keeps h)
  exact h1.mem rfl rfl rfl fun _ => rfl

theorem State.warm_keeps {k0 : State} {s : State} (h_s : Keeps k0 s) :
    Keeps k0 (State.warm s) := by
  unfold State.warm
  repeat' (first | with_reducible assumption | with_reducible intro _ | with_reducible apply State.boot_keeps | with_reducible apply State.readNor_keeps | with_reducible apply State.warmClear_keeps | with_reducible apply State.setDev_keeps | with_reducible apply Keeps.ite | with_reducible apply Keeps.foldl | with_reducible apply Keeps.foldlP | split | dsimp only | simp only [Keeps.upd])

theorem State.escalate_keeps {k0 : State} {s : State} (unit : ℕ) (kind : ℕ) (lvl : ℕ) (h_s : Keeps k0 s) :
    Keeps k0 (State.escalate s unit kind lvl) := by
  unfold State.escalate
  repeat' (first | with_reducible assumption | with_reducible intro _ | with_reducible apply State.raise_keeps | with_reducible apply Keeps.ite | with_reducible apply Keeps.foldl | with_reducible apply Keeps.foldlP | split | dsimp only | simp only [Keeps.upd])

theorem State.l6_keeps {k0 : State} {s : State} (kind : ℕ) (h_s : Keeps k0 s) :
    Keeps k0 (State.l6 s kind) := by
  unfold State.l6
  repeat' (first | with_reducible assumption | with_reducible intro _ | with_reducible apply State.escalate_keeps | with_reducible apply Keeps.ite | with_reducible apply Keeps.foldl | with_reducible apply Keeps.foldlP | split | dsimp only | simp only [Keeps.upd])

theorem State.forgetSteps_keeps {k0 : State} {s : State} (lvl : ℕ) (key : ℕ) (h_s : Keeps k0 s) :
    Keeps k0 (State.forgetSteps s lvl key) := by
  unfold State.forgetSteps
  repeat' (first | with_reducible assumption | with_reducible intro _ | with_reducible apply Keeps.ite | with_reducible apply Keeps.foldl | with_reducible apply Keeps.foldlP | split | dsimp only | simp only [Keeps.upd])

theorem State.noteStep_keeps {k0 : State} {s : State} (lvl : ℕ) (key : ℕ) (now : ℕ) (h_s : Keeps k0 s) :
    Keeps k0 (State.noteStep s lvl key now) := by
  unfold State.noteStep
  repeat' (first | with_reducible assumption | with_reducible intro _ | with_reducible apply Keeps.ite | with_reducible apply Keeps.foldl | with_reducible apply Keeps.foldlP | split | dsimp only | simp only [Keeps.upd])

theorem State.l5_keeps {k0 : State} {s : State} (counted : Bool) (h_s : Keeps k0 s) :
    Keeps k0 (State.l5 s counted) := by
  unfold State.l5
  repeat' (first | with_reducible assumption | with_reducible intro _ | with_reducible apply State.warm_keeps | with_reducible apply State.l6_keeps | with_reducible apply State.forgetSteps_keeps | with_reducible apply State.noteStep_keeps | with_reducible apply Keeps.ite | with_reducible apply Keeps.foldl | with_reducible apply Keeps.foldlP | split | dsimp only | simp only [Keeps.upd])

theorem State.escalateL5_keeps {k0 : State} {s : State} (kind : ℕ) (h_s : Keeps k0 s) :
    Keeps k0 (State.escalateL5 s kind) := by
  unfold State.escalateL5
  repeat' (first | with_reducible assumption | with_reducible intro _ | with_reducible apply State.l5_keeps | with_reducible apply State.escalate_keeps | with_reducible apply Keeps.ite | with_reducible apply Keeps.foldl | with_reducible apply Keeps.foldlP | split | dsimp only | simp only [Keeps.upd])

theorem State.modTrick_keeps {k0 : State} {s : State} (key : Word) (e : ℕ) (inst : ℕ) (g : Trick → Trick) (h_s : Keeps k0 s) :
    Keeps k0 (State.modTrick s key e inst g) := by
  unfold State.modTrick
  repeat' (first | with_reducible assumption | with_reducible intro _ | with_reducible apply Keeps.ite | with_reducible apply Keeps.foldl | with_reducible apply Keeps.foldlP | split | dsimp only | simp only [Keeps.upd])

theorem State.setLink_keeps {k0 : State} {s : State} (l : Fin 3) (x : Link) (h_s : Keeps k0 s) :
    Keeps k0 (State.setLink s l x) := by
  unfold State.setLink
  repeat' (first | with_reducible assumption | with_reducible intro _ | with_reducible apply Keeps.ite | with_reducible apply Keeps.foldl | with_reducible apply Keeps.foldlP | split | dsimp only | simp only [Keeps.upd])

theorem State.modLink_keeps {k0 : State} {s : State} (l : Fin 3) (g : Link → Link) (h_s : Keeps k0 s) :
    Keeps k0 (State.modLink s l g) := by
  unfold State.modLink
  repeat' (first | with_reducible assumption | with_reducible intro _ | with_reducible apply State.setLink_keeps | with_reducible apply Keeps.ite | with_reducible apply Keeps.foldl | with_reducible apply Keeps.foldlP | split | dsimp only | simp only [Keeps.upd])

theorem State.sendTo_keeps {k0 : State} {s : State} (m : ℕ) (vl : ℕ) (tag : ℕ) (b : List Byte) (h_s : Keeps k0 s) :
    Keeps k0 (State.sendTo s m vl tag b) := by
  unfold State.sendTo
  repeat' (first | with_reducible assumption | with_reducible intro _ | with_reducible apply State.held_keeps | with_reducible apply State.modLink_keeps | with_reducible apply Keeps.ite | with_reducible apply Keeps.foldl | with_reducible apply Keeps.foldlP | split | dsimp only | simp only [Keeps.upd])

theorem State.sendPeers_keeps {k0 : State} {s : State} (g : Group) (vl : ℕ) (tag : ℕ) (b : List Byte) (h_s : Keeps k0 s) :
    Keeps k0 (State.sendPeers s g vl tag b) := by
  unfold State.sendPeers
  repeat' (first | with_reducible assumption | with_reducible intro _ | with_reducible apply State.sendTo_keeps | with_reducible apply Keeps.ite | with_reducible apply Keeps.foldl | with_reducible apply Keeps.foldlP | split | dsimp only | simp only [Keeps.upd])

theorem State.sendVerdict_keeps {k0 : State} {s : State} (g : Group) (t : Trick) (void : Bool) (h_s : Keeps k0 s) :
    Keeps k0 (State.sendVerdict s g t void) := by
  unfold State.sendVerdict
  repeat' (first | with_reducible assumption | with_reducible intro _ | with_reducible apply State.modTrick_keeps | with_reducible apply State.sendPeers_keeps | with_reducible apply Keeps.ite | with_reducible apply Keeps.foldl | with_reducible apply Keeps.foldlP | split | dsimp only | simp only [Keeps.upd])

theorem State.sendBlock_keeps {k0 : State} {s : State} (g : Group) (e : ℕ) (inst : ℕ) (blk : ℕ) (tag : ℕ) (h_s : Keeps k0 s) :
    Keeps k0 (State.sendBlock s g e inst blk tag) := by
  unfold State.sendBlock
  repeat' (first | with_reducible assumption | with_reducible intro _ | with_reducible apply State.sendPeers_keeps | with_reducible apply Keeps.ite | with_reducible apply Keeps.foldl | with_reducible apply Keeps.foldlP | split | dsimp only | simp only [Keeps.upd])

theorem State.sendClose_keeps {k0 : State} {s : State} (g : Group) (e : ℕ) (inst : ℕ) (tally : DWord) (h_s : Keeps k0 s) :
    Keeps k0 (State.sendClose s g e inst tally) := by
  unfold State.sendClose
  repeat' (first | with_reducible assumption | with_reducible intro _ | with_reducible apply State.sendPeers_keeps | with_reducible apply Keeps.ite | with_reducible apply Keeps.foldl | with_reducible apply Keeps.foldlP | split | dsimp only | simp only [Keeps.upd])

theorem State.forwardNext_keeps {k0 : State} {s : State} (key : Word) (e : ℕ) (inst : ℕ) (h_s : Keeps k0 s) :
    Keeps k0 (State.forwardNext s key e inst) := by
  unfold State.forwardNext
  repeat' (first | with_reducible assumption | with_reducible intro _ | with_reducible apply State.sendBlock_keeps | with_reducible apply State.sendClose_keeps | with_reducible apply Keeps.ite | with_reducible apply Keeps.foldl | with_reducible apply Keeps.foldlP | split | dsimp only | simp only [Keeps.upd])

theorem State.voidOpenOf_keeps {k0 : State} {s : State} (j : ℕ) (h_s : Keeps k0 s) :
    Keeps k0 (State.voidOpenOf s j) := by
  unfold State.voidOpenOf
  repeat' (first | with_reducible assumption | with_reducible intro _ | with_reducible apply State.modTrick_keeps | with_reducible apply State.sendVerdict_keeps | with_reducible apply State.forwardNext_keeps | with_reducible apply State.count_keeps | with_reducible apply Keeps.ite | with_reducible apply Keeps.foldl | with_reducible apply Keeps.foldlP | split | dsimp only | simp only [Keeps.upd])

theorem State.stopJob_keeps {k0 : State} {s : State} (j : ℕ) (h_s : Keeps k0 s) :
    Keeps k0 (State.stopJob s j) := by
  unfold State.stopJob
  repeat' (first | with_reducible assumption | with_reducible intro _ | with_reducible apply Keeps.ite | with_reducible apply Keeps.foldl | with_reducible apply Keeps.foldlP | split | dsimp only | simp only [Keeps.upd])

theorem State.holdFrond_keeps {k0 : State} {s : State} (f : Fin 4) (cause : ℕ) (seg : ℕ) (h_s : Keeps k0 s) :
    Keeps k0 (State.holdFrond s f cause seg) := by
  unfold State.holdFrond
  repeat' (first | with_reducible assumption | with_reducible intro _ | with_reducible apply State.modFrond_keeps | with_reducible apply Keeps.ite | with_reducible apply Keeps.foldl | with_reducible apply Keeps.foldlP | split | dsimp only | simp only [Keeps.upd])

theorem State.modJob_keeps {k0 : State} {s : State} (j : ℕ) (g : Job → Job) (h_s : Keeps k0 s) :
    Keeps k0 (State.modJob s j g) := by
  unfold State.modJob
  repeat' (first | with_reducible assumption | with_reducible intro _ | with_reducible apply Keeps.ite | with_reducible apply Keeps.foldl | with_reducible apply Keeps.foldlP | split | dsimp only | simp only [Keeps.upd])

theorem State.enterAll_keeps {k0 : State} {s : State} (l : List ℕ) (unit : ℕ) (cause : ℕ) (loc : ℕ) (h_s : Keeps k0 s) :
    Keeps k0 (State.enterAll s l unit cause loc) := by
  unfold State.enterAll
  repeat' (first | with_reducible assumption | with_reducible intro _ | with_reducible apply State.modJob_keeps | with_reducible apply Keeps.ite | with_reducible apply Keeps.foldl | with_reducible apply Keeps.foldlP | split | dsimp only | simp only [Keeps.upd])

theorem State.goldenFail_keeps {k0 : State} {s : State} (f : Fin 4) (h_s : Keeps k0 s) :
    Keeps k0 (State.goldenFail s f) := by
  unfold State.goldenFail
  repeat' (first | with_reducible assumption | with_reducible intro _ | with_reducible apply State.holdFrond_keeps | with_reducible apply State.raise_keeps | with_reducible apply State.enterAll_keeps | with_reducible apply Keeps.ite | with_reducible apply Keeps.foldl | with_reducible apply Keeps.foldlP | split | dsimp only | simp only [Keeps.upd])

theorem State.dropSignals_keeps {k0 : State} {s : State} (j : ℕ) (h_s : Keeps k0 s) :
    Keeps k0 (State.dropSignals s j) := by
  unfold State.dropSignals
  repeat' (first | with_reducible assumption | with_reducible intro _ | with_reducible apply Keeps.ite | with_reducible apply Keeps.foldl | with_reducible apply Keeps.foldlP | split | dsimp only | simp only [Keeps.upd])

theorem State.dropGolden_keeps {k0 : State} {s : State} (j : ℕ) (h_s : Keeps k0 s) :
    Keeps k0 (State.dropGolden s j) := by
  unfold State.dropGolden
  repeat' (first | with_reducible assumption | with_reducible intro _ | with_reducible apply State.dropSignals_keeps | with_reducible apply Keeps.ite | with_reducible apply Keeps.foldl | with_reducible apply Keeps.foldlP | split | dsimp only | simp only [Keeps.upd])

theorem State.reSpan_keeps {k0 : State} {s : State} (q : ℕ) (new : List Span) (len : ℕ) (t : Bool) (h_s : Keeps k0 s) :
    Keeps k0 (State.reSpan s q new len t) := by
  unfold State.reSpan
  repeat' (first | with_reducible assumption | with_reducible intro _ | with_reducible apply Keeps.ite | with_reducible apply Keeps.foldl | with_reducible apply Keeps.foldlP | split | dsimp only | simp only [Keeps.upd])

theorem State.taintAppends_keeps {k0 : State} {s : State} (a : Admit) (h_s : Keeps k0 s) :
    Keeps k0 (State.taintAppends s a) := by
  unfold State.taintAppends
  repeat' (first | with_reducible assumption | with_reducible intro _ | with_reducible apply Keeps.ite | with_reducible apply Keeps.foldl | with_reducible apply Keeps.foldlP | split | dsimp only | simp only [Keeps.upd])

theorem State.commitOne_keeps {k0 : State} {s : State} (a : Admit) (unsealed : Bool) (h_s : Keeps k0 s) :
    Keeps k0 (State.commitOne s a unsealed) := by
  unfold State.commitOne
  repeat' (first | with_reducible assumption | with_reducible intro _ | with_reducible apply State.reSpan_keeps | with_reducible apply State.taintAppends_keeps | with_reducible apply Keeps.ite | with_reducible apply Keeps.foldl | with_reducible apply Keeps.foldlP | split | dsimp only | simp only [Keeps.upd])

theorem State.sweepPool_keeps {k0 : State} {s : State} (pool : ℕ) (h_s : Keeps k0 s) :
    Keeps k0 (State.sweepPool s pool) := by
  unfold State.sweepPool
  repeat' (first | with_reducible assumption | with_reducible intro _ | with_reducible apply Keeps.ite | with_reducible apply Keeps.foldl | with_reducible apply Keeps.foldlP | split | dsimp only | simp only [Keeps.upd])

theorem State.retireSeq_keeps {k0 : State} {s : State} (q : ℕ) (h_s : Keeps k0 s) :
    Keeps k0 (State.retireSeq s q) := by
  unfold State.retireSeq
  repeat' (first | with_reducible assumption | with_reducible intro _ | with_reducible apply State.sweepPool_keeps | with_reducible apply Keeps.ite | with_reducible apply Keeps.foldl | with_reducible apply Keeps.foldlP | split | dsimp only | simp only [Keeps.upd])

theorem State.endCommit_keeps {k0 : State} {s : State} (j : ℕ) (x : Job) (unsealed : Bool) (cancelled : Bool) (h_s : Keeps k0 s) :
    Keeps k0 (State.endCommit s j x unsealed cancelled) := by
  unfold State.endCommit
  repeat' (first | with_reducible assumption | with_reducible intro _ | with_reducible apply State.commitOne_keeps | with_reducible apply State.retireSeq_keeps | with_reducible apply State.sweepPool_keeps | with_reducible apply State.modJob_keeps | with_reducible apply Keeps.ite | with_reducible apply Keeps.foldl | with_reducible apply Keeps.foldlP | split | dsimp only | simp only [Keeps.upd])

theorem State.freeSlots_keeps {k0 : State} {s : State} (j : ℕ) (h_s : Keeps k0 s) :
    Keeps k0 (State.freeSlots s j) := by
  unfold State.freeSlots
  repeat' (first | with_reducible assumption | with_reducible intro _ | with_reducible apply Keeps.ite | with_reducible apply Keeps.foldl | with_reducible apply Keeps.foldlP | split | dsimp only | simp only [Keeps.upd])

theorem State.ringReset_keeps {k0 : State} {s : State} (p : Fin 4) (d : ℕ) (seqCause : Bool) (h_s : Keeps k0 s) :
    Keeps k0 (State.ringReset s p d seqCause) := by
  unfold State.ringReset
  repeat' (first | with_reducible assumption | with_reducible intro _ | with_reducible apply State.ringResetNotice_keeps | with_reducible apply State.raise_keeps | with_reducible apply State.ringClear_keeps | with_reducible apply Keeps.ite | with_reducible apply Keeps.foldl | with_reducible apply Keeps.foldlP | split | dsimp only | simp only [Keeps.upd])

theorem State.ringUse_keeps {k0 : State} {s : State} (p : Fin 4) (d : ℕ) (h_s : Keeps k0 s) :
    Keeps k0 (State.ringUse s p d) := by
  unfold State.ringUse
  repeat' (first | with_reducible assumption | with_reducible intro _ | with_reducible apply State.ringReset_keeps | with_reducible apply Keeps.ite | with_reducible apply Keeps.foldl | with_reducible apply Keeps.foldlP | split | dsimp only | simp only [Keeps.upd])

theorem State.jobDone_keeps {k0 : State} {s : State} (j : ℕ) (x : Job) (st : ℕ) (cancelled : Bool) (disc : ℕ) (h_s : Keeps k0 s) :
    Keeps k0 (State.jobDone s j x st cancelled disc) := by
  unfold State.jobDone
  repeat' (first | with_reducible assumption | with_reducible intro _ | with_reducible apply State.ringPut_keeps | with_reducible apply State.ringUse_keeps | with_reducible apply Keeps.ite | with_reducible apply Keeps.foldl | with_reducible apply Keeps.foldlP | split | dsimp only | simp only [Keeps.upd])

theorem State.setJob_keeps {k0 : State} {s : State} (j : ℕ) (x : Job) (h_s : Keeps k0 s) :
    Keeps k0 (State.setJob s j x) := by
  unfold State.setJob
  repeat' (first | with_reducible assumption | with_reducible intro _ | with_reducible apply Keeps.ite | with_reducible apply Keeps.foldl | with_reducible apply Keeps.foldlP | split | dsimp only | simp only [Keeps.upd])

theorem State.endInstance_keeps {k0 : State} {s : State} (j : ℕ) (st : ℕ) (sealed : Bool) (cancelled : Bool) (h_s : Keeps k0 s) :
    Keeps k0 (State.endInstance s j st sealed cancelled) := by
  unfold State.endInstance
  repeat' (first | with_reducible assumption | with_reducible intro _ | with_reducible apply State.endCommit_keeps | with_reducible apply State.count_keeps | with_reducible apply State.dropSignals_keeps | with_reducible apply State.freeSlots_keeps | with_reducible apply State.jobDone_keeps | with_reducible apply State.setJob_keeps | with_reducible apply Keeps.ite | with_reducible apply Keeps.foldl | with_reducible apply Keeps.foldlP | split | dsimp only | simp only [Keeps.upd])

theorem State.abortJob_keeps {k0 : State} {s : State} (j : ℕ) (st : ℕ) (h_s : Keeps k0 s) :
    Keeps k0 (State.abortJob s j st) := by
  unfold State.abortJob
  repeat' (first | with_reducible assumption | with_reducible intro _ | with_reducible apply State.voidOpenOf_keeps | with_reducible apply State.stopJob_keeps | with_reducible apply State.goldenFail_keeps | with_reducible apply State.dropGolden_keeps | with_reducible apply State.endInstance_keeps | with_reducible apply Keeps.ite | with_reducible apply Keeps.foldl | with_reducible apply Keeps.foldlP | split | dsimp only | simp only [Keeps.upd])

theorem State.setBcw_keeps {k0 s : State} (a : Nat) (v : Word) (h : Keeps k0 s) : Keeps k0 (s.setBcw a v) := by
  refine h.mem rfl rfl rfl fun w => ?_
  simp only [Memory.wf, Bool.and_eq_true] at *
  exact ⟨⟨w.1.1, tcanon_tset _ _ _ _ w.1.2⟩, tcanon_tset _ _ _ _ w.2⟩

theorem State.putBlock_keeps {k0 : State} {s : State} (a : ℕ) (l : List Byte) (w : Word) (h_s : Keeps k0 s) :
    Keeps k0 (State.putBlock s a l w) := by
  unfold State.putBlock
  repeat' (first | with_reducible assumption | with_reducible intro _ | with_reducible apply State.setBcw_keeps | with_reducible apply State.put_keeps | with_reducible apply Keeps.ite | with_reducible apply Keeps.foldl | with_reducible apply Keeps.foldlP | split | dsimp only | simp only [Keeps.upd])

theorem State.mergeIn_keeps {k0 : State} {s : State} (a : ℕ) (l : List Byte) (h_s : Keeps k0 s) :
    Keeps k0 (State.mergeIn s a l) := by
  unfold State.mergeIn
  repeat' (first | with_reducible assumption | with_reducible intro _ | with_reducible apply State.setBcw_keeps | with_reducible apply State.put_keeps | with_reducible apply Keeps.ite | with_reducible apply Keeps.foldl | with_reducible apply Keeps.foldlP | split | dsimp only | simp only [Keeps.upd])

theorem State.store_keeps {k0 : State} {s : State} (a : ℕ) (l : List Byte) (h_s : Keeps k0 s) :
    Keeps k0 (State.store s a l) := by
  unfold State.store
  repeat' (first | with_reducible assumption | with_reducible intro _ | with_reducible apply State.putBlock_keeps | with_reducible apply State.mergeIn_keeps | with_reducible apply Keeps.ite | with_reducible apply Keeps.foldl | with_reducible apply Keeps.foldlP | split | dsimp only | simp only [Keeps.upd])

theorem State.restoreAll_keeps {k0 : State} {s : State} (f : Fin 4) (h_s : Keeps k0 s) :
    Keeps k0 (State.restoreAll s f) := by
  unfold State.restoreAll
  repeat' (first | with_reducible assumption | with_reducible intro _ | with_reducible apply State.store_keeps | with_reducible apply Keeps.ite | with_reducible apply Keeps.foldl | with_reducible apply Keeps.foldlP | split | dsimp only | simp only [Keeps.upd])

theorem State.clearFrondRegs_keeps {k0 : State} {s : State} (f : Fin 4) (all : Bool) (h_s : Keeps k0 s) :
    Keeps k0 (State.clearFrondRegs s f all) := by
  unfold State.clearFrondRegs
  repeat' (first | with_reducible assumption | with_reducible intro _ | with_reducible apply State.clearRegs_keeps | with_reducible apply Keeps.ite | with_reducible apply Keeps.foldl | with_reducible apply Keeps.foldlP | split | dsimp only | simp only [Keeps.upd])

theorem State.resetFrondWhole_keeps {k0 : State} {s : State} (f : Fin 4) (h_s : Keeps k0 s) :
    Keeps k0 (State.resetFrondWhole s f) := by
  unfold State.resetFrondWhole
  repeat' (first | with_reducible assumption | with_reducible intro _ | with_reducible apply State.setFrond_keeps | with_reducible apply State.restoreAll_keeps | with_reducible apply State.zeroSp_keeps | with_reducible apply State.loadMapout_keeps | with_reducible apply State.clearFrondRegs_keeps | with_reducible apply Keeps.ite | with_reducible apply Keeps.foldl | with_reducible apply Keeps.foldlP | split | dsimp only | simp only [Keeps.upd])

theorem State.setFcolBit_keeps {k0 : State} {s : State} (base : ℕ) (src : ℕ) (v : Bool) (h_s : Keeps k0 s) :
    Keeps k0 (State.setFcolBit s base src v) := by
  unfold State.setFcolBit
  repeat' (first | with_reducible assumption | with_reducible intro _ | with_reducible apply State.setRegF_keeps | with_reducible apply Keeps.ite | with_reducible apply Keeps.foldl | with_reducible apply Keeps.foldlP | split | dsimp only | simp only [Keeps.upd])

theorem State.clearBroken_keeps {k0 : State} {s : State} (a : ℕ) (b : ℕ) (h_s : Keeps k0 s) :
    Keeps k0 (State.clearBroken s a b) := by
  unfold State.clearBroken
  repeat' (first | with_reducible assumption | with_reducible intro _ | with_reducible apply State.setFcolBit_keeps | with_reducible apply Keeps.ite | with_reducible apply Keeps.foldl | with_reducible apply Keeps.foldlP | split | dsimp only | simp only [Keeps.upd])

theorem State.showErrs_keeps {k0 : State} {s : State} (c : ℕ) (h_s : Keeps k0 s) :
    Keeps k0 (State.showErrs s c) := by
  unfold State.showErrs
  repeat' (first | with_reducible assumption | with_reducible intro _ | with_reducible apply State.setRegF_keeps | with_reducible apply Keeps.ite | with_reducible apply Keeps.foldl | with_reducible apply Keeps.foldlP | split | dsimp only | simp only [Keeps.upd])

theorem State.setStream_keeps {k0 : State} {s : State} (c : ℕ) (x : Stream) (h_s : Keeps k0 s) :
    Keeps k0 (State.setStream s c x) := by
  unfold State.setStream
  repeat' (first | with_reducible assumption | with_reducible intro _ | with_reducible apply Keeps.ite | with_reducible apply Keeps.foldl | with_reducible apply Keeps.foldlP | split | dsimp only | simp only [Keeps.upd])

theorem State.modStream_keeps {k0 : State} {s : State} (c : ℕ) (g : Stream → Stream) (h_s : Keeps k0 s) :
    Keeps k0 (State.modStream s c g) := by
  unfold State.modStream
  repeat' (first | with_reducible assumption | with_reducible intro _ | with_reducible apply State.setStream_keeps | with_reducible apply Keeps.ite | with_reducible apply Keeps.foldl | with_reducible apply Keeps.foldlP | split | dsimp only | simp only [Keeps.upd])

theorem State.post_keeps {k0 : State} {s : State} (p : Fin 4) (d : ℕ) (opc : ℕ) (tag : ℕ) (st : St) (part : ℕ) (pl : List Byte) (h_s : Keeps k0 s) :
    Keeps k0 (State.post s p d opc tag st part pl) := by
  unfold State.post
  repeat' (first | with_reducible assumption | with_reducible intro _ | with_reducible apply State.ringPut_keeps | with_reducible apply State.ringUse_keeps | with_reducible apply Keeps.ite | with_reducible apply Keeps.foldl | with_reducible apply Keeps.foldlP | split | dsimp only | simp only [Keeps.upd])

theorem State.notice_keeps {k0 : State} {s : State} (r : Fin 4) (opc : ℕ) (st : St) (pl : List Byte) (h_s : Keeps k0 s) :
    Keeps k0 (State.notice s r opc st pl) := by
  unfold State.notice
  repeat' (first | with_reducible assumption | with_reducible intro _ | with_reducible apply State.post_keeps | with_reducible apply Keeps.ite | with_reducible apply Keeps.foldl | with_reducible apply Keeps.foldlP | split | dsimp only | simp only [Keeps.upd])

theorem State.streamTo_keeps {k0 : State} {s : State} (c : ℕ) (st : ℕ) (cause : ℕ) (h_s : Keeps k0 s) :
    Keeps k0 (State.streamTo s c st cause) := by
  unfold State.streamTo
  repeat' (first | with_reducible assumption | with_reducible intro _ | with_reducible apply State.setRegF_keeps | with_reducible apply State.count_keeps | with_reducible apply State.notice_keeps | with_reducible apply Keeps.ite | with_reducible apply Keeps.foldl | with_reducible apply Keeps.foldlP | split | dsimp only | simp only [Keeps.upd])

theorem State.streamState_keeps {k0 : State} {s : State} (c : ℕ) (st : ℕ) (cause : ℕ) (h_s : Keeps k0 s) :
    Keeps k0 (State.streamState s c st cause) := by
  unfold State.streamState
  repeat' (first | with_reducible assumption | with_reducible intro _ | with_reducible apply State.streamTo_keeps | with_reducible apply Keeps.ite | with_reducible apply Keeps.foldl | with_reducible apply Keeps.foldlP | split | dsimp only | simp only [Keeps.upd])

theorem State.countLost_keeps {k0 : State} {s : State} (c : ℕ) (r : FrameRun) (h_s : Keeps k0 s) :
    Keeps k0 (State.countLost s c r) := by
  unfold State.countLost
  repeat' (first | with_reducible assumption | with_reducible intro _ | with_reducible apply State.count_keeps | with_reducible apply Keeps.ite | with_reducible apply Keeps.foldl | with_reducible apply Keeps.foldlP | split | dsimp only | simp only [Keeps.upd])

theorem State.dropDone_keeps {k0 : State} {s : State} (c : ℕ) (h_s : Keeps k0 s) :
    Keeps k0 (State.dropDone s c) := by
  unfold State.dropDone
  repeat' (first | with_reducible assumption | with_reducible intro _ | with_reducible apply State.modStream_keeps | with_reducible apply State.countLost_keeps | with_reducible apply Keeps.ite | with_reducible apply Keeps.foldl | with_reducible apply Keeps.foldlP | split | dsimp only | simp only [Keeps.upd])

theorem State.dropRun_keeps {k0 : State} {s : State} (c : ℕ) (h_s : Keeps k0 s) :
    Keeps k0 (State.dropRun s c) := by
  unfold State.dropRun
  repeat' (first | with_reducible assumption | with_reducible intro _ | with_reducible apply State.modStream_keeps | with_reducible apply State.countLost_keeps | with_reducible apply Keeps.ite | with_reducible apply Keeps.foldl | with_reducible apply Keeps.foldlP | split | dsimp only | simp only [Keeps.upd])

theorem State.restartStream_keeps {k0 : State} {s : State} (c : ℕ) (h_s : Keeps k0 s) :
    Keeps k0 (State.restartStream s c) := by
  unfold State.restartStream
  repeat' (first | with_reducible assumption | with_reducible intro _ | with_reducible apply State.showErrs_keeps | with_reducible apply State.modStream_keeps | with_reducible apply State.streamState_keeps | with_reducible apply State.dropDone_keeps | with_reducible apply State.dropRun_keeps | with_reducible apply Keeps.ite | with_reducible apply Keeps.foldl | with_reducible apply Keeps.foldlP | split | dsimp only | simp only [Keeps.upd])

theorem State.partReset_keeps {k0 : State} {s : State} (r : Fin 4) (h_s : Keeps k0 s) :
    Keeps k0 (State.partReset s r) := by
  unfold State.partReset
  repeat' (first | with_reducible assumption | with_reducible intro _ | with_reducible apply State.abortJob_keeps | with_reducible apply State.clearRegs_keeps | with_reducible apply State.resetFrondWhole_keeps | with_reducible apply State.clearBroken_keeps | with_reducible apply State.zeroMat_keeps | with_reducible apply State.retireSeq_keeps | with_reducible apply State.restartStream_keeps | with_reducible apply Keeps.ite | with_reducible apply Keeps.foldl | with_reducible apply Keeps.foldlP | split | dsimp only | simp only [Keeps.upd])

theorem State.l3_keeps {k0 : State} {s : State} (r : Fin 4) (h_s : Keeps k0 s) :
    Keeps k0 (State.l3 s r) := by
  unfold State.l3
  repeat' (first | with_reducible assumption | with_reducible intro _ | with_reducible apply State.escalateL5_keeps | with_reducible apply State.forgetSteps_keeps | with_reducible apply State.partReset_keeps | with_reducible apply State.noteStep_keeps | with_reducible apply Keeps.ite | with_reducible apply Keeps.foldl | with_reducible apply Keeps.foldlP | split | dsimp only | simp only [Keeps.upd])

theorem State.setErrInfo_keeps {k0 : State} {s : State} (bcw : Bool) (a : ℕ) (h_s : Keeps k0 s) :
    Keeps k0 (State.setErrInfo s bcw a) := by
  unfold State.setErrInfo
  repeat' (first | with_reducible assumption | with_reducible intro _ | with_reducible apply State.setReg_keeps | with_reducible apply Keeps.ite | with_reducible apply Keeps.foldl | with_reducible apply Keeps.foldlP | split | dsimp only | simp only [Keeps.upd])

theorem State.scanResident_keeps {k0 : State} {s : State} (f : Fin 4) (h_s : Keeps k0 s) :
    Keeps k0 (State.scanResident s f) := by
  unfold State.scanResident
  repeat' (first | with_reducible assumption | with_reducible intro _ | with_reducible apply State.raise_keeps | with_reducible apply State.setErrInfo_keeps | with_reducible apply State.count_keeps | with_reducible apply Keeps.ite | with_reducible apply Keeps.foldl | with_reducible apply Keeps.foldlP | split | dsimp only | simp only [Keeps.upd])

theorem State.zeroWork_keeps {k0 : State} {s : State} (f : Fin 4) (h_s : Keeps k0 s) :
    Keeps k0 (State.zeroWork s f) := by
  unfold State.zeroWork
  repeat' (first | with_reducible assumption | with_reducible intro _ | with_reducible apply State.zeroSpRange_keeps | with_reducible apply Keeps.ite | with_reducible apply Keeps.foldl | with_reducible apply Keeps.foldlP | split | dsimp only | simp only [Keeps.upd])

theorem State.frondResetL2_keeps {k0 : State} {s : State} (f : Fin 4) (h_s : Keeps k0 s) :
    Keeps k0 (State.frondResetL2 s f) := by
  unfold State.frondResetL2
  repeat' (first | with_reducible assumption | with_reducible intro _ | with_reducible apply State.abortJob_keeps | with_reducible apply State.setFrond_keeps | with_reducible apply State.clearBroken_keeps | with_reducible apply State.loadMapout_keeps | with_reducible apply State.scanResident_keeps | with_reducible apply State.zeroWork_keeps | with_reducible apply State.clearFrondRegs_keeps | with_reducible apply Keeps.ite | with_reducible apply Keeps.foldl | with_reducible apply Keeps.foldlP | split | dsimp only | simp only [Keeps.upd])

theorem State.l2_keeps {k0 : State} {s : State} (f : Fin 4) (h_s : Keeps k0 s) :
    Keeps k0 (State.l2 s f) := by
  unfold State.l2
  repeat' (first | with_reducible assumption | with_reducible intro _ | with_reducible apply State.l3_keeps | with_reducible apply State.escalate_keeps | with_reducible apply State.forgetSteps_keeps | with_reducible apply State.frondResetL2_keeps | with_reducible apply State.noteStep_keeps | with_reducible apply Keeps.ite | with_reducible apply Keeps.foldl | with_reducible apply Keeps.foldlP | split | dsimp only | simp only [Keeps.upd])

theorem State.mapFrond_keeps {k0 : State} {s : State} (f : Fin 4) (h_s : Keeps k0 s) :
    Keeps k0 (State.mapFrond s f) := by
  unfold State.mapFrond
  repeat' (first | with_reducible assumption | with_reducible intro _ | with_reducible apply State.frondResetL2_keeps | with_reducible apply Keeps.ite | with_reducible apply Keeps.foldl | with_reducible apply Keeps.foldlP | split | dsimp only | simp only [Keeps.upd])

theorem State.retireFrond_keeps {k0 : State} {s : State} (f : Fin 4) (h_s : Keeps k0 s) :
    Keeps k0 (State.retireFrond s f) := by
  unfold State.retireFrond
  repeat' (first | with_reducible assumption | with_reducible intro _ | with_reducible apply State.clearFrondRegs_keeps | with_reducible apply State.setFrond_keeps | with_reducible apply State.abortJob_keeps | with_reducible apply State.zeroSp_keeps | with_reducible apply Keeps.ite | with_reducible apply Keeps.foldl | with_reducible apply Keeps.foldlP | split | dsimp only | simp only [Keeps.upd])

theorem State.sweepRetired_keeps {k0 : State} {s : State} (h_s : Keeps k0 s) :
    Keeps k0 (State.sweepRetired s) := by
  unfold State.sweepRetired
  repeat' (first | with_reducible assumption | with_reducible intro _ | with_reducible apply State.mapFrond_keeps | with_reducible apply State.retireFrond_keeps | with_reducible apply Keeps.ite | with_reducible apply Keeps.foldl | with_reducible apply Keeps.foldlP | split | dsimp only | simp only [Keeps.upd])

theorem State.l1On_keeps {k0 : State} {s : State} (f : Fin 4) (kind : ℕ) (j : ℕ) (st : ℕ) (h_s : Keeps k0 s) :
    Keeps k0 (State.l1On s f kind j st) := by
  unfold State.l1On
  repeat' (first | with_reducible assumption | with_reducible intro _ | with_reducible apply State.l2_keeps | with_reducible apply State.escalate_keeps | with_reducible apply State.forgetSteps_keeps | with_reducible apply State.noteStep_keeps | with_reducible apply State.sweepRetired_keeps | with_reducible apply State.abortJob_keeps | with_reducible apply Keeps.ite | with_reducible apply Keeps.foldl | with_reducible apply Keeps.foldlP | split | dsimp only | simp only [Keeps.upd])

theorem State.l1_keeps {k0 : State} {s : State} (f : Fin 4) (kind : ℕ) (h_s : Keeps k0 s) :
    Keeps k0 (State.l1 s f kind) := by
  unfold State.l1
  repeat' (first | with_reducible assumption | with_reducible intro _ | with_reducible apply State.l1On_keeps | with_reducible apply Keeps.ite | with_reducible apply Keeps.foldl | with_reducible apply Keeps.foldlP | split | dsimp only | simp only [Keeps.upd])

theorem State.progFault_keeps {k0 : State} {s : State} (f : Fin 4) (op : ℕ) (sub : ℕ) (h_s : Keeps k0 s) :
    Keeps k0 (State.progFault s f op sub) := by
  unfold State.progFault
  repeat' (first | with_reducible assumption | with_reducible intro _ | with_reducible apply State.l1_keeps | with_reducible apply State.raise_keeps | with_reducible apply Keeps.ite | with_reducible apply Keeps.foldl | with_reducible apply Keeps.foldlP | split | dsimp only | simp only [Keeps.upd])

theorem State.orFault_keeps {k0 : State} {r : State × Bool} (f : Fin 4) (op : ℕ) (h_r : Keeps k0 r.1) :
    Keeps k0 (State.orFault r f op) := by
  unfold State.orFault
  repeat' (first | with_reducible assumption | with_reducible intro _ | with_reducible apply State.progFault_keeps | with_reducible apply Keeps.ite | with_reducible apply Keeps.foldl | with_reducible apply Keeps.foldlP | split | dsimp only | simp only [Keeps.upd])

theorem State.modJobOn_keeps {k0 : State} {s : State} (f : Fin 4) (g : Job → Job) (h_s : Keeps k0 s) :
    Keeps k0 (State.modJobOn s f g) := by
  unfold State.modJobOn
  repeat' (first | with_reducible assumption | with_reducible intro _ | with_reducible apply State.modJob_keeps | with_reducible apply Keeps.ite | with_reducible apply Keeps.foldl | with_reducible apply Keeps.foldlP | split | dsimp only | simp only [Keeps.upd])

theorem State.setNonfinite_keeps {k0 : State} {s : State} (f : Fin 4) (b : Bool) (h_s : Keeps k0 s) :
    Keeps k0 (State.setNonfinite s f b) := by
  unfold State.setNonfinite
  repeat' (first | with_reducible assumption | with_reducible intro _ | with_reducible apply State.modJobOn_keeps | with_reducible apply Keeps.ite | with_reducible apply Keeps.foldl | with_reducible apply Keeps.foldlP | split | dsimp only | simp only [Keeps.upd])

theorem State.checkFailAt_keeps {k0 : State} {s : State} (w : Who) (unit : ℕ) (kind : ℕ) (cause : ℕ) (loc : ℕ) (sub : ℕ) (synd : ℕ) (h_s : Keeps k0 s) :
    Keeps k0 (State.checkFailAt s w unit kind cause loc sub synd) := by
  unfold State.checkFailAt
  repeat' (first | with_reducible assumption | with_reducible intro _ | with_reducible apply State.modJob_keeps | with_reducible apply State.raise_keeps | with_reducible apply Keeps.ite | with_reducible apply Keeps.foldl | with_reducible apply Keeps.foldlP | split | dsimp only | simp only [Keeps.upd])

theorem State.checkFail_keeps {k0 : State} {s : State} (w : Who) (unit : ℕ) (kind : ℕ) (cause : ℕ) (sub : ℕ) (synd : ℕ) (h_s : Keeps k0 s) :
    Keeps k0 (State.checkFail s w unit kind cause sub synd) := by
  unfold State.checkFail
  repeat' (first | with_reducible assumption | with_reducible intro _ | with_reducible apply State.checkFailAt_keeps | with_reducible apply Keeps.ite | with_reducible apply Keeps.foldl | with_reducible apply Keeps.foldlP | split | dsimp only | simp only [Keeps.upd])

theorem State.vecReport_keeps {k0 : State} {s : State} (f : Fin 4) (op : ℕ) (o : VecOut) (h_s : Keeps k0 s) :
    Keeps k0 (State.vecReport s f op o) := by
  unfold State.vecReport
  repeat' (first | with_reducible assumption | with_reducible intro _ | with_reducible apply State.setNonfinite_keeps | with_reducible apply State.count_keeps | with_reducible apply State.checkFail_keeps | with_reducible apply Keeps.ite | with_reducible apply Keeps.foldl | with_reducible apply Keeps.foldlP | split | dsimp only | simp only [Keeps.upd])

theorem State.fresh_keeps {k0 : State} {s : State} (h_s : Keeps k0 s) :
    Keeps k0 (State.fresh s).2 := by
  unfold State.fresh
  repeat' (first | with_reducible assumption | with_reducible intro _ | with_reducible apply Keeps.ite | with_reducible apply Keeps.foldl | with_reducible apply Keeps.foldlP | split | dsimp only | simp only [Keeps.upd])

theorem State.queueWb_keeps {k0 : State} {s : State} (a : ℕ) (h_s : Keeps k0 s) :
    Keeps k0 (State.queueWb s a) := by
  unfold State.queueWb
  repeat' (first | with_reducible assumption | with_reducible intro _ | with_reducible apply State.count_keeps | with_reducible apply State.modFrond_keeps | with_reducible apply Keeps.ite | with_reducible apply Keeps.foldl | with_reducible apply Keeps.foldlP | split | dsimp only | simp only [Keeps.upd])

theorem State.reportCe_keeps {k0 : State} {s : State} (w : Who) (a : ℕ) (bit : ℕ) (h_s : Keeps k0 s) :
    Keeps k0 (State.reportCe s w a bit) := by
  unfold State.reportCe
  repeat' (first | with_reducible assumption | with_reducible intro _ | with_reducible apply State.fresh_keeps | with_reducible apply State.raise_keeps | with_reducible apply State.count_keeps | with_reducible apply State.healthCount_keeps | with_reducible apply State.queueWb_keeps | with_reducible apply Keeps.ite | with_reducible apply Keeps.foldl | with_reducible apply Keeps.foldlP | split | dsimp only | simp only [Keeps.upd])

theorem State.reportUe_keeps {k0 : State} {s : State} (w : Who) (a : ℕ) (h_s : Keeps k0 s) :
    Keeps k0 (State.reportUe s w a) := by
  unfold State.reportUe
  repeat' (first | with_reducible assumption | with_reducible intro _ | with_reducible apply State.fresh_keeps | with_reducible apply State.checkFail_keeps | with_reducible apply State.setErrInfo_keeps | with_reducible apply State.count_keeps | with_reducible apply Keeps.ite | with_reducible apply Keeps.foldl | with_reducible apply Keeps.foldlP | split | dsimp only | simp only [Keeps.upd])

theorem State.reportMarks_keeps {k0 : State} {s : State} (w : Who) (a : ℕ) (n : ℕ) (h_s : Keeps k0 s) :
    Keeps k0 (State.reportMarks s w a n) := by
  unfold State.reportMarks
  repeat' (first | with_reducible assumption | with_reducible intro _ | with_reducible apply State.reportCe_keeps | with_reducible apply State.reportUe_keeps | with_reducible apply Keeps.ite | with_reducible apply Keeps.foldl | with_reducible apply Keeps.foldlP | split | dsimp only | simp only [Keeps.upd])

theorem State.reportCheckWord_keeps {k0 : State} {s : State} (w : Who) (a : ℕ) (h_s : Keeps k0 s) :
    Keeps k0 (State.reportCheckWord s w a) := by
  unfold State.reportCheckWord
  repeat' (first | with_reducible assumption | with_reducible intro _ | with_reducible apply State.setBcw_keeps | with_reducible apply State.raise_keeps | with_reducible apply State.count_keeps | with_reducible apply State.reportUe_keeps | with_reducible apply Keeps.ite | with_reducible apply Keeps.foldl | with_reducible apply Keeps.foldlP | split | dsimp only | simp only [Keeps.upd])

theorem State.reportBcw_keeps {k0 : State} {s : State} (w : Who) (a : ℕ) (h_s : Keeps k0 s) :
    Keeps k0 (State.reportBcw s w a) := by
  unfold State.reportBcw
  repeat' (first | with_reducible assumption | with_reducible intro _ | with_reducible apply State.checkFail_keeps | with_reducible apply State.setErrInfo_keeps | with_reducible apply State.count_keeps | with_reducible apply Keeps.ite | with_reducible apply Keeps.foldl | with_reducible apply Keeps.foldlP | split | dsimp only | simp only [Keeps.upd])

theorem State.checkBlock_keeps {k0 : State} {s : State} (w : Who) (a : ℕ) (h_s : Keeps k0 s) :
    Keeps k0 (State.checkBlock s w a) := by
  unfold State.checkBlock
  repeat' (first | with_reducible assumption | with_reducible intro _ | with_reducible apply State.reportCheckWord_keeps | with_reducible apply State.reportBcw_keeps | with_reducible apply Keeps.ite | with_reducible apply Keeps.foldl | with_reducible apply Keeps.foldlP | split | dsimp only | simp only [Keeps.upd])

theorem State.reportFetch_keeps {k0 : State} {s : State} (w : Who) (f : Fin 4) (seen : List ℕ) (rows : List ℕ) (h_s : Keeps k0 s) :
    Keeps k0 (State.reportFetch s w f seen rows) := by
  unfold State.reportFetch
  repeat' (first | with_reducible assumption | with_reducible intro _ | with_reducible apply State.reportMarks_keeps | with_reducible apply State.checkBlock_keeps | with_reducible apply Keeps.ite | with_reducible apply Keeps.foldl | with_reducible apply Keeps.foldlP | split | dsimp only | simp only [Keeps.upd])

theorem State.modQueue_keeps {k0 : State} {s : State} (f : Fin 4) (q : ℕ) (g : Queue → Queue) (h_s : Keeps k0 s) :
    Keeps k0 (State.modQueue s f q g) := by
  unfold State.modQueue
  repeat' (first | with_reducible assumption | with_reducible intro _ | with_reducible apply State.modFrond_keeps | with_reducible apply Keeps.ite | with_reducible apply Keeps.foldl | with_reducible apply Keeps.foldlP | split | dsimp only | simp only [Keeps.upd])

theorem State.useStep_keeps {k0 : State} {s : State} (f : Fin 4) (h_s : Keeps k0 s) :
    Keeps k0 (State.useStep s f) := by
  unfold State.useStep
  repeat' (first | with_reducible assumption | with_reducible intro _ | with_reducible apply Keeps.ite | with_reducible apply Keeps.foldl | with_reducible apply Keeps.foldlP | split | dsimp only | simp only [Keeps.upd])

theorem State.issueIns_keeps {k0 : State} {s : State} (f : Fin 4) (q : ℕ) (h_s : Keeps k0 s) :
    Keeps k0 (State.issueIns s f q) := by
  unfold State.issueIns
  repeat' (first | with_reducible assumption | with_reducible intro _ | with_reducible apply State.modQueue_keeps | with_reducible apply State.useStep_keeps | with_reducible apply Keeps.ite | with_reducible apply Keeps.foldl | with_reducible apply Keeps.foldlP | split | dsimp only | simp only [Keeps.upd])

theorem State.noteRace_keeps {k0 : State} {s : State} (f : Fin 4) (win : ℕ) (lose : ℕ) (row : ℕ) (h_s : Keeps k0 s) :
    Keeps k0 (State.noteRace s f win lose row) := by
  unfold State.noteRace
  repeat' (first | with_reducible assumption | with_reducible intro _ | with_reducible apply State.setReg_keeps | with_reducible apply State.count_keeps | with_reducible apply Keeps.ite | with_reducible apply Keeps.foldl | with_reducible apply Keeps.foldlP | split | dsimp only | simp only [Keeps.upd])

theorem State.mergeChecked_keeps {k0 : State} {s : State} (w : Who) (a : ℕ) (l : List Byte) (h_s : Keeps k0 s) :
    Keeps k0 (State.mergeChecked s w a l) := by
  unfold State.mergeChecked
  repeat' (first | with_reducible assumption | with_reducible intro _ | with_reducible apply State.reportMarks_keeps | with_reducible apply State.checkBlock_keeps | with_reducible apply State.mergeIn_keeps | with_reducible apply Keeps.ite | with_reducible apply Keeps.foldl | with_reducible apply Keeps.foldlP | split | dsimp only | simp only [Keeps.upd])

theorem State.storeChecked_keeps {k0 : State} {s : State} (w : Who) (a : ℕ) (l : List Byte) (h_s : Keeps k0 s) :
    Keeps k0 (State.storeChecked s w a l) := by
  unfold State.storeChecked
  repeat' (first | with_reducible assumption | with_reducible intro _ | with_reducible apply State.putBlock_keeps | with_reducible apply State.mergeChecked_keeps | with_reducible apply Keeps.ite | with_reducible apply Keeps.foldl | with_reducible apply Keeps.foldlP | split | dsimp only | simp only [Keeps.upd])

theorem State.spStore_keeps {k0 : State} {s : State} (w : Who) (f : Fin 4) (unitCode : ℕ) (p : PendWrite) (h_s : Keeps k0 s) :
    Keeps k0 (State.spStore s w f unitCode p).1 := by
  unfold State.spStore
  repeat' (first | with_reducible assumption | with_reducible intro _ | with_reducible apply State.count_keeps | with_reducible apply State.noteRace_keeps | with_reducible apply State.storeChecked_keeps | with_reducible apply Keeps.ite | with_reducible apply Keeps.foldl | with_reducible apply Keeps.foldlP | split | dsimp only | simp only [Keeps.upd])

theorem State.overlapEnd_keeps {k0 : State} {s : State} (f : Fin 4) (op : ℕ) (a : ℕ) (h_s : Keeps k0 s) :
    Keeps k0 (State.overlapEnd s f op a) := by
  unfold State.overlapEnd
  repeat' (first | with_reducible assumption | with_reducible intro _ | with_reducible apply State.modFrond_keeps | with_reducible apply State.setBcw_keeps | with_reducible apply Keeps.ite | with_reducible apply Keeps.foldl | with_reducible apply Keeps.foldlP | split | dsimp only | simp only [Keeps.upd])

theorem State.spStoreAll_keeps {k0 : State} {s : State} (w : Who) (f : Fin 4) (unitCode : ℕ) (l : List PendWrite) (h_s : Keeps k0 s) :
    Keeps k0 (State.spStoreAll s w f unitCode l).1 := by
  unfold State.spStoreAll
  repeat' (first | with_reducible assumption | with_reducible intro _ | with_reducible apply State.spStore_keeps | with_reducible apply State.overlapEnd_keeps | with_reducible apply Keeps.ite | with_reducible apply Keeps.foldl | with_reducible apply Keeps.foldlP | split | dsimp only | simp only [Keeps.upd])

theorem State.finishIns_keeps {k0 : State} {s : State} (f : Fin 4) (q : ℕ) (w : IWord) (h_s : Keeps k0 s) :
    Keeps k0 (State.finishIns s f q w) := by
  unfold State.finishIns
  repeat' (first | with_reducible assumption | with_reducible intro _ | with_reducible apply State.modQueue_keeps | with_reducible apply State.modFrond_keeps | with_reducible apply Keeps.ite | with_reducible apply Keeps.foldl | with_reducible apply Keeps.foldlP | split | dsimp only | simp only [Keeps.upd])

theorem State.vecRun_keeps {k0 : State} {s : State} (f : Fin 4) (q : ℕ) (op : ℕ) (w : IWord) (o : VecOut) (h_s : Keeps k0 s) :
    Keeps k0 (State.vecRun s f q op w o).1 := by
  unfold State.vecRun
  repeat' (first | with_reducible assumption | with_reducible intro _ | with_reducible apply State.vecReport_keeps | with_reducible apply State.reportFetch_keeps | with_reducible apply State.issueIns_keeps | with_reducible apply State.spStoreAll_keeps | with_reducible apply State.finishIns_keeps | with_reducible apply Keeps.ite | with_reducible apply Keeps.foldl | with_reducible apply Keeps.foldlP | split | dsimp only | simp only [Keeps.upd])

theorem State.finishVec_keeps {k0 : State} {s : State} (f : Fin 4) (q : ℕ) (op : ℕ) (w : IWord) (o : VecOut) (h_s : Keeps k0 s) :
    Keeps k0 (State.finishVec s f q op w o) := by
  unfold State.finishVec
  repeat' (first | with_reducible assumption | with_reducible intro _ | with_reducible apply State.orFault_keeps | with_reducible apply State.vecRun_keeps | with_reducible apply Keeps.ite | with_reducible apply Keeps.foldl | with_reducible apply Keeps.foldlP | split | dsimp only | simp only [Keeps.upd])

theorem State.runSfu_keeps {k0 : State} {s : State} (f : Fin 4) (q : ℕ) (func : ℕ) (out : Reader → VecF → VecD → VecOut) (h_s : Keeps k0 s) :
    Keeps k0 (State.runSfu s f q func out) := by
  unfold State.runSfu
  repeat' (first | with_reducible assumption | with_reducible intro _ | with_reducible apply State.finishVec_keeps | with_reducible apply Keeps.ite | with_reducible apply Keeps.foldl | with_reducible apply Keeps.foldlP | split | dsimp only | simp only [Keeps.upd])

theorem State.runBuiltin_keeps {k0 : State} {s : State} (f : Fin 4) (q : ℕ) (func : ℕ) (h_s : Keeps k0 s) :
    Keeps k0 (State.runBuiltin s f q func) := by
  unfold State.runBuiltin
  repeat' (first | with_reducible assumption | with_reducible intro _ | with_reducible apply State.runSfu_keeps | with_reducible apply Keeps.ite | with_reducible apply Keeps.foldl | with_reducible apply Keeps.foldlP | split | dsimp only | simp only [Keeps.upd])

theorem State.tapIr_keeps {k0 : State} {s : State} (ir : ℕ) (h_s : Keeps k0 s) :
    Keeps k0 (State.tapIr s ir) := by
  unfold State.tapIr
  repeat' (first | with_reducible assumption | with_reducible intro _ | with_reducible apply Keeps.ite | with_reducible apply Keeps.foldl | with_reducible apply Keeps.foldlP | split | dsimp only | simp only [Keeps.upd])

theorem State.accAnswer_keeps {k0 : State} {s : State} (a : TapSt) (v : Word) (h_s : Keeps k0 s) :
    Keeps k0 (State.accAnswer s a v) := by
  unfold State.accAnswer
  repeat' (first | with_reducible assumption | with_reducible intro _ | with_reducible apply Keeps.ite | with_reducible apply Keeps.foldl | with_reducible apply Keeps.foldlP | split | dsimp only | simp only [Keeps.upd])

theorem State.replayPut_keeps {k0 : State} {s : State} (op : DbgOp) (h_s : Keeps k0 s) :
    Keeps k0 (State.replayPut s op) := by
  unfold State.replayPut
  repeat' (first | with_reducible assumption | with_reducible intro _ | with_reducible apply Keeps.ite | with_reducible apply Keeps.foldl | with_reducible apply Keeps.foldlP | split | dsimp only | simp only [Keeps.upd])

theorem State.debugEntry_keeps {k0 : State} {s : State} (h_s : Keeps k0 s) :
    Keeps k0 (State.debugEntry s) := by
  unfold State.debugEntry
  repeat' (first | with_reducible assumption | with_reducible intro _ | with_reducible apply State.checkFail_keeps | with_reducible apply Keeps.ite | with_reducible apply Keeps.foldl | with_reducible apply Keeps.foldlP | split | dsimp only | simp only [Keeps.upd])

theorem windowWrite_keeps {k0 : State} (wr : State → ℕ → State) {s : State} (w : Window) (h_wr : ∀ u0 u1, Keeps k0 u0 → Keeps k0 (wr u0 u1)) (h_s : Keeps k0 s) :
    Keeps k0 (windowWrite wr s w) := by
  unfold windowWrite
  repeat' (first | with_reducible assumption | with_reducible intro _ | with_reducible apply h_wr | with_reducible apply State.setRegF_keeps | with_reducible apply Keeps.ite | with_reducible apply Keeps.foldl | with_reducible apply Keeps.foldlP | split | dsimp only | simp only [Keeps.upd])

theorem State.writeInner_keeps {k0 : State} (wr : State → ℕ → Word → State) {s : State} (o : ℕ) (v : Word) (h_wr : ∀ u0 u1 u2, Keeps k0 u0 → Keeps k0 (wr u0 u1 u2)) (h_s : Keeps k0 s) :
    Keeps k0 (State.writeInner wr s o v) := by
  unfold State.writeInner
  repeat' (first | with_reducible assumption | with_reducible intro _ | with_reducible apply h_wr | with_reducible apply windowWrite_keeps | with_reducible apply Keeps.ite | with_reducible apply Keeps.foldl | with_reducible apply Keeps.foldlP | split | dsimp only | simp only [Keeps.upd])

theorem State.writeVia_keeps {k0 : State} (wr : State → ℕ → Word → State) {s : State} (caller : Option (Fin 4)) (o : ℕ) (v : Word) (h_wr : ∀ u0 u1 u2, Keeps k0 u0 → Keeps k0 (wr u0 u1 u2)) (h_s : Keeps k0 s) :
    Keeps k0 (State.writeVia wr s caller o v) := by
  unfold State.writeVia
  repeat' (first | with_reducible assumption | with_reducible intro _ | with_reducible apply h_wr | with_reducible apply windowWrite_keeps | with_reducible apply State.writeInner_keeps | with_reducible apply Keeps.ite | with_reducible apply Keeps.foldl | with_reducible apply Keeps.foldlP | split | dsimp only | simp only [Keeps.upd])

theorem State.writeFields_keeps {k0 : State} {s : State} (o : ℕ) (v : Word) (h_s : Keeps k0 s) :
    Keeps k0 (State.writeFields s o v) := by
  unfold State.writeFields
  repeat' (first | with_reducible assumption | with_reducible intro _ | with_reducible apply State.setReg_keeps | with_reducible apply Keeps.ite | with_reducible apply Keeps.foldl | with_reducible apply Keeps.foldlP | split | dsimp only | simp only [Keeps.upd])

theorem State.writeMapout_keeps {k0 : State} {s : State} (f : Fin 4) (v : Word) (h_s : Keeps k0 s) :
    Keeps k0 (State.writeMapout s f v) := by
  unfold State.writeMapout
  repeat' (first | with_reducible assumption | with_reducible intro _ | with_reducible apply State.writeFields_keeps | with_reducible apply Keeps.ite | with_reducible apply Keeps.foldl | with_reducible apply Keeps.foldlP | split | dsimp only | simp only [Keeps.upd])

theorem State.writeResbase_keeps {k0 : State} {s : State} (f : Fin 4) (v : Word) (h_s : Keeps k0 s) :
    Keeps k0 (State.writeResbase s f v) := by
  unfold State.writeResbase
  repeat' (first | with_reducible assumption | with_reducible intro _ | with_reducible apply State.setReg_keeps | with_reducible apply Keeps.ite | with_reducible apply Keeps.foldl | with_reducible apply Keeps.foldlP | split | dsimp only | simp only [Keeps.upd])

theorem State.writeSpRepair_keeps {k0 : State} {s : State} (f : Fin 4) (b : ℕ) (sp : ℕ) (v : Word) (h_s : Keeps k0 s) :
    Keeps k0 (State.writeSpRepair s f b sp v) := by
  unfold State.writeSpRepair
  repeat' (first | with_reducible assumption | with_reducible intro _ | with_reducible apply State.writeFields_keeps | with_reducible apply Keeps.ite | with_reducible apply Keeps.foldl | with_reducible apply Keeps.foldlP | split | dsimp only | simp only [Keeps.upd])

theorem State.writePinCtrl_keeps {k0 : State} {s : State} (f : Fin 4) (p : ℕ) (v : Word) (h_s : Keeps k0 s) :
    Keeps k0 (State.writePinCtrl s f p v) := by
  unfold State.writePinCtrl
  repeat' (first | with_reducible assumption | with_reducible intro _ | with_reducible apply State.modFrond_keeps | with_reducible apply Keeps.ite | with_reducible apply Keeps.foldl | with_reducible apply Keeps.foldlP | split | dsimp only | simp only [Keeps.upd])

theorem State.writeFrondReg_keeps {k0 : State} {s : State} (f : Fin 4) (x : ℕ) (v : Word) (h_s : Keeps k0 s) :
    Keeps k0 (State.writeFrondReg s f x v) := by
  unfold State.writeFrondReg
  repeat' (first | with_reducible assumption | with_reducible intro _ | with_reducible apply State.writeMapout_keeps | with_reducible apply State.writeResbase_keeps | with_reducible apply State.writeSpRepair_keeps | with_reducible apply State.writePinCtrl_keeps | with_reducible apply State.writeFields_keeps | with_reducible apply Keeps.ite | with_reducible apply Keeps.foldl | with_reducible apply Keeps.foldlP | split | dsimp only | simp only [Keeps.upd])

theorem State.writeMatRepair_keeps {k0 : State} {s : State} (b : ℕ) (sp : ℕ) (v : Word) (h_s : Keeps k0 s) :
    Keeps k0 (State.writeMatRepair s b sp v) := by
  unfold State.writeMatRepair
  repeat' (first | with_reducible assumption | with_reducible intro _ | with_reducible apply State.writeFields_keeps | with_reducible apply Keeps.ite | with_reducible apply Keeps.foldl | with_reducible apply Keeps.foldlP | split | dsimp only | simp only [Keeps.upd])

theorem State.writeIncInt_keeps {k0 : State} {s : State} (v : Word) (h_s : Keeps k0 s) :
    Keeps k0 (State.writeIncInt s v) := by
  unfold State.writeIncInt
  repeat' (first | with_reducible assumption | with_reducible intro _ | with_reducible apply State.writeFields_keeps | with_reducible apply Keeps.ite | with_reducible apply Keeps.foldl | with_reducible apply Keeps.foldlP | split | dsimp only | simp only [Keeps.upd])

theorem State.writeAck_keeps {k0 : State} {s : State} (v : Word) (h_s : Keeps k0 s) :
    Keeps k0 (State.writeAck s v) := by
  unfold State.writeAck
  repeat' (first | with_reducible assumption | with_reducible intro _ | with_reducible apply Keeps.ite | with_reducible apply Keeps.foldl | with_reducible apply Keeps.foldlP | split | dsimp only | simp only [Keeps.upd])

theorem State.writeThermCfg_keeps {k0 : State} {s : State} (v : Word) (h_s : Keeps k0 s) :
    Keeps k0 (State.writeThermCfg s v) := by
  unfold State.writeThermCfg
  repeat' (first | with_reducible assumption | with_reducible intro _ | with_reducible apply State.setReg_keeps | with_reducible apply Keeps.ite | with_reducible apply Keeps.foldl | with_reducible apply Keeps.foldlP | split | dsimp only | simp only [Keeps.upd])

theorem State.writeTrigCtrl_keeps {k0 : State} {s : State} (n : ℕ) (v : Word) (h_s : Keeps k0 s) :
    Keeps k0 (State.writeTrigCtrl s n v) := by
  unfold State.writeTrigCtrl
  repeat' (first | with_reducible assumption | with_reducible intro _ | with_reducible apply State.writeFields_keeps | with_reducible apply State.setReg_keeps | with_reducible apply Keeps.ite | with_reducible apply Keeps.foldl | with_reducible apply Keeps.foldlP | split | dsimp only | simp only [Keeps.upd])

theorem State.force_keeps {k0 : State} {s : State} (src : ℕ) (h_s : Keeps k0 s) :
    Keeps k0 (State.force s src) := by
  unfold State.force
  repeat' (first | with_reducible assumption | with_reducible intro _ | with_reducible apply State.raise_keeps | with_reducible apply State.l2_keeps | with_reducible apply Keeps.ite | with_reducible apply Keeps.foldl | with_reducible apply Keeps.foldlP | split | dsimp only | simp only [Keeps.upd])

theorem State.forceHold_keeps {k0 : State} {s : State} (src : ℕ) (h_s : Keeps k0 s) :
    Keeps k0 (State.forceHold s src) := by
  unfold State.forceHold
  repeat' (first | with_reducible assumption | with_reducible intro _ | with_reducible apply State.setFcolBit_keeps | with_reducible apply State.force_keeps | with_reducible apply Keeps.ite | with_reducible apply Keeps.foldl | with_reducible apply Keeps.foldlP | split | dsimp only | simp only [Keeps.upd])

theorem State.forceRelease_keeps {k0 : State} {s : State} (src : ℕ) (h_s : Keeps k0 s) :
    Keeps k0 (State.forceRelease s src) := by
  unfold State.forceRelease
  repeat' (first | with_reducible assumption | with_reducible intro _ | with_reducible apply State.setFcolBit_keeps | with_reducible apply Keeps.ite | with_reducible apply Keeps.foldl | with_reducible apply Keeps.foldlP | split | dsimp only | simp only [Keeps.upd])

theorem State.writeForceHold_keeps {k0 : State} {s : State} (i : ℕ) (v : Word) (h_s : Keeps k0 s) :
    Keeps k0 (State.writeForceHold s i v) := by
  unfold State.writeForceHold
  repeat' (first | with_reducible assumption | with_reducible intro _ | with_reducible apply State.forceHold_keeps | with_reducible apply State.forceRelease_keeps | with_reducible apply Keeps.ite | with_reducible apply Keeps.foldl | with_reducible apply Keeps.foldlP | split | dsimp only | simp only [Keeps.upd])

theorem State.forcePulse_keeps {k0 : State} {s : State} (src : ℕ) (h_s : Keeps k0 s) :
    Keeps k0 (State.forcePulse s src) := by
  unfold State.forcePulse
  repeat' (first | with_reducible assumption | with_reducible intro _ | with_reducible apply State.force_keeps | with_reducible apply Keeps.ite | with_reducible apply Keeps.foldl | with_reducible apply Keeps.foldlP | split | dsimp only | simp only [Keeps.upd])

theorem State.writeForcePulse_keeps {k0 : State} {s : State} (i : ℕ) (v : Word) (h_s : Keeps k0 s) :
    Keeps k0 (State.writeForcePulse s i v) := by
  unfold State.writeForcePulse
  repeat' (first | with_reducible assumption | with_reducible intro _ | with_reducible apply State.forcePulse_keeps | with_reducible apply Keeps.ite | with_reducible apply Keeps.foldl | with_reducible apply Keeps.foldlP | split | dsimp only | simp only [Keeps.upd])

theorem State.writeReg_keeps {k0 : State} {s : State} (o : ℕ) (v : Word) (h_s : Keeps k0 s) :
    Keeps k0 (State.writeReg s o v) := by
  unfold State.writeReg
  repeat' (first | with_reducible assumption | with_reducible intro _ | with_reducible apply State.writeFrondReg_keeps | with_reducible apply State.writeMatRepair_keeps | with_reducible apply State.setReg_keeps | with_reducible apply State.writeIncInt_keeps | with_reducible apply State.writeAck_keeps | with_reducible apply State.writeThermCfg_keeps | with_reducible apply State.writeTrigCtrl_keeps | with_reducible apply State.writeForceHold_keeps | with_reducible apply State.writeForcePulse_keeps | with_reducible apply State.writeFields_keeps | with_reducible apply Keeps.ite | with_reducible apply Keeps.foldl | with_reducible apply Keeps.foldlP | split | dsimp only | simp only [Keeps.upd])

theorem State.writeAny_keeps {k0 : State} {s : State} (caller : Option (Fin 4)) (o : ℕ) (v : Word) (h_s : Keeps k0 s) :
    Keeps k0 (State.writeAny s caller o v) := by
  unfold State.writeAny
  repeat' (first | with_reducible assumption | with_reducible intro _ | with_reducible apply State.writeVia_keeps | with_reducible apply State.writeReg_keeps | with_reducible apply Keeps.ite | with_reducible apply Keeps.foldl | with_reducible apply Keeps.foldlP | split | dsimp only | simp only [Keeps.upd])

theorem State.accWrite_keeps {k0 : State} {s : State} (a : ℕ) (v : Word) (h_s : Keeps k0 s) :
    Keeps k0 (State.accWrite s a v) := by
  unfold State.accWrite
  repeat' (first | with_reducible assumption | with_reducible intro _ | with_reducible apply State.writeAny_keeps | with_reducible apply State.storeChecked_keeps | with_reducible apply Keeps.ite | with_reducible apply Keeps.foldl | with_reducible apply Keeps.foldlP | split | dsimp only | simp only [Keeps.upd])

theorem State.doDbg_keeps {k0 : State} {s : State} (op : DbgOp) (h_s : Keeps k0 s) :
    Keeps k0 (State.doDbg s op) := by
  unfold State.doDbg
  repeat' (first | with_reducible assumption | with_reducible intro _ | with_reducible apply State.replayPut_keeps | with_reducible apply State.debugEntry_keeps | with_reducible apply State.accWrite_keeps | with_reducible apply Keeps.ite | with_reducible apply Keeps.foldl | with_reducible apply Keeps.foldlP | split | dsimp only | simp only [Keeps.upd])

theorem State.dbgIssue_keeps {k0 : State} {s : State} (op : DbgOp) (st : TapSt) (h_s : Keeps k0 s) :
    Keeps k0 (State.dbgIssue s op st) := by
  unfold State.dbgIssue
  repeat' (first | with_reducible assumption | with_reducible intro _ | with_reducible apply State.accAnswer_keeps | with_reducible apply State.doDbg_keeps | with_reducible apply Keeps.ite | with_reducible apply Keeps.foldl | with_reducible apply Keeps.foldlP | split | dsimp only | simp only [Keeps.upd])

theorem State.control_keeps {k0 : State} {s : State} (t : BitVec 4) (op : DbgOp) (h_s : Keeps k0 s) :
    Keeps k0 (State.control s t op) := by
  unfold State.control
  repeat' (first | with_reducible assumption | with_reducible intro _ | with_reducible apply State.tapIr_keeps | with_reducible apply State.dbgIssue_keeps | with_reducible apply Keeps.ite | with_reducible apply Keeps.foldl | with_reducible apply Keeps.foldlP | split | dsimp only | simp only [Keeps.upd])

theorem State.runVec_keeps {k0 : State} {s : State} (f : Fin 4) (q : ℕ) (vop : ℕ) (out : Reader → VecF → VecD → VecOut) (h_s : Keeps k0 s) :
    Keeps k0 (State.runVec s f q vop out) := by
  unfold State.runVec
  repeat' (first | with_reducible assumption | with_reducible intro _ | with_reducible apply State.finishVec_keeps | with_reducible apply Keeps.ite | with_reducible apply Keeps.foldl | with_reducible apply Keeps.foldlP | split | dsimp only | simp only [Keeps.upd])

theorem State.runVecFree_keeps {k0 s : State} (f : Fin 4) (q vop : Nat) (out : Word → Reader → VecF → VecD → VecOut)
    (h : Keeps k0 s) : Keeps k0 (s.runVecFree f q vop out) := by
  have h1 := State.fresh_keeps h
  unfold State.runVecFree
  simp only [State.fresh] at *
  split
  · exact State.runVec_keeps _ _ _ _ h1
  · exact h

theorem State.doStream_keeps {k0 : State} {s : State} (f : Fin 4) (q : ℕ) (cls : ℕ) (w : IWord) (h_s : Keeps k0 s) :
    Keeps k0 (State.doStream s f q cls w) := by
  unfold State.doStream
  repeat' (first | with_reducible assumption | with_reducible intro _ | with_reducible apply State.issueIns_keeps | with_reducible apply State.modFrond_keeps | with_reducible apply State.finishIns_keeps | with_reducible apply State.reportFetch_keeps | with_reducible apply State.raise_keeps | with_reducible apply State.l1On_keeps | with_reducible apply Keeps.ite | with_reducible apply Keeps.foldl | with_reducible apply Keeps.foldlP | split | dsimp only | simp only [Keeps.upd])

theorem State.tryStream_keeps {k0 : State} {s : State} (f : Fin 4) (q : ℕ) (cls : ℕ) (h_s : Keeps k0 s) :
    Keeps k0 (State.tryStream s f q cls) := by
  unfold State.tryStream
  repeat' (first | with_reducible assumption | with_reducible intro _ | with_reducible apply State.progFault_keeps | with_reducible apply State.doStream_keeps | with_reducible apply Keeps.ite | with_reducible apply Keeps.foldl | with_reducible apply Keeps.foldlP | split | dsimp only | simp only [Keeps.upd])

theorem State.noticeTo_keeps {k0 : State} {s : State} (r : Option (Fin 4)) (opc : ℕ) (st : St) (pl : List Byte) (h_s : Keeps k0 s) :
    Keeps k0 (State.noticeTo s r opc st pl) := by
  unfold State.noticeTo
  repeat' (first | with_reducible assumption | with_reducible intro _ | with_reducible apply State.notice_keeps | with_reducible apply Keeps.ite | with_reducible apply Keeps.foldl | with_reducible apply Keeps.foldlP | split | dsimp only | simp only [Keeps.upd])

theorem State.latent_keeps {k0 : State} {s : State} (f : Fin 4) (unit : ℕ) (n : ℕ) (h_s : Keeps k0 s) :
    Keeps k0 (State.latent s f unit n) := by
  unfold State.latent
  repeat' (first | with_reducible assumption | with_reducible intro _ | with_reducible apply State.noticeTo_keeps | with_reducible apply Keeps.ite | with_reducible apply Keeps.foldl | with_reducible apply Keeps.foldlP | split | dsimp only | simp only [Keeps.upd])

theorem State.deliverTo_keeps {k0 : State} {s : State} (j : ℕ) (f : Fin 4) (tok : ℕ) (h_s : Keeps k0 s) :
    Keeps k0 (State.deliverTo s j f tok) := by
  unfold State.deliverTo
  repeat' (first | with_reducible assumption | with_reducible intro _ | with_reducible apply State.modFrond_keeps | with_reducible apply State.modJob_keeps | with_reducible apply Keeps.ite | with_reducible apply Keeps.foldl | with_reducible apply Keeps.foldlP | split | dsimp only | simp only [Keeps.upd])

theorem State.deliverTrick_keeps {k0 : State} {s : State} (g : Group) (t : Trick) (h_s : Keeps k0 s) :
    Keeps k0 (State.deliverTrick s g t) := by
  unfold State.deliverTrick
  repeat' (first | with_reducible assumption | with_reducible intro _ | with_reducible apply State.deliverTo_keeps | with_reducible apply State.modJob_keeps | with_reducible apply State.modTrick_keeps | with_reducible apply Keeps.ite | with_reducible apply Keeps.foldl | with_reducible apply Keeps.foldlP | split | dsimp only | simp only [Keeps.upd])

theorem State.settle_keeps {k0 : State} {s : State} (key : Word) (e : ℕ) (inst : ℕ) (h_s : Keeps k0 s) :
    Keeps k0 (State.settle s key e inst) := by
  unfold State.settle
  repeat' (first | with_reducible assumption | with_reducible intro _ | with_reducible apply State.modTrick_keeps | with_reducible apply State.deliverTrick_keeps | with_reducible apply State.count_keeps | with_reducible apply State.forwardNext_keeps | with_reducible apply Keeps.ite | with_reducible apply Keeps.foldl | with_reducible apply Keeps.foldlP | split | dsimp only | simp only [Keeps.upd])

theorem State.l1Job_keeps {k0 : State} {s : State} (j : ℕ) (h_s : Keeps k0 s) :
    Keeps k0 (State.l1Job s j) := by
  unfold State.l1Job
  repeat' (first | with_reducible assumption | with_reducible intro _ | with_reducible apply State.l1On_keeps | with_reducible apply State.sweepRetired_keeps | with_reducible apply State.abortJob_keeps | with_reducible apply Keeps.ite | with_reducible apply Keeps.foldl | with_reducible apply Keeps.foldlP | split | dsimp only | simp only [Keeps.upd])

theorem State.voidEntry_keeps {k0 : State} {s : State} (j : ℕ) (entry : ℕ) (inst : ℕ) (h_s : Keeps k0 s) :
    Keeps k0 (State.voidEntry s j entry inst) := by
  unfold State.voidEntry
  repeat' (first | with_reducible assumption | with_reducible intro _ | with_reducible apply State.checkFail_keeps | with_reducible apply State.modJob_keeps | with_reducible apply Keeps.ite | with_reducible apply Keeps.foldl | with_reducible apply Keeps.foldlP | split | dsimp only | simp only [Keeps.upd])

theorem State.voidTrick_keeps {k0 : State} {s : State} (key : Word) (entry : ℕ) (inst : ℕ) (h_s : Keeps k0 s) :
    Keeps k0 (State.voidTrick s key entry inst) := by
  unfold State.voidTrick
  repeat' (first | with_reducible assumption | with_reducible intro _ | with_reducible apply State.modTrick_keeps | with_reducible apply State.forwardNext_keeps | with_reducible apply State.count_keeps | with_reducible apply State.l1Job_keeps | with_reducible apply State.voidEntry_keeps | with_reducible apply Keeps.ite | with_reducible apply Keeps.foldl | with_reducible apply Keeps.foldlP | split | dsimp only | simp only [Keeps.upd])

theorem State.modRing_keeps {k0 : State} {s : State} (p : Fin 4) (d : ℕ) (g : Ring → Ring) (h_s : Keeps k0 s) :
    Keeps k0 (State.modRing s p d g) := by
  unfold State.modRing
  repeat' (first | with_reducible assumption | with_reducible intro _ | with_reducible apply State.modPort_keeps | with_reducible apply State.held_keeps | with_reducible apply Keeps.ite | with_reducible apply Keeps.foldl | with_reducible apply Keeps.foldlP | split | dsimp only | simp only [Keeps.upd])

theorem State.rearm_keeps {k0 : State} {s : State} (p : Fin 4) (h_s : Keeps k0 s) :
    Keeps k0 (State.rearm s p) := by
  unfold State.rearm
  repeat' (first | with_reducible assumption | with_reducible intro _ | with_reducible apply State.modRing_keeps | with_reducible apply State.armSession_keeps | with_reducible apply Keeps.ite | with_reducible apply Keeps.foldl | with_reducible apply Keeps.foldlP | split | dsimp only | simp only [Keeps.upd])

theorem State.beforeCmd_keeps {k0 : State} {s : State} (p : Fin 4) (t : Taken) (h_s : Keeps k0 s) :
    Keeps k0 (State.beforeCmd s p t) := by
  unfold State.beforeCmd
  repeat' (first | with_reducible assumption | with_reducible intro _ | with_reducible apply State.rearm_keeps | with_reducible apply Keeps.ite | with_reducible apply Keeps.foldl | with_reducible apply Keeps.foldlP | split | dsimp only | simp only [Keeps.upd])

theorem refuse_keeps {k0 : State} (st : St) {s : State} (h_s : Keeps k0 s) :
    Keeps k0 (refuse st s).s := by
  unfold refuse
  repeat' (first | with_reducible assumption | with_reducible intro _ | with_reducible apply Keeps.ite | with_reducible apply Keeps.foldl | with_reducible apply Keeps.foldlP | split | dsimp only | simp only [Keeps.upd])

theorem checks_keeps {k0 : State} (l : List (Bool × St)) {s : State} {act : Done} (h_s : Keeps k0 s) (h_act : Keeps k0 act.s) :
    Keeps k0 (checks l s act).s := by
  unfold checks
  repeat' (first | with_reducible assumption | with_reducible intro _ | with_reducible apply refuse_keeps | with_reducible apply Keeps.ite | with_reducible apply Keeps.foldl | with_reducible apply Keeps.foldlP | split | dsimp only | simp only [Keeps.upd])

theorem State.complete_keeps {k0 : State} {s : State} (p : Fin 4) (d : ℕ) (t : Taken) (st : St) (pl : List Byte) (h_s : Keeps k0 s) :
    Keeps k0 (State.complete s p d t st pl) := by
  unfold State.complete
  repeat' (first | with_reducible assumption | with_reducible intro _ | with_reducible apply State.modRing_keeps | with_reducible apply State.ringUse_keeps | with_reducible apply State.ringPutIn_keeps | with_reducible apply Keeps.ite | with_reducible apply Keeps.foldl | with_reducible apply Keeps.foldlP | split | dsimp only | simp only [Keeps.upd])

theorem State.runCmdThen_keeps {k0 : State} {s : State} (p : Fin 4) (d : ℕ) (opc : ℕ) (pick : List Byte → Bool) (obj : State → Taken → Bool) (auth : Auth) (body : State → Taken → Done) (post : Done → State → State) (h_s : Keeps k0 s) (h_body : ∀ u0 u1, Keeps k0 u0 → Keeps k0 (body u0 u1).s) (h_post : ∀ u0 u1, Keeps k0 u0.s → Keeps k0 u1 → Keeps k0 (post u0 u1)) :
    Keeps k0 (State.runCmdThen s p d opc pick obj auth body post) := by
  unfold State.runCmdThen
  repeat' (first | with_reducible assumption | with_reducible intro _ | with_reducible apply h_body | with_reducible apply h_post | with_reducible apply State.beforeCmd_keeps | with_reducible apply checks_keeps | with_reducible apply State.complete_keeps | with_reducible apply Keeps.ite | with_reducible apply Keeps.foldl | with_reducible apply Keeps.foldlP | split | dsimp only | simp only [Keeps.upd])

theorem State.runCmd_keeps {k0 : State} {s : State} (p : Fin 4) (d : ℕ) (opc : ℕ) (pick : List Byte → Bool) (obj : State → Taken → Bool) (auth : Auth) (body : State → Taken → Done) (h_s : Keeps k0 s) (h_body : ∀ u0 u1, Keeps k0 u0 → Keeps k0 (body u0 u1).s) :
    Keeps k0 (State.runCmd s p d opc pick obj auth body) := by
  unfold State.runCmd
  repeat' (first | with_reducible assumption | with_reducible intro _ | with_reducible apply h_body | with_reducible apply State.runCmdThen_keeps | with_reducible apply Keeps.ite | with_reducible apply Keeps.foldl | with_reducible apply Keeps.foldlP | split | dsimp only | simp only [Keeps.upd])

theorem State.selfReport_keeps {k0 s : State} (f : Fin 4) (h : Keeps k0 s) : Keeps k0 (s.selfReport f).2 := by
  unfold State.selfReport
  cases s.safety.lastRot.getD f.val none with
  | some t => exact h
  | none => exact State.fresh_keeps h

theorem State.selfCtrl_keeps {k0 : State} {s : State} (t : Taken) (act : State → Fin 4 → State) (h_s : Keeps k0 s) (h_act : ∀ u0 u1, Keeps k0 u0 → Keeps k0 (act u0 u1)) :
    Keeps k0 (State.selfCtrl s t act).s := by
  unfold State.selfCtrl
  repeat' (first | with_reducible assumption | with_reducible intro _ | with_reducible apply h_act | with_reducible apply checks_keeps | with_reducible apply State.selfReport_keeps | with_reducible apply Keeps.ite | with_reducible apply Keeps.foldl | with_reducible apply Keeps.foldlP | split | dsimp only | simp only [Keeps.upd])

theorem State.placeRow_keeps {k0 : State} {s : State} (f : Fin 4) (r : LoadRun) (h_s : Keeps k0 s) :
    Keeps k0 (State.placeRow s f r).1 := by
  unfold State.placeRow
  repeat' (first | with_reducible assumption | with_reducible intro _ | with_reducible apply State.reportFetch_keeps | with_reducible apply State.setNonfinite_keeps | with_reducible apply State.modFrond_keeps | with_reducible apply Keeps.ite | with_reducible apply Keeps.foldl | with_reducible apply Keeps.foldlP | split | dsimp only | simp only [Keeps.upd])

theorem State.loadRow_keeps {k0 : State} {s : State} (f : Fin 4) (i : ℕ) (h_s : Keeps k0 s) :
    Keeps k0 (State.loadRow s f i).1 := by
  unfold State.loadRow
  repeat' (first | with_reducible assumption | with_reducible intro _ | with_reducible apply State.placeRow_keeps | with_reducible apply Keeps.ite | with_reducible apply Keeps.foldl | with_reducible apply Keeps.foldlP | split | dsimp only | simp only [Keeps.upd])

theorem State.loadRows_keeps {k0 : State} {s : State} (f : Fin 4) (i : ℕ) (n : ℕ) (h_s : Keeps k0 s) :
    Keeps k0 (State.loadRows s f i n).1 := by
  unfold State.loadRows
  repeat' (first | with_reducible assumption | with_reducible intro _ | with_reducible apply State.loadRow_keeps | with_reducible apply Keeps.ite | with_reducible apply Keeps.foldl | with_reducible apply Keeps.foldlP | split | dsimp only | simp only [Keeps.upd])

theorem State.markReady_keeps {k0 : State} {s : State} (f : Fin 4) (r : LoadRun) (h_s : Keeps k0 s) :
    Keeps k0 (State.markReady s f r) := by
  unfold State.markReady
  repeat' (first | with_reducible assumption | with_reducible intro _ | with_reducible apply State.finishIns_keeps | with_reducible apply State.modFrond_keeps | with_reducible apply Keeps.ite | with_reducible apply Keeps.foldl | with_reducible apply Keeps.foldlP | split | dsimp only | simp only [Keeps.upd])

theorem State.tookPkt_keeps {k0 : State} {s : State} (l : Fin 3) (v : ℕ) (rest : List Byte) (h_s : Keeps k0 s) :
    Keeps k0 (State.tookPkt s l v rest) := by
  unfold State.tookPkt
  repeat' (first | with_reducible assumption | with_reducible intro _ | with_reducible apply State.modLink_keeps | with_reducible apply Keeps.ite | with_reducible apply Keeps.foldl | with_reducible apply Keeps.foldlP | split | dsimp only | simp only [Keeps.upd])

theorem State.openTrick_keeps {k0 : State} {s : State} (g : Group) (e : ℕ) (inst : ℕ) (h_s : Keeps k0 s) :
    Keeps k0 (State.openTrick s g e inst) := by
  unfold State.openTrick
  repeat' (first | with_reducible assumption | with_reducible intro _ | with_reducible apply Keeps.ite | with_reducible apply Keeps.foldl | with_reducible apply Keeps.foldlP | split | dsimp only | simp only [Keeps.upd])

theorem State.pktTrick_keeps {k0 s : State} (key e inst src : Nat) (h : Keeps k0 s) :
    ∀ a, s.pktTrick key e inst src = some a → Keeps k0 a.2 := by
  intro a g
  unfold State.pktTrick at g
  split at g
  · cases g
  · split at g
    · dsimp only at g
      split at g
      · split at g
        · cases g
        · cases g; exact State.openTrick_keeps _ _ _ h
      · cases g
    · cases g

theorem State.sampleRun_keeps {k0 : State} {s : State} (f : Fin 4) (q : ℕ) (w : IWord) (o : SmpOut) (h_s : Keeps k0 s) :
    Keeps k0 (State.sampleRun s f q w o).1 := by
  unfold State.sampleRun
  repeat' (first | with_reducible assumption | with_reducible intro _ | with_reducible apply State.reportFetch_keeps | with_reducible apply State.issueIns_keeps | with_reducible apply State.setNonfinite_keeps | with_reducible apply State.count_keeps | with_reducible apply State.spStoreAll_keeps | with_reducible apply State.finishIns_keeps | with_reducible apply Keeps.ite | with_reducible apply Keeps.foldl | with_reducible apply Keeps.foldlP | split | dsimp only | simp only [Keeps.upd])

theorem State.finishSample_keeps {k0 : State} {s : State} (f : Fin 4) (q : ℕ) (w : IWord) (o : SmpOut) (h_s : Keeps k0 s) :
    Keeps k0 (State.finishSample s f q w o) := by
  unfold State.finishSample
  repeat' (first | with_reducible assumption | with_reducible intro _ | with_reducible apply State.orFault_keeps | with_reducible apply State.sampleRun_keeps | with_reducible apply Keeps.ite | with_reducible apply Keeps.foldl | with_reducible apply Keeps.foldlP | split | dsimp only | simp only [Keeps.upd])

theorem State.runSample_keeps {k0 : State} {s : State} (f : Fin 4) (q : ℕ) (mode : ℕ) (out : Reader → SampleD → SampleF → SmpOut) (h_s : Keeps k0 s) :
    Keeps k0 (State.runSample s f q mode out) := by
  unfold State.runSample
  repeat' (first | with_reducible assumption | with_reducible intro _ | with_reducible apply State.finishSample_keeps | with_reducible apply Keeps.ite | with_reducible apply Keeps.foldl | with_reducible apply Keeps.foldlP | split | dsimp only | simp only [Keeps.upd])

theorem State.resumeRounds_keeps {k0 : State} {s : State} (h_s : Keeps k0 s) :
    Keeps k0 (State.resumeRounds s) := by
  unfold State.resumeRounds
  repeat' (first | with_reducible assumption | with_reducible intro _ | with_reducible apply Keeps.ite | with_reducible apply Keeps.foldl | with_reducible apply Keeps.foldlP | split | dsimp only | simp only [Keeps.upd])

theorem State.restoreMat_keeps {k0 : State} {s : State} (h_s : Keeps k0 s) :
    Keeps k0 (State.restoreMat s) := by
  unfold State.restoreMat
  repeat' (first | with_reducible assumption | with_reducible intro _ | with_reducible apply State.checkBlock_keeps | with_reducible apply State.reportMarks_keeps | with_reducible apply State.putBlock_keeps | with_reducible apply State.zeroMat_keeps | with_reducible apply Keeps.ite | with_reducible apply Keeps.foldl | with_reducible apply Keeps.foldlP | split | dsimp only | simp only [Keeps.upd])

theorem State.loadSfu_keeps {k0 : State} {s : State} (f : Fin 4) (h : ℕ) (h_s : Keeps k0 s) :
    Keeps k0 (State.loadSfu s f h) := by
  unfold State.loadSfu
  repeat' (first | with_reducible assumption | with_reducible intro _ | with_reducible apply State.modFrond_keeps | with_reducible apply Keeps.ite | with_reducible apply Keeps.foldl | with_reducible apply Keeps.foldlP | split | dsimp only | simp only [Keeps.upd])

theorem State.reloadSfu_keeps {k0 : State} {s : State} (f : Fin 4) (h_s : Keeps k0 s) :
    Keeps k0 (State.reloadSfu s f) := by
  unfold State.reloadSfu
  repeat' (first | with_reducible assumption | with_reducible intro _ | with_reducible apply State.loadSfu_keeps | with_reducible apply Keeps.ite | with_reducible apply Keeps.foldl | with_reducible apply Keeps.foldlP | split | dsimp only | simp only [Keeps.upd])

theorem State.setResbase_keeps {k0 : State} {s : State} (f : Fin 4) (h_s : Keeps k0 s) :
    Keeps k0 (State.setResbase s f) := by
  unfold State.setResbase
  repeat' (first | with_reducible assumption | with_reducible intro _ | with_reducible apply State.setReg_keeps | with_reducible apply Keeps.ite | with_reducible apply Keeps.foldl | with_reducible apply Keeps.foldlP | split | dsimp only | simp only [Keeps.upd])

theorem State.wakeWhole_keeps {k0 : State} {s : State} (f : Fin 4) (h_s : Keeps k0 s) :
    Keeps k0 (State.wakeWhole s f) := by
  unfold State.wakeWhole
  repeat' (first | with_reducible assumption | with_reducible intro _ | with_reducible apply State.reloadSfu_keeps | with_reducible apply State.restoreAll_keeps | with_reducible apply State.setResbase_keeps | with_reducible apply State.zeroSp_keeps | with_reducible apply State.loadMapout_keeps | with_reducible apply State.loadSpRepair_keeps | with_reducible apply Keeps.ite | with_reducible apply Keeps.foldl | with_reducible apply Keeps.foldlP | split | dsimp only | simp only [Keeps.upd])

theorem State.wakeS1_keeps {k0 : State} {s : State} (h_s : Keeps k0 s) :
    Keeps k0 (State.wakeS1 s) := by
  unfold State.wakeS1
  repeat' (first | with_reducible assumption | with_reducible intro _ | with_reducible apply State.resumeRounds_keeps | with_reducible apply State.restoreMat_keeps | with_reducible apply State.loadMatRepair_keeps | with_reducible apply State.clearRegs_keeps | with_reducible apply State.wakeWhole_keeps | with_reducible apply State.modFrond_keeps | with_reducible apply State.setDev_keeps | with_reducible apply State.applyOps_keeps | with_reducible apply Keeps.ite | with_reducible apply Keeps.foldl | with_reducible apply Keeps.foldlP | split | dsimp only | simp only [Keeps.upd])

theorem State.i2cWakeUp_keeps {k0 : State} {s : State} (h_s : Keeps k0 s) :
    Keeps k0 (State.i2cWakeUp s) := by
  unfold State.i2cWakeUp
  repeat' (first | with_reducible assumption | with_reducible intro _ | with_reducible apply State.wakeS1_keeps | with_reducible apply Keeps.ite | with_reducible apply Keeps.foldl | with_reducible apply Keeps.foldlP | split | dsimp only | simp only [Keeps.upd])

theorem State.absent_keeps {k0 : State} {s : State} (c : ℕ) (cause : ℕ) (h_s : Keeps k0 s) :
    Keeps k0 (State.absent s c cause) := by
  unfold State.absent
  repeat' (first | with_reducible assumption | with_reducible intro _ | with_reducible apply State.streamState_keeps | with_reducible apply State.modStream_keeps | with_reducible apply State.dropRun_keeps | with_reducible apply Keeps.ite | with_reducible apply Keeps.foldl | with_reducible apply Keeps.foldlP | split | dsimp only | simp only [Keeps.upd])

theorem State.stageBlock_keeps {k0 : State} {s : State} (w : Who) (f : Fin 4) (d : SorusD) (src : ℕ) (n : ℕ) (h_s : Keeps k0 s) :
    Keeps k0 (State.stageBlock s w f d src n) := by
  unfold State.stageBlock
  repeat' (first | with_reducible assumption | with_reducible intro _ | with_reducible apply State.reportMarks_keeps | with_reducible apply State.count_keeps | with_reducible apply State.checkBlock_keeps | with_reducible apply State.putBlock_keeps | with_reducible apply Keeps.ite | with_reducible apply Keeps.foldl | with_reducible apply Keeps.foldlP | split | dsimp only | simp only [Keeps.upd])

theorem State.stagePage_keeps {k0 : State} {s : State} (w : Who) (f : Fin 4) (d : SorusD) (h : StepHdr) (kind : ℕ) (p : ℕ) (n : ℕ) (h_s : Keeps k0 s) :
    Keeps k0 (State.stagePage s w f d h kind p n) := by
  unfold State.stagePage
  repeat' (first | with_reducible assumption | with_reducible intro _ | with_reducible apply State.stageBlock_keeps | with_reducible apply State.checkFail_keeps | with_reducible apply State.count_keeps | with_reducible apply Keeps.ite | with_reducible apply Keeps.foldl | with_reducible apply Keeps.foldlP | split | dsimp only | simp only [Keeps.upd])

theorem State.stagePages_keeps {k0 : State} {s : State} (w : Who) (f : Fin 4) (d : SorusD) (h : StepHdr) (kind : ℕ) (ps : List ℕ) (h_s : Keeps k0 s) :
    Keeps k0 (State.stagePages s w f d h kind ps) := by
  unfold State.stagePages
  repeat' (first | with_reducible assumption | with_reducible intro _ | with_reducible apply State.stagePage_keeps | with_reducible apply Keeps.ite | with_reducible apply Keeps.foldl | with_reducible apply Keeps.foldlP | split | dsimp only | simp only [Keeps.upd])

theorem State.sorusFetch_keeps {k0 : State} {s : State} (w : Who) (f : Fin 4) (t : SorusF) (d : SorusD) (kind : ℕ) (cols : ℕ) (pages : List ℕ) (rows : List ℕ) (h_s : Keeps k0 s) :
    Keeps k0 (State.sorusFetch s w f t d kind cols pages rows) := by
  unfold State.sorusFetch
  repeat' (first | with_reducible assumption | with_reducible intro _ | with_reducible apply State.stagePages_keeps | with_reducible apply State.reportFetch_keeps | with_reducible apply Keeps.ite | with_reducible apply Keeps.foldl | with_reducible apply Keeps.foldlP | split | dsimp only | simp only [Keeps.upd])

theorem State.reportRead_keeps {k0 : State} {s : State} (w : Who) (a : ℕ) (n : ℕ) (h_s : Keeps k0 s) :
    Keeps k0 (State.reportRead s w a n) := by
  unfold State.reportRead
  repeat' (first | with_reducible assumption | with_reducible intro _ | with_reducible apply State.reportMarks_keeps | with_reducible apply State.checkBlock_keeps | with_reducible apply Keeps.ite | with_reducible apply Keeps.foldl | with_reducible apply Keeps.foldlP | split | dsimp only | simp only [Keeps.upd])

theorem State.checkStep_keeps {k0 : State} {s : State} (w : Who) (f : Fin 4) (d : SorusD) (append : Bool) (h_s : Keeps k0 s) :
    Keeps k0 (State.checkStep s w f d append) := by
  unfold State.checkStep
  repeat' (first | with_reducible assumption | with_reducible intro _ | with_reducible apply State.checkFail_keeps | with_reducible apply State.reportRead_keeps | with_reducible apply Keeps.ite | with_reducible apply Keeps.foldl | with_reducible apply Keeps.foldlP | split | dsimp only | simp only [Keeps.upd])

theorem State.drainCheck_keeps {k0 : State} {s : State} (f : Fin 4) (e : ℕ) (r : DrainRow) (h_s : Keeps k0 s) :
    Keeps k0 (State.drainCheck s f e r) := by
  unfold State.drainCheck
  repeat' (first | with_reducible assumption | with_reducible intro _ | with_reducible apply State.checkFailAt_keeps | with_reducible apply State.checkFail_keeps | with_reducible apply State.count_keeps | with_reducible apply Keeps.ite | with_reducible apply Keeps.foldl | with_reducible apply Keeps.foldlP | split | dsimp only | simp only [Keeps.upd])

theorem State.sorusCheck_keeps {k0 : State} {s : State} (f : Fin 4) (e : ℕ) (r : SorRow) (h_s : Keeps k0 s) :
    Keeps k0 (State.sorusCheck s f e r) := by
  unfold State.sorusCheck
  repeat' (first | with_reducible assumption | with_reducible intro _ | with_reducible apply State.drainCheck_keeps | with_reducible apply Keeps.ite | with_reducible apply Keeps.foldl | with_reducible apply Keeps.foldlP | split | dsimp only | simp only [Keeps.upd])

theorem State.sorusSets_keeps {k0 : State} {s : State} (f : Fin 4) (l : List WeightSet) (h_s : Keeps k0 s) :
    Keeps k0 (State.sorusSets s f l) := by
  unfold State.sorusSets
  repeat' (first | with_reducible assumption | with_reducible intro _ | with_reducible apply State.modFrond_keeps | with_reducible apply Keeps.ite | with_reducible apply Keeps.foldl | with_reducible apply Keeps.foldlP | split | dsimp only | simp only [Keeps.upd])

theorem State.sorStatus_keeps {k0 : State} {s : State} (f : Fin 4) (sop : ℕ) (slot : ℕ) (hg : ℕ) (h_s : Keeps k0 s) :
    Keeps k0 (State.sorStatus s f sop slot hg) := by
  unfold State.sorStatus
  repeat' (first | with_reducible assumption | with_reducible intro _ | with_reducible apply State.setReg_keeps | with_reducible apply Keeps.ite | with_reducible apply Keeps.foldl | with_reducible apply Keeps.foldlP | split | dsimp only | simp only [Keeps.upd])

theorem State.sorusQk_keeps {k0 : State} {s : State} (f : Fin 4) (q : ℕ) (w : IWord) (h_s : Keeps k0 s) :
    Keeps k0 (State.sorusQk s f q w).1 := by
  unfold State.sorusQk
  repeat' (first | with_reducible assumption | with_reducible intro _ | with_reducible apply State.sorusFetch_keeps | with_reducible apply State.checkStep_keeps | with_reducible apply State.issueIns_keeps | with_reducible apply State.sorusCheck_keeps | with_reducible apply State.setNonfinite_keeps | with_reducible apply State.sorusSets_keeps | with_reducible apply State.modFrond_keeps | with_reducible apply State.spStoreAll_keeps | with_reducible apply State.count_keeps | with_reducible apply State.sorStatus_keeps | with_reducible apply State.finishIns_keeps | with_reducible apply Keeps.ite | with_reducible apply Keeps.foldl | with_reducible apply Keeps.foldlP | split | dsimp only | simp only [Keeps.upd])

theorem State.doSorusQk_keeps {k0 : State} {s : State} (f : Fin 4) (q : ℕ) (w : IWord) (h_s : Keeps k0 s) :
    Keeps k0 (State.doSorusQk s f q w) := by
  unfold State.doSorusQk
  repeat' (first | with_reducible assumption | with_reducible intro _ | with_reducible apply State.orFault_keeps | with_reducible apply State.sorusQk_keeps | with_reducible apply Keeps.ite | with_reducible apply Keeps.foldl | with_reducible apply Keeps.foldlP | split | dsimp only | simp only [Keeps.upd])

theorem State.breakRound_keeps {k0 : State} {s : State} (cause : ℕ) (h_s : Keeps k0 s) :
    Keeps k0 (State.breakRound s cause) := by
  unfold State.breakRound
  repeat' (first | with_reducible assumption | with_reducible intro _ | with_reducible apply State.count_keeps | with_reducible apply State.setReg_keeps | with_reducible apply Keeps.ite | with_reducible apply Keeps.foldl | with_reducible apply Keeps.foldlP | split | dsimp only | simp only [Keeps.upd])

theorem State.lowerLimit_keeps {k0 : State} {s : State} (n : ℕ) (h_s : Keeps k0 s) :
    Keeps k0 (State.lowerLimit s n) := by
  unfold State.lowerLimit
  repeat' (first | with_reducible assumption | with_reducible intro _ | with_reducible apply State.count_keeps | with_reducible apply State.breakRound_keeps | with_reducible apply Keeps.ite | with_reducible apply Keeps.foldl | with_reducible apply Keeps.foldlP | split | dsimp only | simp only [Keeps.upd])

theorem State.i2cPut_keeps {k0 : State} {s : State} (a : ℕ) (b : Byte) (h_s : Keeps k0 s) :
    Keeps k0 (State.i2cPut s a b) := by
  unfold State.i2cPut
  repeat' (first | with_reducible assumption | with_reducible intro _ | with_reducible apply State.i2cWakeUp_keeps | with_reducible apply Keeps.ite | with_reducible apply Keeps.foldl | with_reducible apply Keeps.foldlP | split | dsimp only | simp only [Keeps.upd])

theorem State.dmaIdx_keeps {k0 : State} {s : State} (f : Fin 4) (w : IWord) (h_s : Keeps k0 s) :
    Keeps k0 (State.dmaIdx s f w).2 := by
  unfold State.dmaIdx
  repeat' (first | with_reducible assumption | with_reducible intro _ | with_reducible apply State.reportMarks_keeps | with_reducible apply Keeps.ite | with_reducible apply Keeps.foldl | with_reducible apply Keeps.foldlP | split | dsimp only | simp only [Keeps.upd])

theorem State.runIns_keeps {k0 : State} {s : State} (f : Fin 4) (q : ℕ) (w : IWord) (h_s : Keeps k0 s) :
    Keeps k0 (State.runIns s f q w) := by
  unfold State.runIns
  repeat' (first | with_reducible assumption | with_reducible intro _ | with_reducible apply State.finishIns_keeps | with_reducible apply State.issueIns_keeps | with_reducible apply Keeps.ite | with_reducible apply Keeps.foldl | with_reducible apply Keeps.foldlP | split | dsimp only | simp only [Keeps.upd])

theorem State.startDma_keeps {k0 : State} {s : State} (f : Fin 4) (q : ℕ) (w : IWord) (ch : ℕ) (twin : Bool) (reads : List (ℕ × ℕ)) (ps : List Piece) (h_s : Keeps k0 s) :
    Keeps k0 (State.startDma s f q w ch twin reads ps) := by
  unfold State.startDma
  repeat' (first | with_reducible assumption | with_reducible intro _ | with_reducible apply State.reportRead_keeps | with_reducible apply State.issueIns_keeps | with_reducible apply State.modFrond_keeps | with_reducible apply State.finishIns_keeps | with_reducible apply Keeps.ite | with_reducible apply Keeps.foldl | with_reducible apply Keeps.foldlP | split | dsimp only | simp only [Keeps.upd])

theorem State.dmaArg_keeps {k0 : State} {s : State} (f : Fin 4) (q : ℕ) (h_s : Keeps k0 s) :
    Keeps k0 (State.dmaArg s f q) := by
  unfold State.dmaArg
  repeat' (first | with_reducible assumption | with_reducible intro _ | with_reducible apply State.l1On_keeps | with_reducible apply State.raise_keeps | with_reducible apply Keeps.ite | with_reducible apply Keeps.foldl | with_reducible apply Keeps.foldlP | split | dsimp only | simp only [Keeps.upd])

theorem State.dmaTrans_keeps {k0 : State} {s : State} (f : Fin 4) (q : ℕ) (w : IWord) (k : KernelRun) (ch : ℕ) (soff : ℕ) (doff : ℕ) (h_s : Keeps k0 s) :
    Keeps k0 (State.dmaTrans s f q w k ch soff doff) := by
  unfold State.dmaTrans
  repeat' (first | with_reducible assumption | with_reducible intro _ | with_reducible apply State.startDma_keeps | with_reducible apply State.dmaArg_keeps | with_reducible apply Keeps.ite | with_reducible apply Keeps.foldl | with_reducible apply Keeps.foldlP | split | dsimp only | simp only [Keeps.upd])

theorem State.dmaSlots_keeps {k0 : State} {s : State} (f : Fin 4) (q : ℕ) (w : IWord) (k : KernelRun) (ch : ℕ) (soff : ℕ) (doff : ℕ) (h_s : Keeps k0 s) :
    Keeps k0 (State.dmaSlots s f q w k ch soff doff) := by
  unfold State.dmaSlots
  repeat' (first | with_reducible assumption | with_reducible intro _ | with_reducible apply State.checkFail_keeps | with_reducible apply State.startDma_keeps | with_reducible apply State.dmaArg_keeps | with_reducible apply Keeps.ite | with_reducible apply Keeps.foldl | with_reducible apply Keeps.foldlP | split | dsimp only | simp only [Keeps.upd])

theorem State.dmaMove_keeps {k0 : State} {s : State} (f : Fin 4) (q : ℕ) (w : IWord) (k : KernelRun) (ch : ℕ) (soff : ℕ) (doff : ℕ) (h_s : Keeps k0 s) :
    Keeps k0 (State.dmaMove s f q w k ch soff doff) := by
  unfold State.dmaMove
  repeat' (first | with_reducible assumption | with_reducible intro _ | with_reducible apply State.startDma_keeps | with_reducible apply State.dmaArg_keeps | with_reducible apply Keeps.ite | with_reducible apply Keeps.foldl | with_reducible apply Keeps.foldlP | split | dsimp only | simp only [Keeps.upd])

theorem State.dmaXfer_keeps {k0 : State} {s : State} (f : Fin 4) (q : ℕ) (w : IWord) (k : KernelRun) (ch : ℕ) (soff : ℕ) (doff : ℕ) (h_s : Keeps k0 s) :
    Keeps k0 (State.dmaXfer s f q w k ch soff doff) := by
  unfold State.dmaXfer
  repeat' (first | with_reducible assumption | with_reducible intro _ | with_reducible apply State.dmaTrans_keeps | with_reducible apply State.dmaSlots_keeps | with_reducible apply State.dmaMove_keeps | with_reducible apply Keeps.ite | with_reducible apply Keeps.foldl | with_reducible apply Keeps.foldlP | split | dsimp only | simp only [Keeps.upd])

theorem State.loadStep_keeps {k0 : State} {s : State} (f : Fin 4) (x : Job) (h_s : Keeps k0 s) :
    Keeps k0 (State.loadStep s f x) := by
  unfold State.loadStep
  repeat' (first | with_reducible assumption | with_reducible intro _ | with_reducible apply State.setReg_keeps | with_reducible apply Keeps.ite | with_reducible apply Keeps.foldl | with_reducible apply Keeps.foldlP | split | dsimp only | simp only [Keeps.upd])

theorem State.zeroTally_keeps {k0 : State} {s : State} (f : Fin 4) (h_s : Keeps k0 s) :
    Keeps k0 (State.zeroTally s f) := by
  unfold State.zeroTally
  repeat' (first | with_reducible assumption | with_reducible intro _ | with_reducible apply State.setReg_keeps | with_reducible apply Keeps.ite | with_reducible apply Keeps.foldl | with_reducible apply Keeps.foldlP | split | dsimp only | simp only [Keeps.upd])

theorem State.putKeys_keeps {k0 s : State} (k : Nat) (l : List Byte) (h : Keeps k0 s) : Keeps k0 (s.putKeys k l) := by
  induction l generalizing s k with
  | nil => exact h
  | cons b t ih =>
    refine ih _ (h.mem rfl rfl rfl fun w => ?_)
    simp only [Memory.wf, Bool.and_eq_true] at *
    exact ⟨⟨tcanon_tset _ _ _ _ w.1.1, w.1.2⟩, tcanon_tset _ _ _ _ w.2⟩

theorem State.repairSpRow_keeps {k0 : State} {s : State} (f : Fin 4) (b : ℕ) (sp : ℕ) (v : Word) (h_s : Keeps k0 s) :
    Keeps k0 (State.repairSpRow s f b sp v) := by
  unfold State.repairSpRow
  repeat' (first | with_reducible assumption | with_reducible intro _ | with_reducible apply State.writeSpRepair_keeps | with_reducible apply State.putKeys_keeps | with_reducible apply Keeps.ite | with_reducible apply Keeps.foldl | with_reducible apply Keeps.foldlP | split | dsimp only | simp only [Keeps.upd])

theorem State.loadFieldRepairs_keeps {k0 : State} {s : State} (f : Fin 4) (h_s : Keeps k0 s) :
    Keeps k0 (State.loadFieldRepairs s f) := by
  unfold State.loadFieldRepairs
  repeat' (first | with_reducible assumption | with_reducible intro _ | with_reducible apply State.dropSpares_keeps | with_reducible apply State.repairSpRow_keeps | with_reducible apply Keeps.ite | with_reducible apply Keeps.foldl | with_reducible apply Keeps.foldlP | split | dsimp only | simp only [Keeps.upd])

theorem State.applySignals_keeps {k0 : State} {s : State} (f : Fin 4) (j : ℕ) (x : Job) (h_s : Keeps k0 s) :
    Keeps k0 (State.applySignals s f j x) := by
  unfold State.applySignals
  repeat' (first | with_reducible assumption | with_reducible intro _ | with_reducible apply State.modFrond_keeps | with_reducible apply State.modJob_keeps | with_reducible apply Keeps.ite | with_reducible apply Keeps.foldl | with_reducible apply Keeps.foldlP | split | dsimp only | simp only [Keeps.upd])

theorem State.beginKernel_keeps {k0 : State} {s : State} (f : Fin 4) (j : ℕ) (x : Job) (c : Fin 4 × Bool) (kcap : ℕ) (h_s : Keeps k0 s) :
    Keeps k0 (State.beginKernel s f j x c kcap) := by
  unfold State.beginKernel
  repeat' (first | with_reducible assumption | with_reducible intro _ | with_reducible apply State.modFrond_keeps | with_reducible apply State.modJob_keeps | with_reducible apply Keeps.ite | with_reducible apply Keeps.foldl | with_reducible apply Keeps.foldlP | split | dsimp only | simp only [Keeps.upd])

theorem State.frondDark_keeps {k0 : State} {s : State} (f : Fin 4) (a : Fin 4) (h_s : Keeps k0 s) :
    Keeps k0 (State.frondDark s f a) := by
  unfold State.frondDark
  repeat' (first | with_reducible assumption | with_reducible intro _ | with_reducible apply State.clearFrondRegs_keeps | with_reducible apply State.setFrond_keeps | with_reducible apply State.zeroSp_keeps | with_reducible apply Keeps.ite | with_reducible apply Keeps.foldl | with_reducible apply Keeps.foldlP | split | dsimp only | simp only [Keeps.upd])

theorem State.setPart_keeps {k0 : State} {s : State} (r : Fin 4) (x : Part) (h_s : Keeps k0 s) :
    Keeps k0 (State.setPart s r x) := by
  unfold State.setPart
  repeat' (first | with_reducible assumption | with_reducible intro _ | with_reducible apply Keeps.ite | with_reducible apply Keeps.foldl | with_reducible apply Keeps.foldlP | split | dsimp only | simp only [Keeps.upd])

theorem State.modPart_keeps {k0 : State} {s : State} (r : Fin 4) (g : Part → Part) (h_s : Keeps k0 s) :
    Keeps k0 (State.modPart s r g) := by
  unfold State.modPart
  repeat' (first | with_reducible assumption | with_reducible intro _ | with_reducible apply State.setPart_keeps | with_reducible apply Keeps.ite | with_reducible apply Keeps.foldl | with_reducible apply Keeps.foldlP | split | dsimp only | simp only [Keeps.upd])

end Sys2Proof.Machine
end

