-- ==== Sys2Proof/Laws/KeepsUnits.lean ====
section
/-! SUPPORT. What every operation of the units keeps (Laws/Keeps.lean), in the order of use. -/

namespace Sys2Proof.Machine

theorem State.goldenMiss_keeps {k0 : State} {s : State} (f : Fin 4) (h_s : Keeps k0 s) :
    Keeps k0 (State.goldenMiss s f) := by
  unfold State.goldenMiss
  repeat' (first | with_reducible assumption | with_reducible intro _ | with_reducible apply State.count_keeps | with_reducible apply State.latent_keeps | with_reducible apply Keeps.ite | with_reducible apply Keeps.foldl | with_reducible apply Keeps.foldlP | split | dsimp only | simp only [Keeps.upd])

theorem State.cutGolden_keeps {k0 : State} {s : State} (f : Fin 4) (h_s : Keeps k0 s) :
    Keeps k0 (State.cutGolden s f) := by
  unfold State.cutGolden
  repeat' (first | with_reducible assumption | with_reducible intro _ | with_reducible apply State.modFrond_keeps | with_reducible apply State.goldenMiss_keeps | with_reducible apply State.dropGolden_keeps | with_reducible apply State.voidOpenOf_keeps | with_reducible apply State.stopJob_keeps | with_reducible apply Keeps.ite | with_reducible apply Keeps.foldl | with_reducible apply Keeps.foldlP | split | dsimp only | simp only [Keeps.upd])

theorem State.dramServe_keeps {k0 : State} {s : State} (r : DramReq) (h_s : Keeps k0 s) :
    Keeps k0 (State.dramServe s r) := by
  unfold State.dramServe
  repeat' (first | with_reducible assumption | with_reducible intro _ | with_reducible apply State.reportMarks_keeps | with_reducible apply State.putBlock_keeps | with_reducible apply State.mergeChecked_keeps | with_reducible apply Keeps.ite | with_reducible apply Keeps.foldl | with_reducible apply Keeps.foldlP | split | dsimp only | simp only [Keeps.upd])

theorem State.dramGoOn_keeps {k0 : State} {s : State} (h_s : Keeps k0 s) :
    Keeps k0 (State.dramGoOn s) := by
  unfold State.dramGoOn
  repeat' (first | with_reducible assumption | with_reducible intro _ | with_reducible apply State.dramServe_keeps | with_reducible apply Keeps.ite | with_reducible apply Keeps.foldl | with_reducible apply Keeps.foldlP | split | dsimp only | simp only [Keeps.upd])

theorem State.closeCard_keeps {k0 : State} {s : State} (f : Fin 4) (h_s : Keeps k0 s) :
    Keeps k0 (State.closeCard s f) := by
  unfold State.closeCard
  repeat' (first | with_reducible assumption | with_reducible intro _ | with_reducible apply State.count_keeps | with_reducible apply State.cutGolden_keeps | with_reducible apply State.modFrond_keeps | with_reducible apply State.dramGoOn_keeps | with_reducible apply Keeps.ite | with_reducible apply Keeps.foldl | with_reducible apply Keeps.foldlP | split | dsimp only | simp only [Keeps.upd])

theorem State.closeDue_keeps {k0 : State} {s : State} (r : Fin 4) (h_s : Keeps k0 s) :
    Keeps k0 (State.closeDue s r) := by
  unfold State.closeDue
  repeat' (first | with_reducible assumption | with_reducible intro _ | with_reducible apply State.closeCard_keeps | with_reducible apply Keeps.ite | with_reducible apply Keeps.foldl | with_reducible apply Keeps.foldlP | split | dsimp only | simp only [Keeps.upd])

theorem State.overQuota_keeps {k0 : State} {s : State} (r : Fin 4) (h_s : Keeps k0 s) :
    Keeps k0 (State.overQuota s r) := by
  unfold State.overQuota
  repeat' (first | with_reducible assumption | with_reducible intro _ | with_reducible apply State.notice_keeps | with_reducible apply Keeps.ite | with_reducible apply Keeps.foldl | with_reducible apply Keeps.foldlP | split | dsimp only | simp only [Keeps.upd])

theorem State.takeBudget_keeps {k0 : State} {s : State} (r : Fin 4) (h_s : Keeps k0 s) :
    Keeps k0 (State.takeBudget s r) := by
  unfold State.takeBudget
  repeat' (first | with_reducible assumption | with_reducible intro _ | with_reducible apply State.modPart_keeps | with_reducible apply State.overQuota_keeps | with_reducible apply Keeps.ite | with_reducible apply Keeps.foldl | with_reducible apply Keeps.foldlP | split | dsimp only | simp only [Keeps.upd])

theorem State.endBreak_keeps {k0 : State} {s : State} (r : Fin 4) (h_s : Keeps k0 s) :
    Keeps k0 (State.endBreak s r) := by
  unfold State.endBreak
  repeat' (first | with_reducible assumption | with_reducible intro _ | with_reducible apply Keeps.ite | with_reducible apply Keeps.foldl | with_reducible apply Keeps.foldlP | split | dsimp only | simp only [Keeps.upd])

theorem accept_keeps {k0 : State} {s : State} (h_s : Keeps k0 s) :
    Keeps k0 (accept s).s := by
  unfold accept
  repeat' (first | with_reducible assumption | with_reducible intro _ | with_reducible apply Keeps.ite | with_reducible apply Keeps.foldl | with_reducible apply Keeps.foldlP | split | dsimp only | simp only [Keeps.upd])

theorem State.stopStream_keeps {k0 : State} {s : State} (c : ℕ) (h_s : Keeps k0 s) :
    Keeps k0 (State.stopStream s c) := by
  unfold State.stopStream
  repeat' (first | with_reducible assumption | with_reducible intro _ | with_reducible apply State.streamTo_keeps | with_reducible apply State.setRegF_keeps | with_reducible apply State.dropDone_keeps | with_reducible apply State.dropRun_keeps | with_reducible apply Keeps.ite | with_reducible apply Keeps.foldl | with_reducible apply Keeps.foldlP | split | dsimp only | simp only [Keeps.upd])

theorem State.writeAs_keeps {k0 : State} {s : State} (w : Writer) (act : State → State) (h_s : Keeps k0 s) (h_act : ∀ u0, Keeps k0 u0 → Keeps k0 (act u0)) :
    Keeps k0 (State.writeAs s w act) := by
  unfold State.writeAs
  repeat' (first | with_reducible assumption | with_reducible intro _ | with_reducible apply h_act | with_reducible apply State.debugEntry_keeps | with_reducible apply Keeps.ite | with_reducible apply Keeps.foldl | with_reducible apply Keeps.foldlP | split | dsimp only | simp only [Keeps.upd])

theorem State.moveSlots_keeps {k0 : State} {s : State} (r : Fin 4) (lo : ℕ) (n : ℕ) (dest : ℕ) (h_s : Keeps k0 s) :
    Keeps k0 (State.moveSlots s r lo n dest) := by
  unfold State.moveSlots
  repeat' (first | with_reducible assumption | with_reducible intro _ | with_reducible apply State.setRegF_keeps | with_reducible apply State.setReg_keeps | with_reducible apply Keeps.ite | with_reducible apply Keeps.foldl | with_reducible apply Keeps.foldlP | split | dsimp only | simp only [Keeps.upd])

theorem State.moveMat_keeps {k0 : State} {s : State} (h : ℕ) (a : Alloc) (dest : ℕ) (h_s : Keeps k0 s) :
    Keeps k0 (State.moveMat s h a dest) := by
  unfold State.moveMat
  repeat' (first | with_reducible assumption | with_reducible intro _ | with_reducible apply State.checkBlock_keeps | with_reducible apply State.reportMarks_keeps | with_reducible apply State.putBlock_keeps | with_reducible apply State.moveSlots_keeps | with_reducible apply Keeps.ite | with_reducible apply Keeps.foldl | with_reducible apply Keeps.foldlP | split | dsimp only | simp only [Keeps.upd])

theorem State.repairMatRow_keeps {k0 : State} {s : State} (b : ℕ) (sp : ℕ) (v : Word) (h_s : Keeps k0 s) :
    Keeps k0 (State.repairMatRow s b sp v) := by
  unfold State.repairMatRow
  repeat' (first | with_reducible assumption | with_reducible intro _ | with_reducible apply State.writeMatRepair_keeps | with_reducible apply State.putKeys_keeps | with_reducible apply State.moveMat_keeps | with_reducible apply Keeps.ite | with_reducible apply Keeps.foldl | with_reducible apply Keeps.foldlP | split | dsimp only | simp only [Keeps.upd])

theorem State.fwWriteReg_keeps {k0 : State} {s : State} (o : ℕ) (v : Word) (h_s : Keeps k0 s) :
    Keeps k0 (State.fwWriteReg s o v) := by
  unfold State.fwWriteReg
  repeat' (first | with_reducible assumption | with_reducible intro _ | with_reducible apply State.repairSpRow_keeps | with_reducible apply State.writeReg_keeps | with_reducible apply State.repairMatRow_keeps | with_reducible apply Keeps.ite | with_reducible apply Keeps.foldl | with_reducible apply Keeps.foldlP | split | dsimp only | simp only [Keeps.upd])

theorem State.fwWrite_keeps {k0 : State} {s : State} (o : ℕ) (v : Word) (h_s : Keeps k0 s) :
    Keeps k0 (State.fwWrite s o v) := by
  unfold State.fwWrite
  repeat' (first | with_reducible assumption | with_reducible intro _ | with_reducible apply State.writeVia_keeps | with_reducible apply State.fwWriteReg_keeps | with_reducible apply Keeps.ite | with_reducible apply Keeps.foldl | with_reducible apply Keeps.foldlP | split | dsimp only | simp only [Keeps.upd])

theorem State.readLines_keeps {k0 : State} {s : State} (c : ℕ) (r : FrameRun) (h_s : Keeps k0 s) :
    Keeps k0 (State.readLines s c r).2 := by
  unfold State.readLines
  repeat' (first | with_reducible assumption | with_reducible intro _ | with_reducible apply State.fresh_keeps | with_reducible apply State.raise_keeps | with_reducible apply Keeps.ite | with_reducible apply Keeps.foldl | with_reducible apply Keeps.foldlP | split | dsimp only | simp only [Keeps.upd])

theorem State.writeBlocks_keeps {k0 : State} {s : State} (a : ℕ) (bad : Option ℕ) (l : List Byte) (h_s : Keeps k0 s) :
    Keeps k0 (State.writeBlocks s a bad l) := by
  unfold State.writeBlocks
  repeat' (first | with_reducible assumption | with_reducible intro _ | with_reducible apply State.putBlock_keeps | with_reducible apply Keeps.ite | with_reducible apply Keeps.foldl | with_reducible apply Keeps.foldlP | split | dsimp only | simp only [Keeps.upd])

theorem State.deliverFrame_keeps {k0 : State} {s : State} (c : ℕ) (d : FrameDone) (t : Tensor) (h_s : Keeps k0 s) :
    Keeps k0 (State.deliverFrame s c d t) := by
  unfold State.deliverFrame
  repeat' (first | with_reducible assumption | with_reducible intro _ | with_reducible apply State.count_keeps | with_reducible apply State.writeBlocks_keeps | with_reducible apply State.countWrap_keeps | with_reducible apply State.setReg_keeps | with_reducible apply State.modStream_keeps | with_reducible apply Keeps.ite | with_reducible apply Keeps.foldl | with_reducible apply Keeps.foldlP | split | dsimp only | simp only [Keeps.upd])

theorem State.reportRows_keeps {k0 : State} {s : State} (w : Who) (f : Fin 4) (rows : List ℕ) (h_s : Keeps k0 s) :
    Keeps k0 (State.reportRows s w f rows) := by
  unfold State.reportRows
  repeat' (first | with_reducible assumption | with_reducible intro _ | with_reducible apply State.reportMarks_keeps | with_reducible apply State.checkBlock_keeps | with_reducible apply Keeps.ite | with_reducible apply Keeps.foldl | with_reducible apply Keeps.foldlP | split | dsimp only | simp only [Keeps.upd])

theorem State.spServe_keeps {k0 : State} {s : State} (f : Fin 4) (rds : List SpReq) (h_s : Keeps k0 s) :
    Keeps k0 (State.spServe s f rds) := by
  unfold State.spServe
  repeat' (first | with_reducible assumption | with_reducible intro _ | with_reducible apply State.reportRows_keeps | with_reducible apply State.modFrond_keeps | with_reducible apply Keeps.ite | with_reducible apply Keeps.foldl | with_reducible apply Keeps.foldlP | split | dsimp only | simp only [Keeps.upd])

theorem State.spGoOn_keeps {k0 : State} {s : State} (f : Fin 4) (h_s : Keeps k0 s) :
    Keeps k0 (State.spGoOn s f) := by
  unfold State.spGoOn
  repeat' (first | with_reducible assumption | with_reducible intro _ | with_reducible apply State.spServe_keeps | with_reducible apply State.modFrond_keeps | with_reducible apply Keeps.ite | with_reducible apply Keeps.foldl | with_reducible apply Keeps.foldlP | split | dsimp only | simp only [Keeps.upd])

theorem State.restoreBlock_keeps {k0 : State} {s : State} (f : Fin 4) (off : ℕ) (h_s : Keeps k0 s) :
    Keeps k0 (State.restoreBlock s f off) := by
  unfold State.restoreBlock
  repeat' (first | with_reducible assumption | with_reducible intro _ | with_reducible apply State.putBlock_keeps | with_reducible apply Keeps.ite | with_reducible apply Keeps.foldl | with_reducible apply Keeps.foldlP | split | dsimp only | simp only [Keeps.upd])

theorem State.restoreFailing_keeps {k0 : State} {s : State} (f : Fin 4) (h_s : Keeps k0 s) :
    Keeps k0 (State.restoreFailing s f) := by
  unfold State.restoreFailing
  repeat' (first | with_reducible assumption | with_reducible intro _ | with_reducible apply State.restoreBlock_keeps | with_reducible apply Keeps.ite | with_reducible apply Keeps.foldl | with_reducible apply Keeps.foldlP | split | dsimp only | simp only [Keeps.upd])

theorem State.freeCredits_keeps {k0 : State} {s : State} (f : Fin 4) (h_s : Keeps k0 s) :
    Keeps k0 (State.freeCredits s f) := by
  unfold State.freeCredits
  repeat' (first | with_reducible assumption | with_reducible intro _ | with_reducible apply Keeps.ite | with_reducible apply Keeps.foldl | with_reducible apply Keeps.foldlP | split | dsimp only | simp only [Keeps.upd])

theorem State.copyEnded_keeps {k0 : State} {s : State} (j : ℕ) (k : KernelRun) (d : DWord) (f : Fin 4) (h_s : Keeps k0 s) :
    Keeps k0 (State.copyEnded s j k d f) := by
  unfold State.copyEnded
  repeat' (first | with_reducible assumption | with_reducible intro _ | with_reducible apply State.modJob_keeps | with_reducible apply Keeps.ite | with_reducible apply Keeps.foldl | with_reducible apply Keeps.foldlP | split | dsimp only | simp only [Keeps.upd])

theorem State.storeSignals_keeps {k0 : State} {s : State} (k : KernelRun) (h_s : Keeps k0 s) :
    Keeps k0 (State.storeSignals s k) := by
  unfold State.storeSignals
  repeat' (first | with_reducible assumption | with_reducible intro _ | with_reducible apply State.modJob_keeps | with_reducible apply Keeps.ite | with_reducible apply Keeps.foldl | with_reducible apply Keeps.foldlP | split | dsimp only | simp only [Keeps.upd])

theorem State.takePins_keeps {k0 : State} {s : State} (ir : ℕ) (act : State → State) (h_s : Keeps k0 s) (h_act : ∀ u0, Keeps k0 u0 → Keeps k0 (act u0)) :
    Keeps k0 (State.takePins s ir act) := by
  unfold State.takePins
  repeat' (first | with_reducible assumption | with_reducible intro _ | with_reducible apply h_act | with_reducible apply State.raise_keeps | with_reducible apply State.tapIr_keeps | with_reducible apply Keeps.ite | with_reducible apply Keeps.foldl | with_reducible apply Keeps.foldlP | split | dsimp only | simp only [Keeps.upd])

theorem windowRead_keeps {k0 s : State} (rd : State → Nat → Word × State) (w : Window)
    (hr : ∀ u a, Keeps k0 u → Keeps k0 (rd u a).2) (h : Keeps k0 s) : Keeps k0 (windowRead rd s w).2 := by
  unfold windowRead
  split
  · exact State.setRegF_keeps _ _ _ _ h
  · have h2 : ∀ (v : Word) (l : List Nat) (a : Bool × State), Keeps k0 a.2 → Keeps k0 (l.foldl (fun (a : Bool × State) o =>
        let q := rd a.2 o; (a.1 || decide (q.1 ≠ v), q.2)) a).2 := by
      intro v l
      induction l with
      | nil => intro a ha; exact ha
      | cons b t ih => intro a ha; exact ih _ (hr _ _ ha)
    dsimp only
    split
    · exact State.setRegF_keeps _ _ _ _ (h2 _ _ _ (hr _ _ h))
    · exact h2 _ _ _ (hr _ _ h)

theorem State.readReg_keeps {k0 : State} {s : State} (o : ℕ) (h_s : Keeps k0 s) :
    Keeps k0 (State.readReg s o).2 := by
  unfold State.readReg
  repeat' (first | with_reducible assumption | with_reducible intro _ | with_reducible apply Keeps.ite | with_reducible apply Keeps.foldl | with_reducible apply Keeps.foldlP | split | dsimp only | simp only [Keeps.upd])

theorem State.readInner_keeps {k0 : State} {s : State} (o : ℕ) (h_s : Keeps k0 s) :
    Keeps k0 (State.readInner s o).2 := by
  unfold State.readInner
  repeat' (first | with_reducible assumption | with_reducible intro _ | with_reducible apply windowRead_keeps | with_reducible apply State.readReg_keeps | with_reducible apply Keeps.ite | with_reducible apply Keeps.foldl | with_reducible apply Keeps.foldlP | split | dsimp only | simp only [Keeps.upd])

theorem State.readAny_keeps {k0 : State} {s : State} (caller : Option (Fin 4)) (o : ℕ) (h_s : Keeps k0 s) :
    Keeps k0 (State.readAny s caller o).2 := by
  unfold State.readAny
  repeat' (first | with_reducible assumption | with_reducible intro _ | with_reducible apply windowRead_keeps | with_reducible apply State.readInner_keeps | with_reducible apply Keeps.ite | with_reducible apply Keeps.foldl | with_reducible apply Keeps.foldlP | split | dsimp only | simp only [Keeps.upd])

theorem State.doEdit_keeps {k0 : State} {s : State} (t : Taken) (ok : Seq → Bool) (base : Seq → ℕ) (len : Seq → ℕ) (sp : Seq → List Span) (h_s : Keeps k0 s) :
    Keeps k0 (State.doEdit s t ok base len sp).s := by
  unfold State.doEdit
  repeat' (first | with_reducible assumption | with_reducible intro _ | with_reducible apply refuse_keeps | with_reducible apply checks_keeps | with_reducible apply State.reSpan_keeps | with_reducible apply State.sweepPool_keeps | with_reducible apply Keeps.ite | with_reducible apply Keeps.foldl | with_reducible apply Keeps.foldlP | split | dsimp only | simp only [Keeps.upd])

theorem State.doCommit_keeps {k0 : State} {s : State} (t : Taken) (h_s : Keeps k0 s) :
    Keeps k0 (State.doCommit s t).s := by
  unfold State.doCommit
  repeat' (first | with_reducible assumption | with_reducible intro _ | with_reducible apply checks_keeps | with_reducible apply accept_keeps | with_reducible apply Keeps.ite | with_reducible apply Keeps.foldl | with_reducible apply Keeps.foldlP | split | dsimp only | simp only [Keeps.upd])

theorem State.commitReset_keeps {k0 : State} {s : State} (h_s : Keeps k0 s) :
    Keeps k0 (State.commitReset s) := by
  unfold State.commitReset
  repeat' (first | with_reducible assumption | with_reducible intro _ | with_reducible apply State.l5_keeps | with_reducible apply Keeps.ite | with_reducible apply Keeps.foldl | with_reducible apply Keeps.foldlP | split | dsimp only | simp only [Keeps.upd])

theorem State.selfFault_keeps {k0 : State} {s : State} (h_s : Keeps k0 s) :
    Keeps k0 (State.selfFault s) := by
  unfold State.selfFault
  repeat' (first | with_reducible assumption | with_reducible intro _ | with_reducible apply State.raise_keeps | with_reducible apply Keeps.ite | with_reducible apply Keeps.foldl | with_reducible apply Keeps.foldlP | split | dsimp only | simp only [Keeps.upd])

theorem State.setHint_keeps {k0 : State} {s : State} (t : Taken) (h : ℕ) (h_s : Keeps k0 s) :
    Keeps k0 (State.setHint s t h).s := by
  unfold State.setHint
  repeat' (first | with_reducible assumption | with_reducible intro _ | with_reducible apply checks_keeps | with_reducible apply accept_keeps | with_reducible apply State.modPart_keeps | with_reducible apply Keeps.ite | with_reducible apply Keeps.foldl | with_reducible apply Keeps.foldlP | split | dsimp only | simp only [Keeps.upd])

theorem State.writeRow_keeps {k0 : State} {s : State} (f : Fin 4) (r : RowRun) (rest : List RowRun) (st : StreamRun) (h_s : Keeps k0 s) :
    Keeps k0 (State.writeRow s f r rest st) := by
  unfold State.writeRow
  repeat' (first | with_reducible assumption | with_reducible intro _ | with_reducible apply State.modFrond_keeps | with_reducible apply State.finishIns_keeps | with_reducible apply State.checkFail_keeps | with_reducible apply Keeps.ite | with_reducible apply Keeps.foldl | with_reducible apply Keeps.foldlP | split | dsimp only | simp only [Keeps.upd])

theorem State.hpcCount_keeps {k0 : State} {s : State} (p : Fin 4) (o : ℕ) (h_s : Keeps k0 s) :
    Keeps k0 (State.hpcCount s p o) := by
  unfold State.hpcCount
  repeat' (first | with_reducible assumption | with_reducible intro _ | with_reducible apply State.count_keeps | with_reducible apply Keeps.ite | with_reducible apply Keeps.foldl | with_reducible apply Keeps.foldlP | split | dsimp only | simp only [Keeps.upd])

theorem State.proto_keeps {k0 : State} {s : State} (p : Fin 4) (h_s : Keeps k0 s) :
    Keeps k0 (State.proto s p) := by
  unfold State.proto
  repeat' (first | with_reducible assumption | with_reducible intro _ | with_reducible apply State.hpcCount_keeps | with_reducible apply Keeps.ite | with_reducible apply Keeps.foldl | with_reducible apply Keeps.foldlP | split | dsimp only | simp only [Keeps.upd])

theorem State.settled_keeps {k0 : State} {s : State} (p : Fin 4) {act : State} (h_s : Keeps k0 s) (h_act : Keeps k0 act) :
    Keeps k0 (State.settled s p act) := by
  unfold State.settled
  repeat' (first | with_reducible assumption | with_reducible intro _ | with_reducible apply State.proto_keeps | with_reducible apply Keeps.ite | with_reducible apply Keeps.foldl | with_reducible apply Keeps.foldlP | split | dsimp only | simp only [Keeps.upd])

theorem State.dropWrite_keeps {k0 : State} {s : State} (p : Fin 4) (h_s : Keeps k0 s) :
    Keeps k0 (State.dropWrite s p) := by
  unfold State.dropWrite
  repeat' (first | with_reducible assumption | with_reducible intro _ | with_reducible apply State.irq_keeps | with_reducible apply State.hpcCount_keeps | with_reducible apply Keeps.ite | with_reducible apply Keeps.foldl | with_reducible apply Keeps.foldlP | split | dsimp only | simp only [Keeps.upd])

theorem State.answer_keeps {k0 : State} {s : State} (l : List Byte) (h_s : Keeps k0 s) :
    Keeps k0 (State.answer s l) := by
  unfold State.answer
  repeat' (first | with_reducible assumption | with_reducible intro _ | with_reducible apply Keeps.ite | with_reducible apply Keeps.foldl | with_reducible apply Keeps.foldlP | split | dsimp only | simp only [Keeps.upd])

theorem State.setTrig_keeps {k0 : State} {s : State} (n : ℕ) (t : Trig) (h_s : Keeps k0 s) :
    Keeps k0 (State.setTrig s n t) := by
  unfold State.setTrig
  repeat' (first | with_reducible assumption | with_reducible intro _ | with_reducible apply Keeps.ite | with_reducible apply Keeps.foldl | with_reducible apply Keeps.foldlP | split | dsimp only | simp only [Keeps.upd])

theorem State.trigAfter_keeps {k0 : State} {s : State} (n : ℕ) (m : ℕ) (e : Option ℕ) (h_s : Keeps k0 s) :
    Keeps k0 (State.trigAfter s n m e) := by
  unfold State.trigAfter
  repeat' (first | with_reducible assumption | with_reducible intro _ | with_reducible apply State.setTrig_keeps | with_reducible apply Keeps.ite | with_reducible apply Keeps.foldl | with_reducible apply Keeps.foldlP | split | dsimp only | simp only [Keeps.upd])

theorem State.skipPulses_keeps {k0 : State} {s : State} (n : ℕ) (step : ℤ) (t1 : ℕ) (h_s : Keeps k0 s) :
    Keeps k0 (State.skipPulses s n step t1) := by
  unfold State.skipPulses
  repeat' (first | with_reducible assumption | with_reducible intro _ | with_reducible apply State.trigAfter_keeps | with_reducible apply State.count_keeps | with_reducible apply State.setTrig_keeps | with_reducible apply Keeps.ite | with_reducible apply Keeps.foldl | with_reducible apply Keeps.foldlP | split | dsimp only | simp only [Keeps.upd])

theorem State.lateLaunches_keeps {k0 : State} {s : State} (t0 : ℕ) (t1 : ℕ) (h_s : Keeps k0 s) :
    Keeps k0 (State.lateLaunches s t0 t1) := by
  unfold State.lateLaunches
  repeat' (first | with_reducible assumption | with_reducible intro _ | with_reducible apply Keeps.ite | with_reducible apply Keeps.foldl | with_reducible apply Keeps.foldlP | split | dsimp only | simp only [Keeps.upd])

theorem State.applyStep_keeps {k0 : State} {s : State} (h_s : Keeps k0 s) :
    Keeps k0 (State.applyStep s) := by
  unfold State.applyStep
  repeat' (first | with_reducible assumption | with_reducible intro _ | with_reducible apply State.skipPulses_keeps | with_reducible apply State.lateLaunches_keeps | with_reducible apply Keeps.ite | with_reducible apply Keeps.foldl | with_reducible apply Keeps.foldlP | split | dsimp only | simp only [Keeps.upd])

theorem State.clearHold_keeps {k0 : State} {s : State} (h_s : Keeps k0 s) :
    Keeps k0 (State.clearHold s) := by
  unfold State.clearHold
  repeat' (first | with_reducible assumption | with_reducible intro _ | with_reducible apply State.setRegF_keeps | with_reducible apply Keeps.ite | with_reducible apply Keeps.foldl | with_reducible apply Keeps.foldlP | split | dsimp only | simp only [Keeps.upd])

theorem State.doFaultAck_keeps {k0 : State} {s : State} (p : Fin 4) (t : Taken) (h_s : Keeps k0 s) :
    Keeps k0 (State.doFaultAck s p t).s := by
  unfold State.doFaultAck
  repeat' (first | with_reducible assumption | with_reducible intro _ | with_reducible apply checks_keeps | with_reducible apply accept_keeps | with_reducible apply State.clearHold_keeps | with_reducible apply Keeps.ite | with_reducible apply Keeps.foldl | with_reducible apply Keeps.foldlP | split | dsimp only | simp only [Keeps.upd])

theorem State.doPack_keeps {k0 : State} {s : State} (p : Fin 4) (t : Taken) (h_s : Keeps k0 s) :
    Keeps k0 (State.doPack s p t).s := by
  unfold State.doPack
  repeat' (first | with_reducible assumption | with_reducible intro _ | with_reducible apply refuse_keeps | with_reducible apply State.reportRead_keeps | with_reducible apply checks_keeps | with_reducible apply State.extendMb_keeps | with_reducible apply Keeps.ite | with_reducible apply Keeps.foldl | with_reducible apply Keeps.foldlP | split | dsimp only | simp only [Keeps.upd])

theorem State.overrun_keeps {k0 : State} {s : State} (sc : Scope) (h_s : Keeps k0 s) :
    Keeps k0 (State.overrun s sc) := by
  unfold State.overrun
  repeat' (first | with_reducible assumption | with_reducible intro _ | with_reducible apply State.l2_keeps | with_reducible apply State.escalate_keeps | with_reducible apply State.forgetSteps_keeps | with_reducible apply State.l3_keeps | with_reducible apply State.frondResetL2_keeps | with_reducible apply State.noteStep_keeps | with_reducible apply State.escalateL5_keeps | with_reducible apply State.l6_keeps | with_reducible apply Keeps.ite | with_reducible apply Keeps.foldl | with_reducible apply Keeps.foldlP | split | dsimp only | simp only [Keeps.upd])

theorem State.fullAwake_keeps {k0 : State} {s : State} (h_s : Keeps k0 s) :
    Keeps k0 (State.fullAwake s) := by
  unfold State.fullAwake
  repeat' (first | with_reducible assumption | with_reducible intro _ | with_reducible apply Keeps.ite | with_reducible apply Keeps.foldl | with_reducible apply Keeps.foldlP | split | dsimp only | simp only [Keeps.upd])

theorem State.unloadProg_keeps {k0 : State} {s : State} (g : ℕ) (h_s : Keeps k0 s) :
    Keeps k0 (State.unloadProg s g) := by
  unfold State.unloadProg
  repeat' (first | with_reducible assumption | with_reducible intro _ | with_reducible apply State.zeroSpRange_keeps | with_reducible apply State.modFrond_keeps | with_reducible apply State.setResbase_keeps | with_reducible apply Keeps.ite | with_reducible apply Keeps.foldl | with_reducible apply Keeps.foldlP | split | dsimp only | simp only [Keeps.upd])

theorem State.doRegWrite_keeps {k0 : State} {s : State} (t : Taken) (h_s : Keeps k0 s) :
    Keeps k0 (State.doRegWrite s t).s := by
  unfold State.doRegWrite
  repeat' (first | with_reducible assumption | with_reducible intro _ | with_reducible apply checks_keeps | with_reducible apply accept_keeps | with_reducible apply State.writeAny_keeps | with_reducible apply Keeps.ite | with_reducible apply Keeps.foldl | with_reducible apply Keeps.foldlP | split | dsimp only | simp only [Keeps.upd])

theorem State.aperCmd_keeps {k0 : State} {s : State} (p : Fin 4) (t : Taken) (act : ℕ → Done) (h_s : Keeps k0 s) (h_act : ∀ u0, Keeps k0 (act u0).s) :
    Keeps k0 (State.aperCmd s p t act).s := by
  unfold State.aperCmd
  repeat' (first | with_reducible assumption | with_reducible intro _ | with_reducible apply h_act | with_reducible apply refuse_keeps | with_reducible apply checks_keeps | with_reducible apply Keeps.ite | with_reducible apply Keeps.foldl | with_reducible apply Keeps.foldlP | split | dsimp only | simp only [Keeps.upd])

theorem State.stepAperSeq_keeps {k0 : State} {s : State} (p : Fin 4) (a : ℕ) (h_s : Keeps k0 s) :
    Keeps k0 (State.stepAperSeq s p a) := by
  unfold State.stepAperSeq
  repeat' (first | with_reducible assumption | with_reducible intro _ | with_reducible apply State.modPort_keeps | with_reducible apply Keeps.ite | with_reducible apply Keeps.foldl | with_reducible apply Keeps.foldlP | split | dsimp only | simp only [Keeps.upd])

theorem State.fillBlock_keeps {k0 : State} {s : State} (p : Fin 4) (r : Fin 4) (a : ℕ) (j : ℕ) (addr : ℕ) (h_s : Keeps k0 s) :
    Keeps k0 (State.fillBlock s p r a j addr) := by
  unfold State.fillBlock
  repeat' (first | with_reducible assumption | with_reducible intro _ | with_reducible apply State.reportRead_keeps | with_reducible apply State.hostPut_keeps | with_reducible apply Keeps.ite | with_reducible apply Keeps.foldl | with_reducible apply Keeps.foldlP | split | dsimp only | simp only [Keeps.upd])

theorem State.fillRun_keeps {k0 : State} {s : State} (p : Fin 4) (r : Fin 4) (a : ℕ) (j : ℕ) (addr : ℕ) (n : ℕ) (h_s : Keeps k0 s) :
    Keeps k0 (State.fillRun s p r a j addr n) := by
  unfold State.fillRun
  repeat' (first | with_reducible assumption | with_reducible intro _ | with_reducible apply State.stepAperSeq_keeps | with_reducible apply State.fillBlock_keeps | with_reducible apply Keeps.ite | with_reducible apply Keeps.foldl | with_reducible apply Keeps.foldlP | split | dsimp only | simp only [Keeps.upd])

theorem State.doFill_keeps {k0 : State} {s : State} (p : Fin 4) (t : Taken) (h_s : Keeps k0 s) :
    Keeps k0 (State.doFill s p t).s := by
  unfold State.doFill
  repeat' (first | with_reducible assumption | with_reducible intro _ | with_reducible apply State.aperCmd_keeps | with_reducible apply State.fillRun_keeps | with_reducible apply Keeps.ite | with_reducible apply Keeps.foldl | with_reducible apply Keeps.foldlP | split | dsimp only | simp only [Keeps.upd])

theorem State.noteHot_keeps {k0 : State} {s : State} (ch : ℕ) (h_s : Keeps k0 s) :
    Keeps k0 (State.noteHot s ch) := by
  unfold State.noteHot
  repeat' (first | with_reducible assumption | with_reducible intro _ | with_reducible apply State.raise_keeps | with_reducible apply Keeps.ite | with_reducible apply Keeps.foldl | with_reducible apply Keeps.foldlP | split | dsimp only | simp only [Keeps.upd])

theorem State.dramAccess_keeps {k0 : State} {s : State} (r : DramReq) (h_s : Keeps k0 s) :
    Keeps k0 (State.dramAccess s r) := by
  unfold State.dramAccess
  repeat' (first | with_reducible assumption | with_reducible intro _ | with_reducible apply State.dramServe_keeps | with_reducible apply State.dramGoOn_keeps | with_reducible apply Keeps.ite | with_reducible apply Keeps.foldl | with_reducible apply Keeps.foldlP | split | dsimp only | simp only [Keeps.upd])

theorem State.portLost_keeps {k0 : State} {s : State} (port : ℕ) (h_s : Keeps k0 s) :
    Keeps k0 (State.portLost s port) := by
  unfold State.portLost
  repeat' (first | with_reducible assumption | with_reducible intro _ | with_reducible apply State.count_keeps | with_reducible apply Keeps.ite | with_reducible apply Keeps.foldl | with_reducible apply Keeps.foldlP | split | dsimp only | simp only [Keeps.upd])

theorem State.quarantine_keeps {k0 : State} {s : State} (c : ℕ) (cause : ℕ) (h_s : Keeps k0 s) :
    Keeps k0 (State.quarantine s c cause) := by
  unfold State.quarantine
  repeat' (first | with_reducible assumption | with_reducible intro _ | with_reducible apply State.streamState_keeps | with_reducible apply State.modStream_keeps | with_reducible apply State.dropRun_keeps | with_reducible apply Keeps.ite | with_reducible apply Keeps.foldl | with_reducible apply Keeps.foldlP | split | dsimp only | simp only [Keeps.upd])

theorem State.degrade_keeps {k0 : State} {s : State} (c : ℕ) (h_s : Keeps k0 s) :
    Keeps k0 (State.degrade s c) := by
  unfold State.degrade
  repeat' (first | with_reducible assumption | with_reducible intro _ | with_reducible apply State.streamState_keeps | with_reducible apply Keeps.ite | with_reducible apply Keeps.foldl | with_reducible apply Keeps.foldlP | split | dsimp only | simp only [Keeps.upd])

theorem State.errFrame_keeps {k0 : State} {s : State} (c : ℕ) (h_s : Keeps k0 s) :
    Keeps k0 (State.errFrame s c) := by
  unfold State.errFrame
  repeat' (first | with_reducible assumption | with_reducible intro _ | with_reducible apply State.modStream_keeps | with_reducible apply State.degrade_keeps | with_reducible apply State.showErrs_keeps | with_reducible apply State.count_keeps | with_reducible apply Keeps.ite | with_reducible apply Keeps.foldl | with_reducible apply Keeps.foldlP | split | dsimp only | simp only [Keeps.upd])

theorem State.badEnd_keeps {k0 : State} {s : State} (c : ℕ) (h_s : Keeps k0 s) :
    Keeps k0 (State.badEnd s c) := by
  unfold State.badEnd
  repeat' (first | with_reducible assumption | with_reducible intro _ | with_reducible apply State.dropRun_keeps | with_reducible apply State.errFrame_keeps | with_reducible apply Keeps.ite | with_reducible apply Keeps.foldl | with_reducible apply Keeps.foldlP | split | dsimp only | simp only [Keeps.upd])

theorem State.goodEnd_keeps {k0 : State} {s : State} (c : ℕ) (cmac : Bool) (h_s : Keeps k0 s) :
    Keeps k0 (State.goodEnd s c cmac) := by
  unfold State.goodEnd
  repeat' (first | with_reducible assumption | with_reducible intro _ | with_reducible apply State.showErrs_keeps | with_reducible apply State.modStream_keeps | with_reducible apply State.streamState_keeps | with_reducible apply State.degrade_keeps | with_reducible apply State.countLost_keeps | with_reducible apply Keeps.ite | with_reducible apply Keeps.foldl | with_reducible apply Keeps.foldlP | split | dsimp only | simp only [Keeps.upd])

theorem State.cameraEnd_keeps {k0 : State} {s : State} (c : ℕ) (h_s : Keeps k0 s) :
    Keeps k0 (State.cameraEnd s c) := by
  unfold State.cameraEnd
  repeat' (first | with_reducible assumption | with_reducible intro _ | with_reducible apply State.quarantine_keeps | with_reducible apply State.modStream_keeps | with_reducible apply State.badEnd_keeps | with_reducible apply State.goodEnd_keeps | with_reducible apply Keeps.ite | with_reducible apply Keeps.foldl | with_reducible apply Keeps.foldlP | split | dsimp only | simp only [Keeps.upd])

theorem State.noteCorrected_keeps {k0 : State} {s : State} (c : ℕ) (corrected : Bool) (h_s : Keeps k0 s) :
    Keeps k0 (State.noteCorrected s c corrected) := by
  unfold State.noteCorrected
  repeat' (first | with_reducible assumption | with_reducible intro _ | with_reducible apply State.modStream_keeps | with_reducible apply State.count_keeps | with_reducible apply Keeps.ite | with_reducible apply Keeps.foldl | with_reducible apply Keeps.foldlP | split | dsimp only | simp only [Keeps.upd])

theorem State.trngFault_keeps {k0 : State} {s : State} (fails : Bool) (h_s : Keeps k0 s) :
    Keeps k0 (State.trngFault s fails) := by
  unfold State.trngFault
  repeat' (first | with_reducible assumption | with_reducible intro _ | with_reducible apply State.raise_keeps | with_reducible apply Keeps.ite | with_reducible apply Keeps.foldl | with_reducible apply Keeps.foldlP | split | dsimp only | simp only [Keeps.upd])

theorem State.openChal_keeps {k0 : State} {s : State} (level : ℕ) (key : ℕ) (jtag : Bool) (h_s : Keeps k0 s) :
    Keeps k0 (State.openChal s level key jtag) := by
  unfold State.openChal
  repeat' (first | with_reducible assumption | with_reducible intro _ | with_reducible apply Keeps.ite | with_reducible apply Keeps.foldl | with_reducible apply Keeps.foldlP | split | dsimp only | simp only [Keeps.upd])

theorem State.doDebugBegin_keeps {k0 : State} {s : State} (t : Taken) (h_s : Keeps k0 s) :
    Keeps k0 (State.doDebugBegin s t).s := by
  unfold State.doDebugBegin
  repeat' (first | with_reducible assumption | with_reducible intro _ | with_reducible apply checks_keeps | with_reducible apply State.trngFault_keeps | with_reducible apply State.openChal_keeps | with_reducible apply Keeps.ite | with_reducible apply Keeps.foldl | with_reducible apply Keeps.foldlP | split | dsimp only | simp only [Keeps.upd])

theorem State.doForce_keeps {k0 : State} {s : State} (t : Taken) (act : State → ℕ → State) (h_s : Keeps k0 s) (h_act : ∀ u0 u1, Keeps k0 u0 → Keeps k0 (act u0 u1)) :
    Keeps k0 (State.doForce s t act).s := by
  unfold State.doForce
  repeat' (first | with_reducible assumption | with_reducible intro _ | with_reducible apply h_act | with_reducible apply checks_keeps | with_reducible apply accept_keeps | with_reducible apply State.sweepRetired_keeps | with_reducible apply Keeps.ite | with_reducible apply Keeps.foldl | with_reducible apply Keeps.foldlP | split | dsimp only | simp only [Keeps.upd])

theorem State.partFill_keeps {k0 : State} {s : State} (p : Fin 4) (d : ℕ) (t : Taken) (h_s : Keeps k0 s) :
    Keeps k0 (State.partFill s p d t) := by
  unfold State.partFill
  repeat' (first | with_reducible assumption | with_reducible intro _ | with_reducible apply State.fresh_keeps | with_reducible apply State.aperCmd_keeps | with_reducible apply accept_keeps | with_reducible apply State.fillRun_keeps | with_reducible apply Keeps.ite | with_reducible apply Keeps.foldl | with_reducible apply Keeps.foldlP | split | dsimp only | simp only [Keeps.upd])

theorem State.portWiring_keeps {k0 : State} {s : State} (port : ℕ) (h_s : Keeps k0 s) :
    Keeps k0 (State.portWiring s port) := by
  unfold State.portWiring
  repeat' (first | with_reducible assumption | with_reducible intro _ | with_reducible apply State.setRegF_keeps | with_reducible apply Keeps.ite | with_reducible apply Keeps.foldl | with_reducible apply Keeps.foldlP | split | dsimp only | simp only [Keeps.upd])

theorem State.startStream_keeps {k0 : State} {s : State} (c : ℕ) (h_s : Keeps k0 s) :
    Keeps k0 (State.startStream s c) := by
  unfold State.startStream
  repeat' (first | with_reducible assumption | with_reducible intro _ | with_reducible apply State.showErrs_keeps | with_reducible apply State.streamState_keeps | with_reducible apply State.setRegF_keeps | with_reducible apply State.setStream_keeps | with_reducible apply State.portWiring_keeps | with_reducible apply Keeps.ite | with_reducible apply Keeps.foldl | with_reducible apply Keeps.foldlP | split | dsimp only | simp only [Keeps.upd])

theorem State.warmBy_keeps {k0 : State} {s : State} (c : WarmCause) (h_s : Keeps k0 s) :
    Keeps k0 (State.warmBy s c) := by
  unfold State.warmBy
  repeat' (first | with_reducible assumption | with_reducible intro _ | with_reducible apply State.wakeS1_keeps | with_reducible apply State.l5_keeps | with_reducible apply Keeps.ite | with_reducible apply Keeps.foldl | with_reducible apply Keeps.foldlP | split | dsimp only | simp only [Keeps.upd])

theorem State.noteSwitch_keeps {k0 : State} {s : State} (f : Fin 4) (t : ℕ) (h_s : Keeps k0 s) :
    Keeps k0 (State.noteSwitch s f t) := by
  unfold State.noteSwitch
  repeat' (first | with_reducible assumption | with_reducible intro _ | with_reducible apply State.setReg_keeps | with_reducible apply Keeps.ite | with_reducible apply Keeps.foldl | with_reducible apply Keeps.foldlP | split | dsimp only | simp only [Keeps.upd])

theorem State.startLate_keeps {k0 : State} {s : State} (f : Fin 4) (q : ℕ) (h_s : Keeps k0 s) :
    Keeps k0 (State.startLate s f q) := by
  unfold State.startLate
  repeat' (first | with_reducible assumption | with_reducible intro _ | with_reducible apply State.modFrond_keeps | with_reducible apply State.noteSwitch_keeps | with_reducible apply State.count_keeps | with_reducible apply State.cutGolden_keeps | with_reducible apply Keeps.ite | with_reducible apply Keeps.foldl | with_reducible apply Keeps.foldlP | split | dsimp only | simp only [Keeps.upd])

theorem State.beginSwitch_keeps {k0 : State} {s : State} (f : Fin 4) (c : Card) (j : ℕ) (x : Job) (h_s : Keeps k0 s) :
    Keeps k0 (State.beginSwitch s f c j x) := by
  unfold State.beginSwitch
  repeat' (first | with_reducible assumption | with_reducible intro _ | with_reducible apply State.startLate_keeps | with_reducible apply State.noteSwitch_keeps | with_reducible apply State.modFrond_keeps | with_reducible apply Keeps.ite | with_reducible apply Keeps.foldl | with_reducible apply Keeps.foldlP | split | dsimp only | simp only [Keeps.upd])

theorem State.takeFrame_keeps {k0 : State} {s : State} (j : ℕ) (inst : ℕ) (c : ℕ) (e : SlotFrame) (h_s : Keeps k0 s) :
    Keeps k0 (State.takeFrame s j inst c e) := by
  unfold State.takeFrame
  repeat' (first | with_reducible assumption | with_reducible intro _ | with_reducible apply State.modStream_keeps | with_reducible apply Keeps.ite | with_reducible apply Keeps.foldl | with_reducible apply Keeps.foldlP | split | dsimp only | simp only [Keeps.upd])

theorem State.msecOpen_keeps {k0 s : State} (c : Nat) (fr : List Byte) (h : Keeps k0 s) :
    ∀ a, s.msecOpen c fr = some a → Keeps k0 a.2 := by
  intro a g
  unfold State.msecOpen at g
  dsimp only at g
  repeat' split at g
  all_goals first | (cases g; done) | (cases g; dsimp only; exact State.modStream_keeps _ _ h)

theorem State.ptpReceive_keeps {k0 : State} {s : State} (m : Fin 8) (phase : ℕ) (forward : Bool) (fr : List Byte) (h_s : Keeps k0 s) :
    Keeps k0 (State.ptpReceive s m phase forward fr) := by
  unfold State.ptpReceive
  repeat' (first | with_reducible assumption | with_reducible intro _ | with_reducible apply State.count_keeps | with_reducible apply State.notice_keeps | with_reducible apply Keeps.ite | with_reducible apply Keeps.foldl | with_reducible apply Keeps.foldlP | split | dsimp only | simp only [Keeps.upd])

theorem State.frameStart_keeps {k0 : State} {s : State} (c : ℕ) (t : ℕ) (timed : Bool) (h_s : Keeps k0 s) :
    Keeps k0 (State.frameStart s c t timed) := by
  unfold State.frameStart
  repeat' (first | with_reducible assumption | with_reducible intro _ | with_reducible apply State.count_keeps | with_reducible apply State.modStream_keeps | with_reducible apply State.quarantine_keeps | with_reducible apply State.streamState_keeps | with_reducible apply Keeps.ite | with_reducible apply Keeps.foldl | with_reducible apply Keeps.foldlP | split | dsimp only | simp only [Keeps.upd])

theorem State.pointPacket_keeps {k0 : State} {s : State} (c : ℕ) (t : ℕ) (msec : Bool) (pl : List Byte) (h_s : Keeps k0 s) :
    Keeps k0 (State.pointPacket s c t msec pl) := by
  unfold State.pointPacket
  repeat' (first | with_reducible assumption | with_reducible intro _ | with_reducible apply State.badEnd_keeps | with_reducible apply State.goodEnd_keeps | with_reducible apply State.modStream_keeps | with_reducible apply State.frameStart_keeps | with_reducible apply State.quarantine_keeps | with_reducible apply Keeps.ite | with_reducible apply Keeps.foldl | with_reducible apply Keeps.foldlP | split | dsimp only | simp only [Keeps.upd])

theorem State.ethClear_keeps {k0 : State} {s : State} (m : Fin 8) (phase : ℕ) (opened : Option ℕ) (fr : List Byte) (h_s : Keeps k0 s) :
    Keeps k0 (State.ethClear s m phase opened fr) := by
  unfold State.ethClear
  repeat' (first | with_reducible assumption | with_reducible intro _ | with_reducible apply State.ptpReceive_keeps | with_reducible apply State.count_keeps | with_reducible apply State.quarantine_keeps | with_reducible apply State.pointPacket_keeps | with_reducible apply Keeps.ite | with_reducible apply Keeps.foldl | with_reducible apply Keeps.foldlP | split | dsimp only | simp only [Keeps.upd])

theorem State.doQuote_keeps {k0 : State} {s : State} (t : Taken) (h_s : Keeps k0 s) :
    Keeps k0 (State.doQuote s t).s := by
  unfold State.doQuote
  repeat' (first | with_reducible assumption | with_reducible intro _ | with_reducible apply checks_keeps | with_reducible apply Keeps.ite | with_reducible apply Keeps.foldl | with_reducible apply Keeps.foldlP | split | dsimp only | simp only [Keeps.upd])

theorem State.hbIrq_keeps {k0 : State} {s : State} (p : Fin 4) (h_s : Keeps k0 s) :
    Keeps k0 (State.hbIrq s p) := by
  unfold State.hbIrq
  repeat' (first | with_reducible assumption | with_reducible intro _ | with_reducible apply State.irq_keeps | with_reducible apply Keeps.ite | with_reducible apply Keeps.foldl | with_reducible apply Keeps.foldlP | split | dsimp only | simp only [Keeps.upd])

theorem State.cancelJob_keeps {k0 : State} {s : State} (j : ℕ) (h_s : Keeps k0 s) :
    Keeps k0 (State.cancelJob s j) := by
  unfold State.cancelJob
  repeat' (first | with_reducible assumption | with_reducible intro _ | with_reducible apply State.voidOpenOf_keeps | with_reducible apply State.stopJob_keeps | with_reducible apply State.dropGolden_keeps | with_reducible apply State.endInstance_keeps | with_reducible apply Keeps.ite | with_reducible apply Keeps.foldl | with_reducible apply Keeps.foldlP | split | dsimp only | simp only [Keeps.upd])

theorem State.idleCards_keeps {k0 : State} {s : State} (r : Fin 4) (h_s : Keeps k0 s) :
    Keeps k0 (State.idleCards s r) := by
  unfold State.idleCards
  repeat' (first | with_reducible assumption | with_reducible intro _ | with_reducible apply State.modFrond_keeps | with_reducible apply Keeps.ite | with_reducible apply Keeps.foldl | with_reducible apply Keeps.foldlP | split | dsimp only | simp only [Keeps.upd])

theorem State.releaseStream_keeps {k0 : State} {s : State} (c : ℕ) (h_s : Keeps k0 s) :
    Keeps k0 (State.releaseStream s c) := by
  unfold State.releaseStream
  repeat' (first | with_reducible assumption | with_reducible intro _ | with_reducible apply State.clearRegs_keeps | with_reducible apply State.setStream_keeps | with_reducible apply Keeps.ite | with_reducible apply Keeps.foldl | with_reducible apply Keeps.foldlP | split | dsimp only | simp only [Keeps.upd])

theorem State.leaveGroup_keeps {k0 : State} {s : State} (key : Word) (h_s : Keeps k0 s) :
    Keeps k0 (State.leaveGroup s key) := by
  unfold State.leaveGroup
  repeat' (first | with_reducible assumption | with_reducible intro _ | with_reducible apply State.sendPeers_keeps | with_reducible apply State.voidTrick_keeps | with_reducible apply Keeps.ite | with_reducible apply Keeps.foldl | with_reducible apply Keeps.foldlP | split | dsimp only | simp only [Keeps.upd])

theorem State.aperPages_keeps {k0 : State} {s : State} (p : Fin 4) (a : ℕ) (v : Bool) (h_s : Keeps k0 s) :
    Keeps k0 (State.aperPages s p a v) := by
  unfold State.aperPages
  repeat' (first | with_reducible assumption | with_reducible intro _ | with_reducible apply State.setPages_keeps | with_reducible apply Keeps.ite | with_reducible apply Keeps.foldl | with_reducible apply Keeps.foldlP | split | dsimp only | simp only [Keeps.upd])

theorem State.unmapAper_keeps {k0 : State} {s : State} (p : Fin 4) (a : ℕ) (h_s : Keeps k0 s) :
    Keeps k0 (State.unmapAper s p a) := by
  unfold State.unmapAper
  repeat' (first | with_reducible assumption | with_reducible intro _ | with_reducible apply State.modPort_keeps | with_reducible apply State.aperPages_keeps | with_reducible apply Keeps.ite | with_reducible apply Keeps.foldl | with_reducible apply Keeps.foldlP | split | dsimp only | simp only [Keeps.upd])

theorem State.unmapPart_keeps {k0 : State} {s : State} (r : Fin 4) (h_s : Keeps k0 s) :
    Keeps k0 (State.unmapPart s r) := by
  unfold State.unmapPart
  repeat' (first | with_reducible assumption | with_reducible intro _ | with_reducible apply State.unmapAper_keeps | with_reducible apply Keeps.ite | with_reducible apply Keeps.foldl | with_reducible apply Keeps.foldlP | split | dsimp only | simp only [Keeps.upd])

theorem State.freeAlloc_keeps {k0 : State} {s : State} (h : ℕ) (h_s : Keeps k0 s) :
    Keeps k0 (State.freeAlloc s h) := by
  unfold State.freeAlloc
  repeat' (first | with_reducible assumption | with_reducible intro _ | with_reducible apply State.zeroMat_keeps | with_reducible apply State.zeroRange_keeps | with_reducible apply Keeps.ite | with_reducible apply Keeps.foldl | with_reducible apply Keeps.foldlP | split | dsimp only | simp only [Keeps.upd])

theorem State.noCards_keeps {k0 : State} {s : State} (r : Fin 4) (h_s : Keeps k0 s) :
    Keeps k0 (State.noCards s r) := by
  unfold State.noCards
  repeat' (first | with_reducible assumption | with_reducible intro _ | with_reducible apply State.modFrond_keeps | with_reducible apply Keeps.ite | with_reducible apply Keeps.foldl | with_reducible apply Keeps.foldlP | split | dsimp only | simp only [Keeps.upd])

theorem State.disarmPart_keeps {k0 : State} {s : State} (r : Fin 4) (h_s : Keeps k0 s) :
    Keeps k0 (State.disarmPart s r) := by
  unfold State.disarmPart
  repeat' (first | with_reducible assumption | with_reducible intro _ | with_reducible apply State.setPages_keeps | with_reducible apply State.modPort_keeps | with_reducible apply Keeps.ite | with_reducible apply Keeps.foldl | with_reducible apply Keeps.foldlP | split | dsimp only | simp only [Keeps.upd])

theorem State.releaseAll_keeps {k0 : State} {s : State} (r : Fin 4) (h_s : Keeps k0 s) :
    Keeps k0 (State.releaseAll s r) := by
  unfold State.releaseAll
  repeat' (first | with_reducible assumption | with_reducible intro _ | with_reducible apply State.cancelJob_keeps | with_reducible apply State.releaseStream_keeps | with_reducible apply State.stopStream_keeps | with_reducible apply State.leaveGroup_keeps | with_reducible apply State.unloadProg_keeps | with_reducible apply State.unmapPart_keeps | with_reducible apply State.retireSeq_keeps | with_reducible apply State.freeAlloc_keeps | with_reducible apply State.noCards_keeps | with_reducible apply State.disarmPart_keeps | with_reducible apply State.modPart_keeps | with_reducible apply Keeps.ite | with_reducible apply Keeps.foldl | with_reducible apply Keeps.foldlP | split | dsimp only | simp only [Keeps.upd])

theorem State.lostPolicy_keeps {k0 : State} {s : State} (r : Fin 4) (h_s : Keeps k0 s) :
    Keeps k0 (State.lostPolicy s r) := by
  unfold State.lostPolicy
  repeat' (first | with_reducible assumption | with_reducible intro _ | with_reducible apply State.modPart_keeps | with_reducible apply State.cancelJob_keeps | with_reducible apply State.stopStream_keeps | with_reducible apply State.idleCards_keeps | with_reducible apply State.releaseAll_keeps | with_reducible apply State.l3_keeps | with_reducible apply Keeps.ite | with_reducible apply Keeps.foldl | with_reducible apply Keeps.foldlP | split | dsimp only | simp only [Keeps.upd])

theorem State.closeSession_keeps {k0 : State} {s : State} (p : Fin 4) (h_s : Keeps k0 s) :
    Keeps k0 (State.closeSession s p) := by
  unfold State.closeSession
  repeat' (first | with_reducible assumption | with_reducible intro _ | with_reducible apply State.setPages_keeps | with_reducible apply State.modPort_keeps | with_reducible apply State.armSession_keeps | with_reducible apply Keeps.ite | with_reducible apply Keeps.foldl | with_reducible apply Keeps.foldlP | split | dsimp only | simp only [Keeps.upd])

theorem State.enterLost_keeps {k0 : State} {s : State} (p : Fin 4) (h_s : Keeps k0 s) :
    Keeps k0 (State.enterLost s p) := by
  unfold State.enterLost
  repeat' (first | with_reducible assumption | with_reducible intro _ | with_reducible apply State.modPort_keeps | with_reducible apply State.setRegF_keeps | with_reducible apply State.lostPolicy_keeps | with_reducible apply State.closeSession_keeps | with_reducible apply Keeps.ite | with_reducible apply Keeps.foldl | with_reducible apply Keeps.foldlP | split | dsimp only | simp only [Keeps.upd])

theorem State.savePowerOn_keeps {k0 : State} {s : State} (h_s : Keeps k0 s) :
    Keeps k0 (State.savePowerOn s) := by
  unfold State.savePowerOn
  repeat' (first | with_reducible assumption | with_reducible intro _ | with_reducible apply State.saveNor_keeps | with_reducible apply Keeps.ite | with_reducible apply Keeps.foldl | with_reducible apply Keeps.foldlP | split | dsimp only | simp only [Keeps.upd])

theorem State.l4_keeps {k0 : State} {s : State} (key : ℕ) (act : State → State) (h_s : Keeps k0 s) (h_act : ∀ u0, Keeps k0 u0 → Keeps k0 (act u0)) :
    Keeps k0 (State.l4 s key act) := by
  unfold State.l4
  repeat' (first | with_reducible assumption | with_reducible intro _ | with_reducible apply h_act | with_reducible apply State.escalateL5_keeps | with_reducible apply State.forgetSteps_keeps | with_reducible apply State.noteStep_keeps | with_reducible apply Keeps.ite | with_reducible apply Keeps.foldl | with_reducible apply Keeps.foldlP | split | dsimp only | simp only [Keeps.upd])

theorem State.fault_keeps {k0 : State} {s : State} (e : Ev) (h_s : Keeps k0 s) :
    Keeps k0 (State.fault s e) := by
  unfold State.fault
  repeat' (first | with_reducible assumption | with_reducible intro _ | with_reducible apply State.sweepRetired_keeps | with_reducible apply State.raise_keeps | with_reducible apply Keeps.ite | with_reducible apply Keeps.foldl | with_reducible apply Keeps.foldlP | split | dsimp only | simp only [Keeps.upd])

theorem State.linkDown_keeps {k0 : State} {s : State} (l : Fin 3) (h_s : Keeps k0 s) :
    Keeps k0 (State.linkDown s l) := by
  unfold State.linkDown
  repeat' (first | with_reducible assumption | with_reducible intro _ | with_reducible apply State.setLink_keeps | with_reducible apply State.count_keeps | with_reducible apply State.fault_keeps | with_reducible apply State.voidTrick_keeps | with_reducible apply Keeps.ite | with_reducible apply Keeps.foldl | with_reducible apply Keeps.foldlP | split | dsimp only | simp only [Keeps.upd])

theorem State.l4Link_keeps {k0 : State} {s : State} (l : Fin 3) (h_s : Keeps k0 s) :
    Keeps k0 (State.l4Link s l) := by
  unfold State.l4Link
  repeat' (first | with_reducible assumption | with_reducible intro _ | with_reducible apply State.l4_keeps | with_reducible apply State.clearBroken_keeps | with_reducible apply State.linkDown_keeps | with_reducible apply Keeps.ite | with_reducible apply Keeps.foldl | with_reducible apply Keeps.foldlP | split | dsimp only | simp only [Keeps.upd])

theorem State.fastRetrain_keeps {k0 : State} {s : State} (l : Fin 3) (h_s : Keeps k0 s) :
    Keeps k0 (State.fastRetrain s l) := by
  unfold State.fastRetrain
  repeat' (first | with_reducible assumption | with_reducible intro _ | with_reducible apply State.l4Link_keeps | with_reducible apply State.raise_keeps | with_reducible apply State.modLink_keeps | with_reducible apply Keeps.ite | with_reducible apply Keeps.foldl | with_reducible apply Keeps.foldlP | split | dsimp only | simp only [Keeps.upd])

theorem State.matReport_keeps {k0 : State} {s : State} (r : MatReq) (h_s : Keeps k0 s) :
    Keeps k0 (State.matReport s r) := by
  unfold State.matReport
  repeat' (first | with_reducible assumption | with_reducible intro _ | with_reducible apply State.reportRead_keeps | with_reducible apply Keeps.ite | with_reducible apply Keeps.foldl | with_reducible apply Keeps.foldlP | split | dsimp only | simp only [Keeps.upd])

theorem State.matServe_keeps {k0 : State} {s : State} (rds : List MatReq) (h_s : Keeps k0 s) :
    Keeps k0 (State.matServe s rds) := by
  unfold State.matServe
  repeat' (first | with_reducible assumption | with_reducible intro _ | with_reducible apply State.matReport_keeps | with_reducible apply Keeps.ite | with_reducible apply Keeps.foldl | with_reducible apply Keeps.foldlP | split | dsimp only | simp only [Keeps.upd])

theorem State.doFaultRead_keeps {k0 : State} {s : State} (t : Taken) (h_s : Keeps k0 s) :
    Keeps k0 (State.doFaultRead s t).s := by
  unfold State.doFaultRead
  repeat' (first | with_reducible assumption | with_reducible intro _ | with_reducible apply checks_keeps | with_reducible apply Keeps.ite | with_reducible apply Keeps.foldl | with_reducible apply Keeps.foldlP | split | dsimp only | simp only [Keeps.upd])

theorem State.sfuReport_keeps {k0 : State} {s : State} (f : Fin 4) (words : List ℕ) (h_s : Keeps k0 s) :
    Keeps k0 (State.sfuReport s f words) := by
  unfold State.sfuReport
  repeat' (first | with_reducible assumption | with_reducible intro _ | with_reducible apply State.fresh_keeps | with_reducible apply State.raise_keeps | with_reducible apply State.checkFail_keeps | with_reducible apply Keeps.ite | with_reducible apply Keeps.foldl | with_reducible apply Keeps.foldlP | split | dsimp only | simp only [Keeps.upd])

theorem State.runUserSfu_keeps {k0 : State} {s : State} (f : Fin 4) (q : ℕ) (w : IWord) (k : ℕ) (b : List Byte) (h_s : Keeps k0 s) :
    Keeps k0 (State.runUserSfu s f q w k b) := by
  unfold State.runUserSfu
  repeat' (first | with_reducible assumption | with_reducible intro _ | with_reducible apply State.finishVec_keeps | with_reducible apply State.sfuReport_keeps | with_reducible apply Keeps.ite | with_reducible apply Keeps.foldl | with_reducible apply Keeps.foldlP | split | dsimp only | simp only [Keeps.upd])

theorem State.modDealer_keeps {k0 : State} {s : State} (h : Dealer → Dealer) (h_s : Keeps k0 s) :
    Keeps k0 (State.modDealer s h) := by
  unfold State.modDealer
  repeat' (first | with_reducible assumption | with_reducible intro _ | with_reducible apply Keeps.ite | with_reducible apply Keeps.foldl | with_reducible apply Keeps.foldlP | split | dsimp only | simp only [Keeps.upd])

theorem State.startNext_keeps {k0 : State} {s : State} (g : DealerCfg) (h_s : Keeps k0 s) :
    Keeps k0 (State.startNext s g) := by
  unfold State.startNext
  repeat' (first | with_reducible assumption | with_reducible intro _ | with_reducible apply State.modDealer_keeps | with_reducible apply Keeps.ite | with_reducible apply Keeps.foldl | with_reducible apply Keeps.foldlP | split | dsimp only | simp only [Keeps.upd])

theorem State.setOverrun_keeps {k0 : State} {s : State} (p : Fin 4) (d : ℕ) (h_s : Keeps k0 s) :
    Keeps k0 (State.setOverrun s p d) := by
  unfold State.setOverrun
  repeat' (first | with_reducible assumption | with_reducible intro _ | with_reducible apply State.irq_keeps | with_reducible apply State.setRing_keeps | with_reducible apply Keeps.ite | with_reducible apply Keeps.foldl | with_reducible apply Keeps.foldlP | split | dsimp only | simp only [Keeps.upd])

theorem State.sqDoorbell_keeps {k0 : State} {s : State} (p : Fin 4) (d : ℕ) (v : Word) (h_s : Keeps k0 s) :
    Keeps k0 (State.sqDoorbell s p d v) := by
  unfold State.sqDoorbell
  repeat' (first | with_reducible assumption | with_reducible intro _ | with_reducible apply State.setOverrun_keeps | with_reducible apply State.irq_keeps | with_reducible apply State.setPages_keeps | with_reducible apply State.setRing_keeps | with_reducible apply Keeps.ite | with_reducible apply Keeps.foldl | with_reducible apply Keeps.foldlP | split | dsimp only | simp only [Keeps.upd])

theorem State.advanceHead_keeps {k0 : State} {s : State} (p : Fin 4) (d : ℕ) (h : ℕ) (h_s : Keeps k0 s) :
    Keeps k0 (State.advanceHead s p d h) := by
  unfold State.advanceHead
  repeat' (first | with_reducible assumption | with_reducible intro _ | with_reducible apply State.setPages_keeps | with_reducible apply State.setRing_keeps | with_reducible apply Keeps.ite | with_reducible apply Keeps.foldl | with_reducible apply Keeps.foldlP | split | dsimp only | simp only [Keeps.upd])

theorem State.consume_keeps {k0 : State} {s : State} (p : Fin 4) (d : ℕ) (n : ℕ) (h_s : Keeps k0 s) :
    Keeps k0 (State.consume s p d n) := by
  unfold State.consume
  repeat' (first | with_reducible assumption | with_reducible intro _ | with_reducible apply State.hostPut_keeps | with_reducible apply State.advanceHead_keeps | with_reducible apply State.setRing_keeps | with_reducible apply Keeps.ite | with_reducible apply Keeps.foldl | with_reducible apply Keeps.foldlP | split | dsimp only | simp only [Keeps.upd])

theorem State.flushUnknown_keeps {k0 : State} {s : State} (p : Fin 4) (d : ℕ) (h_s : Keeps k0 s) :
    Keeps k0 (State.flushUnknown s p d) := by
  unfold State.flushUnknown
  repeat' (first | with_reducible assumption | with_reducible intro _ | with_reducible apply State.complete_keeps | with_reducible apply Keeps.ite | with_reducible apply Keeps.foldl | with_reducible apply Keeps.foldlP | split | dsimp only | simp only [Keeps.upd])

theorem State.takeCmd_keeps {k0 : State} {s : State} (p : Fin 4) (d : ℕ) (n : ℕ) (h_s : Keeps k0 s) :
    Keeps k0 (State.takeCmd s p d n) := by
  unfold State.takeCmd
  repeat' (first | with_reducible assumption | with_reducible intro _ | with_reducible apply State.modRing_keeps | with_reducible apply State.consume_keeps | with_reducible apply State.flushUnknown_keeps | with_reducible apply State.ringPad_keeps | with_reducible apply Keeps.ite | with_reducible apply Keeps.foldl | with_reducible apply Keeps.foldlP | split | dsimp only | simp only [Keeps.upd])

theorem State.abandon_keeps {k0 : State} {s : State} (p : Fin 4) (d : ℕ) (h_s : Keeps k0 s) :
    Keeps k0 (State.abandon s p d) := by
  unfold State.abandon
  repeat' (first | with_reducible assumption | with_reducible intro _ | with_reducible apply State.hostZero_keeps | with_reducible apply State.advanceHead_keeps | with_reducible apply State.modRing_keeps | with_reducible apply Keeps.ite | with_reducible apply Keeps.foldl | with_reducible apply Keeps.foldlP | split | dsimp only | simp only [Keeps.upd])

theorem State.takeOne_keeps {k0 : State} {s : State} (p : Fin 4) (d : ℕ) (h_s : Keeps k0 s) :
    Keeps k0 (State.takeOne s p d) := by
  unfold State.takeOne
  repeat' (first | with_reducible assumption | with_reducible intro _ | with_reducible apply State.ringReset_keeps | with_reducible apply State.consume_keeps | with_reducible apply State.takeCmd_keeps | with_reducible apply State.abandon_keeps | with_reducible apply Keeps.ite | with_reducible apply Keeps.foldl | with_reducible apply Keeps.foldlP | split | dsimp only | simp only [Keeps.upd])

theorem State.takeAll_keeps {k0 s : State} (n : Nat) (p : Fin 4) (d : Nat) (h : Keeps k0 s) : Keeps k0 (State.takeAll n s p d) := by
  induction n generalizing s with
  | zero => exact h
  | succ n ih =>
    unfold State.takeAll
    split
    · exact h
    · split
      · exact h
      · exact ih (State.takeOne_keeps _ _ h)

theorem State.takeSqDb_keeps {k0 : State} {s : State} (p : Fin 4) (d : ℕ) (drop : Bool) (h_s : Keeps k0 s) :
    Keeps k0 (State.takeSqDb s p d drop) := by
  unfold State.takeSqDb
  repeat' (first | with_reducible assumption | with_reducible intro _ | with_reducible apply State.modPort_keeps | with_reducible apply State.sqDoorbell_keeps | with_reducible apply State.takeAll_keeps | with_reducible apply State.ringReset_keeps | with_reducible apply Keeps.ite | with_reducible apply Keeps.foldl | with_reducible apply Keeps.foldlP | split | dsimp only | simp only [Keeps.upd])

theorem State.reservePages_keeps {k0 : State} {s : State} (pool : ℕ) (l : List ℕ) (h_s : Keeps k0 s) :
    Keeps k0 (State.reservePages s pool l) := by
  unfold State.reservePages
  repeat' (first | with_reducible assumption | with_reducible intro _ | with_reducible apply Keeps.ite | with_reducible apply Keeps.foldl | with_reducible apply Keeps.foldlP | split | dsimp only | simp only [Keeps.upd])

theorem State.monitor_keeps {k0 : State} {s : State} (j : ℕ) (x : Job) (h_s : Keeps k0 s) :
    Keeps k0 (State.monitor s j x) := by
  unfold State.monitor
  repeat' (first | with_reducible assumption | with_reducible intro _ | with_reducible apply Keeps.ite | with_reducible apply Keeps.foldl | with_reducible apply Keeps.foldlP | split | dsimp only | simp only [Keeps.upd])

theorem State.enterJob_keeps {k0 : State} {s : State} (j : ℕ) (x : Job) (h_s : Keeps k0 s) :
    Keeps k0 (State.enterJob s j x) := by
  unfold State.enterJob
  repeat' (first | with_reducible assumption | with_reducible intro _ | with_reducible apply State.monitor_keeps | with_reducible apply State.setJob_keeps | with_reducible apply State.modPart_keeps | with_reducible apply Keeps.ite | with_reducible apply Keeps.foldl | with_reducible apply Keeps.foldlP | split | dsimp only | simp only [Keeps.upd])

theorem State.doSubmit_keeps {k0 : State} {s : State} (p : Fin 4) (t : Taken) (h_s : Keeps k0 s) :
    Keeps k0 (State.doSubmit s p t).s := by
  unfold State.doSubmit
  repeat' (first | with_reducible assumption | with_reducible intro _ | with_reducible apply refuse_keeps | with_reducible apply checks_keeps | with_reducible apply State.store_keeps | with_reducible apply State.reservePages_keeps | with_reducible apply State.enterJob_keeps | with_reducible apply Keeps.ite | with_reducible apply Keeps.foldl | with_reducible apply Keeps.foldlP | split | dsimp only | simp only [Keeps.upd])

theorem State.beginRotation_keeps {k0 : State} {s : State} (f : Fin 4) (h_s : Keeps k0 s) :
    Keeps k0 (State.beginRotation s f) := by
  unfold State.beginRotation
  repeat' (first | with_reducible assumption | with_reducible intro _ | with_reducible apply State.modFrond_keeps | with_reducible apply Keeps.ite | with_reducible apply Keeps.foldl | with_reducible apply Keeps.foldlP | split | dsimp only | simp only [Keeps.upd])

theorem State.beginPattern_keeps {k0 : State} {s : State} (f : Fin 4) (h_s : Keeps k0 s) :
    Keeps k0 (State.beginPattern s f) := by
  unfold State.beginPattern
  repeat' (first | with_reducible assumption | with_reducible intro _ | with_reducible apply Keeps.ite | with_reducible apply Keeps.foldl | with_reducible apply Keeps.foldlP | split | dsimp only | simp only [Keeps.upd])

theorem State.nextSegment_keeps {k0 s : State} (f : Fin 4) (h : Keeps k0 s) :
    ∀ a, s.nextSegment f = some a → Keeps k0 a.2.2 := by
  intro a g
  unfold State.nextSegment at g
  dsimp only at g
  have h1 := State.beginRotation_keeps f h
  have h2 := State.beginPattern_keeps f h
  by_cases hr : s.rotationDue f = true
  all_goals simp only [hr, if_true, if_false, Bool.false_eq_true] at g
  all_goals repeat' split at g
  all_goals first | (cases g; done) | (cases g; assumption)

theorem State.auxFrame_keeps {k0 : State} {s : State} (c : ℕ) (t : ℕ) (m : List Byte × ℕ) (h_s : Keeps k0 s) :
    Keeps k0 (State.auxFrame s c t m) := by
  unfold State.auxFrame
  repeat' (first | with_reducible assumption | with_reducible intro _ | with_reducible apply State.frameStart_keeps | with_reducible apply State.quarantine_keeps | with_reducible apply State.goodEnd_keeps | with_reducible apply State.modStream_keeps | with_reducible apply Keeps.ite | with_reducible apply Keeps.foldl | with_reducible apply Keeps.foldlP | split | dsimp only | simp only [Keeps.upd])

theorem State.dbgGoOn_keeps {k0 : State} {s : State} (h_s : Keeps k0 s) :
    Keeps k0 (State.dbgGoOn s) := by
  unfold State.dbgGoOn
  repeat' (first | with_reducible assumption | with_reducible intro _ | with_reducible apply State.accAnswer_keeps | with_reducible apply State.doDbg_keeps | with_reducible apply Keeps.ite | with_reducible apply Keeps.foldl | with_reducible apply Keeps.foldlP | split | dsimp only | simp only [Keeps.upd])

theorem State.replayTick_keeps {k0 : State} {s : State} (h_s : Keeps k0 s) :
    Keeps k0 (State.replayTick s) := by
  unfold State.replayTick
  repeat' (first | with_reducible assumption | with_reducible intro _ | with_reducible apply State.dbgGoOn_keeps | with_reducible apply Keeps.ite | with_reducible apply Keeps.foldl | with_reducible apply Keeps.foldlP | split | dsimp only | simp only [Keeps.upd])

theorem State.powerTick_keeps {k0 : State} {s : State} (h_s : Keeps k0 s) :
    Keeps k0 (State.powerTick s) := by
  unfold State.powerTick
  repeat' (first | with_reducible assumption | with_reducible intro _ | with_reducible apply Keeps.ite | with_reducible apply Keeps.foldl | with_reducible apply Keeps.foldlP | split | dsimp only | simp only [Keeps.upd])

theorem State.endPulses_keeps {k0 : State} {s : State} (h_s : Keeps k0 s) :
    Keeps k0 (State.endPulses s) := by
  unfold State.endPulses
  repeat' (first | with_reducible assumption | with_reducible intro _ | with_reducible apply Keeps.ite | with_reducible apply Keeps.foldl | with_reducible apply Keeps.foldlP | split | dsimp only | simp only [Keeps.upd])

theorem State.timeTick_keeps {k0 : State} {s : State} (h_s : Keeps k0 s) :
    Keeps k0 (State.timeTick s) := by
  unfold State.timeTick
  repeat' (first | with_reducible assumption | with_reducible intro _ | with_reducible apply State.endPulses_keeps | with_reducible apply State.applyStep_keeps | with_reducible apply Keeps.ite | with_reducible apply Keeps.foldl | with_reducible apply Keeps.foldlP | split | dsimp only | simp only [Keeps.upd])

theorem refclkTick_keeps {k0 : State} {s : State} (h_s : Keeps k0 s) :
    Keeps k0 (refclkTick s) := by
  unfold refclkTick
  repeat' (first | with_reducible assumption | with_reducible intro _ | with_reducible apply State.dramGoOn_keeps | with_reducible apply State.replayTick_keeps | with_reducible apply State.powerTick_keeps | with_reducible apply State.timeTick_keeps | with_reducible apply Keeps.ite | with_reducible apply Keeps.foldl | with_reducible apply Keeps.foldlP | split | dsimp only | simp only [Keeps.upd])

theorem State.doLaunchTrigger_keeps {k0 : State} {s : State} (t : Taken) (h_s : Keeps k0 s) :
    Keeps k0 (State.doLaunchTrigger s t).s := by
  unfold State.doLaunchTrigger
  repeat' (first | with_reducible assumption | with_reducible intro _ | with_reducible apply checks_keeps | with_reducible apply State.writeReg_keeps | with_reducible apply accept_keeps | with_reducible apply Keeps.ite | with_reducible apply Keeps.foldl | with_reducible apply Keeps.foldlP | split | dsimp only | simp only [Keeps.upd])

theorem State.l4Rhizoid_keeps {k0 : State} {s : State} (h_s : Keeps k0 s) :
    Keeps k0 (State.l4Rhizoid s) := by
  unfold State.l4Rhizoid
  repeat' (first | with_reducible assumption | with_reducible intro _ | with_reducible apply State.l4_keeps | with_reducible apply State.clearRegs_keeps | with_reducible apply State.clearBroken_keeps | with_reducible apply Keeps.ite | with_reducible apply Keeps.foldl | with_reducible apply Keeps.foldlP | split | dsimp only | simp only [Keeps.upd])

theorem State.l4Port_keeps {k0 : State} {s : State} (p : Fin 4) (h_s : Keeps k0 s) :
    Keeps k0 (State.l4Port s p) := by
  unfold State.l4Port
  repeat' (first | with_reducible assumption | with_reducible intro _ | with_reducible apply State.l4_keeps | with_reducible apply State.modPort_keeps | with_reducible apply State.zeroRange_keeps | with_reducible apply State.clearRegs_keeps | with_reducible apply State.lostPolicy_keeps | with_reducible apply State.clearBroken_keeps | with_reducible apply State.irq_keeps | with_reducible apply State.armSession_keeps | with_reducible apply Keeps.ite | with_reducible apply Keeps.foldl | with_reducible apply Keeps.foldlP | split | dsimp only | simp only [Keeps.upd])

theorem State.brokenReset_keeps {k0 : State} {s : State} (unit : ℕ) (h_s : Keeps k0 s) :
    Keeps k0 (State.brokenReset s unit) := by
  unfold State.brokenReset
  repeat' (first | with_reducible assumption | with_reducible intro _ | with_reducible apply State.l2_keeps | with_reducible apply State.l4Rhizoid_keeps | with_reducible apply State.l4Port_keeps | with_reducible apply State.l4Link_keeps | with_reducible apply Keeps.ite | with_reducible apply Keeps.foldl | with_reducible apply Keeps.foldlP | split | dsimp only | simp only [Keeps.upd])

theorem State.cqDoorbell_keeps {k0 : State} {s : State} (p : Fin 4) (d : ℕ) (v : Word) (h_s : Keeps k0 s) :
    Keeps k0 (State.cqDoorbell s p d v) := by
  unfold State.cqDoorbell
  repeat' (first | with_reducible assumption | with_reducible intro _ | with_reducible apply State.hostPut_keeps | with_reducible apply State.setRing_keeps | with_reducible apply State.setOverrun_keeps | with_reducible apply Keeps.ite | with_reducible apply Keeps.foldl | with_reducible apply Keeps.foldlP | split | dsimp only | simp only [Keeps.upd])

theorem State.noteConflict_keeps {k0 : State} {s : State} (f : Fin 4) (n : ℕ) (h_s : Keeps k0 s) :
    Keeps k0 (State.noteConflict s f n) := by
  unfold State.noteConflict
  repeat' (first | with_reducible assumption | with_reducible intro _ | with_reducible apply State.count_keeps | with_reducible apply Keeps.ite | with_reducible apply Keeps.foldl | with_reducible apply Keeps.foldlP | split | dsimp only | simp only [Keeps.upd])

theorem State.monitorSeal_keeps {k0 : State} {s : State} (j : ℕ) (x : Job) (late : Bool) (h_s : Keeps k0 s) :
    Keeps k0 (State.monitorSeal s j x late) := by
  unfold State.monitorSeal
  repeat' (first | with_reducible assumption | with_reducible intro _ | with_reducible apply Keeps.ite | with_reducible apply Keeps.foldl | with_reducible apply Keeps.foldlP | split | dsimp only | simp only [Keeps.upd])

theorem State.sealJob_keeps {k0 : State} {s : State} (j : ℕ) (x : Job) (h_s : Keeps k0 s) :
    Keeps k0 (State.sealJob s j x) := by
  unfold State.sealJob
  repeat' (first | with_reducible assumption | with_reducible intro _ | with_reducible apply State.held_keeps | with_reducible apply State.count_keeps | with_reducible apply State.endInstance_keeps | with_reducible apply State.monitorSeal_keeps | with_reducible apply Keeps.ite | with_reducible apply Keeps.foldl | with_reducible apply Keeps.foldlP | split | dsimp only | simp only [Keeps.upd])

theorem State.missedInjection_keeps {k0 : State} {s : State} (u : WidowUnit) (h_s : Keeps k0 s) :
    Keeps k0 (State.missedInjection s u) := by
  unfold State.missedInjection
  repeat' (first | with_reducible assumption | with_reducible intro _ | with_reducible apply State.holdFrond_keeps | with_reducible apply State.raise_keeps | with_reducible apply Keeps.ite | with_reducible apply Keeps.foldl | with_reducible apply Keeps.foldlP | split | dsimp only | simp only [Keeps.upd])

theorem State.endHold_keeps {k0 : State} {s : State} (f : Fin 4) (cause : ℕ) (seg : ℕ) (h_s : Keeps k0 s) :
    Keeps k0 (State.endHold s f cause seg) := by
  unfold State.endHold
  repeat' (first | with_reducible assumption | with_reducible intro _ | with_reducible apply State.modFrond_keeps | with_reducible apply Keeps.ite | with_reducible apply Keeps.foldl | with_reducible apply Keeps.foldlP | split | dsimp only | simp only [Keeps.upd])

theorem State.comparatorTest_keeps {k0 : State} {s : State} (u : WidowUnit) (missed : Bool) (h_s : Keeps k0 s) :
    Keeps k0 (State.comparatorTest s u missed) := by
  unfold State.comparatorTest
  repeat' (first | with_reducible assumption | with_reducible intro _ | with_reducible apply State.count_keeps | with_reducible apply State.missedInjection_keeps | with_reducible apply State.endHold_keeps | with_reducible apply Keeps.ite | with_reducible apply Keeps.foldl | with_reducible apply Keeps.foldlP | split | dsimp only | simp only [Keeps.upd])

theorem State.thallusWidow_keeps {k0 : State} {s : State} (u : WidowUnit) (missed : Bool) (h_s : Keeps k0 s) :
    Keeps k0 (State.thallusWidow s u missed) := by
  unfold State.thallusWidow
  repeat' (first | with_reducible assumption | with_reducible intro _ | with_reducible apply State.comparatorTest_keeps | with_reducible apply Keeps.ite | with_reducible apply Keeps.foldl | with_reducible apply Keeps.foldlP | split | dsimp only | simp only [Keeps.upd])

theorem State.checkerPassed_keeps {k0 : State} {s : State} (u : ℕ) (h_s : Keeps k0 s) :
    Keeps k0 (State.checkerPassed s u) := by
  unfold State.checkerPassed
  repeat' (first | with_reducible assumption | with_reducible intro _ | with_reducible apply State.endHold_keeps | with_reducible apply Keeps.ite | with_reducible apply Keeps.foldl | with_reducible apply Keeps.foldlP | split | dsimp only | simp only [Keeps.upd])

theorem State.checkerMissed_keeps {k0 : State} {s : State} (u : ℕ) (h_s : Keeps k0 s) :
    Keeps k0 (State.checkerMissed s u) := by
  unfold State.checkerMissed
  repeat' (first | with_reducible assumption | with_reducible intro _ | with_reducible apply State.raise_keeps | with_reducible apply State.count_keeps | with_reducible apply State.enterAll_keeps | with_reducible apply State.holdFrond_keeps | with_reducible apply Keeps.ite | with_reducible apply Keeps.foldl | with_reducible apply Keeps.foldlP | split | dsimp only | simp only [Keeps.upd])

theorem State.doDealerStart_keeps {k0 : State} {s : State} (t : Taken) (h_s : Keeps k0 s) :
    Keeps k0 (State.doDealerStart s t).s := by
  unfold State.doDealerStart
  repeat' (first | with_reducible assumption | with_reducible intro _ | with_reducible apply refuse_keeps | with_reducible apply checks_keeps | with_reducible apply State.reportRead_keeps | with_reducible apply State.clearRegs_keeps | with_reducible apply Keeps.ite | with_reducible apply Keeps.foldl | with_reducible apply Keeps.foldlP | split | dsimp only | simp only [Keeps.upd])

theorem State.clearDeckRegs_keeps {k0 : State} {s : State} (f : Fin 4) (h_s : Keeps k0 s) :
    Keeps k0 (State.clearDeckRegs s f) := by
  unfold State.clearDeckRegs
  repeat' (first | with_reducible assumption | with_reducible intro _ | with_reducible apply State.setReg_keeps | with_reducible apply Keeps.ite | with_reducible apply Keeps.foldl | with_reducible apply Keeps.foldlP | split | dsimp only | simp only [Keeps.upd])

theorem State.doDeckSwitch_keeps {k0 : State} {s : State} (t : Taken) (h_s : Keeps k0 s) :
    Keeps k0 (State.doDeckSwitch s t).s := by
  unfold State.doDeckSwitch
  repeat' (first | with_reducible assumption | with_reducible intro _ | with_reducible apply refuse_keeps | with_reducible apply checks_keeps | with_reducible apply State.modPart_keeps | with_reducible apply State.clearDeckRegs_keeps | with_reducible apply Keeps.ite | with_reducible apply Keeps.foldl | with_reducible apply Keeps.foldlP | split | dsimp only | simp only [Keeps.upd])

theorem State.putConfig_keeps {k0 : State} {s : State} (r : Fin 4) (b : List Byte) (base : ℕ) (h_s : Keeps k0 s) :
    Keeps k0 (State.putConfig s r b base) := by
  unfold State.putConfig
  repeat' (first | with_reducible assumption | with_reducible intro _ | with_reducible apply State.clearRegs_keeps | with_reducible apply State.setReg_keeps | with_reducible apply State.extendMb_keeps | with_reducible apply State.showErrs_keeps | with_reducible apply State.streamState_keeps | with_reducible apply State.setStream_keeps | with_reducible apply Keeps.ite | with_reducible apply Keeps.foldl | with_reducible apply Keeps.foldlP | split | dsimp only | simp only [Keeps.upd])

theorem State.doStreamConfig_keeps {k0 : State} {s : State} (p : Fin 4) (t : Taken) (h_s : Keeps k0 s) :
    Keeps k0 (State.doStreamConfig s p t).s := by
  unfold State.doStreamConfig
  repeat' (first | with_reducible assumption | with_reducible intro _ | with_reducible apply checks_keeps | with_reducible apply accept_keeps | with_reducible apply State.extendMb_keeps | with_reducible apply State.releaseStream_keeps | with_reducible apply State.reportRead_keeps | with_reducible apply State.putConfig_keeps | with_reducible apply State.storeChecked_keeps | with_reducible apply Keeps.ite | with_reducible apply Keeps.foldl | with_reducible apply Keeps.foldlP | split | dsimp only | simp only [Keeps.upd])

theorem tcanon_cells {α : Type} [DecidableEq α] (d : Nat → α) (cs l : List (Nat × α)) (h : tcanon d l = true) :
    tcanon d (cs.foldl (fun m c => tset d m c.1 c.2) l) = true := by
  induction cs generalizing l with
  | nil => exact h
  | cons c t ih => exact ih _ (tcanon_tset _ _ _ _ h)

theorem State.unhold_keeps {k0 s : State} (i : Held) (h : Keeps k0 s) : Keeps k0 (s.unhold i) := by
  rcases i with ⟨a, n, old⟩ | ⟨p, d, old⟩ | ⟨j, old, pools, seqs, ages⟩ | ⟨l, k⟩
  · refine h.mem rfl rfl rfl fun w => ?_
    simp only [State.unhold, Memory.wf, Bool.and_eq_true] at *
    exact ⟨⟨tcanon_cells _ _ _ (tcanon_tdrop _ _ _ w.1.1), w.1.2⟩, w.2⟩
  · unfold State.unhold; exact State.modPort_keeps _ _ h
  · exact h.of rfl rfl rfl rfl id rfl (Nat.le_refl _)
  · unfold State.unhold; exact State.modLink_keeps _ _ h

theorem State.discardHeld_keeps {k0 : State} {s : State} (h_s : Keeps k0 s) :
    Keeps k0 (State.discardHeld s) := by
  unfold State.discardHeld
  repeat' (first | with_reducible assumption | with_reducible intro _ | with_reducible apply State.unhold_keeps | with_reducible apply Keeps.ite | with_reducible apply Keeps.foldl | with_reducible apply Keeps.foldlP | split | dsimp only | simp only [Keeps.upd])

theorem State.doHealthRead_keeps {k0 : State} {s : State} (t : Taken) (h_s : Keeps k0 s) :
    Keeps k0 (State.doHealthRead s t).s := by
  unfold State.doHealthRead
  repeat' (first | with_reducible assumption | with_reducible intro _ | with_reducible apply checks_keeps | with_reducible apply Keeps.ite | with_reducible apply Keeps.foldl | with_reducible apply Keeps.foldlP | split | dsimp only | simp only [Keeps.upd])

theorem State.doLoadw_keeps {k0 : State} {s : State} (f : Fin 4) (q : ℕ) (w : IWord) (h_s : Keeps k0 s) :
    Keeps k0 (State.doLoadw s f q w) := by
  unfold State.doLoadw
  repeat' (first | with_reducible assumption | with_reducible intro _ | with_reducible apply State.modFrond_keeps | with_reducible apply State.issueIns_keeps | with_reducible apply State.orFault_keeps | with_reducible apply State.loadRow_keeps | with_reducible apply Keeps.ite | with_reducible apply Keeps.foldl | with_reducible apply Keeps.foldlP | split | dsimp only | simp only [Keeps.upd])

theorem State.setStage_keeps {k0 : State} {s : State} (p : Fin 4) (l : List Byte) (ok : Bool) (h_s : Keeps k0 s) :
    Keeps k0 (State.setStage s p l ok) := by
  unfold State.setStage
  repeat' (first | with_reducible assumption | with_reducible intro _ | with_reducible apply Keeps.ite | with_reducible apply Keeps.foldl | with_reducible apply Keeps.foldlP | split | dsimp only | simp only [Keeps.upd])

theorem State.appendStage_keeps {k0 : State} {s : State} (p : Fin 4) (bytes : List Byte) (h_s : Keeps k0 s) :
    Keeps k0 (State.appendStage s p bytes).s := by
  unfold State.appendStage
  repeat' (first | with_reducible assumption | with_reducible intro _ | with_reducible apply refuse_keeps | with_reducible apply State.setStage_keeps | with_reducible apply Keeps.ite | with_reducible apply Keeps.foldl | with_reducible apply Keeps.foldlP | split | dsimp only | simp only [Keeps.upd])

theorem State.matWrite_keeps {k0 : State} {s : State} (r : MatReq) (h_s : Keeps k0 s) :
    Keeps k0 (State.matWrite s r) := by
  unfold State.matWrite
  repeat' (first | with_reducible assumption | with_reducible intro _ | with_reducible apply State.storeChecked_keeps | with_reducible apply State.putBlock_keeps | with_reducible apply Keeps.ite | with_reducible apply Keeps.foldl | with_reducible apply Keeps.foldlP | split | dsimp only | simp only [Keeps.upd])

theorem State.matHold_keeps {k0 : State} {s : State} (win : List MatReq) (lost : List MatReq) (h_s : Keeps k0 s) :
    Keeps k0 (State.matHold s win lost) := by
  unfold State.matHold
  repeat' (first | with_reducible assumption | with_reducible intro _ | with_reducible apply State.matReport_keeps | with_reducible apply Keeps.ite | with_reducible apply Keeps.foldl | with_reducible apply Keeps.foldlP | split | dsimp only | simp only [Keeps.upd])

theorem State.freeBytes_keeps {k0 s : State} (n : Nat) (h : Keeps k0 s) : Keeps k0 (s.freeBytes n).2 := by
  induction n generalizing s with
  | zero => exact h
  | succ n ih => exact ih (State.fresh_keeps h)

theorem State.unsent_keeps {k0 : State} {s : State} (mac : ℕ) (l : Launch) (h_s : Keeps k0 s) :
    Keeps k0 (State.unsent s mac l) := by
  unfold State.unsent
  repeat' (first | with_reducible assumption | with_reducible intro _ | with_reducible apply State.freeBytes_keeps | with_reducible apply State.notice_keeps | with_reducible apply Keeps.ite | with_reducible apply Keeps.foldl | with_reducible apply Keeps.foldlP | split | dsimp only | simp only [Keeps.upd])

theorem State.allUnsent_keeps {k0 : State} {s : State} (h_s : Keeps k0 s) :
    Keeps k0 (State.allUnsent s) := by
  unfold State.allUnsent
  repeat' (first | with_reducible assumption | with_reducible intro _ | with_reducible apply State.unsent_keeps | with_reducible apply Keeps.ite | with_reducible apply Keeps.foldl | with_reducible apply Keeps.foldlP | split | dsimp only | simp only [Keeps.upd])

theorem State.saveMat_keeps {k0 : State} {s : State} (h_s : Keeps k0 s) :
    Keeps k0 (State.saveMat s) := by
  unfold State.saveMat
  repeat' (first | with_reducible assumption | with_reducible intro _ | with_reducible apply State.reportCheckWord_keeps | with_reducible apply State.reportMarks_keeps | with_reducible apply State.zeroRange_keeps | with_reducible apply State.wr_keeps | with_reducible apply State.setBcw_keeps | with_reducible apply Keeps.ite | with_reducible apply Keeps.foldl | with_reducible apply Keeps.foldlP | split | dsimp only | simp only [Keeps.upd])

theorem State.doGroupLeave_keeps {k0 : State} {s : State} (t : Taken) (h_s : Keeps k0 s) :
    Keeps k0 (State.doGroupLeave s t).s := by
  unfold State.doGroupLeave
  repeat' (first | with_reducible assumption | with_reducible intro _ | with_reducible apply refuse_keeps | with_reducible apply accept_keeps | with_reducible apply State.sweepRetired_keeps | with_reducible apply State.leaveGroup_keeps | with_reducible apply Keeps.ite | with_reducible apply Keeps.foldl | with_reducible apply Keeps.foldlP | split | dsimp only | simp only [Keeps.upd])

theorem State.spArb_keeps {k0 : State} {s : State} (f : Fin 4) (reqs : List SpReq) (h_s : Keeps k0 s) :
    Keeps k0 (State.spArb s f reqs).2.1 := by
  unfold State.spArb
  repeat' (first | with_reducible assumption | with_reducible intro _ | with_reducible apply State.noteConflict_keeps | with_reducible apply State.noteRace_keeps | with_reducible apply Keeps.ite | with_reducible apply Keeps.foldl | with_reducible apply Keeps.foldlP | split | dsimp only | simp only [Keeps.upd])

theorem State.holdRows_keeps {k0 : State} {s : State} (f : Fin 4) (rows : List ℕ) (lost : List SpReq) (h_s : Keeps k0 s) :
    Keeps k0 (State.holdRows s f rows lost) := by
  unfold State.holdRows
  repeat' (first | with_reducible assumption | with_reducible intro _ | with_reducible apply State.modFrond_keeps | with_reducible apply State.reportMarks_keeps | with_reducible apply Keeps.ite | with_reducible apply Keeps.foldl | with_reducible apply Keeps.foldlP | split | dsimp only | simp only [Keeps.upd])

theorem State.spEnd_keeps {k0 : State} {s : State} (f : Fin 4) (op : Option ℕ) (h_s : Keeps k0 s) :
    Keeps k0 (State.spEnd s f op) := by
  unfold State.spEnd
  repeat' (first | with_reducible assumption | with_reducible intro _ | with_reducible apply State.progFault_keeps | with_reducible apply Keeps.ite | with_reducible apply Keeps.foldl | with_reducible apply Keeps.foldlP | split | dsimp only | simp only [Keeps.upd])

theorem State.spWriteCmd_keeps {k0 s : State} (f : Fin 4) (reqs : List SpReq) (act : State → SpReq → State × Bool)
    (h : Keeps k0 s) (ha : ∀ u a, Keeps k0 u → Keeps k0 (act u a).1) : Keeps k0 (s.spWriteCmd f reqs act) := by
  cases reqs with
  | nil => exact h
  | cons a rest =>
    unfold State.spWriteCmd
    have h1 := State.spArb_keeps f (a :: rest) h
    rcases e : s.spArb f (a :: rest) with ⟨win, s1, op⟩
    rw [e] at h1
    dsimp only at h1 ⊢
    repeat' (first | with_reducible assumption | with_reducible apply ha | with_reducible intro _ | with_reducible apply h_act | with_reducible apply State.spArb_keeps | with_reducible apply State.holdRows_keeps | with_reducible apply State.spEnd_keeps | with_reducible apply State.progFault_keeps | with_reducible apply Keeps.ite | with_reducible apply Keeps.foldl | with_reducible apply Keeps.foldlP | split | dsimp only | simp only [Keeps.upd])

theorem State.mrWrite_keeps {k0 : State} {s : State} (p : Fin 4) (ma : ℕ) (op : Byte) (h_s : Keeps k0 s) :
    Keeps k0 (State.mrWrite s p ma op) := by
  unfold State.mrWrite
  repeat' (first | with_reducible assumption | with_reducible intro _ | with_reducible apply State.hpcCount_keeps | with_reducible apply State.proto_keeps | with_reducible apply State.modPort_keeps | with_reducible apply Keeps.ite | with_reducible apply Keeps.foldl | with_reducible apply Keeps.foldlP | split | dsimp only | simp only [Keeps.upd])

theorem State.trainDram_keeps {k0 : State} {s : State} (b : BootFacts) (h_s : Keeps k0 s) :
    Keeps k0 (State.trainDram s b) := by
  unfold State.trainDram
  repeat' (first | with_reducible assumption | with_reducible intro _ | with_reducible apply State.raise_keeps | with_reducible apply Keeps.ite | with_reducible apply Keeps.foldl | with_reducible apply Keeps.foldlP | split | dsimp only | simp only [Keeps.upd])

theorem State.porStart_keeps {k0 : State} {s0 : State} (b : BootFacts) (h_s0 : Keeps k0 s0) :
    Keeps k0 (State.porStart s0 b) := by
  unfold State.porStart
  repeat' (first | with_reducible assumption | with_reducible intro _ | with_reducible apply State.modPort_keeps | with_reducible apply State.setReg_keeps | with_reducible apply Keeps.ite | with_reducible apply Keeps.foldl | with_reducible apply Keeps.foldlP | split | dsimp only | simp only [Keeps.upd])

theorem State.debugFailed_keeps {k0 : State} {s : State} (h_s : Keeps k0 s) :
    Keeps k0 (State.debugFailed s) := by
  unfold State.debugFailed
  repeat' (first | with_reducible assumption | with_reducible intro _ | with_reducible apply State.count_keeps | with_reducible apply Keeps.ite | with_reducible apply Keeps.foldl | with_reducible apply Keeps.foldlP | split | dsimp only | simp only [Keeps.upd])

theorem State.discardFlit_keeps {k0 : State} {s : State} (l : Fin 3) (h_s : Keeps k0 s) :
    Keeps k0 (State.discardFlit s l) := by
  unfold State.discardFlit
  repeat' (first | with_reducible assumption | with_reducible intro _ | with_reducible apply State.count_keeps | with_reducible apply State.fastRetrain_keeps | with_reducible apply State.modLink_keeps | with_reducible apply Keeps.ite | with_reducible apply Keeps.foldl | with_reducible apply Keeps.foldlP | split | dsimp only | simp only [Keeps.upd])

theorem State.startReplay_keeps {k0 : State} {s : State} (l : Fin 3) (h_s : Keeps k0 s) :
    Keeps k0 (State.startReplay s l) := by
  unfold State.startReplay
  repeat' (first | with_reducible assumption | with_reducible intro _ | with_reducible apply State.count_keeps | with_reducible apply State.modLink_keeps | with_reducible apply State.raise_keeps | with_reducible apply Keeps.ite | with_reducible apply Keeps.foldl | with_reducible apply Keeps.foldlP | split | dsimp only | simp only [Keeps.upd])

theorem State.takeFlit_keeps {k0 : State} {s : State} (l : Fin 3) (fl : List Byte) (h_s : Keeps k0 s) :
    Keeps k0 (State.takeFlit s l fl) := by
  unfold State.takeFlit
  repeat' (first | with_reducible assumption | with_reducible intro _ | with_reducible apply State.discardFlit_keeps | with_reducible apply State.modLink_keeps | with_reducible apply State.startReplay_keeps | with_reducible apply Keeps.ite | with_reducible apply Keeps.foldl | with_reducible apply Keeps.foldlP | split | dsimp only | simp only [Keeps.upd])

theorem State.missing_keeps {k0 : State} {s : State} (a : AgeEntry) (h_s : Keeps k0 s) :
    Keeps k0 (State.missing s a) := by
  unfold State.missing
  repeat' (first | with_reducible assumption | with_reducible intro _ | with_reducible apply State.fault_keeps | with_reducible apply State.notice_keeps | with_reducible apply State.count_keeps | with_reducible apply Keeps.ite | with_reducible apply Keeps.foldl | with_reducible apply Keeps.foldlP | split | dsimp only | simp only [Keeps.upd])

theorem State.markIcheck_keeps {k0 : State} {s : State} (unit : ℕ) (kind : ℕ) (sub : ℕ) (h_s : Keeps k0 s) :
    Keeps k0 (State.markIcheck s unit kind sub) := by
  unfold State.markIcheck
  repeat' (first | with_reducible assumption | with_reducible intro _ | with_reducible apply State.modDealer_keeps | with_reducible apply State.modStream_keeps | with_reducible apply Keeps.ite | with_reducible apply Keeps.foldl | with_reducible apply Keeps.foldlP | split | dsimp only | simp only [Keeps.upd])

theorem State.eventReact_keeps {k0 : State} {s : State} (e : FaultInfo) (w : Who) (h_s : Keeps k0 s) :
    Keeps k0 (State.eventReact s e w) := by
  unfold State.eventReact
  repeat' (first | with_reducible assumption | with_reducible intro _ | with_reducible apply State.checkFail_keeps | with_reducible apply State.markIcheck_keeps | with_reducible apply State.modFrond_keeps | with_reducible apply State.l1On_keeps | with_reducible apply State.raise_keeps | with_reducible apply State.modJob_keeps | with_reducible apply State.l2_keeps | with_reducible apply Keeps.ite | with_reducible apply Keeps.foldl | with_reducible apply Keeps.foldlP | split | dsimp only | simp only [Keeps.upd])

theorem State.doAlloc_keeps {k0 : State} {s : State} (t : Taken) (h_s : Keeps k0 s) :
    Keeps k0 (State.doAlloc s t).s := by
  unfold State.doAlloc
  repeat' (first | with_reducible assumption | with_reducible intro _ | with_reducible apply checks_keeps | with_reducible apply State.zeroMat_keeps | with_reducible apply State.zeroRange_keeps | with_reducible apply Keeps.ite | with_reducible apply Keeps.foldl | with_reducible apply Keeps.foldlP | split | dsimp only | simp only [Keeps.upd])

theorem State.addSeq_keeps {k0 : State} {s : State} (x : Seq) (h_s : Keeps k0 s) :
    Keeps k0 (State.addSeq s x).s := by
  unfold State.addSeq
  repeat' (first | with_reducible assumption | with_reducible intro _ | with_reducible apply Keeps.ite | with_reducible apply Keeps.foldl | with_reducible apply Keeps.foldlP | split | dsimp only | simp only [Keeps.upd])

theorem State.flushBlock_keeps {k0 : State} {s : State} (p : Fin 4) (a : ℕ) (j : ℕ) (addr : ℕ) (h_s : Keeps k0 s) :
    Keeps k0 (State.flushBlock s p a j addr) := by
  unfold State.flushBlock
  repeat' (first | with_reducible assumption | with_reducible intro _ | with_reducible apply State.reportMarks_keeps | with_reducible apply State.putBlock_keeps | with_reducible apply Keeps.ite | with_reducible apply Keeps.foldl | with_reducible apply Keeps.foldlP | split | dsimp only | simp only [Keeps.upd])

theorem State.doFlush_keeps {k0 : State} {s : State} (p : Fin 4) (t : Taken) (h_s : Keeps k0 s) :
    Keeps k0 (State.doFlush s p t).s := by
  unfold State.doFlush
  repeat' (first | with_reducible assumption | with_reducible intro _ | with_reducible apply State.aperCmd_keeps | with_reducible apply State.flushBlock_keeps | with_reducible apply Keeps.ite | with_reducible apply Keeps.foldl | with_reducible apply Keeps.foldlP | split | dsimp only | simp only [Keeps.upd])

theorem State.doMap_keeps {k0 : State} {s : State} (p : Fin 4) (t : Taken) (h_s : Keeps k0 s) :
    Keeps k0 (State.doMap s p t).s := by
  unfold State.doMap
  repeat' (first | with_reducible assumption | with_reducible intro _ | with_reducible apply checks_keeps | with_reducible apply State.unmapAper_keeps | with_reducible apply accept_keeps | with_reducible apply State.modPort_keeps | with_reducible apply State.aperPages_keeps | with_reducible apply Keeps.ite | with_reducible apply Keeps.foldl | with_reducible apply Keeps.foldlP | split | dsimp only | simp only [Keeps.upd])

theorem State.checkAdvance_keeps {k0 : State} {s : State} (f : Fin 4) (k : ℕ) (h_s : Keeps k0 s) :
    Keeps k0 (State.checkAdvance s f k) := by
  unfold State.checkAdvance
  repeat' (first | with_reducible assumption | with_reducible intro _ | with_reducible apply State.modFrond_keeps | with_reducible apply State.count_keeps | with_reducible apply Keeps.ite | with_reducible apply Keeps.foldl | with_reducible apply Keeps.foldlP | split | dsimp only | simp only [Keeps.upd])

theorem State.checkPassed_keeps {k0 : State} {s : State} (f : Fin 4) (k : ℕ) (h_s : Keeps k0 s) :
    Keeps k0 (State.checkPassed s f k) := by
  unfold State.checkPassed
  repeat' (first | with_reducible assumption | with_reducible intro _ | with_reducible apply State.endHold_keeps | with_reducible apply Keeps.ite | with_reducible apply Keeps.foldl | with_reducible apply Keeps.foldlP | split | dsimp only | simp only [Keeps.upd])

theorem State.noteFailed_keeps {k0 : State} {s : State} (f : Fin 4) (h_s : Keeps k0 s) :
    Keeps k0 (State.noteFailed s f) := by
  unfold State.noteFailed
  repeat' (first | with_reducible assumption | with_reducible intro _ | with_reducible apply Keeps.ite | with_reducible apply Keeps.foldl | with_reducible apply Keeps.foldlP | split | dsimp only | simp only [Keeps.upd])

theorem State.checkFailed_keeps {k0 : State} {s : State} (f : Fin 4) (k : ℕ) (h_s : Keeps k0 s) :
    Keeps k0 (State.checkFailed s f k) := by
  unfold State.checkFailed
  repeat' (first | with_reducible assumption | with_reducible intro _ | with_reducible apply State.count_keeps | with_reducible apply State.enterAll_keeps | with_reducible apply State.holdFrond_keeps | with_reducible apply State.raise_keeps | with_reducible apply State.noteFailed_keeps | with_reducible apply Keeps.ite | with_reducible apply Keeps.foldl | with_reducible apply Keeps.foldlP | split | dsimp only | simp only [Keeps.upd])

theorem State.patternFailed_keeps {k0 : State} {s : State} (f : Fin 4) (e : List Byte) (h_s : Keeps k0 s) :
    Keeps k0 (State.patternFailed s f e) := by
  unfold State.patternFailed
  repeat' (first | with_reducible assumption | with_reducible intro _ | with_reducible apply State.raise_keeps | with_reducible apply State.sweepRetired_keeps | with_reducible apply State.noteFailed_keeps | with_reducible apply State.count_keeps | with_reducible apply Keeps.ite | with_reducible apply Keeps.foldl | with_reducible apply Keeps.foldlP | split | dsimp only | simp only [Keeps.upd])

theorem State.patternAdvance_keeps {k0 : State} {s : State} (f : Fin 4) (i : ℕ) (h_s : Keeps k0 s) :
    Keeps k0 (State.patternAdvance s f i) := by
  unfold State.patternAdvance
  repeat' (first | with_reducible assumption | with_reducible intro _ | with_reducible apply Keeps.ite | with_reducible apply Keeps.foldl | with_reducible apply Keeps.foldlP | split | dsimp only | simp only [Keeps.upd])

theorem State.locateAdvance_keeps {k0 : State} {s : State} (f : Fin 4) (i : ℕ) (h_s : Keeps k0 s) :
    Keeps k0 (State.locateAdvance s f i) := by
  unfold State.locateAdvance
  repeat' (first | with_reducible assumption | with_reducible intro _ | with_reducible apply Keeps.ite | with_reducible apply Keeps.foldl | with_reducible apply Keeps.foldlP | split | dsimp only | simp only [Keeps.upd])

theorem State.doRelease_keeps {k0 : State} {s : State} (p : Fin 4) (t : Taken) (h_s : Keeps k0 s) :
    Keeps k0 (State.doRelease s p t).s := by
  unfold State.doRelease
  repeat' (first | with_reducible assumption | with_reducible intro _ | with_reducible apply checks_keeps | with_reducible apply accept_keeps | with_reducible apply State.releaseAll_keeps | with_reducible apply Keeps.ite | with_reducible apply Keeps.foldl | with_reducible apply Keeps.foldlP | split | dsimp only | simp only [Keeps.upd])

theorem State.doDeckLoad_keeps {k0 : State} {s : State} (t : Taken) (h_s : Keeps k0 s) :
    Keeps k0 (State.doDeckLoad s t).s := by
  unfold State.doDeckLoad
  repeat' (first | with_reducible assumption | with_reducible intro _ | with_reducible apply State.reportRead_keeps | with_reducible apply State.extendMb_keeps | with_reducible apply State.modPart_keeps | with_reducible apply Keeps.ite | with_reducible apply Keeps.foldl | with_reducible apply Keeps.foldlP | split | dsimp only | simp only [Keeps.upd])

theorem State.sendFrame_keeps {k0 : State} {s : State} (m : Fin 8) (fr : List Byte) (h_s : Keeps k0 s) :
    Keeps k0 (State.sendFrame s m fr) := by
  unfold State.sendFrame
  repeat' (first | with_reducible assumption | with_reducible intro _ | with_reducible apply Keeps.ite | with_reducible apply Keeps.foldl | with_reducible apply Keeps.foldlP | split | dsimp only | simp only [Keeps.upd])

theorem State.doLaunchFrame_keeps {k0 : State} {s : State} (t : Taken) (h_s : Keeps k0 s) :
    Keeps k0 (State.doLaunchFrame s t).s := by
  unfold State.doLaunchFrame
  repeat' (first | with_reducible assumption | with_reducible intro _ | with_reducible apply checks_keeps | with_reducible apply Keeps.ite | with_reducible apply Keeps.foldl | with_reducible apply Keeps.foldlP | split | dsimp only | simp only [Keeps.upd])

theorem State.domainStep_keeps {k0 : State} {s : State} (d : ℕ) (h_s : Keeps k0 s) :
    Keeps k0 (State.domainStep s d) := by
  unfold State.domainStep
  repeat' (first | with_reducible assumption | with_reducible intro _ | with_reducible apply State.l2_keeps | with_reducible apply State.l4Link_keeps | with_reducible apply State.l4Rhizoid_keeps | with_reducible apply State.l5_keeps | with_reducible apply Keeps.ite | with_reducible apply Keeps.foldl | with_reducible apply Keeps.foldlP | split | dsimp only | simp only [Keeps.upd])

theorem State.landBlock_keeps {k0 : State} {s : State} (l : Fin 3) (g : Group) (e : ℕ) (inst : ℕ) (src : ℕ) (blk : ℕ) (data : List Byte) (bcw : Word) (h_s : Keeps k0 s) :
    Keeps k0 (State.landBlock s l g e inst src blk data bcw) := by
  unfold State.landBlock
  repeat' (first | with_reducible assumption | with_reducible intro _ | with_reducible apply State.putBlock_keeps | with_reducible apply State.reportBcw_keeps | with_reducible apply State.modTrick_keeps | with_reducible apply Keeps.ite | with_reducible apply Keeps.foldl | with_reducible apply Keeps.foldlP | split | dsimp only | simp only [Keeps.upd])

theorem State.dmaDone_keeps {k0 : State} {s : State} (f : Fin 4) (ch : ℕ) (r : DmaRun) (h_s : Keeps k0 s) :
    Keeps k0 (State.dmaDone s f ch r) := by
  unfold State.dmaDone
  repeat' (first | with_reducible assumption | with_reducible intro _ | with_reducible apply State.finishIns_keeps | with_reducible apply State.modFrond_keeps | with_reducible apply Keeps.ite | with_reducible apply Keeps.foldl | with_reducible apply Keeps.foldlP | split | dsimp only | simp only [Keeps.upd])

theorem State.dmaStore_keeps {k0 : State} {s : State} (w : Who) (a : ℕ) (l : List Byte) (h_s : Keeps k0 s) :
    Keeps k0 (State.dmaStore s w a l).1 := by
  unfold State.dmaStore
  repeat' (first | with_reducible assumption | with_reducible intro _ | with_reducible apply State.spStore_keeps | with_reducible apply State.storeChecked_keeps | with_reducible apply Keeps.ite | with_reducible apply Keeps.foldl | with_reducible apply Keeps.foldlP | split | dsimp only | simp only [Keeps.upd])

theorem State.trickFault_keeps {k0 : State} {r : State × Bool} (w : Who) (entry : ℕ) (h_r : Keeps k0 r.1) :
    Keeps k0 (State.trickFault r w entry).1 := by
  unfold State.trickFault
  repeat' (first | with_reducible assumption | with_reducible intro _ | with_reducible apply State.modJob_keeps | with_reducible apply Keeps.ite | with_reducible apply Keeps.foldl | with_reducible apply Keeps.foldlP | split | dsimp only | simp only [Keeps.upd])

theorem State.bumpInst_keeps {k0 : State} {s : State} (key : Word) (e : ℕ) (h_s : Keeps k0 s) :
    Keeps k0 (State.bumpInst s key e) := by
  unfold State.bumpInst
  repeat' (first | with_reducible assumption | with_reducible intro _ | with_reducible apply Keeps.ite | with_reducible apply Keeps.foldl | with_reducible apply Keeps.foldlP | split | dsimp only | simp only [Keeps.upd])

theorem State.closeOwn_keeps {k0 : State} {s : State} (w : Who) (g : Group) (e : ℕ) (inst : ℕ) (h_s : Keeps k0 s) :
    Keeps k0 (State.closeOwn s w g e inst) := by
  unfold State.closeOwn
  repeat' (first | with_reducible assumption | with_reducible intro _ | with_reducible apply State.checkFail_keeps | with_reducible apply State.count_keeps | with_reducible apply State.modTrick_keeps | with_reducible apply State.sendClose_keeps | with_reducible apply State.settle_keeps | with_reducible apply State.bumpInst_keeps | with_reducible apply Keeps.ite | with_reducible apply Keeps.foldl | with_reducible apply Keeps.foldlP | split | dsimp only | simp only [Keeps.upd])

theorem State.contribute_keeps {k0 : State} {s : State} (w : Who) (f : Fin 4) (q : ℕ) (g : Group) (e : ℕ) (blk : ℕ) (h_s : Keeps k0 s) :
    Keeps k0 (State.contribute s w f q g e blk).1 := by
  unfold State.contribute
  repeat' (first | with_reducible assumption | with_reducible intro _ | with_reducible apply State.openTrick_keeps | with_reducible apply State.modTrick_keeps | with_reducible apply State.modJob_keeps | with_reducible apply State.checkBlock_keeps | with_reducible apply State.sendBlock_keeps | with_reducible apply State.closeOwn_keeps | with_reducible apply Keeps.ite | with_reducible apply Keeps.foldl | with_reducible apply Keeps.foldlP | split | dsimp only | simp only [Keeps.upd])

theorem State.dmaTrick_keeps {k0 : State} {s : State} (w : Who) (f : Fin 4) (q : ℕ) (u : DmaUnit) (h_s : Keeps k0 s) :
    Keeps k0 (State.dmaTrick s w f q u).1 := by
  unfold State.dmaTrick
  repeat' (first | with_reducible assumption | with_reducible intro _ | with_reducible apply State.contribute_keeps | with_reducible apply Keeps.ite | with_reducible apply Keeps.foldl | with_reducible apply Keeps.foldlP | split | dsimp only | simp only [Keeps.upd])

theorem State.landUnit_keeps {k0 : State} {s : State} (w : Who) (f : Fin 4) (r : DmaRun) (u : DmaUnit) (h_s : Keeps k0 s) :
    Keeps k0 (State.landUnit s w f r u).1 := by
  unfold State.landUnit
  repeat' (first | with_reducible assumption | with_reducible intro _ | with_reducible apply State.dmaStore_keeps | with_reducible apply State.setBcw_keeps | with_reducible apply State.trickFault_keeps | with_reducible apply State.dmaTrick_keeps | with_reducible apply Keeps.ite | with_reducible apply Keeps.foldl | with_reducible apply Keeps.foldlP | split | dsimp only | simp only [Keeps.upd])

theorem State.dmaTake_keeps {k0 : State} {s : State} (f : Fin 4) (ch : ℕ) (r : DmaRun) (u : DmaUnit) (rest : List DmaUnit) (h_s : Keeps k0 s) :
    Keeps k0 (State.dmaTake s f ch r u rest).1 := by
  unfold State.dmaTake
  repeat' (first | with_reducible assumption | with_reducible intro _ | with_reducible apply State.checkFail_keeps | with_reducible apply State.landUnit_keeps | with_reducible apply State.dmaDone_keeps | with_reducible apply State.modFrond_keeps | with_reducible apply Keeps.ite | with_reducible apply Keeps.foldl | with_reducible apply Keeps.foldlP | split | dsimp only | simp only [Keeps.upd])

theorem State.dmaArrive_keeps {k0 : State} {s : State} (f : Fin 4) (ch : ℕ) (r : DmaRun) (u : DmaUnit) (rest : List DmaUnit) (h_s : Keeps k0 s) :
    Keeps k0 (State.dmaArrive s f ch r u rest) := by
  unfold State.dmaArrive
  repeat' (first | with_reducible assumption | with_reducible intro _ | with_reducible apply State.orFault_keeps | with_reducible apply State.dmaTake_keeps | with_reducible apply Keeps.ite | with_reducible apply Keeps.foldl | with_reducible apply Keeps.foldlP | split | dsimp only | simp only [Keeps.upd])

theorem State.addTally_keeps {k0 : State} {s : State} (f : Fin 4) (v : DWord) (h_s : Keeps k0 s) :
    Keeps k0 (State.addTally s f v) := by
  unfold State.addTally
  repeat' (first | with_reducible assumption | with_reducible intro _ | with_reducible apply State.setReg_keeps | with_reducible apply Keeps.ite | with_reducible apply Keeps.foldl | with_reducible apply Keeps.foldlP | split | dsimp only | simp only [Keeps.upd])

theorem State.drainEntry_keeps {k0 : State} {s : State} (f : Fin 4) (r : DrainRun) (h_s : Keeps k0 s) :
    Keeps k0 (State.drainEntry s f r) := by
  unfold State.drainEntry
  repeat' (first | with_reducible assumption | with_reducible intro _ | with_reducible apply State.addTally_keeps | with_reducible apply State.drainCheck_keeps | with_reducible apply State.reportFetch_keeps | with_reducible apply State.setNonfinite_keeps | with_reducible apply State.checkFailAt_keeps | with_reducible apply State.modFrond_keeps | with_reducible apply Keeps.ite | with_reducible apply Keeps.foldl | with_reducible apply Keeps.foldlP | split | dsimp only | simp only [Keeps.upd])

theorem loadFail_keeps {k0 : State} (b : BadCheck) {s : State} (h_s : Keeps k0 s) :
    Keeps k0 (loadFail b s).s := by
  unfold loadFail
  repeat' (first | with_reducible assumption | with_reducible intro _ | with_reducible apply Keeps.ite | with_reducible apply Keeps.foldl | with_reducible apply Keeps.foldlP | split | dsimp only | simp only [Keeps.upd])

theorem State.placeImage_keeps {k0 : State} {s : State} (f : Fin 4) (row : ℕ) (img : List Byte) (h_s : Keeps k0 s) :
    Keeps k0 (State.placeImage s f row img) := by
  unfold State.placeImage
  repeat' (first | with_reducible assumption | with_reducible intro _ | with_reducible apply State.setResbase_keeps | with_reducible apply State.store_keeps | with_reducible apply Keeps.ite | with_reducible apply Keeps.foldl | with_reducible apply Keeps.foldlP | split | dsimp only | simp only [Keeps.upd])

theorem State.enterProg_keeps {k0 : State} {s : State} (r : Fin 4) (base : ℕ) (low : ℕ) (row : ℕ) (h : ℕ) (obj : List Byte) (h_s : Keeps k0 s) :
    Keeps k0 (State.enterProg s r base low row h obj) := by
  unfold State.enterProg
  repeat' (first | with_reducible assumption | with_reducible intro _ | with_reducible apply State.placeImage_keeps | with_reducible apply State.extendMb_keeps | with_reducible apply State.loadSfu_keeps | with_reducible apply Keeps.ite | with_reducible apply Keeps.foldl | with_reducible apply Keeps.foldlP | split | dsimp only | simp only [Keeps.upd])

theorem State.doProgLoad_keeps {k0 : State} {s : State} (t : Taken) (h_s : Keeps k0 s) :
    Keeps k0 (State.doProgLoad s t).s := by
  unfold State.doProgLoad
  repeat' (first | with_reducible assumption | with_reducible intro _ | with_reducible apply loadFail_keeps | with_reducible apply State.reportRead_keeps | with_reducible apply State.enterProg_keeps | with_reducible apply Keeps.ite | with_reducible apply Keeps.foldl | with_reducible apply Keeps.foldlP | split | dsimp only | simp only [Keeps.upd])

theorem State.twinPair_keeps {k0 : State} {s : State} (j : ℕ) (x : Job) (key : ℕ) (same : Bool) (h_s : Keeps k0 s) :
    Keeps k0 (State.twinPair s j x key same) := by
  unfold State.twinPair
  repeat' (first | with_reducible assumption | with_reducible intro _ | with_reducible apply State.modJob_keeps | with_reducible apply State.checkFail_keeps | with_reducible apply State.count_keeps | with_reducible apply Keeps.ite | with_reducible apply Keeps.foldl | with_reducible apply Keeps.foldlP | split | dsimp only | simp only [Keeps.upd])

theorem State.armRing_keeps {k0 : State} {s : State} (p : Fin 4) (d : ℕ) (e : DirEnt) (h_s : Keeps k0 s) :
    Keeps k0 (State.armRing s p d e) := by
  unfold State.armRing
  repeat' (first | with_reducible assumption | with_reducible intro _ | with_reducible apply State.setRing_keeps | with_reducible apply State.setPages_keeps | with_reducible apply Keeps.ite | with_reducible apply Keeps.foldl | with_reducible apply Keeps.foldlP | split | dsimp only | simp only [Keeps.upd])

theorem State.hotExact_keeps {k0 : State} {s : State} (h_s : Keeps k0 s) :
    Keeps k0 (State.hotExact s) := by
  unfold State.hotExact
  repeat' (first | with_reducible assumption | with_reducible intro _ | with_reducible apply State.noteHot_keeps | with_reducible apply Keeps.ite | with_reducible apply Keeps.foldl | with_reducible apply Keeps.foldlP | split | dsimp only | simp only [Keeps.upd])

theorem State.doClaim_keeps {k0 : State} {s : State} (p : Fin 4) (t : Taken) (h_s : Keeps k0 s) :
    Keeps k0 (State.doClaim s p t).s := by
  unfold State.doClaim
  repeat' (first | with_reducible assumption | with_reducible intro _ | with_reducible apply refuse_keeps | with_reducible apply checks_keeps | with_reducible apply State.armRing_keeps | with_reducible apply State.modPart_keeps | with_reducible apply State.applyOps_keeps | with_reducible apply State.hotExact_keeps | with_reducible apply State.setReg_keeps | with_reducible apply Keeps.ite | with_reducible apply Keeps.foldl | with_reducible apply Keeps.foldlP | split | dsimp only | simp only [Keeps.upd])

theorem State.pageWrite_keeps {k0 : State} {s : State} (w : Who) (a : ℕ) (old : List Byte) (new : List Byte) (h_s : Keeps k0 s) :
    Keeps k0 (State.pageWrite s w a old new) := by
  unfold State.pageWrite
  repeat' (first | with_reducible assumption | with_reducible intro _ | with_reducible apply State.mergeIn_keeps | with_reducible apply State.checkBlock_keeps | with_reducible apply State.reportMarks_keeps | with_reducible apply Keeps.ite | with_reducible apply Keeps.foldl | with_reducible apply Keeps.foldlP | split | dsimp only | simp only [Keeps.upd])

theorem State.appendSpan_keeps {k0 : State} {s : State} (w : Who) (f : Fin 4) (t : SorusF) (d : SorusD) (gen : ℕ) (x : StepSlot) (k : ℕ) (v : Bool) (h_s : Keeps k0 s) :
    Keeps k0 (State.appendSpan s w f t d gen x k v) := by
  unfold State.appendSpan
  repeat' (first | with_reducible assumption | with_reducible intro _ | with_reducible apply State.reportRead_keeps | with_reducible apply State.checkFail_keeps | with_reducible apply State.overlapEnd_keeps | with_reducible apply State.pageWrite_keeps | with_reducible apply Keeps.ite | with_reducible apply Keeps.foldl | with_reducible apply Keeps.foldlP | split | dsimp only | simp only [Keeps.upd])

theorem State.appendSlot_keeps {k0 : State} {s : State} (w : Who) (f : Fin 4) (t : SorusF) (d : SorusD) (x : StepSlot) (h_s : Keeps k0 s) :
    Keeps k0 (State.appendSlot s w f t d x) := by
  unfold State.appendSlot
  repeat' (first | with_reducible assumption | with_reducible intro _ | with_reducible apply State.appendSpan_keeps | with_reducible apply State.count_keeps | with_reducible apply Keeps.ite | with_reducible apply Keeps.foldl | with_reducible apply Keeps.foldlP | split | dsimp only | simp only [Keeps.upd])

theorem State.doSorusAppend_keeps {k0 : State} {s : State} (f : Fin 4) (q : ℕ) (w : IWord) (h_s : Keeps k0 s) :
    Keeps k0 (State.doSorusAppend s f q w) := by
  unfold State.doSorusAppend
  repeat' (first | with_reducible assumption | with_reducible intro _ | with_reducible apply State.setNonfinite_keeps | with_reducible apply State.reportFetch_keeps | with_reducible apply State.checkStep_keeps | with_reducible apply State.issueIns_keeps | with_reducible apply State.appendSlot_keeps | with_reducible apply State.finishIns_keeps | with_reducible apply State.sorStatus_keeps | with_reducible apply Keeps.ite | with_reducible apply Keeps.foldl | with_reducible apply Keeps.foldlP | split | dsimp only | simp only [Keeps.upd])

theorem State.doStage_keeps {k0 : State} {s : State} (p : Fin 4) (t : Taken) (h_s : Keeps k0 s) :
    Keeps k0 (State.doStage s p t).s := by
  unfold State.doStage
  repeat' (first | with_reducible assumption | with_reducible intro _ | with_reducible apply refuse_keeps | with_reducible apply State.setStage_keeps | with_reducible apply State.appendStage_keeps | with_reducible apply State.reportRead_keeps | with_reducible apply Keeps.ite | with_reducible apply Keeps.foldl | with_reducible apply Keeps.foldlP | split | dsimp only | simp only [Keeps.upd])

theorem State.doGroupForm_keeps {k0 : State} {s : State} (t : Taken) (h_s : Keeps k0 s) :
    Keeps k0 (State.doGroupForm s t).s := by
  unfold State.doGroupForm
  repeat' (first | with_reducible assumption | with_reducible intro _ | with_reducible apply refuse_keeps | with_reducible apply State.reportRead_keeps | with_reducible apply checks_keeps | with_reducible apply State.sendPeers_keeps | with_reducible apply Keeps.ite | with_reducible apply Keeps.foldl | with_reducible apply Keeps.foldlP | split | dsimp only | simp only [Keeps.upd])

theorem State.startGolden_keeps {k0 : State} {s : State} (f : Fin 4) (r : Fin 4) (c : Card) (h_s : Keeps k0 s) :
    Keeps k0 (State.startGolden s f r c) := by
  unfold State.startGolden
  repeat' (first | with_reducible assumption | with_reducible intro _ | with_reducible apply State.modFrond_keeps | with_reducible apply State.goldenMiss_keeps | with_reducible apply State.setJob_keeps | with_reducible apply State.checkBlock_keeps | with_reducible apply State.reportMarks_keeps | with_reducible apply Keeps.ite | with_reducible apply Keeps.foldl | with_reducible apply Keeps.foldlP | split | dsimp only | simp only [Keeps.upd])

theorem State.openCard_keeps {k0 : State} {s : State} (f : Fin 4) (r : Fin 4) (x : Part) (b : Bank) (c : Card) (i : ℕ) (h_s : Keeps k0 s) :
    Keeps k0 (State.openCard s f r x b c i) := by
  unfold State.openCard
  repeat' (first | with_reducible assumption | with_reducible intro _ | with_reducible apply State.modFrond_keeps | with_reducible apply State.startGolden_keeps | with_reducible apply Keeps.ite | with_reducible apply Keeps.foldl | with_reducible apply Keeps.foldlP | split | dsimp only | simp only [Keeps.upd])

theorem State.abortBlock_keeps {k0 : State} {s : State} (a : ℕ) (h_s : Keeps k0 s) :
    Keeps k0 (State.abortBlock s a) := by
  unfold State.abortBlock
  repeat' (first | with_reducible assumption | with_reducible intro _ | with_reducible apply State.putBlock_keeps | with_reducible apply Keeps.ite | with_reducible apply Keeps.foldl | with_reducible apply Keeps.foldlP | split | dsimp only | simp only [Keeps.upd])

theorem State.enterRow_keeps {k0 : State} {s : State} (f : Fin 4) (r : StreamRun) (h_s : Keeps k0 s) :
    Keeps k0 (State.enterRow s f r).1 := by
  unfold State.enterRow
  repeat' (first | with_reducible assumption | with_reducible intro _ | with_reducible apply State.setNonfinite_keeps | with_reducible apply State.reportFetch_keeps | with_reducible apply State.modFrond_keeps | with_reducible apply Keeps.ite | with_reducible apply Keeps.foldl | with_reducible apply Keeps.foldlP | split | dsimp only | simp only [Keeps.upd])

theorem State.loadClock_keeps {k0 : State} {s : State} (f : Fin 4) (h_s : Keeps k0 s) :
    Keeps k0 (State.loadClock s f).1 := by
  unfold State.loadClock
  repeat' (first | with_reducible assumption | with_reducible intro _ | with_reducible apply State.loadRow_keeps | with_reducible apply Keeps.ite | with_reducible apply Keeps.foldl | with_reducible apply Keeps.foldlP | split | dsimp only | simp only [Keeps.upd])

theorem State.setCounter_keeps {k0 : State} {s : State} (w : Who) (r : Fin 4) (c : ℕ) (v : Word) (l : Word) (h_s : Keeps k0 s) :
    Keeps k0 (State.setCounter s w r c v l) := by
  unfold State.setCounter
  repeat' (first | with_reducible assumption | with_reducible intro _ | with_reducible apply State.storeChecked_keeps | with_reducible apply Keeps.ite | with_reducible apply Keeps.foldl | with_reducible apply Keeps.foldlP | split | dsimp only | simp only [Keeps.upd])

theorem State.setLevel_keeps {k0 : State} {s : State} (level : ℕ) (key : ℕ) (h_s : Keeps k0 s) :
    Keeps k0 (State.setLevel s level key) := by
  unfold State.setLevel
  repeat' (first | with_reducible assumption | with_reducible intro _ | with_reducible apply State.modFrond_keeps | with_reducible apply Keeps.ite | with_reducible apply Keeps.foldl | with_reducible apply Keeps.foldlP | split | dsimp only | simp only [Keeps.upd])

theorem State.debugOpened_keeps {k0 : State} {s : State} (level : ℕ) (key : ℕ) (h_s : Keeps k0 s) :
    Keeps k0 (State.debugOpened s level key) := by
  unfold State.debugOpened
  repeat' (first | with_reducible assumption | with_reducible intro _ | with_reducible apply State.extendMb_keeps | with_reducible apply State.setLevel_keeps | with_reducible apply State.raise_keeps | with_reducible apply State.count_keeps | with_reducible apply Keeps.ite | with_reducible apply Keeps.foldl | with_reducible apply Keeps.foldlP | split | dsimp only | simp only [Keeps.upd])

theorem State.debugAnswer_keeps {k0 : State} {s : State} (level : ℕ) (key : ℕ) (c : BitVec 256) (rs : BitVec 512) (h_s : Keeps k0 s) :
    Keeps k0 (State.debugAnswer s level key c rs).2 := by
  unfold State.debugAnswer
  repeat' (first | with_reducible assumption | with_reducible intro _ | with_reducible apply State.debugOpened_keeps | with_reducible apply State.debugFailed_keeps | with_reducible apply Keeps.ite | with_reducible apply Keeps.foldl | with_reducible apply Keeps.foldlP | split | dsimp only | simp only [Keeps.upd])

theorem State.chalAnswer_keeps {k0 : State} {s : State} (a : TapSt) (c : BitVec 256) (h_s : Keeps k0 s) :
    Keeps k0 (State.chalAnswer s a c) := by
  unfold State.chalAnswer
  repeat' (first | with_reducible assumption | with_reducible intro _ | with_reducible apply Keeps.ite | with_reducible apply Keeps.foldl | with_reducible apply Keeps.foldlP | split | dsimp only | simp only [Keeps.upd])

theorem State.doHello_keeps {k0 : State} {s : State} (p : Fin 4) (t : Taken) (h_s : Keeps k0 s) :
    Keeps k0 (State.doHello s p t).s := by
  unfold State.doHello
  repeat' (first | with_reducible assumption | with_reducible intro _ | with_reducible apply refuse_keeps | with_reducible apply State.modPort_keeps | with_reducible apply Keeps.ite | with_reducible apply Keeps.foldl | with_reducible apply Keeps.foldlP | split | dsimp only | simp only [Keeps.upd])

theorem State.sorusPv_keeps {k0 : State} {s : State} (f : Fin 4) (q : ℕ) (w : IWord) (h_s : Keeps k0 s) :
    Keeps k0 (State.sorusPv s f q w).1 := by
  unfold State.sorusPv
  repeat' (first | with_reducible assumption | with_reducible intro _ | with_reducible apply State.sorusFetch_keeps | with_reducible apply State.checkStep_keeps | with_reducible apply State.issueIns_keeps | with_reducible apply State.sorusCheck_keeps | with_reducible apply State.setNonfinite_keeps | with_reducible apply State.sorusSets_keeps | with_reducible apply State.modFrond_keeps | with_reducible apply State.spStoreAll_keeps | with_reducible apply State.count_keeps | with_reducible apply State.sorStatus_keeps | with_reducible apply State.finishIns_keeps | with_reducible apply Keeps.ite | with_reducible apply Keeps.foldl | with_reducible apply Keeps.foldlP | split | dsimp only | simp only [Keeps.upd])

theorem State.doSorusPv_keeps {k0 : State} {s : State} (f : Fin 4) (q : ℕ) (w : IWord) (h_s : Keeps k0 s) :
    Keeps k0 (State.doSorusPv s f q w) := by
  unfold State.doSorusPv
  repeat' (first | with_reducible assumption | with_reducible intro _ | with_reducible apply State.orFault_keeps | with_reducible apply State.sorusPv_keeps | with_reducible apply Keeps.ite | with_reducible apply Keeps.foldl | with_reducible apply Keeps.foldlP | split | dsimp only | simp only [Keeps.upd])

theorem State.logRec_keeps {k0 : State} {s : State} (g : DealerCfg) (r : RecDone) (h_s : Keeps k0 s) :
    Keeps k0 (State.logRec s g r) := by
  unfold State.logRec
  repeat' (first | with_reducible assumption | with_reducible intro _ | with_reducible apply State.storeChecked_keeps | with_reducible apply State.modDealer_keeps | with_reducible apply Keeps.ite | with_reducible apply Keeps.foldl | with_reducible apply Keeps.foldlP | split | dsimp only | simp only [Keeps.upd])

theorem State.deliverNext_keeps {k0 : State} {s : State} (g : DealerCfg) (h_s : Keeps k0 s) :
    Keeps k0 (State.deliverNext s g) := by
  unfold State.deliverNext
  repeat' (first | with_reducible assumption | with_reducible intro _ | with_reducible apply State.modDealer_keeps | with_reducible apply State.notice_keeps | with_reducible apply Keeps.ite | with_reducible apply Keeps.foldl | with_reducible apply Keeps.foldlP | split | dsimp only | simp only [Keeps.upd])

theorem State.feedFrame_keeps {k0 : State} {s : State} (g : DealerCfg) (c : ℕ) (r : RecDone) (h_s : Keeps k0 s) :
    Keeps k0 (State.feedFrame s g c r) := by
  unfold State.feedFrame
  repeat' (first | with_reducible assumption | with_reducible intro _ | with_reducible apply State.frameStart_keeps | with_reducible apply State.quarantine_keeps | with_reducible apply State.modStream_keeps | with_reducible apply State.badEnd_keeps | with_reducible apply State.goodEnd_keeps | with_reducible apply Keeps.ite | with_reducible apply Keeps.foldl | with_reducible apply Keeps.foldlP | split | dsimp only | simp only [Keeps.upd])

theorem State.skipJobs_keeps {k0 : State} {s : State} (c : ℕ) (r : RecDone) (h_s : Keeps k0 s) :
    Keeps k0 (State.skipJobs s c r) := by
  unfold State.skipJobs
  repeat' (first | with_reducible assumption | with_reducible intro _ | with_reducible apply State.jobDone_keeps | with_reducible apply Keeps.ite | with_reducible apply Keeps.foldl | with_reducible apply Keeps.foldlP | split | dsimp only | simp only [Keeps.upd])

theorem State.missRec_keeps {k0 : State} {s : State} (c : ℕ) (r : RecDone) (h_s : Keeps k0 s) :
    Keeps k0 (State.missRec s c r) := by
  unfold State.missRec
  repeat' (first | with_reducible assumption | with_reducible intro _ | with_reducible apply State.modStream_keeps | with_reducible apply State.degrade_keeps | with_reducible apply State.showErrs_keeps | with_reducible apply State.count_keeps | with_reducible apply State.skipJobs_keeps | with_reducible apply Keeps.ite | with_reducible apply Keeps.foldl | with_reducible apply Keeps.foldlP | split | dsimp only | simp only [Keeps.upd])

theorem State.doQuota_keeps {k0 : State} {s : State} (t : Taken) (h_s : Keeps k0 s) :
    Keeps k0 (State.doQuota s t).s := by
  unfold State.doQuota
  repeat' (first | with_reducible assumption | with_reducible intro _ | with_reducible apply refuse_keeps | with_reducible apply checks_keeps | with_reducible apply State.modPart_keeps | with_reducible apply State.overQuota_keeps | with_reducible apply Keeps.ite | with_reducible apply Keeps.foldl | with_reducible apply Keeps.foldlP | split | dsimp only | simp only [Keeps.upd])

theorem State.doFork_keeps {k0 : State} {s : State} (t : Taken) (h_s : Keeps k0 s) :
    Keeps k0 (State.doFork s t).s := by
  unfold State.doFork
  repeat' (first | with_reducible assumption | with_reducible intro _ | with_reducible apply refuse_keeps | with_reducible apply checks_keeps | with_reducible apply State.addSeq_keeps | with_reducible apply Keeps.ite | with_reducible apply Keeps.foldl | with_reducible apply Keeps.foldlP | split | dsimp only | simp only [Keeps.upd])

theorem State.verifySlot_keeps {k0 : State} {s : State} (g : Group) (e : ℕ) (inst : ℕ) (src : ℕ) (nblk : ℕ) (etype : ℕ) (tally : DWord) (h_s : Keeps k0 s) :
    Keeps k0 (State.verifySlot s g e inst src nblk etype tally) := by
  unfold State.verifySlot
  repeat' (first | with_reducible assumption | with_reducible intro _ | with_reducible apply State.modTrick_keeps | with_reducible apply State.settle_keeps | with_reducible apply State.voidTrick_keeps | with_reducible apply State.count_keeps | with_reducible apply Keeps.ite | with_reducible apply Keeps.foldl | with_reducible apply Keeps.foldlP | split | dsimp only | simp only [Keeps.upd])

theorem State.dropAt_keeps {k0 : State} {s : State} (p : Fin 4) (x : ℕ) (h_s : Keeps k0 s) :
    Keeps k0 (State.dropAt s p x) := by
  unfold State.dropAt
  repeat' (first | with_reducible assumption | with_reducible intro _ | with_reducible apply State.setOverrun_keeps | with_reducible apply State.dropWrite_keeps | with_reducible apply Keeps.ite | with_reducible apply Keeps.foldl | with_reducible apply Keeps.foldlP | split | dsimp only | simp only [Keeps.upd])

theorem State.cpWrite_keeps {k0 : State} {s : State} (p : Fin 4) (x : ℕ) (d : List Byte) (h_s : Keeps k0 s) :
    Keeps k0 (State.cpWrite s p x d) := by
  unfold State.cpWrite
  repeat' (first | with_reducible assumption | with_reducible intro _ | with_reducible apply State.modPort_keeps | with_reducible apply Keeps.ite | with_reducible apply Keeps.foldl | with_reducible apply Keeps.foldlP | split | dsimp only | simp only [Keeps.upd])

theorem State.winWrite_keeps {k0 : State} {s : State} (p : Fin 4) (x : ℕ) (d : List Byte) (h_s : Keeps k0 s) :
    Keeps k0 (State.winWrite s p x d) := by
  unfold State.winWrite
  repeat' (first | with_reducible assumption | with_reducible intro _ | with_reducible apply State.dropAt_keeps | with_reducible apply State.cpWrite_keeps | with_reducible apply State.hpcCount_keeps | with_reducible apply State.put_keeps | with_reducible apply Keeps.ite | with_reducible apply Keeps.foldl | with_reducible apply Keeps.foldlP | split | dsimp only | simp only [Keeps.upd])

theorem State.readWords_keeps {k0 s : State} (q : Fin 4) (l : List Nat) (h : Keeps k0 s) : Keeps k0 (s.readWords q l).2 := by
  induction l generalizing s with
  | nil => exact h
  | cons o t ih => exact ih (State.readAny_keeps _ _ h)

theorem State.doRegRead_keeps {k0 : State} {s : State} (t : Taken) (h_s : Keeps k0 s) :
    Keeps k0 (State.doRegRead s t).s := by
  unfold State.doRegRead
  repeat' (first | with_reducible assumption | with_reducible intro _ | with_reducible apply checks_keeps | with_reducible apply State.readWords_keeps | with_reducible apply Keeps.ite | with_reducible apply Keeps.foldl | with_reducible apply Keeps.foldlP | split | dsimp only | simp only [Keeps.upd])

theorem State.doDebugEnd_keeps {k0 : State} {s : State} (t : Taken) (h_s : Keeps k0 s) :
    Keeps k0 (State.doDebugEnd s t).s := by
  unfold State.doDebugEnd
  repeat' (first | with_reducible assumption | with_reducible intro _ | with_reducible apply State.closeDebug_keeps | with_reducible apply refuse_keeps | with_reducible apply State.debugAnswer_keeps | with_reducible apply Keeps.ite | with_reducible apply Keeps.foldl | with_reducible apply Keeps.foldlP | split | dsimp only | simp only [Keeps.upd])

theorem State.cameraLine_keeps {k0 : State} {s : State} (c : ℕ) (dt : ℕ) (crcOk : Bool) (pl : List Byte) (h_s : Keeps k0 s) :
    Keeps k0 (State.cameraLine s c dt crcOk pl) := by
  unfold State.cameraLine
  repeat' (first | with_reducible assumption | with_reducible intro _ | with_reducible apply State.quarantine_keeps | with_reducible apply State.modStream_keeps | with_reducible apply State.errFrame_keeps | with_reducible apply Keeps.ite | with_reducible apply Keeps.foldl | with_reducible apply Keeps.foldlP | split | dsimp only | simp only [Keeps.upd])

theorem State.embedded_keeps {k0 : State} {s : State} (c : ℕ) (crcOk : Bool) (pl : List Byte) (h_s : Keeps k0 s) :
    Keeps k0 (State.embedded s c crcOk pl) := by
  unfold State.embedded
  repeat' (first | with_reducible assumption | with_reducible intro _ | with_reducible apply State.modStream_keeps | with_reducible apply State.errFrame_keeps | with_reducible apply Keeps.ite | with_reducible apply Keeps.foldl | with_reducible apply Keeps.foldlP | split | dsimp only | simp only [Keeps.upd])

theorem State.workTake_keeps {k0 : State} {s : State} (f : Fin 4) (q : ℕ) (w : IWord) (r : Fin 4) (h_s : Keeps k0 s) :
    Keeps k0 (State.workTake s f q w r).1 := by
  unfold State.workTake
  repeat' (first | with_reducible assumption | with_reducible intro _ | with_reducible apply State.reportMarks_keeps | with_reducible apply State.checkFail_keeps | with_reducible apply State.setCounter_keeps | with_reducible apply State.spStore_keeps | with_reducible apply State.runIns_keeps | with_reducible apply Keeps.ite | with_reducible apply Keeps.foldl | with_reducible apply Keeps.foldlP | split | dsimp only | simp only [Keeps.upd])

end Sys2Proof.Machine
end

