-- ==== Sys2Proof/Laws/KeepsExec.lean ====
section
/-! SUPPORT. What every command but POR_N_ASSERT keeps (Laws/Keeps.lean). -/

namespace Sys2Proof.Machine

theorem execDramWriteback_keeps (c : Fin 16) (s : State) :
    KeepsOut s (execDramWriteback c s) := by
  have h0 := Keeps.rfl' s
  unfold execDramWriteback
  repeat' (first | with_reducible assumption | with_reducible intro _ | with_reducible apply KeepsOut.next | with_reducible apply KeepsOut.fault | with_reducible apply State.writeBack_keeps | with_reducible apply Keeps.ite | with_reducible apply Keeps.foldl | with_reducible apply Keeps.foldlP | split | dsimp only | simp only [Keeps.upd])

theorem execSfuSigmoid_keeps (f : Fin 4) (q : Fin 64) (s : State) :
    KeepsOut s (execSfuSigmoid f q s) := by
  have h0 := Keeps.rfl' s
  unfold execSfuSigmoid
  repeat' (first | with_reducible assumption | with_reducible intro _ | with_reducible apply KeepsOut.next | with_reducible apply KeepsOut.fault | with_reducible apply State.runBuiltin_keeps | with_reducible apply Keeps.ite | with_reducible apply Keeps.foldl | with_reducible apply Keeps.foldlP | split | dsimp only | simp only [Keeps.upd])

theorem execDbgStep_keeps (target : BitVec 4) (s : State) :
    KeepsOut s (execDbgStep target s) := by
  have h0 := Keeps.rfl' s
  unfold execDbgStep
  repeat' (first | with_reducible assumption | with_reducible intro _ | with_reducible apply KeepsOut.next | with_reducible apply KeepsOut.fault | with_reducible apply State.control_keeps | with_reducible apply Keeps.ite | with_reducible apply Keeps.foldl | with_reducible apply Keeps.foldlP | split | dsimp only | simp only [Keeps.upd])

theorem execVecVarFin_keeps (f : Fin 4) (q : Fin 64) (s : State) :
    KeepsOut s (execVecVarFin f q s) := by
  have h0 := Keeps.rfl' s
  unfold execVecVarFin
  repeat' (first | with_reducible assumption | with_reducible intro _ | with_reducible apply KeepsOut.next | with_reducible apply KeepsOut.fault | with_reducible apply State.runVecFree_keeps | with_reducible apply Keeps.ite | with_reducible apply Keeps.foldl | with_reducible apply Keeps.foldlP | split | dsimp only | simp only [Keeps.upd])

theorem execVecEafOut_keeps (f : Fin 4) (q : Fin 64) (s : State) :
    KeepsOut s (execVecEafOut f q s) := by
  have h0 := Keeps.rfl' s
  unfold execVecEafOut
  repeat' (first | with_reducible assumption | with_reducible intro _ | with_reducible apply KeepsOut.next | with_reducible apply KeepsOut.fault | with_reducible apply State.runVec_keeps | with_reducible apply Keeps.ite | with_reducible apply Keeps.foldl | with_reducible apply Keeps.foldlP | split | dsimp only | simp only [Keeps.upd])

theorem execStream_keeps (f : Fin 4) (q : Fin 64) (s : State) :
    KeepsOut s (execStream f q s) := by
  have h0 := Keeps.rfl' s
  unfold execStream
  repeat' (first | with_reducible assumption | with_reducible intro _ | with_reducible apply KeepsOut.next | with_reducible apply KeepsOut.fault | with_reducible apply State.tryStream_keeps | with_reducible apply Keeps.ite | with_reducible apply Keeps.foldl | with_reducible apply Keeps.foldlP | split | dsimp only | simp only [Keeps.upd])

theorem execDbgAccWrite_keeps (addr : BitVec 48) (v : Word) (s : State) :
    KeepsOut s (execDbgAccWrite addr v s) := by
  have h0 := Keeps.rfl' s
  unfold execDbgAccWrite
  repeat' (first | with_reducible assumption | with_reducible intro _ | with_reducible apply KeepsOut.next | with_reducible apply KeepsOut.fault | with_reducible apply State.tapIr_keeps | with_reducible apply State.dbgIssue_keeps | with_reducible apply Keeps.ite | with_reducible apply Keeps.foldl | with_reducible apply Keeps.foldlP | split | dsimp only | simp only [Keeps.upd])

theorem execCheckRotationOverdue_keeps (f : Fin 4) (s : State) :
    KeepsOut s (execCheckRotationOverdue f s) := by
  have h0 := Keeps.rfl' s
  unfold execCheckRotationOverdue
  repeat' (first | with_reducible assumption | with_reducible intro _ | with_reducible apply KeepsOut.next | with_reducible apply KeepsOut.fault | with_reducible apply State.raise_keeps | with_reducible apply State.latent_keeps | with_reducible apply Keeps.ite | with_reducible apply Keeps.foldl | with_reducible apply Keeps.foldlP | split | dsimp only | simp only [Keeps.upd])

theorem execTrickLedgerExamine_keeps (key : Word) (entry : ℕ) (inst : ℕ) (s : State) :
    KeepsOut s (execTrickLedgerExamine key entry inst s) := by
  have h0 := Keeps.rfl' s
  unfold execTrickLedgerExamine
  repeat' (first | with_reducible assumption | with_reducible intro _ | with_reducible apply KeepsOut.next | with_reducible apply KeepsOut.fault | with_reducible apply State.sendVerdict_keeps | with_reducible apply State.settle_keeps | with_reducible apply State.voidTrick_keeps | with_reducible apply Keeps.ite | with_reducible apply Keeps.foldl | with_reducible apply Keeps.foldlP | split | dsimp only | simp only [Keeps.upd])

theorem execSelftestStatus_keeps (p : Fin 4) (d : Fin 256) (s : State) :
    KeepsOut s (execSelftestStatus p d s) := by
  have h0 := Keeps.rfl' s
  unfold execSelftestStatus
  repeat' (first | with_reducible assumption | with_reducible intro _ | with_reducible apply KeepsOut.next | with_reducible apply KeepsOut.fault | with_reducible apply State.runCmd_keeps | with_reducible apply State.selfCtrl_keeps | with_reducible apply Keeps.ite | with_reducible apply Keeps.foldl | with_reducible apply Keeps.foldlP | split | dsimp only | simp only [Keeps.upd])

theorem execWeightSetReady_keeps (f : Fin 4) (set : Fin 2) (s : State) :
    KeepsOut s (execWeightSetReady f set s) := by
  have h0 := Keeps.rfl' s
  unfold execWeightSetReady
  repeat' (first | with_reducible assumption | with_reducible intro _ | with_reducible apply KeepsOut.next | with_reducible apply KeepsOut.fault | with_reducible apply State.loadRows_keeps | with_reducible apply State.orFault_keeps | with_reducible apply State.markReady_keeps | with_reducible apply Keeps.ite | with_reducible apply Keeps.foldl | with_reducible apply Keeps.foldlP | split | dsimp only | simp only [Keeps.upd])

theorem execCommitPacket_keeps (l : Fin 3) (s : State) :
    KeepsOut s (execCommitPacket l s) := by
  have h0 := Keeps.rfl' s
  unfold execCommitPacket
  repeat' (first | with_reducible assumption | with_reducible intro _ | with_reducible apply KeepsOut.next | with_reducible apply KeepsOut.fault | with_reducible apply State.tookPkt_keeps | with_reducible apply State.pktTrick_keeps | with_reducible apply State.modTrick_keeps | with_reducible apply State.settle_keeps | with_reducible apply State.voidTrick_keeps | with_reducible apply Keeps.ite | with_reducible apply Keeps.foldl | with_reducible apply Keeps.foldlP | split | dsimp only | simp only [Keeps.upd])
  all_goals exact State.pktTrick_keeps _ _ _ _ (State.tookPkt_keeps _ _ _ h0) _ ‹State.pktTrick _ _ _ _ _ = _›

theorem execDmaTimeout_keeps (f : Fin 4) (ch : Fin 16) (s : State) :
    KeepsOut s (execDmaTimeout f ch s) := by
  have h0 := Keeps.rfl' s
  unfold execDmaTimeout
  repeat' (first | with_reducible assumption | with_reducible intro _ | with_reducible apply KeepsOut.next | with_reducible apply KeepsOut.fault | with_reducible apply State.modJob_keeps | with_reducible apply State.l1_keeps | with_reducible apply State.raise_keeps | with_reducible apply Keeps.ite | with_reducible apply Keeps.foldl | with_reducible apply Keeps.foldlP | split | dsimp only | simp only [Keeps.upd])

theorem execCropResize_keeps (f : Fin 4) (q : Fin 64) (s : State) :
    KeepsOut s (execCropResize f q s) := by
  have h0 := Keeps.rfl' s
  unfold execCropResize
  repeat' (first | with_reducible assumption | with_reducible intro _ | with_reducible apply KeepsOut.next | with_reducible apply KeepsOut.fault | with_reducible apply State.runSample_keeps | with_reducible apply Keeps.ite | with_reducible apply Keeps.foldl | with_reducible apply Keeps.foldlP | split | dsimp only | simp only [Keeps.upd])

theorem execI2cWake_keeps (s : State) :
    KeepsOut s (execI2cWake s) := by
  have h0 := Keeps.rfl' s
  unfold execI2cWake
  repeat' (first | with_reducible assumption | with_reducible intro _ | with_reducible apply KeepsOut.next | with_reducible apply KeepsOut.fault | with_reducible apply State.i2cWakeUp_keeps | with_reducible apply Keeps.ite | with_reducible apply Keeps.foldl | with_reducible apply Keeps.foldlP | split | dsimp only | simp only [Keeps.upd])

theorem execFrameStartGap_keeps (ctx : Fin 96) (s : State) :
    KeepsOut s (execFrameStartGap ctx s) := by
  have h0 := Keeps.rfl' s
  unfold execFrameStartGap
  repeat' (first | with_reducible assumption | with_reducible intro _ | with_reducible apply KeepsOut.next | with_reducible apply KeepsOut.fault | with_reducible apply State.absent_keeps | with_reducible apply Keeps.ite | with_reducible apply Keeps.foldl | with_reducible apply Keeps.foldlP | split | dsimp only | simp only [Keeps.upd])

theorem execSorusQk_keeps (f : Fin 4) (q : Fin 64) (s : State) :
    KeepsOut s (execSorusQk f q s) := by
  have h0 := Keeps.rfl' s
  unfold execSorusQk
  repeat' (first | with_reducible assumption | with_reducible intro _ | with_reducible apply KeepsOut.next | with_reducible apply KeepsOut.fault | with_reducible apply State.doSorusQk_keeps | with_reducible apply Keeps.ite | with_reducible apply Keeps.foldl | with_reducible apply Keeps.foldlP | split | dsimp only | simp only [Keeps.upd])

theorem execThermalSample_keeps (temps : List (BitVec 16 × BitVec 16)) (s : State) :
    KeepsOut s (execThermalSample temps s) := by
  have h0 := Keeps.rfl' s
  unfold execThermalSample
  repeat' (first | with_reducible assumption | with_reducible intro _ | with_reducible apply KeepsOut.next | with_reducible apply KeepsOut.fault | with_reducible apply State.lowerLimit_keeps | with_reducible apply State.raise_keeps | with_reducible apply Keeps.ite | with_reducible apply Keeps.foldl | with_reducible apply Keeps.foldlP | split | dsimp only | simp only [Keeps.upd])

theorem execI2cWrite_keeps (bytes : List Byte) (s : State) :
    KeepsOut s (execI2cWrite bytes s) := by
  have h0 := Keeps.rfl' s
  unfold execI2cWrite
  repeat' (first | with_reducible assumption | with_reducible intro _ | with_reducible apply KeepsOut.next | with_reducible apply KeepsOut.fault | with_reducible apply State.i2cPut_keeps | with_reducible apply Keeps.ite | with_reducible apply Keeps.foldl | with_reducible apply Keeps.foldlP | split | dsimp only | simp only [Keeps.upd])

theorem execGather_keeps (f : Fin 4) (q : Fin 64) (s : State) :
    KeepsOut s (execGather f q s) := by
  have h0 := Keeps.rfl' s
  unfold execGather
  repeat' (first | with_reducible assumption | with_reducible intro _ | with_reducible apply KeepsOut.next | with_reducible apply KeepsOut.fault | with_reducible apply State.dmaIdx_keeps | with_reducible apply State.runIns_keeps | with_reducible apply State.dmaXfer_keeps | with_reducible apply Keeps.ite | with_reducible apply Keeps.foldl | with_reducible apply Keeps.foldlP | split | dsimp only | simp only [Keeps.upd])
  all_goals
    have h9 := State.dmaIdx_keeps f ‹IWord› h0
    rw [‹s.dmaIdx f _ = _›] at h9
    exact h9

theorem execKernelStart_keeps (f : Fin 4) (s : State) :
    KeepsOut s (execKernelStart f s) := by
  have h0 := Keeps.rfl' s
  unfold execKernelStart
  repeat' (first | with_reducible assumption | with_reducible intro _ | with_reducible apply KeepsOut.next | with_reducible apply KeepsOut.fault | with_reducible apply State.modFrond_keeps | with_reducible apply State.loadStep_keeps | with_reducible apply State.zeroTally_keeps | with_reducible apply State.loadSfu_keeps | with_reducible apply State.applyRepairs_keeps | with_reducible apply State.loadFieldRepairs_keeps | with_reducible apply State.applySignals_keeps | with_reducible apply State.beginKernel_keeps | with_reducible apply Keeps.ite | with_reducible apply Keeps.foldl | with_reducible apply Keeps.foldlP | split | dsimp only | simp only [Keeps.upd])

theorem execHostPortReady_keeps (p : Fin 4) (s : State) :
    KeepsOut s (execHostPortReady p s) := by
  have h0 := Keeps.rfl' s
  unfold execHostPortReady
  repeat' (first | with_reducible assumption | with_reducible intro _ | with_reducible apply KeepsOut.next | with_reducible apply KeepsOut.fault | with_reducible apply State.modPort_keeps | with_reducible apply Keeps.ite | with_reducible apply Keeps.foldl | with_reducible apply Keeps.foldlP | split | dsimp only | simp only [Keeps.upd])

theorem execFrondAstateEntry_keeps (f : Fin 4) (s : State) :
    KeepsOut s (execFrondAstateEntry f s) := by
  have h0 := Keeps.rfl' s
  unfold execFrondAstateEntry
  repeat' (first | with_reducible assumption | with_reducible intro _ | with_reducible apply KeepsOut.next | with_reducible apply KeepsOut.fault | with_reducible apply State.setRail_keeps | with_reducible apply State.modFrond_keeps | with_reducible apply State.frondDark_keeps | with_reducible apply Keeps.ite | with_reducible apply Keeps.foldl | with_reducible apply Keeps.foldlP | split | dsimp only | simp only [Keeps.upd])

theorem execRoundStart_keeps (r : Fin 4) (s : State) :
    KeepsOut s (execRoundStart r s) := by
  have h0 := Keeps.rfl' s
  unfold execRoundStart
  repeat' (first | with_reducible assumption | with_reducible intro _ | with_reducible apply KeepsOut.next | with_reducible apply KeepsOut.fault | with_reducible apply State.modPart_keeps | with_reducible apply State.closeDue_keeps | with_reducible apply State.countWrap_keeps | with_reducible apply State.takeBudget_keeps | with_reducible apply State.endBreak_keeps | with_reducible apply Keeps.ite | with_reducible apply Keeps.foldl | with_reducible apply Keeps.foldlP | split | dsimp only | simp only [Keeps.upd])

theorem execStreamStop_keeps (p : Fin 4) (d : Fin 256) (s : State) :
    KeepsOut s (execStreamStop p d s) := by
  have h0 := Keeps.rfl' s
  unfold execStreamStop
  repeat' (first | with_reducible assumption | with_reducible intro _ | with_reducible apply KeepsOut.next | with_reducible apply KeepsOut.fault | with_reducible apply State.runCmd_keeps | with_reducible apply checks_keeps | with_reducible apply accept_keeps | with_reducible apply State.stopStream_keeps | with_reducible apply Keeps.ite | with_reducible apply Keeps.foldl | with_reducible apply Keeps.foldlP | split | dsimp only | simp only [Keeps.upd])

theorem execRegisterWrite_keeps (w : Writer) (off : BitVec 28) (v : Word) (s : State) :
    KeepsOut s (execRegisterWrite w off v s) := by
  have h0 := Keeps.rfl' s
  unfold execRegisterWrite
  repeat' (first | with_reducible assumption | with_reducible intro _ | with_reducible apply KeepsOut.next | with_reducible apply KeepsOut.fault | with_reducible apply State.writeAs_keeps | with_reducible apply State.fwWrite_keeps | with_reducible apply State.writeAny_keeps | with_reducible apply Keeps.ite | with_reducible apply Keeps.foldl | with_reducible apply Keeps.foldlP | split | dsimp only | simp only [Keeps.upd])

theorem execDmaTranspose_keeps (f : Fin 4) (q : Fin 64) (s : State) :
    KeepsOut s (execDmaTranspose f q s) := by
  have h0 := Keeps.rfl' s
  unfold execDmaTranspose
  repeat' (first | with_reducible assumption | with_reducible intro _ | with_reducible apply KeepsOut.next | with_reducible apply KeepsOut.fault | with_reducible apply State.dmaTrans_keeps | with_reducible apply Keeps.ite | with_reducible apply Keeps.foldl | with_reducible apply Keeps.foldlP | split | dsimp only | simp only [Keeps.upd])

theorem execTrickTimeout_keeps (key : Word) (entry : ℕ) (inst : ℕ) (s : State) :
    KeepsOut s (execTrickTimeout key entry inst s) := by
  have h0 := Keeps.rfl' s
  unfold execTrickTimeout
  repeat' (first | with_reducible assumption | with_reducible intro _ | with_reducible apply KeepsOut.next | with_reducible apply KeepsOut.fault | with_reducible apply State.voidTrick_keeps | with_reducible apply Keeps.ite | with_reducible apply Keeps.foldl | with_reducible apply Keeps.foldlP | split | dsimp only | simp only [Keeps.upd])

theorem execFrameDeliver_keeps (ctx : Fin 96) (s : State) :
    KeepsOut s (execFrameDeliver ctx s) := by
  have h0 := Keeps.rfl' s
  unfold execFrameDeliver
  repeat' (first | with_reducible assumption | with_reducible intro _ | with_reducible apply KeepsOut.next | with_reducible apply KeepsOut.fault | with_reducible apply State.modStream_keeps | with_reducible apply State.readLines_keeps | with_reducible apply State.deliverFrame_keeps | with_reducible apply State.countLost_keeps | with_reducible apply Keeps.ite | with_reducible apply Keeps.foldl | with_reducible apply Keeps.foldlP | split | dsimp only | simp only [Keeps.upd])

theorem execResidentRestoreDone_keeps (f : Fin 4) (s : State) :
    KeepsOut s (execResidentRestoreDone f s) := by
  have h0 := Keeps.rfl' s
  unfold execResidentRestoreDone
  repeat' (first | with_reducible assumption | with_reducible intro _ | with_reducible apply KeepsOut.next | with_reducible apply KeepsOut.fault | with_reducible apply State.spGoOn_keeps | with_reducible apply State.modFrond_keeps | with_reducible apply State.restoreFailing_keeps | with_reducible apply Keeps.ite | with_reducible apply Keeps.foldl | with_reducible apply Keeps.foldlP | split | dsimp only | simp only [Keeps.upd])

theorem execDrainComplete_keeps (f : Fin 4) (s : State) :
    KeepsOut s (execDrainComplete f s) := by
  have h0 := Keeps.rfl' s
  unfold execDrainComplete
  repeat' (first | with_reducible assumption | with_reducible intro _ | with_reducible apply KeepsOut.next | with_reducible apply KeepsOut.fault | with_reducible apply State.finishIns_keeps | with_reducible apply State.modFrond_keeps | with_reducible apply Keeps.ite | with_reducible apply Keeps.foldl | with_reducible apply Keeps.foldlP | split | dsimp only | simp only [Keeps.upd])

theorem execEscalationTimeout_keeps (s : State) :
    KeepsOut s (execEscalationTimeout s) := by
  have h0 := Keeps.rfl' s
  unfold execEscalationTimeout
  repeat' (first | with_reducible assumption | with_reducible intro _ | with_reducible apply KeepsOut.next | with_reducible apply KeepsOut.fault | with_reducible apply State.escalateF_keeps | with_reducible apply Keeps.ite | with_reducible apply Keeps.foldl | with_reducible apply Keeps.foldlP | split | dsimp only | simp only [Keeps.upd])

theorem execKernelEnd_keeps (f : Fin 4) (s : State) :
    KeepsOut s (execKernelEnd f s) := by
  have h0 := Keeps.rfl' s
  unfold execKernelEnd
  repeat' (first | with_reducible assumption | with_reducible intro _ | with_reducible apply KeepsOut.next | with_reducible apply KeepsOut.fault | with_reducible apply State.progFault_keeps | with_reducible apply State.freeCredits_keeps | with_reducible apply State.copyEnded_keeps | with_reducible apply State.storeSignals_keeps | with_reducible apply State.sweepRetired_keeps | with_reducible apply State.modFrond_keeps | with_reducible apply Keeps.ite | with_reducible apply Keeps.foldl | with_reducible apply Keeps.foldlP | split | dsimp only | simp only [Keeps.upd])

theorem execHighz_keeps (s : State) :
    KeepsOut s (execHighz s) := by
  have h0 := Keeps.rfl' s
  unfold execHighz
  repeat' (first | with_reducible assumption | with_reducible intro _ | with_reducible apply KeepsOut.next | with_reducible apply KeepsOut.fault | with_reducible apply State.takePins_keeps | with_reducible apply Keeps.ite | with_reducible apply Keeps.foldl | with_reducible apply Keeps.foldlP | split | dsimp only | simp only [Keeps.upd])

theorem execGroupWindowAccess_keeps (caller : Option (Fin 4)) (off : BitVec 28) (write : Option Word) (s : State) :
    KeepsOut s (execGroupWindowAccess caller off write s) := by
  have h0 := Keeps.rfl' s
  unfold execGroupWindowAccess
  repeat' (first | with_reducible assumption | with_reducible intro _ | with_reducible apply KeepsOut.next | with_reducible apply KeepsOut.fault | with_reducible apply State.readAny_keeps | with_reducible apply State.fwWrite_keeps | with_reducible apply State.writeAny_keeps | with_reducible apply Keeps.ite | with_reducible apply Keeps.foldl | with_reducible apply Keeps.foldlP | split | dsimp only | simp only [Keeps.upd])

theorem execSeqEditDropBelow_keeps (p : Fin 4) (d : Fin 256) (s : State) :
    KeepsOut s (execSeqEditDropBelow p d s) := by
  have h0 := Keeps.rfl' s
  unfold execSeqEditDropBelow
  repeat' (first | with_reducible assumption | with_reducible intro _ | with_reducible apply KeepsOut.next | with_reducible apply KeepsOut.fault | with_reducible apply State.runCmd_keeps | with_reducible apply State.doEdit_keeps | with_reducible apply Keeps.ite | with_reducible apply Keeps.foldl | with_reducible apply Keeps.foldlP | split | dsimp only | simp only [Keeps.upd])

theorem execClamp_keeps (s : State) :
    KeepsOut s (execClamp s) := by
  have h0 := Keeps.rfl' s
  unfold execClamp
  repeat' (first | with_reducible assumption | with_reducible intro _ | with_reducible apply KeepsOut.next | with_reducible apply KeepsOut.fault | with_reducible apply State.takePins_keeps | with_reducible apply Keeps.ite | with_reducible apply Keeps.foldl | with_reducible apply Keeps.foldlP | split | dsimp only | simp only [Keeps.upd])

theorem execFwCommit_keeps (p : Fin 4) (d : Fin 256) (s : State) :
    KeepsOut s (execFwCommit p d s) := by
  have h0 := Keeps.rfl' s
  unfold execFwCommit
  repeat' (first | with_reducible assumption | with_reducible intro _ | with_reducible apply KeepsOut.next | with_reducible apply KeepsOut.fault | with_reducible apply State.runCmdThen_keeps | with_reducible apply State.doCommit_keeps | with_reducible apply State.commitReset_keeps | with_reducible apply Keeps.ite | with_reducible apply Keeps.foldl | with_reducible apply Keeps.foldlP | split | dsimp only | simp only [Keeps.upd])

theorem execCollectorSelfFault_keeps (s : State) :
    KeepsOut s (execCollectorSelfFault s) := by
  have h0 := Keeps.rfl' s
  unfold execCollectorSelfFault
  repeat' (first | with_reducible assumption | with_reducible intro _ | with_reducible apply KeepsOut.next | with_reducible apply KeepsOut.fault | with_reducible apply State.selfFault_keeps | with_reducible apply Keeps.ite | with_reducible apply Keeps.foldl | with_reducible apply Keeps.foldlP | split | dsimp only | simp only [Keeps.upd])

theorem execPwrHintNone_keeps (p : Fin 4) (d : Fin 256) (s : State) :
    KeepsOut s (execPwrHintNone p d s) := by
  have h0 := Keeps.rfl' s
  unfold execPwrHintNone
  repeat' (first | with_reducible assumption | with_reducible intro _ | with_reducible apply KeepsOut.next | with_reducible apply KeepsOut.fault | with_reducible apply State.runCmd_keeps | with_reducible apply State.setHint_keeps | with_reducible apply Keeps.ite | with_reducible apply Keeps.foldl | with_reducible apply Keeps.foldlP | split | dsimp only | simp only [Keeps.upd])

theorem execAccumulatorWrite_keeps (f : Fin 4) (s : State) :
    KeepsOut s (execAccumulatorWrite f s) := by
  have h0 := Keeps.rfl' s
  unfold execAccumulatorWrite
  repeat' (first | with_reducible assumption | with_reducible intro _ | with_reducible apply KeepsOut.next | with_reducible apply KeepsOut.fault | with_reducible apply State.writeRow_keeps | with_reducible apply Keeps.ite | with_reducible apply Keeps.foldl | with_reducible apply Keeps.foldlP | split | dsimp only | simp only [Keeps.upd])

theorem execRd32Wr32_keeps (p : Fin 4) (write : Bool) (s : State) :
    KeepsOut s (execRd32Wr32 p write s) := by
  have h0 := Keeps.rfl' s
  unfold execRd32Wr32
  repeat' (first | with_reducible assumption | with_reducible intro _ | with_reducible apply KeepsOut.next | with_reducible apply KeepsOut.fault | with_reducible apply State.settled_keeps | with_reducible apply State.hpcCount_keeps | with_reducible apply State.dropWrite_keeps | with_reducible apply State.answer_keeps | with_reducible apply Keeps.ite | with_reducible apply Keeps.foldl | with_reducible apply Keeps.foldlP | split | dsimp only | simp only [Keeps.upd])

theorem execTimeStepApply_keeps (s : State) :
    KeepsOut s (execTimeStepApply s) := by
  have h0 := Keeps.rfl' s
  unfold execTimeStepApply
  repeat' (first | with_reducible assumption | with_reducible intro _ | with_reducible apply KeepsOut.next | with_reducible apply KeepsOut.fault | with_reducible apply State.applyStep_keeps | with_reducible apply Keeps.ite | with_reducible apply Keeps.foldl | with_reducible apply Keeps.foldlP | split | dsimp only | simp only [Keeps.upd])

theorem execQuarHoldExpire_keeps (ctx : Fin 96) (s : State) :
    KeepsOut s (execQuarHoldExpire ctx s) := by
  have h0 := Keeps.rfl' s
  unfold execQuarHoldExpire
  repeat' (first | with_reducible assumption | with_reducible intro _ | with_reducible apply KeepsOut.next | with_reducible apply KeepsOut.fault | with_reducible apply State.absent_keeps | with_reducible apply Keeps.ite | with_reducible apply Keeps.foldl | with_reducible apply Keeps.foldlP | split | dsimp only | simp only [Keeps.upd])

theorem execFaultAck_keeps (p : Fin 4) (d : Fin 256) (s : State) :
    KeepsOut s (execFaultAck p d s) := by
  have h0 := Keeps.rfl' s
  unfold execFaultAck
  repeat' (first | with_reducible assumption | with_reducible intro _ | with_reducible apply KeepsOut.next | with_reducible apply KeepsOut.fault | with_reducible apply State.runCmd_keeps | with_reducible apply State.doFaultAck_keeps | with_reducible apply Keeps.ite | with_reducible apply Keeps.foldl | with_reducible apply Keeps.foldlP | split | dsimp only | simp only [Keeps.upd])

theorem execFrondWakeStart_keeps (f : Fin 4) (s : State) :
    KeepsOut s (execFrondWakeStart f s) := by
  have h0 := Keeps.rfl' s
  unfold execFrondWakeStart
  repeat' (first | with_reducible assumption | with_reducible intro _ | with_reducible apply KeepsOut.next | with_reducible apply KeepsOut.fault | with_reducible apply State.modFrond_keeps | with_reducible apply Keeps.ite | with_reducible apply Keeps.foldl | with_reducible apply Keeps.foldlP | split | dsimp only | simp only [Keeps.upd])

theorem execCardClose_keeps (f : Fin 4) (s : State) :
    KeepsOut s (execCardClose f s) := by
  have h0 := Keeps.rfl' s
  unfold execCardClose
  repeat' (first | with_reducible assumption | with_reducible intro _ | with_reducible apply KeepsOut.next | with_reducible apply KeepsOut.fault | with_reducible apply State.closeCard_keeps | with_reducible apply Keeps.ite | with_reducible apply Keeps.foldl | with_reducible apply Keeps.foldlP | split | dsimp only | simp only [Keeps.upd])

theorem execTestpackLoad_keeps (p : Fin 4) (d : Fin 256) (s : State) :
    KeepsOut s (execTestpackLoad p d s) := by
  have h0 := Keeps.rfl' s
  unfold execTestpackLoad
  repeat' (first | with_reducible assumption | with_reducible intro _ | with_reducible apply KeepsOut.next | with_reducible apply KeepsOut.fault | with_reducible apply State.runCmd_keeps | with_reducible apply State.doPack_keeps | with_reducible apply Keeps.ite | with_reducible apply Keeps.foldl | with_reducible apply Keeps.foldlP | split | dsimp only | simp only [Keeps.upd])

theorem execDealerConfig_keeps (p : Fin 4) (d : Fin 256) (s : State) :
    KeepsOut s (execDealerConfig p d s) := by
  have h0 := Keeps.rfl' s
  unfold execDealerConfig
  repeat' (first | with_reducible assumption | with_reducible intro _ | with_reducible apply KeepsOut.next | with_reducible apply KeepsOut.fault | with_reducible apply State.runCmd_keeps | with_reducible apply checks_keeps | with_reducible apply accept_keeps | with_reducible apply Keeps.ite | with_reducible apply Keeps.foldl | with_reducible apply Keeps.foldlP | split | dsimp only | simp only [Keeps.upd])

theorem execRecoveryStepOverrun_keeps (sc : Scope) (s : State) :
    KeepsOut s (execRecoveryStepOverrun sc s) := by
  have h0 := Keeps.rfl' s
  unfold execRecoveryStepOverrun
  repeat' (first | with_reducible assumption | with_reducible intro _ | with_reducible apply KeepsOut.next | with_reducible apply KeepsOut.fault | with_reducible apply State.sweepRetired_keeps | with_reducible apply State.overrun_keeps | with_reducible apply Keeps.ite | with_reducible apply Keeps.foldl | with_reducible apply Keeps.foldlP | split | dsimp only | simp only [Keeps.upd])

theorem execFrondWakeDone_keeps (f : Fin 4) (restoreUs : ℕ) (s : State) :
    KeepsOut s (execFrondWakeDone f restoreUs s) := by
  have h0 := Keeps.rfl' s
  unfold execFrondWakeDone
  repeat' (first | with_reducible assumption | with_reducible intro _ | with_reducible apply KeepsOut.next | with_reducible apply KeepsOut.fault | with_reducible apply State.modFrond_keeps | with_reducible apply State.reloadSfu_keeps | with_reducible apply State.loadMapout_keeps | with_reducible apply State.wakeWhole_keeps | with_reducible apply State.fullAwake_keeps | with_reducible apply State.setRail_keeps | with_reducible apply State.setOp_keeps | with_reducible apply Keeps.ite | with_reducible apply Keeps.foldl | with_reducible apply Keeps.foldlP | split | dsimp only | simp only [Keeps.upd])

theorem execVecEafAdd_keeps (f : Fin 4) (q : Fin 64) (s : State) :
    KeepsOut s (execVecEafAdd f q s) := by
  have h0 := Keeps.rfl' s
  unfold execVecEafAdd
  repeat' (first | with_reducible assumption | with_reducible intro _ | with_reducible apply KeepsOut.next | with_reducible apply KeepsOut.fault | with_reducible apply State.runVec_keeps | with_reducible apply Keeps.ite | with_reducible apply Keeps.foldl | with_reducible apply Keeps.foldlP | split | dsimp only | simp only [Keeps.upd])

theorem execVecRsum_keeps (f : Fin 4) (q : Fin 64) (s : State) :
    KeepsOut s (execVecRsum f q s) := by
  have h0 := Keeps.rfl' s
  unfold execVecRsum
  repeat' (first | with_reducible assumption | with_reducible intro _ | with_reducible apply KeepsOut.next | with_reducible apply KeepsOut.fault | with_reducible apply State.runVec_keeps | with_reducible apply Keeps.ite | with_reducible apply Keeps.foldl | with_reducible apply Keeps.foldlP | split | dsimp only | simp only [Keeps.upd])

theorem execSelftestRunNow_keeps (p : Fin 4) (d : Fin 256) (s : State) :
    KeepsOut s (execSelftestRunNow p d s) := by
  have h0 := Keeps.rfl' s
  unfold execSelftestRunNow
  repeat' (first | with_reducible assumption | with_reducible intro _ | with_reducible apply KeepsOut.next | with_reducible apply KeepsOut.fault | with_reducible apply State.runCmd_keeps | with_reducible apply State.selfCtrl_keeps | with_reducible apply Keeps.ite | with_reducible apply Keeps.foldl | with_reducible apply Keeps.foldlP | split | dsimp only | simp only [Keeps.upd])

theorem execProgUnload_keeps (p : Fin 4) (d : Fin 256) (s : State) :
    KeepsOut s (execProgUnload p d s) := by
  have h0 := Keeps.rfl' s
  unfold execProgUnload
  repeat' (first | with_reducible assumption | with_reducible intro _ | with_reducible apply KeepsOut.next | with_reducible apply KeepsOut.fault | with_reducible apply State.runCmd_keeps | with_reducible apply checks_keeps | with_reducible apply accept_keeps | with_reducible apply State.unloadProg_keeps | with_reducible apply Keeps.ite | with_reducible apply Keeps.foldl | with_reducible apply Keeps.foldlP | split | dsimp only | simp only [Keeps.upd])

theorem execRegWrite_keeps (p : Fin 4) (d : Fin 256) (s : State) :
    KeepsOut s (execRegWrite p d s) := by
  have h0 := Keeps.rfl' s
  unfold execRegWrite
  repeat' (first | with_reducible assumption | with_reducible intro _ | with_reducible apply KeepsOut.next | with_reducible apply KeepsOut.fault | with_reducible apply State.runCmd_keeps | with_reducible apply State.doRegWrite_keeps | with_reducible apply Keeps.ite | with_reducible apply Keeps.foldl | with_reducible apply Keeps.foldlP | split | dsimp only | simp only [Keeps.upd])

theorem execVecRmin_keeps (f : Fin 4) (q : Fin 64) (s : State) :
    KeepsOut s (execVecRmin f q s) := by
  have h0 := Keeps.rfl' s
  unfold execVecRmin
  repeat' (first | with_reducible assumption | with_reducible intro _ | with_reducible apply KeepsOut.next | with_reducible apply KeepsOut.fault | with_reducible apply State.runVec_keeps | with_reducible apply Keeps.ite | with_reducible apply Keeps.foldl | with_reducible apply Keeps.foldlP | split | dsimp only | simp only [Keeps.upd])

theorem execSfuTanh_keeps (f : Fin 4) (q : Fin 64) (s : State) :
    KeepsOut s (execSfuTanh f q s) := by
  have h0 := Keeps.rfl' s
  unfold execSfuTanh
  repeat' (first | with_reducible assumption | with_reducible intro _ | with_reducible apply KeepsOut.next | with_reducible apply KeepsOut.fault | with_reducible apply State.runBuiltin_keeps | with_reducible apply Keeps.ite | with_reducible apply Keeps.foldl | with_reducible apply Keeps.foldlP | split | dsimp only | simp only [Keeps.upd])

theorem execApertureFill_keeps (p : Fin 4) (d : Fin 256) (s : State) :
    KeepsOut s (execApertureFill p d s) := by
  have h0 := Keeps.rfl' s
  unfold execApertureFill
  repeat' (first | with_reducible assumption | with_reducible intro _ | with_reducible apply KeepsOut.next | with_reducible apply KeepsOut.fault | with_reducible apply State.runCmd_keeps | with_reducible apply State.doFill_keeps | with_reducible apply Keeps.ite | with_reducible apply Keeps.foldl | with_reducible apply Keeps.foldlP | split | dsimp only | simp only [Keeps.upd])

theorem execVecExpmap_keeps (f : Fin 4) (q : Fin 64) (s : State) :
    KeepsOut s (execVecExpmap f q s) := by
  have h0 := Keeps.rfl' s
  unfold execVecExpmap
  repeat' (first | with_reducible assumption | with_reducible intro _ | with_reducible apply KeepsOut.next | with_reducible apply KeepsOut.fault | with_reducible apply State.runVec_keeps | with_reducible apply Keeps.ite | with_reducible apply Keeps.foldl | with_reducible apply Keeps.foldlP | split | dsimp only | simp only [Keeps.upd])

theorem execFrdMapoutWrite_keeps (f : Fin 4) (v : Word) (s : State) :
    KeepsOut s (execFrdMapoutWrite f v s) := by
  have h0 := Keeps.rfl' s
  unfold execFrdMapoutWrite
  repeat' (first | with_reducible assumption | with_reducible intro _ | with_reducible apply KeepsOut.next | with_reducible apply KeepsOut.fault | with_reducible apply State.writeMapout_keeps | with_reducible apply Keeps.ite | with_reducible apply Keeps.foldl | with_reducible apply Keeps.foldlP | split | dsimp only | simp only [Keeps.upd])

theorem execKcapExpire_keeps (f : Fin 4) (s : State) :
    KeepsOut s (execKcapExpire f s) := by
  have h0 := Keeps.rfl' s
  unfold execKcapExpire
  repeat' (first | with_reducible assumption | with_reducible intro _ | with_reducible apply KeepsOut.next | with_reducible apply KeepsOut.fault | with_reducible apply State.l1_keeps | with_reducible apply State.raise_keeps | with_reducible apply Keeps.ite | with_reducible apply Keeps.foldl | with_reducible apply Keeps.foldlP | split | dsimp only | simp only [Keeps.upd])

theorem execDramMr4Report_keeps (ch : Fin 32) (code : BitVec 3) (s : State) :
    KeepsOut s (execDramMr4Report ch code s) := by
  have h0 := Keeps.rfl' s
  unfold execDramMr4Report
  repeat' (first | with_reducible assumption | with_reducible intro _ | with_reducible apply KeepsOut.next | with_reducible apply KeepsOut.fault | with_reducible apply State.setRegF_keeps | with_reducible apply State.noteHot_keeps | with_reducible apply Keeps.ite | with_reducible apply Keeps.foldl | with_reducible apply Keeps.foldlP | split | dsimp only | simp only [Keeps.upd])

theorem execHostResetNDeassert_keeps (p : Fin 4) (s : State) :
    KeepsOut s (execHostResetNDeassert p s) := by
  have h0 := Keeps.rfl' s
  unfold execHostResetNDeassert
  repeat' (first | with_reducible assumption | with_reducible intro _ | with_reducible apply KeepsOut.next | with_reducible apply KeepsOut.fault | with_reducible apply State.modPort_keeps | with_reducible apply Keeps.ite | with_reducible apply Keeps.foldl | with_reducible apply Keeps.foldlP | split | dsimp only | simp only [Keeps.upd])

theorem execDramMerge_keeps (u : MemUnit) (addr : BitVec 48) (data : List Byte) (s : State) :
    KeepsOut s (execDramMerge u addr data s) := by
  have h0 := Keeps.rfl' s
  unfold execDramMerge
  repeat' (first | with_reducible assumption | with_reducible intro _ | with_reducible apply KeepsOut.next | with_reducible apply KeepsOut.fault | with_reducible apply State.dramAccess_keeps | with_reducible apply Keeps.ite | with_reducible apply Keeps.foldl | with_reducible apply Keeps.foldlP | split | dsimp only | simp only [Keeps.upd])

theorem execCsi2FrameEnd_keeps (port : Fin 12) (head : Csi2Head) (s : State) :
    KeepsOut s (execCsi2FrameEnd port head s) := by
  have h0 := Keeps.rfl' s
  unfold execCsi2FrameEnd
  repeat' (first | with_reducible assumption | with_reducible intro _ | with_reducible apply KeepsOut.next | with_reducible apply KeepsOut.fault | with_reducible apply State.portLost_keeps | with_reducible apply State.cameraEnd_keeps | with_reducible apply State.noteCorrected_keeps | with_reducible apply Keeps.ite | with_reducible apply Keeps.foldl | with_reducible apply Keeps.foldlP | split | dsimp only | simp only [Keeps.upd])

theorem execDebugAuthBegin_keeps (p : Fin 4) (d : Fin 256) (s : State) :
    KeepsOut s (execDebugAuthBegin p d s) := by
  have h0 := Keeps.rfl' s
  unfold execDebugAuthBegin
  repeat' (first | with_reducible assumption | with_reducible intro _ | with_reducible apply KeepsOut.next | with_reducible apply KeepsOut.fault | with_reducible apply State.runCmd_keeps | with_reducible apply State.doDebugBegin_keeps | with_reducible apply Keeps.ite | with_reducible apply Keeps.foldl | with_reducible apply Keeps.foldlP | split | dsimp only | simp only [Keeps.upd])

theorem execForcePulse_keeps (p : Fin 4) (d : Fin 256) (s : State) :
    KeepsOut s (execForcePulse p d s) := by
  have h0 := Keeps.rfl' s
  unfold execForcePulse
  repeat' (first | with_reducible assumption | with_reducible intro _ | with_reducible apply KeepsOut.next | with_reducible apply KeepsOut.fault | with_reducible apply State.runCmd_keeps | with_reducible apply State.doForce_keeps | with_reducible apply State.forcePulse_keeps | with_reducible apply Keeps.ite | with_reducible apply Keeps.foldl | with_reducible apply Keeps.foldlP | split | dsimp only | simp only [Keeps.upd])

theorem execCommandTimeout_keeps (p : Fin 4) (d : Fin 256) (s : State) :
    KeepsOut s (execCommandTimeout p d s) := by
  have h0 := Keeps.rfl' s
  unfold execCommandTimeout
  repeat' (first | with_reducible assumption | with_reducible intro _ | with_reducible apply KeepsOut.next | with_reducible apply KeepsOut.fault | with_reducible apply State.complete_keeps | with_reducible apply State.partFill_keeps | with_reducible apply Keeps.ite | with_reducible apply Keeps.foldl | with_reducible apply Keeps.foldlP | split | dsimp only | simp only [Keeps.upd])

theorem execTrigPulse_keeps (e : UnitAt) (s : State) :
    KeepsOut s (execTrigPulse e s) := by
  have h0 := Keeps.rfl' s
  unfold execTrigPulse
  repeat' (first | with_reducible assumption | with_reducible intro _ | with_reducible apply KeepsOut.next | with_reducible apply KeepsOut.fault | with_reducible apply State.trigAfter_keeps | with_reducible apply Keeps.ite | with_reducible apply Keeps.foldl | with_reducible apply Keeps.foldlP | split | dsimp only | simp only [Keeps.upd])

theorem execStreamStart_keeps (p : Fin 4) (d : Fin 256) (s : State) :
    KeepsOut s (execStreamStart p d s) := by
  have h0 := Keeps.rfl' s
  unfold execStreamStart
  repeat' (first | with_reducible assumption | with_reducible intro _ | with_reducible apply KeepsOut.next | with_reducible apply KeepsOut.fault | with_reducible apply State.runCmd_keeps | with_reducible apply checks_keeps | with_reducible apply accept_keeps | with_reducible apply State.startStream_keeps | with_reducible apply Keeps.ite | with_reducible apply Keeps.foldl | with_reducible apply Keeps.foldlP | split | dsimp only | simp only [Keeps.upd])

theorem execWarmReset_keeps (c : WarmCause) (s : State) :
    KeepsOut s (execWarmReset c s) := by
  have h0 := Keeps.rfl' s
  unfold execWarmReset
  repeat' (first | with_reducible assumption | with_reducible intro _ | with_reducible apply KeepsOut.next | with_reducible apply KeepsOut.fault | with_reducible apply State.warmBy_keeps | with_reducible apply Keeps.ite | with_reducible apply Keeps.foldl | with_reducible apply Keeps.foldlP | split | dsimp only | simp only [Keeps.upd])

theorem execKernelSwitch_keeps (f : Fin 4) (s : State) :
    KeepsOut s (execKernelSwitch f s) := by
  have h0 := Keeps.rfl' s
  unfold execKernelSwitch
  repeat' (first | with_reducible assumption | with_reducible intro _ | with_reducible apply KeepsOut.next | with_reducible apply KeepsOut.fault | with_reducible apply State.beginSwitch_keeps | with_reducible apply State.startLate_keeps | with_reducible apply State.modFrond_keeps | with_reducible apply Keeps.ite | with_reducible apply Keeps.foldl | with_reducible apply Keeps.foldlP | split | dsimp only | simp only [Keeps.upd])

theorem execJobInstanceStart_keeps (job : ℕ) (s : State) :
    KeepsOut s (execJobInstanceStart job s) := by
  have h0 := Keeps.rfl' s
  unfold execJobInstanceStart
  repeat' (first | with_reducible assumption | with_reducible intro _ | with_reducible apply KeepsOut.next | with_reducible apply KeepsOut.fault | with_reducible apply State.takeFrame_keeps | with_reducible apply State.putBlock_keeps | with_reducible apply State.setJob_keeps | with_reducible apply Keeps.ite | with_reducible apply Keeps.foldl | with_reducible apply Keeps.foldlP | split | dsimp only | simp only [Keeps.upd])

theorem execTimeIncSet_keeps (p : Fin 4) (d : Fin 256) (s : State) :
    KeepsOut s (execTimeIncSet p d s) := by
  have h0 := Keeps.rfl' s
  unfold execTimeIncSet
  repeat' (first | with_reducible assumption | with_reducible intro _ | with_reducible apply KeepsOut.next | with_reducible apply KeepsOut.fault | with_reducible apply State.runCmd_keeps | with_reducible apply checks_keeps | with_reducible apply accept_keeps | with_reducible apply State.writeReg_keeps | with_reducible apply Keeps.ite | with_reducible apply Keeps.foldl | with_reducible apply Keeps.foldlP | split | dsimp only | simp only [Keeps.upd])

theorem execSfuErf_keeps (f : Fin 4) (q : Fin 64) (s : State) :
    KeepsOut s (execSfuErf f q s) := by
  have h0 := Keeps.rfl' s
  unfold execSfuErf
  repeat' (first | with_reducible assumption | with_reducible intro _ | with_reducible apply KeepsOut.next | with_reducible apply KeepsOut.fault | with_reducible apply State.runBuiltin_keeps | with_reducible apply Keeps.ite | with_reducible apply Keeps.foldl | with_reducible apply Keeps.foldlP | split | dsimp only | simp only [Keeps.upd])

theorem execEthFrameReceive_keeps (mac : Fin 8) (fcsOk : Bool) (phase : Fin 32) (frame : List Byte) (s : State) :
    KeepsOut s (execEthFrameReceive mac fcsOk phase frame s) := by
  have h0 := Keeps.rfl' s
  unfold execEthFrameReceive
  repeat' (first | with_reducible assumption | with_reducible intro _ | with_reducible apply KeepsOut.next | with_reducible apply KeepsOut.fault | with_reducible apply State.count_keeps | with_reducible apply State.msecOpen_keeps | with_reducible apply State.quarantine_keeps | with_reducible apply State.ethClear_keeps | with_reducible apply Keeps.ite | with_reducible apply Keeps.foldl | with_reducible apply Keeps.foldlP | split | dsimp only | simp only [Keeps.upd])
  all_goals exact State.msecOpen_keeps _ _ h0 _ ‹State.msecOpen _ _ _ = _›

theorem execVecAdd_keeps (f : Fin 4) (q : Fin 64) (s : State) :
    KeepsOut s (execVecAdd f q s) := by
  have h0 := Keeps.rfl' s
  unfold execVecAdd
  repeat' (first | with_reducible assumption | with_reducible intro _ | with_reducible apply KeepsOut.next | with_reducible apply KeepsOut.fault | with_reducible apply State.runVec_keeps | with_reducible apply Keeps.ite | with_reducible apply Keeps.foldl | with_reducible apply Keeps.foldlP | split | dsimp only | simp only [Keeps.upd])

theorem execInjRes_keeps (f : Fin 4) (pinna : Fin 68) (s : State) :
    KeepsOut s (execInjRes f pinna s) := by
  have h0 := Keeps.rfl' s
  unfold execInjRes
  repeat' (first | with_reducible assumption | with_reducible intro _ | with_reducible apply KeepsOut.next | with_reducible apply KeepsOut.fault | with_reducible apply State.modFrond_keeps | with_reducible apply Keeps.ite | with_reducible apply Keeps.foldl | with_reducible apply Keeps.foldlP | split | dsimp only | simp only [Keeps.upd])

theorem execAttestQuote_keeps (p : Fin 4) (d : Fin 256) (s : State) :
    KeepsOut s (execAttestQuote p d s) := by
  have h0 := Keeps.rfl' s
  unfold execAttestQuote
  repeat' (first | with_reducible assumption | with_reducible intro _ | with_reducible apply KeepsOut.next | with_reducible apply KeepsOut.fault | with_reducible apply State.runCmd_keeps | with_reducible apply State.doQuote_keeps | with_reducible apply Keeps.ite | with_reducible apply Keeps.foldl | with_reducible apply Keeps.foldlP | split | dsimp only | simp only [Keeps.upd])

theorem execClockLockLoss_keeps (s : State) :
    KeepsOut s (execClockLockLoss s) := by
  have h0 := Keeps.rfl' s
  unfold execClockLockLoss
  repeat' (first | with_reducible assumption | with_reducible intro _ | with_reducible apply KeepsOut.next | with_reducible apply KeepsOut.fault | with_reducible apply State.raise_keeps | with_reducible apply State.breakRound_keeps | with_reducible apply Keeps.ite | with_reducible apply Keeps.foldl | with_reducible apply Keeps.foldlP | split | dsimp only | simp only [Keeps.upd])

theorem execVecXor_keeps (f : Fin 4) (q : Fin 64) (s : State) :
    KeepsOut s (execVecXor f q s) := by
  have h0 := Keeps.rfl' s
  unfold execVecXor
  repeat' (first | with_reducible assumption | with_reducible intro _ | with_reducible apply KeepsOut.next | with_reducible apply KeepsOut.fault | with_reducible apply State.runVec_keeps | with_reducible apply Keeps.ite | with_reducible apply Keeps.foldl | with_reducible apply Keeps.foldlP | split | dsimp only | simp only [Keeps.upd])

theorem execAccumulatorComplete_keeps (f : Fin 4) (s : State) :
    KeepsOut s (execAccumulatorComplete f s) := by
  have h0 := Keeps.rfl' s
  unfold execAccumulatorComplete
  repeat' (first | with_reducible assumption | with_reducible intro _ | with_reducible apply KeepsOut.next | with_reducible apply KeepsOut.fault | with_reducible apply State.modFrond_keeps | with_reducible apply Keeps.ite | with_reducible apply Keeps.foldl | with_reducible apply Keeps.foldlP | split | dsimp only | simp only [Keeps.upd])

theorem execRef_keeps (p : Fin 4) (s : State) :
    KeepsOut s (execRef p s) := by
  have h0 := Keeps.rfl' s
  unfold execRef
  repeat' (first | with_reducible assumption | with_reducible intro _ | with_reducible apply KeepsOut.next | with_reducible apply KeepsOut.fault | with_reducible apply State.settled_keeps | with_reducible apply State.countWrap_keeps | with_reducible apply State.proto_keeps | with_reducible apply State.hbIrq_keeps | with_reducible apply State.modPort_keeps | with_reducible apply Keeps.ite | with_reducible apply Keeps.foldl | with_reducible apply Keeps.foldlP | split | dsimp only | simp only [Keeps.upd])

theorem execHeartbeatTimeout_keeps (p : Fin 4) (s : State) :
    KeepsOut s (execHeartbeatTimeout p s) := by
  have h0 := Keeps.rfl' s
  unfold execHeartbeatTimeout
  repeat' (first | with_reducible assumption | with_reducible intro _ | with_reducible apply KeepsOut.next | with_reducible apply KeepsOut.fault | with_reducible apply State.enterLost_keeps | with_reducible apply Keeps.ite | with_reducible apply Keeps.foldl | with_reducible apply Keeps.foldlP | split | dsimp only | simp only [Keeps.upd])

theorem execPowerOnTimeSave_keeps (s : State) :
    KeepsOut s (execPowerOnTimeSave s) := by
  have h0 := Keeps.rfl' s
  unfold execPowerOnTimeSave
  repeat' (first | with_reducible assumption | with_reducible intro _ | with_reducible apply KeepsOut.next | with_reducible apply KeepsOut.fault | with_reducible apply State.savePowerOn_keeps | with_reducible apply Keeps.ite | with_reducible apply Keeps.foldl | with_reducible apply Keeps.foldlP | split | dsimp only | simp only [Keeps.upd])

theorem execFlitTransmit_keeps (l : Fin 3) (s : State) :
    KeepsOut s (execFlitTransmit l s) := by
  have h0 := Keeps.rfl' s
  unfold execFlitTransmit
  repeat' (first | with_reducible assumption | with_reducible intro _ | with_reducible apply KeepsOut.next | with_reducible apply KeepsOut.fault | with_reducible apply State.setLink_keeps | with_reducible apply State.fastRetrain_keeps | with_reducible apply Keeps.ite | with_reducible apply Keeps.foldl | with_reducible apply Keeps.foldlP | split | dsimp only | simp only [Keeps.upd])

theorem execAvsTimeout_keeps (s : State) :
    KeepsOut s (execAvsTimeout s) := by
  have h0 := Keeps.rfl' s
  unfold execAvsTimeout
  repeat' (first | with_reducible assumption | with_reducible intro _ | with_reducible apply KeepsOut.next | with_reducible apply KeepsOut.fault | with_reducible apply State.raise_keeps | with_reducible apply Keeps.ite | with_reducible apply Keeps.foldl | with_reducible apply Keeps.foldlP | split | dsimp only | simp only [Keeps.upd])

theorem execPre_keeps (p : Fin 4) (bank : Option (Fin 16)) (s : State) :
    KeepsOut s (execPre p bank s) := by
  have h0 := Keeps.rfl' s
  unfold execPre
  repeat' (first | with_reducible assumption | with_reducible intro _ | with_reducible apply KeepsOut.next | with_reducible apply KeepsOut.fault | with_reducible apply State.settled_keeps | with_reducible apply State.modPort_keeps | with_reducible apply State.proto_keeps | with_reducible apply Keeps.ite | with_reducible apply Keeps.foldl | with_reducible apply Keeps.foldlP | split | dsimp only | simp only [Keeps.upd])

theorem execZeroFillDone_keeps (f : Option (Fin 4)) (s : State) :
    KeepsOut s (execZeroFillDone f s) := by
  have h0 := Keeps.rfl' s
  unfold execZeroFillDone
  repeat' (first | with_reducible assumption | with_reducible intro _ | with_reducible apply KeepsOut.next | with_reducible apply KeepsOut.fault | with_reducible apply State.spGoOn_keeps | with_reducible apply State.modFrond_keeps | with_reducible apply State.matServe_keeps | with_reducible apply Keeps.ite | with_reducible apply Keeps.foldl | with_reducible apply Keeps.foldlP | split | dsimp only | simp only [Keeps.upd])

theorem execHezorHello_keeps (l : Fin 3) (h : LinkHello) (s : State) :
    KeepsOut s (execHezorHello l h s) := by
  have h0 := Keeps.rfl' s
  unfold execHezorHello
  repeat' (first | with_reducible assumption | with_reducible intro _ | with_reducible apply KeepsOut.next | with_reducible apply KeepsOut.fault | with_reducible apply State.raise_keeps | with_reducible apply State.modLink_keeps | with_reducible apply State.setLink_keeps | with_reducible apply Keeps.ite | with_reducible apply Keeps.foldl | with_reducible apply Keeps.foldlP | split | dsimp only | simp only [Keeps.upd])

theorem execBootWatchdogExpire_keeps (s : State) :
    KeepsOut s (execBootWatchdogExpire s) := by
  have h0 := Keeps.rfl' s
  unfold execBootWatchdogExpire
  repeat' (first | with_reducible assumption | with_reducible intro _ | with_reducible apply KeepsOut.next | with_reducible apply KeepsOut.fault | with_reducible apply State.warmBy_keeps | with_reducible apply Keeps.ite | with_reducible apply Keeps.foldl | with_reducible apply Keeps.foldlP | split | dsimp only | simp only [Keeps.upd])

theorem execFaultRead_keeps (p : Fin 4) (d : Fin 256) (s : State) :
    KeepsOut s (execFaultRead p d s) := by
  have h0 := Keeps.rfl' s
  unfold execFaultRead
  repeat' (first | with_reducible assumption | with_reducible intro _ | with_reducible apply KeepsOut.next | with_reducible apply KeepsOut.fault | with_reducible apply State.runCmd_keeps | with_reducible apply State.doFaultRead_keeps | with_reducible apply Keeps.ite | with_reducible apply Keeps.foldl | with_reducible apply Keeps.foldlP | split | dsimp only | simp only [Keeps.upd])

theorem execFastRetrainDone_keeps (l : Fin 3) (lanes : BitVec 8) (ok : Bool) (s : State) :
    KeepsOut s (execFastRetrainDone l lanes ok s) := by
  have h0 := Keeps.rfl' s
  unfold execFastRetrainDone
  repeat' (first | with_reducible assumption | with_reducible intro _ | with_reducible apply KeepsOut.next | with_reducible apply KeepsOut.fault | with_reducible apply State.setLink_keeps | with_reducible apply State.l4Link_keeps | with_reducible apply Keeps.ite | with_reducible apply Keeps.foldl | with_reducible apply Keeps.foldlP | split | dsimp only | simp only [Keeps.upd])

theorem execSfuUserTable_keeps (f : Fin 4) (q : Fin 64) (s : State) :
    KeepsOut s (execSfuUserTable f q s) := by
  have h0 := Keeps.rfl' s
  unfold execSfuUserTable
  repeat' (first | with_reducible assumption | with_reducible intro _ | with_reducible apply KeepsOut.next | with_reducible apply KeepsOut.fault | with_reducible apply State.runUserSfu_keeps | with_reducible apply Keeps.ite | with_reducible apply Keeps.foldl | with_reducible apply Keeps.foldlP | split | dsimp only | simp only [Keeps.upd])

theorem execDealerRecordStart_keeps (lane : Fin 8) (s : State) :
    KeepsOut s (execDealerRecordStart lane s) := by
  have h0 := Keeps.rfl' s
  unfold execDealerRecordStart
  repeat' (first | with_reducible assumption | with_reducible intro _ | with_reducible apply KeepsOut.next | with_reducible apply KeepsOut.fault | with_reducible apply State.startNext_keeps | with_reducible apply State.modDealer_keeps | with_reducible apply Keeps.ite | with_reducible apply Keeps.foldl | with_reducible apply Keeps.foldlP | split | dsimp only | simp only [Keeps.upd])

theorem execCpSqDbDrop_keeps (p : Fin 4) (d : Fin 256) (s : State) :
    KeepsOut s (execCpSqDbDrop p d s) := by
  have h0 := Keeps.rfl' s
  unfold execCpSqDbDrop
  repeat' (first | with_reducible assumption | with_reducible intro _ | with_reducible apply KeepsOut.next | with_reducible apply KeepsOut.fault | with_reducible apply State.takeSqDb_keeps | with_reducible apply Keeps.ite | with_reducible apply Keeps.foldl | with_reducible apply Keeps.foldlP | split | dsimp only | simp only [Keeps.upd])

theorem execJobCancel_keeps (p : Fin 4) (d : Fin 256) (s : State) :
    KeepsOut s (execJobCancel p d s) := by
  have h0 := Keeps.rfl' s
  unfold execJobCancel
  repeat' (first | with_reducible assumption | with_reducible intro _ | with_reducible apply KeepsOut.next | with_reducible apply KeepsOut.fault | with_reducible apply State.runCmd_keeps | with_reducible apply accept_keeps | with_reducible apply State.cancelJob_keeps | with_reducible apply Keeps.ite | with_reducible apply Keeps.foldl | with_reducible apply Keeps.foldlP | split | dsimp only | simp only [Keeps.upd])

theorem execTestPackRead_keeps (s : State) :
    KeepsOut s (execTestPackRead s) := by
  have h0 := Keeps.rfl' s
  unfold execTestPackRead
  repeat' (first | with_reducible assumption | with_reducible intro _ | with_reducible apply KeepsOut.next | with_reducible apply KeepsOut.fault | with_reducible apply State.extendMb_keeps | with_reducible apply State.raise_keeps | with_reducible apply Keeps.ite | with_reducible apply Keeps.foldl | with_reducible apply Keeps.foldlP | split | dsimp only | simp only [Keeps.upd])

theorem execFrdSpResbaseWrite_keeps (f : Fin 4) (v : Word) (s : State) :
    KeepsOut s (execFrdSpResbaseWrite f v s) := by
  have h0 := Keeps.rfl' s
  unfold execFrdSpResbaseWrite
  repeat' (first | with_reducible assumption | with_reducible intro _ | with_reducible apply KeepsOut.next | with_reducible apply KeepsOut.fault | with_reducible apply State.writeResbase_keeps | with_reducible apply Keeps.ite | with_reducible apply Keeps.foldl | with_reducible apply Keeps.foldlP | split | dsimp only | simp only [Keeps.upd])

theorem execJobSubmit_keeps (p : Fin 4) (d : Fin 256) (s : State) :
    KeepsOut s (execJobSubmit p d s) := by
  have h0 := Keeps.rfl' s
  unfold execJobSubmit
  repeat' (first | with_reducible assumption | with_reducible intro _ | with_reducible apply KeepsOut.next | with_reducible apply KeepsOut.fault | with_reducible apply State.runCmd_keeps | with_reducible apply State.doSubmit_keeps | with_reducible apply Keeps.ite | with_reducible apply Keeps.foldl | with_reducible apply Keeps.foldlP | split | dsimp only | simp only [Keeps.upd])

theorem execPartitionReset_keeps (r : Fin 4) (s : State) :
    KeepsOut s (execPartitionReset r s) := by
  have h0 := Keeps.rfl' s
  unfold execPartitionReset
  repeat' (first | with_reducible assumption | with_reducible intro _ | with_reducible apply KeepsOut.next | with_reducible apply KeepsOut.fault | with_reducible apply State.sweepRetired_keeps | with_reducible apply State.l3_keeps | with_reducible apply Keeps.ite | with_reducible apply Keeps.foldl | with_reducible apply Keeps.foldlP | split | dsimp only | simp only [Keeps.upd])

theorem execSelftestSegmentStart_keeps (f : Fin 4) (s : State) :
    KeepsOut s (execSelftestSegmentStart f s) := by
  have h0 := Keeps.rfl' s
  unfold execSelftestSegmentStart
  repeat' (first | with_reducible assumption | with_reducible intro _ | with_reducible apply KeepsOut.next | with_reducible apply KeepsOut.fault | with_reducible apply State.startLate_keeps | with_reducible apply State.nextSegment_keeps | with_reducible apply State.modFrond_keeps | with_reducible apply Keeps.ite | with_reducible apply Keeps.foldl | with_reducible apply Keeps.foldlP | split | dsimp only | simp only [Keeps.upd])
  all_goals first
    | (refine State.nextSegment_keeps f ?_ _ ‹State.nextSegment _ _ = _›
       first | exact h0 | exact State.startLate_keeps _ _ h0 | exact Keeps.ite (State.startLate_keeps _ _ h0) h0)

theorem execAuxMessage_keeps (ctx : Fin 96) (p : Fin 4) (d : Fin 256) (phase : Fin 32) (s : State) :
    KeepsOut s (execAuxMessage ctx p d phase s) := by
  have h0 := Keeps.rfl' s
  unfold execAuxMessage
  repeat' (first | with_reducible assumption | with_reducible intro _ | with_reducible apply KeepsOut.next | with_reducible apply KeepsOut.fault | with_reducible apply State.auxFrame_keeps | with_reducible apply State.consume_keeps | with_reducible apply State.takeOne_keeps | with_reducible apply State.ringReset_keeps | with_reducible apply Keeps.ite | with_reducible apply Keeps.foldl | with_reducible apply Keeps.foldlP | split | dsimp only | simp only [Keeps.upd])

theorem execDramRead_keeps (u : MemUnit) (addr : BitVec 48) (units : ℕ) (s : State) :
    KeepsOut s (execDramRead u addr units s) := by
  have h0 := Keeps.rfl' s
  unfold execDramRead
  repeat' (first | with_reducible assumption | with_reducible intro _ | with_reducible apply KeepsOut.next | with_reducible apply KeepsOut.fault | with_reducible apply State.dramAccess_keeps | with_reducible apply Keeps.ite | with_reducible apply Keeps.foldl | with_reducible apply Keeps.foldlP | split | dsimp only | simp only [Keeps.upd])

theorem execSqPacketTake_keeps (p : Fin 4) (d : Fin 256) (s : State) :
    KeepsOut s (execSqPacketTake p d s) := by
  have h0 := Keeps.rfl' s
  unfold execSqPacketTake
  repeat' (first | with_reducible assumption | with_reducible intro _ | with_reducible apply KeepsOut.next | with_reducible apply KeepsOut.fault | with_reducible apply State.takeOne_keeps | with_reducible apply State.flushUnknown_keeps | with_reducible apply State.ringReset_keeps | with_reducible apply Keeps.ite | with_reducible apply Keeps.foldl | with_reducible apply Keeps.foldlP | split | dsimp only | simp only [Keeps.upd])

theorem execBar_keeps (f : Fin 4) (q : Fin 64) (s : State) :
    KeepsOut s (execBar f q s) := by
  have h0 := Keeps.rfl' s
  unfold execBar
  repeat' (first | with_reducible assumption | with_reducible intro _ | with_reducible apply KeepsOut.next | with_reducible apply KeepsOut.fault | with_reducible apply State.runIns_keeps | with_reducible apply Keeps.ite | with_reducible apply Keeps.foldl | with_reducible apply Keeps.foldlP | split | dsimp only | simp only [Keeps.upd])

theorem execSpCeWriteback_keeps (f : Fin 4) (s : State) :
    KeepsOut s (execSpCeWriteback f s) := by
  have h0 := Keeps.rfl' s
  unfold execSpCeWriteback
  repeat' (first | with_reducible assumption | with_reducible intro _ | with_reducible apply KeepsOut.next | with_reducible apply KeepsOut.fault | with_reducible apply State.modFrond_keeps | with_reducible apply State.writeBack_keeps | with_reducible apply Keeps.ite | with_reducible apply Keeps.foldl | with_reducible apply Keeps.foldlP | split | dsimp only | simp only [Keeps.upd])

theorem execLaunchSetTrigger_keeps (p : Fin 4) (d : Fin 256) (s : State) :
    KeepsOut s (execLaunchSetTrigger p d s) := by
  have h0 := Keeps.rfl' s
  unfold execLaunchSetTrigger
  repeat' (first | with_reducible assumption | with_reducible intro _ | with_reducible apply KeepsOut.next | with_reducible apply KeepsOut.fault | with_reducible apply State.runCmd_keeps | with_reducible apply State.doLaunchTrigger_keeps | with_reducible apply Keeps.ite | with_reducible apply Keeps.foldl | with_reducible apply Keeps.foldlP | split | dsimp only | simp only [Keeps.upd])

theorem execPwrHintStandbyOk_keeps (p : Fin 4) (d : Fin 256) (s : State) :
    KeepsOut s (execPwrHintStandbyOk p d s) := by
  have h0 := Keeps.rfl' s
  unfold execPwrHintStandbyOk
  repeat' (first | with_reducible assumption | with_reducible intro _ | with_reducible apply KeepsOut.next | with_reducible apply KeepsOut.fault | with_reducible apply State.runCmd_keeps | with_reducible apply State.setHint_keeps | with_reducible apply Keeps.ite | with_reducible apply Keeps.foldl | with_reducible apply Keeps.foldlP | split | dsimp only | simp only [Keeps.upd])

theorem execMaxpool_keeps (f : Fin 4) (q : Fin 64) (s : State) :
    KeepsOut s (execMaxpool f q s) := by
  have h0 := Keeps.rfl' s
  unfold execMaxpool
  repeat' (first | with_reducible assumption | with_reducible intro _ | with_reducible apply KeepsOut.next | with_reducible apply KeepsOut.fault | with_reducible apply State.runSample_keeps | with_reducible apply Keeps.ite | with_reducible apply Keeps.foldl | with_reducible apply Keeps.foldlP | split | dsimp only | simp only [Keeps.upd])

theorem execBrokenPair_keeps (src : BitVec 10) (s : State) :
    KeepsOut s (execBrokenPair src s) := by
  have h0 := Keeps.rfl' s
  unfold execBrokenPair
  repeat' (first | with_reducible assumption | with_reducible intro _ | with_reducible apply KeepsOut.next | with_reducible apply KeepsOut.fault | with_reducible apply State.setFcolBit_keeps | with_reducible apply State.raise_keeps | with_reducible apply State.healthCount_keeps | with_reducible apply State.sweepRetired_keeps | with_reducible apply State.brokenReset_keeps | with_reducible apply Keeps.ite | with_reducible apply Keeps.foldl | with_reducible apply Keeps.foldlP | split | dsimp only | simp only [Keeps.upd])

theorem execVecSub_keeps (f : Fin 4) (q : Fin 64) (s : State) :
    KeepsOut s (execVecSub f q s) := by
  have h0 := Keeps.rfl' s
  unfold execVecSub
  repeat' (first | with_reducible assumption | with_reducible intro _ | with_reducible apply KeepsOut.next | with_reducible apply KeepsOut.fault | with_reducible apply State.runVec_keeps | with_reducible apply Keeps.ite | with_reducible apply Keeps.foldl | with_reducible apply Keeps.foldlP | split | dsimp only | simp only [Keeps.upd])

theorem execPwrHintIdle_keeps (p : Fin 4) (d : Fin 256) (s : State) :
    KeepsOut s (execPwrHintIdle p d s) := by
  have h0 := Keeps.rfl' s
  unfold execPwrHintIdle
  repeat' (first | with_reducible assumption | with_reducible intro _ | with_reducible apply KeepsOut.next | with_reducible apply KeepsOut.fault | with_reducible apply State.runCmd_keeps | with_reducible apply State.setHint_keeps | with_reducible apply Keeps.ite | with_reducible apply Keeps.foldl | with_reducible apply Keeps.foldlP | split | dsimp only | simp only [Keeps.upd])

theorem execSfuSoftplus_keeps (f : Fin 4) (q : Fin 64) (s : State) :
    KeepsOut s (execSfuSoftplus f q s) := by
  have h0 := Keeps.rfl' s
  unfold execSfuSoftplus
  repeat' (first | with_reducible assumption | with_reducible intro _ | with_reducible apply KeepsOut.next | with_reducible apply KeepsOut.fault | with_reducible apply State.runBuiltin_keeps | with_reducible apply Keeps.ite | with_reducible apply Keeps.foldl | with_reducible apply Keeps.foldlP | split | dsimp only | simp only [Keeps.upd])

theorem execCpCqDb_keeps (p : Fin 4) (d : Fin 256) (s : State) :
    KeepsOut s (execCpCqDb p d s) := by
  have h0 := Keeps.rfl' s
  unfold execCpCqDb
  repeat' (first | with_reducible assumption | with_reducible intro _ | with_reducible apply KeepsOut.next | with_reducible apply KeepsOut.fault | with_reducible apply State.modPort_keeps | with_reducible apply State.cqDoorbell_keeps | with_reducible apply State.ringReset_keeps | with_reducible apply Keeps.ite | with_reducible apply Keeps.foldl | with_reducible apply Keeps.foldlP | split | dsimp only | simp only [Keeps.upd])

theorem execSeqRetire_keeps (p : Fin 4) (d : Fin 256) (s : State) :
    KeepsOut s (execSeqRetire p d s) := by
  have h0 := Keeps.rfl' s
  unfold execSeqRetire
  repeat' (first | with_reducible assumption | with_reducible intro _ | with_reducible apply KeepsOut.next | with_reducible apply KeepsOut.fault | with_reducible apply State.runCmd_keeps | with_reducible apply checks_keeps | with_reducible apply accept_keeps | with_reducible apply State.retireSeq_keeps | with_reducible apply Keeps.ite | with_reducible apply Keeps.foldl | with_reducible apply Keeps.foldlP | split | dsimp only | simp only [Keeps.upd])

theorem execDrainOutputWrite_keeps (f : Fin 4) (lost : Bool) (s : State) :
    KeepsOut s (execDrainOutputWrite f lost s) := by
  have h0 := Keeps.rfl' s
  unfold execDrainOutputWrite
  repeat' (first | with_reducible assumption | with_reducible intro _ | with_reducible apply KeepsOut.next | with_reducible apply KeepsOut.fault | with_reducible apply State.orFault_keeps | with_reducible apply State.noteConflict_keeps | with_reducible apply State.modFrond_keeps | with_reducible apply State.spStoreAll_keeps | with_reducible apply Keeps.ite | with_reducible apply Keeps.foldl | with_reducible apply Keeps.foldlP | split | dsimp only | simp only [Keeps.upd])

theorem execSealDecision_keeps (job : ℕ) (s : State) :
    KeepsOut s (execSealDecision job s) := by
  have h0 := Keeps.rfl' s
  unfold execSealDecision
  repeat' (first | with_reducible assumption | with_reducible intro _ | with_reducible apply KeepsOut.next | with_reducible apply KeepsOut.fault | with_reducible apply State.voidOpenOf_keeps | with_reducible apply State.sealJob_keeps | with_reducible apply State.endInstance_keeps | with_reducible apply Keeps.ite | with_reducible apply Keeps.foldl | with_reducible apply Keeps.foldlP | split | dsimp only | simp only [Keeps.upd])

theorem execThallusCheckerTest_keeps (checkers : List (Fin 128)) (pairs : List (BitVec 10)) (detector : Bool) (s : State) :
    KeepsOut s (execThallusCheckerTest checkers pairs detector s) := by
  have h0 := Keeps.rfl' s
  unfold execThallusCheckerTest
  repeat' (first | with_reducible assumption | with_reducible intro _ | with_reducible apply KeepsOut.next | with_reducible apply KeepsOut.fault | with_reducible apply State.thallusWidow_keeps | with_reducible apply State.checkerPassed_keeps | with_reducible apply State.checkerMissed_keeps | with_reducible apply State.raise_keeps | with_reducible apply State.selfFault_keeps | with_reducible apply Keeps.ite | with_reducible apply Keeps.foldl | with_reducible apply Keeps.foldlP | split | dsimp only | simp only [Keeps.upd])

theorem execFcolAck_keeps (w : Writer) (v : Word) (s : State) :
    KeepsOut s (execFcolAck w v s) := by
  have h0 := Keeps.rfl' s
  unfold execFcolAck
  repeat' (first | with_reducible assumption | with_reducible intro _ | with_reducible apply KeepsOut.next | with_reducible apply KeepsOut.fault | with_reducible apply State.writeAs_keeps | with_reducible apply State.writeAck_keeps | with_reducible apply Keeps.ite | with_reducible apply Keeps.foldl | with_reducible apply Keeps.foldlP | split | dsimp only | simp only [Keeps.upd])

theorem execSelftestResume_keeps (p : Fin 4) (d : Fin 256) (s : State) :
    KeepsOut s (execSelftestResume p d s) := by
  have h0 := Keeps.rfl' s
  unfold execSelftestResume
  repeat' (first | with_reducible assumption | with_reducible intro _ | with_reducible apply KeepsOut.next | with_reducible apply KeepsOut.fault | with_reducible apply State.runCmd_keeps | with_reducible apply State.selfCtrl_keeps | with_reducible apply Keeps.ite | with_reducible apply Keeps.foldl | with_reducible apply Keeps.foldlP | split | dsimp only | simp only [Keeps.upd])

theorem execDealerStart_keeps (p : Fin 4) (d : Fin 256) (s : State) :
    KeepsOut s (execDealerStart p d s) := by
  have h0 := Keeps.rfl' s
  unfold execDealerStart
  repeat' (first | with_reducible assumption | with_reducible intro _ | with_reducible apply KeepsOut.next | with_reducible apply KeepsOut.fault | with_reducible apply State.runCmd_keeps | with_reducible apply State.doDealerStart_keeps | with_reducible apply Keeps.ite | with_reducible apply Keeps.foldl | with_reducible apply Keeps.foldlP | split | dsimp only | simp only [Keeps.upd])

theorem execMatCorrectedWriteback_keeps (bank : Fin 64) (s : State) :
    KeepsOut s (execMatCorrectedWriteback bank s) := by
  have h0 := Keeps.rfl' s
  unfold execMatCorrectedWriteback
  repeat' (first | with_reducible assumption | with_reducible intro _ | with_reducible apply KeepsOut.next | with_reducible apply KeepsOut.fault | with_reducible apply State.writeBack_keeps | with_reducible apply Keeps.ite | with_reducible apply Keeps.foldl | with_reducible apply Keeps.foldlP | split | dsimp only | simp only [Keeps.upd])

theorem execDeckSwitch_keeps (p : Fin 4) (d : Fin 256) (s : State) :
    KeepsOut s (execDeckSwitch p d s) := by
  have h0 := Keeps.rfl' s
  unfold execDeckSwitch
  repeat' (first | with_reducible assumption | with_reducible intro _ | with_reducible apply KeepsOut.next | with_reducible apply KeepsOut.fault | with_reducible apply State.runCmd_keeps | with_reducible apply State.doDeckSwitch_keeps | with_reducible apply Keeps.ite | with_reducible apply Keeps.foldl | with_reducible apply Keeps.foldlP | split | dsimp only | simp only [Keeps.upd])

theorem execStreamConfig_keeps (p : Fin 4) (d : Fin 256) (s : State) :
    KeepsOut s (execStreamConfig p d s) := by
  have h0 := Keeps.rfl' s
  unfold execStreamConfig
  repeat' (first | with_reducible assumption | with_reducible intro _ | with_reducible apply KeepsOut.next | with_reducible apply KeepsOut.fault | with_reducible apply State.runCmd_keeps | with_reducible apply State.doStreamConfig_keeps | with_reducible apply Keeps.ite | with_reducible apply Keeps.foldl | with_reducible apply Keeps.foldlP | split | dsimp only | simp only [Keeps.upd])

theorem execSfuExp_keeps (f : Fin 4) (q : Fin 64) (s : State) :
    KeepsOut s (execSfuExp f q s) := by
  have h0 := Keeps.rfl' s
  unfold execSfuExp
  repeat' (first | with_reducible assumption | with_reducible intro _ | with_reducible apply KeepsOut.next | with_reducible apply KeepsOut.fault | with_reducible apply State.runBuiltin_keeps | with_reducible apply Keeps.ite | with_reducible apply Keeps.foldl | with_reducible apply Keeps.foldlP | split | dsimp only | simp only [Keeps.upd])

theorem execDeckBankActivate_keeps (r : Fin 4) (s : State) :
    KeepsOut s (execDeckBankActivate r s) := by
  have h0 := Keeps.rfl' s
  unfold execDeckBankActivate
  repeat' (first | with_reducible assumption | with_reducible intro _ | with_reducible apply KeepsOut.next | with_reducible apply KeepsOut.fault | with_reducible apply State.modPart_keeps | with_reducible apply State.closeDue_keeps | with_reducible apply State.takeBudget_keeps | with_reducible apply State.endBreak_keeps | with_reducible apply Keeps.ite | with_reducible apply Keeps.foldl | with_reducible apply Keeps.foldlP | split | dsimp only | simp only [Keeps.upd])

theorem execWidowDifference_keeps (u : WidowUnit) (s : State) :
    KeepsOut s (execWidowDifference u s) := by
  have h0 := Keeps.rfl' s
  unfold execWidowDifference
  repeat' (first | with_reducible assumption | with_reducible intro _ | with_reducible apply KeepsOut.next | with_reducible apply KeepsOut.fault | with_reducible apply State.modJob_keeps | with_reducible apply State.l2_keeps | with_reducible apply State.raise_keeps | with_reducible apply State.discardHeld_keeps | with_reducible apply Keeps.ite | with_reducible apply Keeps.foldl | with_reducible apply Keeps.foldlP | split | dsimp only | simp only [Keeps.upd])

theorem execHealthRead_keeps (p : Fin 4) (d : Fin 256) (s : State) :
    KeepsOut s (execHealthRead p d s) := by
  have h0 := Keeps.rfl' s
  unfold execHealthRead
  repeat' (first | with_reducible assumption | with_reducible intro _ | with_reducible apply KeepsOut.next | with_reducible apply KeepsOut.fault | with_reducible apply State.runCmd_keeps | with_reducible apply State.doHealthRead_keeps | with_reducible apply Keeps.ite | with_reducible apply Keeps.foldl | with_reducible apply Keeps.foldlP | split | dsimp only | simp only [Keeps.upd])

theorem execFrondReset_keeps (f : Fin 4) (s : State) :
    KeepsOut s (execFrondReset f s) := by
  have h0 := Keeps.rfl' s
  unfold execFrondReset
  repeat' (first | with_reducible assumption | with_reducible intro _ | with_reducible apply KeepsOut.next | with_reducible apply KeepsOut.fault | with_reducible apply State.sweepRetired_keeps | with_reducible apply State.l2_keeps | with_reducible apply Keeps.ite | with_reducible apply Keeps.foldl | with_reducible apply Keeps.foldlP | split | dsimp only | simp only [Keeps.upd])

theorem execLinkDetect_keeps (e : Detected) (s : State) :
    KeepsOut s (execLinkDetect e s) := by
  have h0 := Keeps.rfl' s
  unfold execLinkDetect
  repeat' (first | with_reducible assumption | with_reducible intro _ | with_reducible apply KeepsOut.next | with_reducible apply KeepsOut.fault | with_reducible apply State.modLink_keeps | with_reducible apply Keeps.ite | with_reducible apply Keeps.foldl | with_reducible apply Keeps.foldlP | split | dsimp only | simp only [Keeps.upd])

theorem execAvgpool_keeps (f : Fin 4) (q : Fin 64) (s : State) :
    KeepsOut s (execAvgpool f q s) := by
  have h0 := Keeps.rfl' s
  unfold execAvgpool
  repeat' (first | with_reducible assumption | with_reducible intro _ | with_reducible apply KeepsOut.next | with_reducible apply KeepsOut.fault | with_reducible apply State.runSample_keeps | with_reducible apply Keeps.ite | with_reducible apply Keeps.foldl | with_reducible apply Keeps.foldlP | split | dsimp only | simp only [Keeps.upd])

theorem execForceHold_keeps (p : Fin 4) (d : Fin 256) (s : State) :
    KeepsOut s (execForceHold p d s) := by
  have h0 := Keeps.rfl' s
  unfold execForceHold
  repeat' (first | with_reducible assumption | with_reducible intro _ | with_reducible apply KeepsOut.next | with_reducible apply KeepsOut.fault | with_reducible apply State.runCmd_keeps | with_reducible apply State.doForce_keeps | with_reducible apply State.forceHold_keeps | with_reducible apply Keeps.ite | with_reducible apply Keeps.foldl | with_reducible apply Keeps.foldlP | split | dsimp only | simp only [Keeps.upd])

theorem execAct_keeps (p : Fin 4) (bank : Fin 16) (row : ℕ) (s : State) :
    KeepsOut s (execAct p bank row s) := by
  have h0 := Keeps.rfl' s
  unfold execAct
  repeat' (first | with_reducible assumption | with_reducible intro _ | with_reducible apply KeepsOut.next | with_reducible apply KeepsOut.fault | with_reducible apply State.settled_keeps | with_reducible apply State.proto_keeps | with_reducible apply State.modPort_keeps | with_reducible apply Keeps.ite | with_reducible apply Keeps.foldl | with_reducible apply Keeps.foldlP | split | dsimp only | simp only [Keeps.upd])

theorem execLoadw_keeps (f : Fin 4) (q : Fin 64) (s : State) :
    KeepsOut s (execLoadw f q s) := by
  have h0 := Keeps.rfl' s
  unfold execLoadw
  repeat' (first | with_reducible assumption | with_reducible intro _ | with_reducible apply KeepsOut.next | with_reducible apply KeepsOut.fault | with_reducible apply State.doLoadw_keeps | with_reducible apply Keeps.ite | with_reducible apply Keeps.foldl | with_reducible apply Keeps.foldlP | split | dsimp only | simp only [Keeps.upd])

theorem execLinkTrainDone_keeps (l : Fin 3) (lanes : BitVec 8) (s : State) :
    KeepsOut s (execLinkTrainDone l lanes s) := by
  have h0 := Keeps.rfl' s
  unfold execLinkTrainDone
  repeat' (first | with_reducible assumption | with_reducible intro _ | with_reducible apply KeepsOut.next | with_reducible apply KeepsOut.fault | with_reducible apply State.modLink_keeps | with_reducible apply Keeps.ite | with_reducible apply Keeps.foldl | with_reducible apply Keeps.foldlP | split | dsimp only | simp only [Keeps.upd])

theorem execGang_keeps (f : Fin 4) (q : Fin 64) (s : State) :
    KeepsOut s (execGang f q s) := by
  have h0 := Keeps.rfl' s
  unfold execGang
  repeat' (first | with_reducible assumption | with_reducible intro _ | with_reducible apply KeepsOut.next | with_reducible apply KeepsOut.fault | with_reducible apply State.tryStream_keeps | with_reducible apply Keeps.ite | with_reducible apply Keeps.foldl | with_reducible apply Keeps.foldlP | split | dsimp only | simp only [Keeps.upd])

theorem execDbgStage_keeps (s : State) :
    KeepsOut s (execDbgStage s) := by
  have h0 := Keeps.rfl' s
  unfold execDbgStage
  repeat' (first | with_reducible assumption | with_reducible intro _ | with_reducible apply KeepsOut.next | with_reducible apply KeepsOut.fault | with_reducible apply State.tapIr_keeps | with_reducible apply State.accAnswer_keeps | with_reducible apply State.appendStage_keeps | with_reducible apply State.setStage_keeps | with_reducible apply State.reportRead_keeps | with_reducible apply State.commitReset_keeps | with_reducible apply Keeps.ite | with_reducible apply Keeps.foldl | with_reducible apply Keeps.foldlP | split | dsimp only | simp only [Keeps.upd])

theorem execFcolForceHold_keeps (w : Writer) (i : Fin 32) (v : Word) (s : State) :
    KeepsOut s (execFcolForceHold w i v s) := by
  have h0 := Keeps.rfl' s
  unfold execFcolForceHold
  repeat' (first | with_reducible assumption | with_reducible intro _ | with_reducible apply KeepsOut.next | with_reducible apply KeepsOut.fault | with_reducible apply State.writeAs_keeps | with_reducible apply State.writeForceHold_keeps | with_reducible apply Keeps.ite | with_reducible apply Keeps.foldl | with_reducible apply Keeps.foldlP | split | dsimp only | simp only [Keeps.upd])

theorem execVecScale2_keeps (f : Fin 4) (q : Fin 64) (s : State) :
    KeepsOut s (execVecScale2 f q s) := by
  have h0 := Keeps.rfl' s
  unfold execVecScale2
  repeat' (first | with_reducible assumption | with_reducible intro _ | with_reducible apply KeepsOut.next | with_reducible apply KeepsOut.fault | with_reducible apply State.runVec_keeps | with_reducible apply Keeps.ite | with_reducible apply Keeps.foldl | with_reducible apply Keeps.foldlP | split | dsimp only | simp only [Keeps.upd])

theorem execSfuReciprocal_keeps (f : Fin 4) (q : Fin 64) (s : State) :
    KeepsOut s (execSfuReciprocal f q s) := by
  have h0 := Keeps.rfl' s
  unfold execSfuReciprocal
  repeat' (first | with_reducible assumption | with_reducible intro _ | with_reducible apply KeepsOut.next | with_reducible apply KeepsOut.fault | with_reducible apply State.runBuiltin_keeps | with_reducible apply Keeps.ite | with_reducible apply Keeps.foldl | with_reducible apply Keeps.foldlP | split | dsimp only | simp only [Keeps.upd])

theorem execMatAccess_keeps (reqs : List MatReq) (s : State) :
    KeepsOut s (execMatAccess reqs s) := by
  have h0 := Keeps.rfl' s
  unfold execMatAccess
  repeat' (first | with_reducible assumption | with_reducible intro _ | with_reducible apply KeepsOut.next | with_reducible apply KeepsOut.fault | with_reducible apply State.matServe_keeps | with_reducible apply State.matWrite_keeps | with_reducible apply State.matHold_keeps | with_reducible apply Keeps.ite | with_reducible apply Keeps.foldl | with_reducible apply Keeps.foldlP | split | dsimp only | simp only [Keeps.upd])

theorem execS1Entry_keeps (s : State) :
    KeepsOut s (execS1Entry s) := by
  have h0 := Keeps.rfl' s
  unfold execS1Entry
  repeat' (first | with_reducible assumption | with_reducible intro _ | with_reducible apply KeepsOut.next | with_reducible apply KeepsOut.fault | with_reducible apply State.allUnsent_keeps | with_reducible apply State.savePowerOn_keeps | with_reducible apply State.setDev_keeps | with_reducible apply State.dropHalts_keeps | with_reducible apply State.closeDebug_keeps | with_reducible apply State.saveMat_keeps | with_reducible apply State.frondDark_keeps | with_reducible apply State.zeroMat_keeps | with_reducible apply Keeps.ite | with_reducible apply Keeps.foldl | with_reducible apply Keeps.foldlP | split | dsimp only | simp only [Keeps.upd])

theorem execGroupLeave_keeps (p : Fin 4) (d : Fin 256) (s : State) :
    KeepsOut s (execGroupLeave p d s) := by
  have h0 := Keeps.rfl' s
  unfold execGroupLeave
  repeat' (first | with_reducible assumption | with_reducible intro _ | with_reducible apply KeepsOut.next | with_reducible apply KeepsOut.fault | with_reducible apply State.runCmd_keeps | with_reducible apply State.doGroupLeave_keeps | with_reducible apply Keeps.ite | with_reducible apply Keeps.foldl | with_reducible apply Keeps.foldlP | split | dsimp only | simp only [Keeps.upd])

theorem execTimeTrigCtrlWrite_keeps (w : Writer) (n : Fin 8) (v : Word) (s : State) :
    KeepsOut s (execTimeTrigCtrlWrite w n v s) := by
  have h0 := Keeps.rfl' s
  unfold execTimeTrigCtrlWrite
  repeat' (first | with_reducible assumption | with_reducible intro _ | with_reducible apply KeepsOut.next | with_reducible apply KeepsOut.fault | with_reducible apply State.writeAs_keeps | with_reducible apply State.writeTrigCtrl_keeps | with_reducible apply Keeps.ite | with_reducible apply Keeps.foldl | with_reducible apply Keeps.foldlP | split | dsimp only | simp only [Keeps.upd])

theorem execTimeIncApply_keeps (s : State) :
    KeepsOut s (execTimeIncApply s) := by
  have h0 := Keeps.rfl' s
  unfold execTimeIncApply
  repeat' (first | with_reducible assumption | with_reducible intro _ | with_reducible apply KeepsOut.next | with_reducible apply KeepsOut.fault | with_reducible apply Keeps.ite | with_reducible apply Keeps.foldl | with_reducible apply Keeps.foldlP | split | dsimp only | simp only [Keeps.upd])

theorem execCpIrqMaskWrite_keeps (p : Fin 4) (v : Word) (s : State) :
    KeepsOut s (execCpIrqMaskWrite p v s) := by
  have h0 := Keeps.rfl' s
  unfold execCpIrqMaskWrite
  repeat' (first | with_reducible assumption | with_reducible intro _ | with_reducible apply KeepsOut.next | with_reducible apply KeepsOut.fault | with_reducible apply State.modPort_keeps | with_reducible apply Keeps.ite | with_reducible apply Keeps.foldl | with_reducible apply Keeps.foldlP | split | dsimp only | simp only [Keeps.upd])

theorem execCpCqDbSqFlagClear_keeps (p : Fin 4) (d : Fin 256) (s : State) :
    KeepsOut s (execCpCqDbSqFlagClear p d s) := by
  have h0 := Keeps.rfl' s
  unfold execCpCqDbSqFlagClear
  repeat' (first | with_reducible assumption | with_reducible intro _ | with_reducible apply KeepsOut.next | with_reducible apply KeepsOut.fault | with_reducible apply State.modRing_keeps | with_reducible apply State.modPort_keeps | with_reducible apply Keeps.ite | with_reducible apply Keeps.foldl | with_reducible apply Keeps.foldlP | split | dsimp only | simp only [Keeps.upd])

theorem execDbgAccRead_keeps (addr : BitVec 48) (s : State) :
    KeepsOut s (execDbgAccRead addr s) := by
  have h0 := Keeps.rfl' s
  unfold execDbgAccRead
  repeat' (first | with_reducible assumption | with_reducible intro _ | with_reducible apply KeepsOut.next | with_reducible apply KeepsOut.fault | with_reducible apply State.tapIr_keeps | with_reducible apply State.readAny_keeps | with_reducible apply State.accAnswer_keeps | with_reducible apply State.reportMarks_keeps | with_reducible apply Keeps.ite | with_reducible apply Keeps.foldl | with_reducible apply Keeps.foldlP | split | dsimp only | simp only [Keeps.upd])

theorem execTimeStep_keeps (p : Fin 4) (d : Fin 256) (s : State) :
    KeepsOut s (execTimeStep p d s) := by
  have h0 := Keeps.rfl' s
  unfold execTimeStep
  repeat' (first | with_reducible assumption | with_reducible intro _ | with_reducible apply KeepsOut.next | with_reducible apply KeepsOut.fault | with_reducible apply State.runCmd_keeps | with_reducible apply checks_keeps | with_reducible apply accept_keeps | with_reducible apply Keeps.ite | with_reducible apply Keeps.foldl | with_reducible apply Keeps.foldlP | split | dsimp only | simp only [Keeps.upd])

theorem execVecCvt_keeps (f : Fin 4) (q : Fin 64) (s : State) :
    KeepsOut s (execVecCvt f q s) := by
  have h0 := Keeps.rfl' s
  unfold execVecCvt
  repeat' (first | with_reducible assumption | with_reducible intro _ | with_reducible apply KeepsOut.next | with_reducible apply KeepsOut.fault | with_reducible apply State.runVec_keeps | with_reducible apply Keeps.ite | with_reducible apply Keeps.foldl | with_reducible apply Keeps.foldlP | split | dsimp only | simp only [Keeps.upd])

theorem execScratchpadWrite_keeps (f : Fin 4) (reqs : List SpReq) (data : List Byte) (bcw : Word) (s : State) :
    KeepsOut s (execScratchpadWrite f reqs data bcw s) := by
  have h0 := Keeps.rfl' s
  unfold execScratchpadWrite
  repeat' (first | with_reducible assumption | with_reducible intro _ | with_reducible apply KeepsOut.next | with_reducible apply KeepsOut.fault | with_reducible apply State.spWriteCmd_keeps | with_reducible apply State.spStore_keeps | with_reducible apply State.setBcw_keeps | with_reducible apply Keeps.ite | with_reducible apply Keeps.foldl | with_reducible apply Keeps.foldlP | split | dsimp only | simp only [Keeps.upd])

theorem execGctlLeave_keeps (l : Fin 3) (s : State) :
    KeepsOut s (execGctlLeave l s) := by
  have h0 := Keeps.rfl' s
  unfold execGctlLeave
  repeat' (first | with_reducible assumption | with_reducible intro _ | with_reducible apply KeepsOut.next | with_reducible apply KeepsOut.fault | with_reducible apply State.tookPkt_keeps | with_reducible apply State.voidTrick_keeps | with_reducible apply Keeps.ite | with_reducible apply Keeps.foldl | with_reducible apply Keeps.foldlP | split | dsimp only | simp only [Keeps.upd])

theorem execComparatorInjectionTest_keeps (u : WidowUnit) (missed : Bool) (s : State) :
    KeepsOut s (execComparatorInjectionTest u missed s) := by
  have h0 := Keeps.rfl' s
  unfold execComparatorInjectionTest
  repeat' (first | with_reducible assumption | with_reducible intro _ | with_reducible apply KeepsOut.next | with_reducible apply KeepsOut.fault | with_reducible apply State.comparatorTest_keeps | with_reducible apply Keeps.ite | with_reducible apply Keeps.foldl | with_reducible apply Keeps.foldlP | split | dsimp only | simp only [Keeps.upd])

theorem execMrw_keeps (p : Fin 4) (ma : BitVec 8) (op : Byte) (valid5 : Bool) (valid4 : Bool) (s : State) :
    KeepsOut s (execMrw p ma op valid5 valid4 s) := by
  have h0 := Keeps.rfl' s
  unfold execMrw
  repeat' (first | with_reducible assumption | with_reducible intro _ | with_reducible apply KeepsOut.next | with_reducible apply KeepsOut.fault | with_reducible apply State.modPort_keeps | with_reducible apply State.mrWrite_keeps | with_reducible apply State.proto_keeps | with_reducible apply Keeps.ite | with_reducible apply Keeps.foldl | with_reducible apply Keeps.foldlP | split | dsimp only | simp only [Keeps.upd])

theorem execEndQueue_keeps (f : Fin 4) (q : Fin 64) (s : State) :
    KeepsOut s (execEndQueue f q s) := by
  have h0 := Keeps.rfl' s
  unfold execEndQueue
  repeat' (first | with_reducible assumption | with_reducible intro _ | with_reducible apply KeepsOut.next | with_reducible apply KeepsOut.fault | with_reducible apply State.modQueue_keeps | with_reducible apply State.progFault_keeps | with_reducible apply Keeps.ite | with_reducible apply Keeps.foldl | with_reducible apply Keeps.foldlP | split | dsimp only | simp only [Keeps.upd])

theorem execPorNRelease_keeps (b : BootFacts) (s : State) :
    KeepsOut s (execPorNRelease b s) := by
  have h0 := Keeps.rfl' s
  unfold execPorNRelease
  repeat' (first | with_reducible assumption | with_reducible intro _ | with_reducible apply KeepsOut.next | with_reducible apply KeepsOut.fault | with_reducible apply State.boot_keeps | with_reducible apply State.trainDram_keeps | with_reducible apply State.readNor_keeps | with_reducible apply State.porStart_keeps | with_reducible apply State.raise_keeps | with_reducible apply Keeps.ite | with_reducible apply Keeps.foldl | with_reducible apply Keeps.foldlP | split | dsimp only | simp only [Keeps.upd])

theorem execSelftestPause_keeps (p : Fin 4) (d : Fin 256) (s : State) :
    KeepsOut s (execSelftestPause p d s) := by
  have h0 := Keeps.rfl' s
  unfold execSelftestPause
  repeat' (first | with_reducible assumption | with_reducible intro _ | with_reducible apply KeepsOut.next | with_reducible apply KeepsOut.fault | with_reducible apply State.runCmd_keeps | with_reducible apply State.selfCtrl_keeps | with_reducible apply Keeps.ite | with_reducible apply Keeps.foldl | with_reducible apply Keeps.foldlP | split | dsimp only | simp only [Keeps.upd])

theorem execRfm_keeps (p : Fin 4) (s : State) :
    KeepsOut s (execRfm p s) := by
  have h0 := Keeps.rfl' s
  unfold execRfm
  repeat' (first | with_reducible assumption | with_reducible intro _ | with_reducible apply KeepsOut.next | with_reducible apply KeepsOut.fault | with_reducible apply State.settled_keeps | with_reducible apply State.proto_keeps | with_reducible apply Keeps.ite | with_reducible apply Keeps.foldl | with_reducible apply Keeps.foldlP | split | dsimp only | simp only [Keeps.upd])

theorem execVecMul_keeps (f : Fin 4) (q : Fin 64) (s : State) :
    KeepsOut s (execVecMul f q s) := by
  have h0 := Keeps.rfl' s
  unfold execVecMul
  repeat' (first | with_reducible assumption | with_reducible intro _ | with_reducible apply KeepsOut.next | with_reducible apply KeepsOut.fault | with_reducible apply State.runVec_keeps | with_reducible apply Keeps.ite | with_reducible apply Keeps.foldl | with_reducible apply Keeps.foldlP | split | dsimp only | simp only [Keeps.upd])

theorem execEthLinkLoss_keeps (mac : Fin 8) (s : State) :
    KeepsOut s (execEthLinkLoss mac s) := by
  have h0 := Keeps.rfl' s
  unfold execEthLinkLoss
  repeat' (first | with_reducible assumption | with_reducible intro _ | with_reducible apply KeepsOut.next | with_reducible apply KeepsOut.fault | with_reducible apply State.absent_keeps | with_reducible apply Keeps.ite | with_reducible apply Keeps.foldl | with_reducible apply Keeps.foldlP | split | dsimp only | simp only [Keeps.upd])

theorem execDebugChallengeTimeout_keeps (s : State) :
    KeepsOut s (execDebugChallengeTimeout s) := by
  have h0 := Keeps.rfl' s
  unfold execDebugChallengeTimeout
  repeat' (first | with_reducible assumption | with_reducible intro _ | with_reducible apply KeepsOut.next | with_reducible apply KeepsOut.fault | with_reducible apply State.debugFailed_keeps | with_reducible apply Keeps.ite | with_reducible apply Keeps.foldl | with_reducible apply Keeps.foldlP | split | dsimp only | simp only [Keeps.upd])

theorem execCopy_keeps (f : Fin 4) (q : Fin 64) (s : State) :
    KeepsOut s (execCopy f q s) := by
  have h0 := Keeps.rfl' s
  unfold execCopy
  repeat' (first | with_reducible assumption | with_reducible intro _ | with_reducible apply KeepsOut.next | with_reducible apply KeepsOut.fault | with_reducible apply State.dmaMove_keeps | with_reducible apply Keeps.ite | with_reducible apply Keeps.foldl | with_reducible apply Keeps.foldlP | split | dsimp only | simp only [Keeps.upd])

theorem execCsi2FrameStart_keeps (port : Fin 12) (head : Csi2Head) (phase : Fin 32) (s : State) :
    KeepsOut s (execCsi2FrameStart port head phase s) := by
  have h0 := Keeps.rfl' s
  unfold execCsi2FrameStart
  repeat' (first | with_reducible assumption | with_reducible intro _ | with_reducible apply KeepsOut.next | with_reducible apply KeepsOut.fault | with_reducible apply State.portLost_keeps | with_reducible apply State.noteCorrected_keeps | with_reducible apply State.frameStart_keeps | with_reducible apply State.badEnd_keeps | with_reducible apply Keeps.ite | with_reducible apply Keeps.foldl | with_reducible apply Keeps.foldlP | split | dsimp only | simp only [Keeps.upd])

theorem execVecAnd_keeps (f : Fin 4) (q : Fin 64) (s : State) :
    KeepsOut s (execVecAnd f q s) := by
  have h0 := Keeps.rfl' s
  unfold execVecAnd
  repeat' (first | with_reducible assumption | with_reducible intro _ | with_reducible apply KeepsOut.next | with_reducible apply KeepsOut.fault | with_reducible apply State.runVec_keeps | with_reducible apply Keeps.ite | with_reducible apply Keeps.foldl | with_reducible apply Keeps.foldlP | split | dsimp only | simp only [Keeps.upd])

theorem execFlitReceive_keeps (l : Fin 3) (lanes : List (List Byte)) (s : State) :
    KeepsOut s (execFlitReceive l lanes s) := by
  have h0 := Keeps.rfl' s
  unfold execFlitReceive
  repeat' (first | with_reducible assumption | with_reducible intro _ | with_reducible apply KeepsOut.next | with_reducible apply KeepsOut.fault | with_reducible apply State.takeFlit_keeps | with_reducible apply State.modLink_keeps | with_reducible apply Keeps.ite | with_reducible apply Keeps.foldl | with_reducible apply Keeps.foldlP | split | dsimp only | simp only [Keeps.upd])

theorem execDealerBudgetExpire_keeps (lane : Fin 8) (s : State) :
    KeepsOut s (execDealerBudgetExpire lane s) := by
  have h0 := Keeps.rfl' s
  unfold execDealerBudgetExpire
  repeat' (first | with_reducible assumption | with_reducible intro _ | with_reducible apply KeepsOut.next | with_reducible apply KeepsOut.fault | with_reducible apply State.modDealer_keeps | with_reducible apply Keeps.ite | with_reducible apply Keeps.foldl | with_reducible apply Keeps.foldlP | split | dsimp only | simp only [Keeps.upd])

theorem execTokWait_keeps (f : Fin 4) (q : Fin 64) (s : State) :
    KeepsOut s (execTokWait f q s) := by
  have h0 := Keeps.rfl' s
  unfold execTokWait
  repeat' (first | with_reducible assumption | with_reducible intro _ | with_reducible apply KeepsOut.next | with_reducible apply KeepsOut.fault | with_reducible apply State.runIns_keeps | with_reducible apply Keeps.ite | with_reducible apply Keeps.foldl | with_reducible apply Keeps.foldlP | split | dsimp only | simp only [Keeps.upd])

theorem execDroopDetect_keeps (f : Fin 4) (s : State) :
    KeepsOut s (execDroopDetect f s) := by
  have h0 := Keeps.rfl' s
  unfold execDroopDetect
  repeat' (first | with_reducible assumption | with_reducible intro _ | with_reducible apply KeepsOut.next | with_reducible apply KeepsOut.fault | with_reducible apply State.breakRound_keeps | with_reducible apply State.count_keeps | with_reducible apply State.modFrond_keeps | with_reducible apply Keeps.ite | with_reducible apply Keeps.foldl | with_reducible apply Keeps.foldlP | split | dsimp only | simp only [Keeps.upd])

theorem execHpSramZeroFillDone_keeps (p : Fin 4) (s : State) :
    KeepsOut s (execHpSramZeroFillDone p s) := by
  have h0 := Keeps.rfl' s
  unfold execHpSramZeroFillDone
  repeat' (first | with_reducible assumption | with_reducible intro _ | with_reducible apply KeepsOut.next | with_reducible apply KeepsOut.fault | with_reducible apply State.modPort_keeps | with_reducible apply Keeps.ite | with_reducible apply Keeps.foldl | with_reducible apply Keeps.foldlP | split | dsimp only | simp only [Keeps.upd])

theorem execAgeDeadline_keeps (job : ℕ) (s : State) :
    KeepsOut s (execAgeDeadline job s) := by
  have h0 := Keeps.rfl' s
  unfold execAgeDeadline
  repeat' (first | with_reducible assumption | with_reducible intro _ | with_reducible apply KeepsOut.next | with_reducible apply KeepsOut.fault | with_reducible apply State.missing_keeps | with_reducible apply Keeps.ite | with_reducible apply Keeps.foldl | with_reducible apply Keeps.foldlP | split | dsimp only | simp only [Keeps.upd])

theorem execDramWrite_keeps (u : MemUnit) (addr : BitVec 48) (data : List Byte) (bcw : Word) (s : State) :
    KeepsOut s (execDramWrite u addr data bcw s) := by
  have h0 := Keeps.rfl' s
  unfold execDramWrite
  repeat' (first | with_reducible assumption | with_reducible intro _ | with_reducible apply KeepsOut.next | with_reducible apply KeepsOut.fault | with_reducible apply State.dramAccess_keeps | with_reducible apply Keeps.ite | with_reducible apply Keeps.foldl | with_reducible apply Keeps.foldlP | split | dsimp only | simp only [Keeps.upd])

theorem execFaultSourceEvent_keeps (e : FaultInfo) (s : State) :
    KeepsOut s (execFaultSourceEvent e s) := by
  have h0 := Keeps.rfl' s
  unfold execFaultSourceEvent
  repeat' (first | with_reducible assumption | with_reducible intro _ | with_reducible apply KeepsOut.next | with_reducible apply KeepsOut.fault | with_reducible apply State.sweepRetired_keeps | with_reducible apply State.eventReact_keeps | with_reducible apply Keeps.ite | with_reducible apply Keeps.foldl | with_reducible apply Keeps.foldlP | split | dsimp only | simp only [Keeps.upd])

theorem execGoldenRunEnd_keeps (f : Fin 4) (s : State) :
    KeepsOut s (execGoldenRunEnd f s) := by
  have h0 := Keeps.rfl' s
  unfold execGoldenRunEnd
  repeat' (first | with_reducible assumption | with_reducible intro _ | with_reducible apply KeepsOut.next | with_reducible apply KeepsOut.fault | with_reducible apply State.modFrond_keeps | with_reducible apply State.setReg_keeps | with_reducible apply State.dropGolden_keeps | with_reducible apply State.endHold_keeps | with_reducible apply State.goldenFail_keeps | with_reducible apply Keeps.ite | with_reducible apply Keeps.foldl | with_reducible apply Keeps.foldlP | split | dsimp only | simp only [Keeps.upd])

theorem execMemAlloc_keeps (p : Fin 4) (d : Fin 256) (s : State) :
    KeepsOut s (execMemAlloc p d s) := by
  have h0 := Keeps.rfl' s
  unfold execMemAlloc
  repeat' (first | with_reducible assumption | with_reducible intro _ | with_reducible apply KeepsOut.next | with_reducible apply KeepsOut.fault | with_reducible apply State.runCmd_keeps | with_reducible apply State.doAlloc_keeps | with_reducible apply Keeps.ite | with_reducible apply Keeps.foldl | with_reducible apply Keeps.foldlP | split | dsimp only | simp only [Keeps.upd])

theorem execSeqEditTruncate_keeps (p : Fin 4) (d : Fin 256) (s : State) :
    KeepsOut s (execSeqEditTruncate p d s) := by
  have h0 := Keeps.rfl' s
  unfold execSeqEditTruncate
  repeat' (first | with_reducible assumption | with_reducible intro _ | with_reducible apply KeepsOut.next | with_reducible apply KeepsOut.fault | with_reducible apply State.runCmd_keeps | with_reducible apply State.doEdit_keeps | with_reducible apply Keeps.ite | with_reducible apply Keeps.foldl | with_reducible apply Keeps.foldlP | split | dsimp only | simp only [Keeps.upd])

theorem execExactAddedRefresh_keeps (ch : Fin 32) (s : State) :
    KeepsOut s (execExactAddedRefresh ch s) := by
  have h0 := Keeps.rfl' s
  unfold execExactAddedRefresh
  repeat' (first | with_reducible assumption | with_reducible intro _ | with_reducible apply KeepsOut.next | with_reducible apply KeepsOut.fault | with_reducible apply State.breakRound_keeps | with_reducible apply State.count_keeps | with_reducible apply Keeps.ite | with_reducible apply Keeps.foldl | with_reducible apply Keeps.foldlP | split | dsimp only | simp only [Keeps.upd])

theorem execSfuRsqrt_keeps (f : Fin 4) (q : Fin 64) (s : State) :
    KeepsOut s (execSfuRsqrt f q s) := by
  have h0 := Keeps.rfl' s
  unfold execSfuRsqrt
  repeat' (first | with_reducible assumption | with_reducible intro _ | with_reducible apply KeepsOut.next | with_reducible apply KeepsOut.fault | with_reducible apply State.runBuiltin_keeps | with_reducible apply Keeps.ite | with_reducible apply Keeps.foldl | with_reducible apply Keeps.foldlP | split | dsimp only | simp only [Keeps.upd])

theorem execSeqCreate_keeps (p : Fin 4) (d : Fin 256) (s : State) :
    KeepsOut s (execSeqCreate p d s) := by
  have h0 := Keeps.rfl' s
  unfold execSeqCreate
  repeat' (first | with_reducible assumption | with_reducible intro _ | with_reducible apply KeepsOut.next | with_reducible apply KeepsOut.fault | with_reducible apply State.runCmd_keeps | with_reducible apply checks_keeps | with_reducible apply State.addSeq_keeps | with_reducible apply Keeps.ite | with_reducible apply Keeps.foldl | with_reducible apply Keeps.foldlP | split | dsimp only | simp only [Keeps.upd])

theorem execApertureFlush_keeps (p : Fin 4) (d : Fin 256) (s : State) :
    KeepsOut s (execApertureFlush p d s) := by
  have h0 := Keeps.rfl' s
  unfold execApertureFlush
  repeat' (first | with_reducible assumption | with_reducible intro _ | with_reducible apply KeepsOut.next | with_reducible apply KeepsOut.fault | with_reducible apply State.runCmd_keeps | with_reducible apply State.doFlush_keeps | with_reducible apply Keeps.ite | with_reducible apply Keeps.foldl | with_reducible apply Keeps.foldlP | split | dsimp only | simp only [Keeps.upd])

theorem execCaps_keeps (p : Fin 4) (d : Fin 256) (s : State) :
    KeepsOut s (execCaps p d s) := by
  have h0 := Keeps.rfl' s
  unfold execCaps
  repeat' (first | with_reducible assumption | with_reducible intro _ | with_reducible apply KeepsOut.next | with_reducible apply KeepsOut.fault | with_reducible apply State.runCmd_keeps | with_reducible apply Keeps.ite | with_reducible apply Keeps.foldl | with_reducible apply Keeps.foldlP | split | dsimp only | simp only [Keeps.upd])

theorem execTokSig_keeps (f : Fin 4) (q : Fin 64) (s : State) :
    KeepsOut s (execTokSig f q s) := by
  have h0 := Keeps.rfl' s
  unfold execTokSig
  repeat' (first | with_reducible assumption | with_reducible intro _ | with_reducible apply KeepsOut.next | with_reducible apply KeepsOut.fault | with_reducible apply State.modFrond_keeps | with_reducible apply State.runIns_keeps | with_reducible apply Keeps.ite | with_reducible apply Keeps.foldl | with_reducible apply Keeps.foldlP | split | dsimp only | simp only [Keeps.upd])

theorem execDrcMatRepairWrite_keeps (b : Fin 64) (sp : Fin 16) (v : Word) (s : State) :
    KeepsOut s (execDrcMatRepairWrite b sp v s) := by
  have h0 := Keeps.rfl' s
  unfold execDrcMatRepairWrite
  repeat' (first | with_reducible assumption | with_reducible intro _ | with_reducible apply KeepsOut.next | with_reducible apply KeepsOut.fault | with_reducible apply State.repairMatRow_keeps | with_reducible apply Keeps.ite | with_reducible apply Keeps.foldl | with_reducible apply Keeps.foldlP | split | dsimp only | simp only [Keeps.upd])

theorem execApertureMap_keeps (p : Fin 4) (d : Fin 256) (s : State) :
    KeepsOut s (execApertureMap p d s) := by
  have h0 := Keeps.rfl' s
  unfold execApertureMap
  repeat' (first | with_reducible assumption | with_reducible intro _ | with_reducible apply KeepsOut.next | with_reducible apply KeepsOut.fault | with_reducible apply State.runCmd_keeps | with_reducible apply State.doMap_keeps | with_reducible apply Keeps.ite | with_reducible apply Keeps.foldl | with_reducible apply Keeps.foldlP | split | dsimp only | simp only [Keeps.upd])

theorem execDealerStop_keeps (p : Fin 4) (d : Fin 256) (s : State) :
    KeepsOut s (execDealerStop p d s) := by
  have h0 := Keeps.rfl' s
  unfold execDealerStop
  repeat' (first | with_reducible assumption | with_reducible intro _ | with_reducible apply KeepsOut.next | with_reducible apply KeepsOut.fault | with_reducible apply State.runCmd_keeps | with_reducible apply checks_keeps | with_reducible apply State.modDealer_keeps | with_reducible apply Keeps.ite | with_reducible apply Keeps.foldl | with_reducible apply Keeps.foldlP | split | dsimp only | simp only [Keeps.upd])

theorem execTimeIncIntWrite_keeps (w : Writer) (v : Word) (s : State) :
    KeepsOut s (execTimeIncIntWrite w v s) := by
  have h0 := Keeps.rfl' s
  unfold execTimeIncIntWrite
  repeat' (first | with_reducible assumption | with_reducible intro _ | with_reducible apply KeepsOut.next | with_reducible apply KeepsOut.fault | with_reducible apply State.writeAs_keeps | with_reducible apply State.writeIncInt_keeps | with_reducible apply Keeps.ite | with_reducible apply Keeps.foldl | with_reducible apply Keeps.foldlP | split | dsimp only | simp only [Keeps.upd])

theorem execRd_keeps (p : Fin 4) (bank : Fin 16) (col : ℕ) (s : State) :
    KeepsOut s (execRd p bank col s) := by
  have h0 := Keeps.rfl' s
  unfold execRd
  repeat' (first | with_reducible assumption | with_reducible intro _ | with_reducible apply KeepsOut.next | with_reducible apply KeepsOut.fault | with_reducible apply State.settled_keeps | with_reducible apply State.answer_keeps | with_reducible apply State.proto_keeps | with_reducible apply State.reportMarks_keeps | with_reducible apply Keeps.ite | with_reducible apply Keeps.foldl | with_reducible apply Keeps.foldlP | split | dsimp only | simp only [Keeps.upd])

theorem execHostPortReset_keeps (p : Fin 4) (s : State) :
    KeepsOut s (execHostPortReset p s) := by
  have h0 := Keeps.rfl' s
  unfold execHostPortReset
  repeat' (first | with_reducible assumption | with_reducible intro _ | with_reducible apply KeepsOut.next | with_reducible apply KeepsOut.fault | with_reducible apply State.sweepRetired_keeps | with_reducible apply State.l4Port_keeps | with_reducible apply Keeps.ite | with_reducible apply Keeps.foldl | with_reducible apply Keeps.foldlP | split | dsimp only | simp only [Keeps.upd])

theorem execSre_keeps (p : Fin 4) (s : State) :
    KeepsOut s (execSre p s) := by
  have h0 := Keeps.rfl' s
  unfold execSre
  repeat' (first | with_reducible assumption | with_reducible intro _ | with_reducible apply KeepsOut.next | with_reducible apply KeepsOut.fault | with_reducible apply State.settled_keeps | with_reducible apply State.hpcCount_keeps | with_reducible apply State.proto_keeps | with_reducible apply State.modPort_keeps | with_reducible apply State.hbIrq_keeps | with_reducible apply Keeps.ite | with_reducible apply Keeps.foldl | with_reducible apply Keeps.foldlP | split | dsimp only | simp only [Keeps.upd])

theorem execSelftestSegmentEnd_keeps (f : Fin 4) (matched : Bool) (s : State) :
    KeepsOut s (execSelftestSegmentEnd f matched s) := by
  have h0 := Keeps.rfl' s
  unfold execSelftestSegmentEnd
  repeat' (first | with_reducible assumption | with_reducible intro _ | with_reducible apply KeepsOut.next | with_reducible apply KeepsOut.fault | with_reducible apply State.modFrond_keeps | with_reducible apply State.comparatorTest_keeps | with_reducible apply State.checkAdvance_keeps | with_reducible apply State.checkPassed_keeps | with_reducible apply State.checkFailed_keeps | with_reducible apply State.patternFailed_keeps | with_reducible apply State.patternAdvance_keeps | with_reducible apply State.locateAdvance_keeps | with_reducible apply Keeps.ite | with_reducible apply Keeps.foldl | with_reducible apply Keeps.foldlP | split | dsimp only | simp only [Keeps.upd])

theorem execPartRelease_keeps (p : Fin 4) (d : Fin 256) (s : State) :
    KeepsOut s (execPartRelease p d s) := by
  have h0 := Keeps.rfl' s
  unfold execPartRelease
  repeat' (first | with_reducible assumption | with_reducible intro _ | with_reducible apply KeepsOut.next | with_reducible apply KeepsOut.fault | with_reducible apply State.runCmd_keeps | with_reducible apply State.doRelease_keeps | with_reducible apply Keeps.ite | with_reducible apply Keeps.foldl | with_reducible apply Keeps.foldlP | split | dsimp only | simp only [Keeps.upd])

theorem execOpChange_keeps (f : Fin 4) (s : State) :
    KeepsOut s (execOpChange f s) := by
  have h0 := Keeps.rfl' s
  unfold execOpChange
  repeat' (first | with_reducible assumption | with_reducible intro _ | with_reducible apply KeepsOut.next | with_reducible apply KeepsOut.fault | with_reducible apply State.setRail_keeps | with_reducible apply State.setOp_keeps | with_reducible apply Keeps.ite | with_reducible apply Keeps.foldl | with_reducible apply Keeps.foldlP | split | dsimp only | simp only [Keeps.upd])

theorem execDmaCslot_keeps (f : Fin 4) (q : Fin 64) (s : State) :
    KeepsOut s (execDmaCslot f q s) := by
  have h0 := Keeps.rfl' s
  unfold execDmaCslot
  repeat' (first | with_reducible assumption | with_reducible intro _ | with_reducible apply KeepsOut.next | with_reducible apply KeepsOut.fault | with_reducible apply State.dmaSlots_keeps | with_reducible apply Keeps.ite | with_reducible apply Keeps.foldl | with_reducible apply Keeps.foldlP | split | dsimp only | simp only [Keeps.upd])

theorem execDeckLoad_keeps (p : Fin 4) (d : Fin 256) (s : State) :
    KeepsOut s (execDeckLoad p d s) := by
  have h0 := Keeps.rfl' s
  unfold execDeckLoad
  repeat' (first | with_reducible assumption | with_reducible intro _ | with_reducible apply KeepsOut.next | with_reducible apply KeepsOut.fault | with_reducible apply State.runCmd_keeps | with_reducible apply State.doDeckLoad_keeps | with_reducible apply Keeps.ite | with_reducible apply Keeps.foldl | with_reducible apply Keeps.foldlP | split | dsimp only | simp only [Keeps.upd])

theorem execLaunchTransmit_keeps (e : UnitAt) (s : State) :
    KeepsOut s (execLaunchTransmit e s) := by
  have h0 := Keeps.rfl' s
  unfold execLaunchTransmit
  repeat' (first | with_reducible assumption | with_reducible intro _ | with_reducible apply KeepsOut.next | with_reducible apply KeepsOut.fault | with_reducible apply State.sendFrame_keeps | with_reducible apply State.fresh_keeps | with_reducible apply State.notice_keeps | with_reducible apply Keeps.ite | with_reducible apply Keeps.foldl | with_reducible apply Keeps.foldlP | split | dsimp only | simp only [Keeps.upd])

theorem execFrdSpRepairWrite_keeps (f : Fin 4) (b : Fin 320) (sp : Fin 32) (v : Word) (s : State) :
    KeepsOut s (execFrdSpRepairWrite f b sp v s) := by
  have h0 := Keeps.rfl' s
  unfold execFrdSpRepairWrite
  repeat' (first | with_reducible assumption | with_reducible intro _ | with_reducible apply KeepsOut.next | with_reducible apply KeepsOut.fault | with_reducible apply State.repairSpRow_keeps | with_reducible apply Keeps.ite | with_reducible apply Keeps.foldl | with_reducible apply Keeps.foldlP | split | dsimp only | simp only [Keeps.upd])

theorem execVecOr_keeps (f : Fin 4) (q : Fin 64) (s : State) :
    KeepsOut s (execVecOr f q s) := by
  have h0 := Keeps.rfl' s
  unfold execVecOr
  repeat' (first | with_reducible assumption | with_reducible intro _ | with_reducible apply KeepsOut.next | with_reducible apply KeepsOut.fault | with_reducible apply State.runVec_keeps | with_reducible apply Keeps.ite | with_reducible apply Keeps.foldl | with_reducible apply Keeps.foldlP | split | dsimp only | simp only [Keeps.upd])

theorem execVecEafCvt_keeps (f : Fin 4) (q : Fin 64) (s : State) :
    KeepsOut s (execVecEafCvt f q s) := by
  have h0 := Keeps.rfl' s
  unfold execVecEafCvt
  repeat' (first | with_reducible assumption | with_reducible intro _ | with_reducible apply KeepsOut.next | with_reducible apply KeepsOut.fault | with_reducible apply State.runVec_keeps | with_reducible apply Keeps.ite | with_reducible apply Keeps.foldl | with_reducible apply Keeps.foldlP | split | dsimp only | simp only [Keeps.upd])

theorem execMrr_keeps (p : Fin 4) (ma : BitVec 8) (s : State) :
    KeepsOut s (execMrr p ma s) := by
  have h0 := Keeps.rfl' s
  unfold execMrr
  repeat' (first | with_reducible assumption | with_reducible intro _ | with_reducible apply KeepsOut.next | with_reducible apply KeepsOut.fault | with_reducible apply State.settled_keeps | with_reducible apply Keeps.ite | with_reducible apply Keeps.foldl | with_reducible apply Keeps.foldlP | split | dsimp only | simp only [Keeps.upd])

theorem execVecShra_keeps (f : Fin 4) (q : Fin 64) (s : State) :
    KeepsOut s (execVecShra f q s) := by
  have h0 := Keeps.rfl' s
  unfold execVecShra
  repeat' (first | with_reducible assumption | with_reducible intro _ | with_reducible apply KeepsOut.next | with_reducible apply KeepsOut.fault | with_reducible apply State.runVec_keeps | with_reducible apply Keeps.ite | with_reducible apply Keeps.foldl | with_reducible apply Keeps.foldlP | split | dsimp only | simp only [Keeps.upd])

theorem execInstructionFetch_keeps (f : Fin 4) (q : Fin 64) (s : State) :
    KeepsOut s (execInstructionFetch f q s) := by
  have h0 := Keeps.rfl' s
  unfold execInstructionFetch
  repeat' (first | with_reducible assumption | with_reducible intro _ | with_reducible apply KeepsOut.next | with_reducible apply KeepsOut.fault | with_reducible apply State.reportMarks_keeps | with_reducible apply State.modQueue_keeps | with_reducible apply State.modFrond_keeps | with_reducible apply State.reportBcw_keeps | with_reducible apply State.l1_keeps | with_reducible apply State.raise_keeps | with_reducible apply Keeps.ite | with_reducible apply Keeps.foldl | with_reducible apply Keeps.foldlP | split | dsimp only | simp only [Keeps.upd])

theorem execLaunchSetFrame_keeps (p : Fin 4) (d : Fin 256) (s : State) :
    KeepsOut s (execLaunchSetFrame p d s) := by
  have h0 := Keeps.rfl' s
  unfold execLaunchSetFrame
  repeat' (first | with_reducible assumption | with_reducible intro _ | with_reducible apply KeepsOut.next | with_reducible apply KeepsOut.fault | with_reducible apply State.runCmd_keeps | with_reducible apply State.doLaunchFrame_keeps | with_reducible apply Keeps.ite | with_reducible apply Keeps.foldl | with_reducible apply Keeps.foldlP | split | dsimp only | simp only [Keeps.upd])

theorem execPllLockLoss_keeps (domain : Fin 32) (s : State) :
    KeepsOut s (execPllLockLoss domain s) := by
  have h0 := Keeps.rfl' s
  unfold execPllLockLoss
  repeat' (first | with_reducible assumption | with_reducible intro _ | with_reducible apply KeepsOut.next | with_reducible apply KeepsOut.fault | with_reducible apply State.raise_keeps | with_reducible apply State.domainStep_keeps | with_reducible apply Keeps.ite | with_reducible apply Keeps.foldl | with_reducible apply Keeps.foldlP | split | dsimp only | simp only [Keeps.upd])

theorem execCpSqDb_keeps (p : Fin 4) (d : Fin 256) (s : State) :
    KeepsOut s (execCpSqDb p d s) := by
  have h0 := Keeps.rfl' s
  unfold execCpSqDb
  repeat' (first | with_reducible assumption | with_reducible intro _ | with_reducible apply KeepsOut.next | with_reducible apply KeepsOut.fault | with_reducible apply State.takeSqDb_keeps | with_reducible apply Keeps.ite | with_reducible apply Keeps.foldl | with_reducible apply Keeps.foldlP | split | dsimp only | simp only [Keeps.upd])

theorem execSamplePreload_keeps (capture : List Bool) (load : List Bool) (s : State) :
    KeepsOut s (execSamplePreload capture load s) := by
  have h0 := Keeps.rfl' s
  unfold execSamplePreload
  repeat' (first | with_reducible assumption | with_reducible intro _ | with_reducible apply KeepsOut.next | with_reducible apply KeepsOut.fault | with_reducible apply State.tapIr_keeps | with_reducible apply Keeps.ite | with_reducible apply Keeps.foldl | with_reducible apply Keeps.foldlP | split | dsimp only | simp only [Keeps.upd])

theorem execDataPacket_keeps (l : Fin 3) (s : State) :
    KeepsOut s (execDataPacket l s) := by
  have h0 := Keeps.rfl' s
  unfold execDataPacket
  repeat' (first | with_reducible assumption | with_reducible intro _ | with_reducible apply KeepsOut.next | with_reducible apply KeepsOut.fault | with_reducible apply State.tookPkt_keeps | with_reducible apply State.pktTrick_keeps | with_reducible apply State.landBlock_keeps | with_reducible apply State.modTrick_keeps | with_reducible apply Keeps.ite | with_reducible apply Keeps.foldl | with_reducible apply Keeps.foldlP | split | dsimp only | simp only [Keeps.upd])
  all_goals exact State.pktTrick_keeps _ _ _ _ (State.tookPkt_keeps _ _ _ h0) _ ‹State.pktTrick _ _ _ _ _ = _›

theorem execHostResetNAssert_keeps (p : Fin 4) (s : State) :
    KeepsOut s (execHostResetNAssert p s) := by
  have h0 := Keeps.rfl' s
  unfold execHostResetNAssert
  repeat' (first | with_reducible assumption | with_reducible intro _ | with_reducible apply KeepsOut.next | with_reducible apply KeepsOut.fault | with_reducible apply State.modPort_keeps | with_reducible apply State.enterLost_keeps | with_reducible apply Keeps.ite | with_reducible apply Keeps.foldl | with_reducible apply Keeps.foldlP | split | dsimp only | simp only [Keeps.upd])

theorem execInstructionDeliver_keeps (f : Fin 4) (s : State) :
    KeepsOut s (execInstructionDeliver f s) := by
  have h0 := Keeps.rfl' s
  unfold execInstructionDeliver
  repeat' (first | with_reducible assumption | with_reducible intro _ | with_reducible apply KeepsOut.next | with_reducible apply KeepsOut.fault | with_reducible apply State.setFrond_keeps | with_reducible apply State.useStep_keeps | with_reducible apply Keeps.ite | with_reducible apply Keeps.foldl | with_reducible apply Keeps.foldlP | split | dsimp only | simp only [Keeps.upd])

theorem execDeskewCalibrationSequence_keeps (port : Fin 12) (s : State) :
    KeepsOut s (execDeskewCalibrationSequence port s) := by
  have h0 := Keeps.rfl' s
  unfold execDeskewCalibrationSequence
  repeat' (first | with_reducible assumption | with_reducible intro _ | with_reducible apply KeepsOut.next | with_reducible apply KeepsOut.fault | with_reducible apply State.setRegF_keeps | with_reducible apply Keeps.ite | with_reducible apply Keeps.foldl | with_reducible apply Keeps.foldlP | split | dsimp only | simp only [Keeps.upd])

theorem execSrx_keeps (p : Fin 4) (s : State) :
    KeepsOut s (execSrx p s) := by
  have h0 := Keeps.rfl' s
  unfold execSrx
  repeat' (first | with_reducible assumption | with_reducible intro _ | with_reducible apply KeepsOut.next | with_reducible apply KeepsOut.fault | with_reducible apply State.proto_keeps | with_reducible apply State.modPort_keeps | with_reducible apply State.hbIrq_keeps | with_reducible apply Keeps.ite | with_reducible apply Keeps.foldl | with_reducible apply Keeps.foldlP | split | dsimp only | simp only [Keeps.upd])

theorem execDroopFault_keeps (f : Fin 4) (s : State) :
    KeepsOut s (execDroopFault f s) := by
  have h0 := Keeps.rfl' s
  unfold execDroopFault
  repeat' (first | with_reducible assumption | with_reducible intro _ | with_reducible apply KeepsOut.next | with_reducible apply KeepsOut.fault | with_reducible apply State.raise_keeps | with_reducible apply Keeps.ite | with_reducible apply Keeps.foldl | with_reducible apply Keeps.foldlP | split | dsimp only | simp only [Keeps.upd])

theorem execTimeRead_keeps (p : Fin 4) (d : Fin 256) (s : State) :
    KeepsOut s (execTimeRead p d s) := by
  have h0 := Keeps.rfl' s
  unfold execTimeRead
  repeat' (first | with_reducible assumption | with_reducible intro _ | with_reducible apply KeepsOut.next | with_reducible apply KeepsOut.fault | with_reducible apply State.runCmd_keeps | with_reducible apply Keeps.ite | with_reducible apply Keeps.foldl | with_reducible apply Keeps.foldlP | split | dsimp only | simp only [Keeps.upd])

theorem execLinkLockLoss_keeps (l : Fin 3) (s : State) :
    KeepsOut s (execLinkLockLoss l s) := by
  have h0 := Keeps.rfl' s
  unfold execLinkLockLoss
  repeat' (first | with_reducible assumption | with_reducible intro _ | with_reducible apply KeepsOut.next | with_reducible apply KeepsOut.fault | with_reducible apply State.fastRetrain_keeps | with_reducible apply Keeps.ite | with_reducible apply Keeps.foldl | with_reducible apply Keeps.foldlP | split | dsimp only | simp only [Keeps.upd])

theorem execDmaUnitArrive_keeps (f : Fin 4) (ch : Fin 16) (s : State) :
    KeepsOut s (execDmaUnitArrive f ch s) := by
  have h0 := Keeps.rfl' s
  unfold execDmaUnitArrive
  repeat' (first | with_reducible assumption | with_reducible intro _ | with_reducible apply KeepsOut.next | with_reducible apply KeepsOut.fault | with_reducible apply State.dmaDone_keeps | with_reducible apply State.dmaArrive_keeps | with_reducible apply Keeps.ite | with_reducible apply Keeps.foldl | with_reducible apply Keeps.foldlP | split | dsimp only | simp only [Keeps.upd])

theorem execDrainEntryRead_keeps (f : Fin 4) (s : State) :
    KeepsOut s (execDrainEntryRead f s) := by
  have h0 := Keeps.rfl' s
  unfold execDrainEntryRead
  repeat' (first | with_reducible assumption | with_reducible intro _ | with_reducible apply KeepsOut.next | with_reducible apply KeepsOut.fault | with_reducible apply State.drainEntry_keeps | with_reducible apply State.progFault_keeps | with_reducible apply Keeps.ite | with_reducible apply Keeps.foldl | with_reducible apply Keeps.foldlP | split | dsimp only | simp only [Keeps.upd])

theorem execTrainingCommand_keeps (p : Fin 4) (t : Training) (s : State) :
    KeepsOut s (execTrainingCommand p t s) := by
  have h0 := Keeps.rfl' s
  unfold execTrainingCommand
  repeat' (first | with_reducible assumption | with_reducible intro _ | with_reducible apply KeepsOut.next | with_reducible apply KeepsOut.fault | with_reducible apply State.settled_keeps | with_reducible apply State.modPort_keeps | with_reducible apply State.freeBytes_keeps | with_reducible apply State.answer_keeps | with_reducible apply Keeps.ite | with_reducible apply Keeps.foldl | with_reducible apply Keeps.foldlP | split | dsimp only | simp only [Keeps.upd])

theorem execProgLoad_keeps (p : Fin 4) (d : Fin 256) (s : State) :
    KeepsOut s (execProgLoad p d s) := by
  have h0 := Keeps.rfl' s
  unfold execProgLoad
  repeat' (first | with_reducible assumption | with_reducible intro _ | with_reducible apply KeepsOut.next | with_reducible apply KeepsOut.fault | with_reducible apply State.runCmd_keeps | with_reducible apply State.doProgLoad_keeps | with_reducible apply Keeps.ite | with_reducible apply Keeps.foldl | with_reducible apply Keeps.foldlP | split | dsimp only | simp only [Keeps.upd])

theorem execTwinCompare_keeps (job : ℕ) (s : State) :
    KeepsOut s (execTwinCompare job s) := by
  have h0 := Keeps.rfl' s
  unfold execTwinCompare
  repeat' (first | with_reducible assumption | with_reducible intro _ | with_reducible apply KeepsOut.next | with_reducible apply KeepsOut.fault | with_reducible apply State.twinPair_keeps | with_reducible apply State.sweepRetired_keeps | with_reducible apply Keeps.ite | with_reducible apply Keeps.foldl | with_reducible apply Keeps.foldlP | split | dsimp only | simp only [Keeps.upd])

theorem execPartClaim_keeps (p : Fin 4) (d : Fin 256) (s : State) :
    KeepsOut s (execPartClaim p d s) := by
  have h0 := Keeps.rfl' s
  unfold execPartClaim
  repeat' (first | with_reducible assumption | with_reducible intro _ | with_reducible apply KeepsOut.next | with_reducible apply KeepsOut.fault | with_reducible apply State.runCmd_keeps | with_reducible apply State.doClaim_keeps | with_reducible apply Keeps.ite | with_reducible apply Keeps.foldl | with_reducible apply Keeps.foldlP | split | dsimp only | simp only [Keeps.upd])

theorem execVecNeg_keeps (f : Fin 4) (q : Fin 64) (s : State) :
    KeepsOut s (execVecNeg f q s) := by
  have h0 := Keeps.rfl' s
  unfold execVecNeg
  repeat' (first | with_reducible assumption | with_reducible intro _ | with_reducible apply KeepsOut.next | with_reducible apply KeepsOut.fault | with_reducible apply State.runVecFree_keeps | with_reducible apply Keeps.ite | with_reducible apply Keeps.foldl | with_reducible apply Keeps.foldlP | split | dsimp only | simp only [Keeps.upd])

theorem execDbgResume_keeps (target : BitVec 4) (s : State) :
    KeepsOut s (execDbgResume target s) := by
  have h0 := Keeps.rfl' s
  unfold execDbgResume
  repeat' (first | with_reducible assumption | with_reducible intro _ | with_reducible apply KeepsOut.next | with_reducible apply KeepsOut.fault | with_reducible apply State.control_keeps | with_reducible apply Keeps.ite | with_reducible apply Keeps.foldl | with_reducible apply Keeps.foldlP | split | dsimp only | simp only [Keeps.upd])

theorem execRemoteSignalArrive_keeps (f : Fin 4) (s : State) :
    KeepsOut s (execRemoteSignalArrive f s) := by
  have h0 := Keeps.rfl' s
  unfold execRemoteSignalArrive
  repeat' (first | with_reducible assumption | with_reducible intro _ | with_reducible apply KeepsOut.next | with_reducible apply KeepsOut.fault | with_reducible apply State.modFrond_keeps | with_reducible apply State.raise_keeps | with_reducible apply State.l1On_keeps | with_reducible apply Keeps.ite | with_reducible apply Keeps.foldl | with_reducible apply Keeps.foldlP | split | dsimp only | simp only [Keeps.upd])

theorem execVecShl_keeps (f : Fin 4) (q : Fin 64) (s : State) :
    KeepsOut s (execVecShl f q s) := by
  have h0 := Keeps.rfl' s
  unfold execVecShl
  repeat' (first | with_reducible assumption | with_reducible intro _ | with_reducible apply KeepsOut.next | with_reducible apply KeepsOut.fault | with_reducible apply State.runVec_keeps | with_reducible apply Keeps.ite | with_reducible apply Keeps.foldl | with_reducible apply Keeps.foldlP | split | dsimp only | simp only [Keeps.upd])

theorem execSorusAppend_keeps (f : Fin 4) (q : Fin 64) (s : State) :
    KeepsOut s (execSorusAppend f q s) := by
  have h0 := Keeps.rfl' s
  unfold execSorusAppend
  repeat' (first | with_reducible assumption | with_reducible intro _ | with_reducible apply KeepsOut.next | with_reducible apply KeepsOut.fault | with_reducible apply State.doSorusAppend_keeps | with_reducible apply Keeps.ite | with_reducible apply Keeps.foldl | with_reducible apply Keeps.foldlP | split | dsimp only | simp only [Keeps.upd])

theorem execTapReset_keeps (s : State) :
    KeepsOut s (execTapReset s) := by
  have h0 := Keeps.rfl' s
  unfold execTapReset
  repeat' (first | with_reducible assumption | with_reducible intro _ | with_reducible apply KeepsOut.next | with_reducible apply KeepsOut.fault | with_reducible apply State.tapIr_keeps | with_reducible apply Keeps.ite | with_reducible apply Keeps.foldl | with_reducible apply Keeps.foldlP | split | dsimp only | simp only [Keeps.upd])

theorem execI2cRead_keeps (n : ℕ) (s : State) :
    KeepsOut s (execI2cRead n s) := by
  have h0 := Keeps.rfl' s
  unfold execI2cRead
  repeat' (first | with_reducible assumption | with_reducible intro _ | with_reducible apply KeepsOut.next | with_reducible apply KeepsOut.fault | with_reducible apply Keeps.ite | with_reducible apply Keeps.foldl | with_reducible apply Keeps.foldlP | split | dsimp only | simp only [Keeps.upd])

theorem execFwStage_keeps (p : Fin 4) (d : Fin 256) (s : State) :
    KeepsOut s (execFwStage p d s) := by
  have h0 := Keeps.rfl' s
  unfold execFwStage
  repeat' (first | with_reducible assumption | with_reducible intro _ | with_reducible apply KeepsOut.next | with_reducible apply KeepsOut.fault | with_reducible apply State.runCmd_keeps | with_reducible apply State.doStage_keeps | with_reducible apply Keeps.ite | with_reducible apply Keeps.foldl | with_reducible apply Keeps.foldlP | split | dsimp only | simp only [Keeps.upd])

theorem execDbgHalt_keeps (target : BitVec 4) (s : State) :
    KeepsOut s (execDbgHalt target s) := by
  have h0 := Keeps.rfl' s
  unfold execDbgHalt
  repeat' (first | with_reducible assumption | with_reducible intro _ | with_reducible apply KeepsOut.next | with_reducible apply KeepsOut.fault | with_reducible apply State.control_keeps | with_reducible apply Keeps.ite | with_reducible apply Keeps.foldl | with_reducible apply Keeps.foldlP | split | dsimp only | simp only [Keeps.upd])

theorem execPatrolScrub_keeps (c : Fin 16) (s : State) :
    KeepsOut s (execPatrolScrub c s) := by
  have h0 := Keeps.rfl' s
  unfold execPatrolScrub
  repeat' (first | with_reducible assumption | with_reducible intro _ | with_reducible apply KeepsOut.next | with_reducible apply KeepsOut.fault | with_reducible apply State.reportMarks_keeps | with_reducible apply Keeps.ite | with_reducible apply Keeps.foldl | with_reducible apply Keeps.foldlP | split | dsimp only | simp only [Keeps.upd])

theorem execSfuSilu_keeps (f : Fin 4) (q : Fin 64) (s : State) :
    KeepsOut s (execSfuSilu f q s) := by
  have h0 := Keeps.rfl' s
  unfold execSfuSilu
  repeat' (first | with_reducible assumption | with_reducible intro _ | with_reducible apply KeepsOut.next | with_reducible apply KeepsOut.fault | with_reducible apply State.runBuiltin_keeps | with_reducible apply Keeps.ite | with_reducible apply Keeps.foldl | with_reducible apply Keeps.foldlP | split | dsimp only | simp only [Keeps.upd])

theorem execGroupForm_keeps (p : Fin 4) (d : Fin 256) (s : State) :
    KeepsOut s (execGroupForm p d s) := by
  have h0 := Keeps.rfl' s
  unfold execGroupForm
  repeat' (first | with_reducible assumption | with_reducible intro _ | with_reducible apply KeepsOut.next | with_reducible apply KeepsOut.fault | with_reducible apply State.runCmd_keeps | with_reducible apply State.doGroupForm_keeps | with_reducible apply Keeps.ite | with_reducible apply Keeps.foldl | with_reducible apply Keeps.foldlP | split | dsimp only | simp only [Keeps.upd])

theorem execReplayTimeout_keeps (l : Fin 3) (s : State) :
    KeepsOut s (execReplayTimeout l s) := by
  have h0 := Keeps.rfl' s
  unfold execReplayTimeout
  repeat' (first | with_reducible assumption | with_reducible intro _ | with_reducible apply KeepsOut.next | with_reducible apply KeepsOut.fault | with_reducible apply State.modLink_keeps | with_reducible apply State.startReplay_keeps | with_reducible apply Keeps.ite | with_reducible apply Keeps.foldl | with_reducible apply Keeps.foldlP | split | dsimp only | simp only [Keeps.upd])

theorem execPartialRowWrite_keeps (f : Fin 4) (reqs : List SpReq) (start : ℕ) (data : List Byte) (s : State) :
    KeepsOut s (execPartialRowWrite f reqs start data s) := by
  have h0 := Keeps.rfl' s
  unfold execPartialRowWrite
  repeat' (first | with_reducible assumption | with_reducible intro _ | with_reducible apply KeepsOut.next | with_reducible apply KeepsOut.fault | with_reducible apply State.spWriteCmd_keeps | with_reducible apply State.spStore_keeps | with_reducible apply Keeps.ite | with_reducible apply Keeps.foldl | with_reducible apply Keeps.foldlP | split | dsimp only | simp only [Keeps.upd])

theorem execScratchpadRead_keeps (f : Fin 4) (reqs : List SpReq) (s : State) :
    KeepsOut s (execScratchpadRead f reqs s) := by
  have h0 := Keeps.rfl' s
  unfold execScratchpadRead
  repeat' (first | with_reducible assumption | with_reducible intro _ | with_reducible apply KeepsOut.next | with_reducible apply KeepsOut.fault | with_reducible apply State.spArb_keeps | with_reducible apply State.modFrond_keeps | with_reducible apply State.spEnd_keeps | with_reducible apply State.spServe_keeps | with_reducible apply Keeps.ite | with_reducible apply Keeps.foldl | with_reducible apply Keeps.foldlP | split | dsimp only | simp only [Keeps.upd])
  all_goals
    have h9 := State.spArb_keeps f reqs h0
    rw [‹s.spArb f reqs = _›] at h9
    exact h9

theorem execLinkTrainTimeout_keeps (l : Fin 3) (s : State) :
    KeepsOut s (execLinkTrainTimeout l s) := by
  have h0 := Keeps.rfl' s
  unfold execLinkTrainTimeout
  repeat' (first | with_reducible assumption | with_reducible intro _ | with_reducible apply KeepsOut.next | with_reducible apply KeepsOut.fault | with_reducible apply State.count_keeps | with_reducible apply State.setLink_keeps | with_reducible apply Keeps.ite | with_reducible apply Keeps.foldl | with_reducible apply Keeps.foldlP | split | dsimp only | simp only [Keeps.upd])

theorem execCardOpen_keeps (f : Fin 4) (s : State) :
    KeepsOut s (execCardOpen f s) := by
  have h0 := Keeps.rfl' s
  unfold execCardOpen
  repeat' (first | with_reducible assumption | with_reducible intro _ | with_reducible apply KeepsOut.next | with_reducible apply KeepsOut.fault | with_reducible apply State.openCard_keeps | with_reducible apply Keeps.ite | with_reducible apply Keeps.foldl | with_reducible apply Keeps.foldlP | split | dsimp only | simp only [Keeps.upd])

theorem execNocTimeout_keeps (router : Fin 64) (u : MemUnit) (second : Bool) (block : Option (BitVec 40)) (s : State) :
    KeepsOut s (execNocTimeout router u second block s) := by
  have h0 := Keeps.rfl' s
  unfold execNocTimeout
  repeat' (first | with_reducible assumption | with_reducible intro _ | with_reducible apply KeepsOut.next | with_reducible apply KeepsOut.fault | with_reducible apply State.abortBlock_keeps | with_reducible apply State.sweepRetired_keeps | with_reducible apply State.checkFail_keeps | with_reducible apply State.raise_keeps | with_reducible apply Keeps.ite | with_reducible apply Keeps.foldl | with_reducible apply Keeps.foldlP | split | dsimp only | simp only [Keeps.upd])

theorem execSfuLog_keeps (f : Fin 4) (q : Fin 64) (s : State) :
    KeepsOut s (execSfuLog f q s) := by
  have h0 := Keeps.rfl' s
  unfold execSfuLog
  repeat' (first | with_reducible assumption | with_reducible intro _ | with_reducible apply KeepsOut.next | with_reducible apply KeepsOut.fault | with_reducible apply State.runBuiltin_keeps | with_reducible apply Keeps.ite | with_reducible apply Keeps.foldl | with_reducible apply Keeps.foldlP | split | dsimp only | simp only [Keeps.upd])

theorem execSfuGelu_keeps (f : Fin 4) (q : Fin 64) (s : State) :
    KeepsOut s (execSfuGelu f q s) := by
  have h0 := Keeps.rfl' s
  unfold execSfuGelu
  repeat' (first | with_reducible assumption | with_reducible intro _ | with_reducible apply KeepsOut.next | with_reducible apply KeepsOut.fault | with_reducible apply State.runBuiltin_keeps | with_reducible apply Keeps.ite | with_reducible apply Keeps.foldl | with_reducible apply Keeps.foldlP | split | dsimp only | simp only [Keeps.upd])

theorem execPwrgdMainFail_keeps (s : State) :
    KeepsOut s (execPwrgdMainFail s) := by
  have h0 := Keeps.rfl' s
  unfold execPwrgdMainFail
  repeat' (first | with_reducible assumption | with_reducible intro _ | with_reducible apply KeepsOut.next | with_reducible apply KeepsOut.fault | with_reducible apply State.raise_keeps | with_reducible apply Keeps.ite | with_reducible apply Keeps.foldl | with_reducible apply Keeps.foldlP | split | dsimp only | simp only [Keeps.upd])

theorem execOperandRowEnter_keeps (f : Fin 4) (s : State) :
    KeepsOut s (execOperandRowEnter f s) := by
  have h0 := Keeps.rfl' s
  unfold execOperandRowEnter
  repeat' (first | with_reducible assumption | with_reducible intro _ | with_reducible apply KeepsOut.next | with_reducible apply KeepsOut.fault | with_reducible apply State.enterRow_keeps | with_reducible apply State.loadClock_keeps | with_reducible apply State.progFault_keeps | with_reducible apply State.orFault_keeps | with_reducible apply Keeps.ite | with_reducible apply Keeps.foldl | with_reducible apply Keeps.foldlP | split | dsimp only | simp only [Keeps.upd])

theorem execWorkSet_keeps (f : Fin 4) (q : Fin 64) (s : State) :
    KeepsOut s (execWorkSet f q s) := by
  have h0 := Keeps.rfl' s
  unfold execWorkSet
  repeat' (first | with_reducible assumption | with_reducible intro _ | with_reducible apply KeepsOut.next | with_reducible apply KeepsOut.fault | with_reducible apply State.runIns_keeps | with_reducible apply State.setCounter_keeps | with_reducible apply Keeps.ite | with_reducible apply Keeps.foldl | with_reducible apply Keeps.foldlP | split | dsimp only | simp only [Keeps.upd])

theorem execS1Wake_keeps (_c : WakeCause) (s : State) :
    KeepsOut s (execS1Wake _c s) := by
  have h0 := Keeps.rfl' s
  unfold execS1Wake
  repeat' (first | with_reducible assumption | with_reducible intro _ | with_reducible apply KeepsOut.next | with_reducible apply KeepsOut.fault | with_reducible apply State.wakeS1_keeps | with_reducible apply Keeps.ite | with_reducible apply Keeps.foldl | with_reducible apply Keeps.foldlP | split | dsimp only | simp only [Keeps.upd])

theorem execScatter_keeps (f : Fin 4) (q : Fin 64) (s : State) :
    KeepsOut s (execScatter f q s) := by
  have h0 := Keeps.rfl' s
  unfold execScatter
  repeat' (first | with_reducible assumption | with_reducible intro _ | with_reducible apply KeepsOut.next | with_reducible apply KeepsOut.fault | with_reducible apply State.dmaIdx_keeps | with_reducible apply State.runIns_keeps | with_reducible apply State.dmaXfer_keeps | with_reducible apply Keeps.ite | with_reducible apply Keeps.foldl | with_reducible apply Keeps.foldlP | split | dsimp only | simp only [Keeps.upd])
  all_goals
    have h9 := State.dmaIdx_keeps f ‹IWord› h0
    rw [‹s.dmaIdx f _ = _›] at h9
    exact h9

theorem execLatTolSet_keeps (p : Fin 4) (d : Fin 256) (s : State) :
    KeepsOut s (execLatTolSet p d s) := by
  have h0 := Keeps.rfl' s
  unfold execLatTolSet
  repeat' (first | with_reducible assumption | with_reducible intro _ | with_reducible apply KeepsOut.next | with_reducible apply KeepsOut.fault | with_reducible apply State.runCmd_keeps | with_reducible apply State.modPart_keeps | with_reducible apply Keeps.ite | with_reducible apply Keeps.foldl | with_reducible apply Keeps.foldlP | split | dsimp only | simp only [Keeps.upd])

theorem execDramRefresh_keeps (_ch : Fin 32) (s : State) :
    KeepsOut s (execDramRefresh _ch s) := by
  have h0 := Keeps.rfl' s
  unfold execDramRefresh
  repeat' (first | with_reducible assumption | with_reducible intro _ | with_reducible apply KeepsOut.next | with_reducible apply KeepsOut.fault | with_reducible apply Keeps.ite | with_reducible apply Keeps.foldl | with_reducible apply Keeps.foldlP | split | dsimp only | simp only [Keeps.upd])

theorem execDbgResp_keeps (rs : BitVec 512) (s : State) :
    KeepsOut s (execDbgResp rs s) := by
  have h0 := Keeps.rfl' s
  unfold execDbgResp
  repeat' (first | with_reducible assumption | with_reducible intro _ | with_reducible apply KeepsOut.next | with_reducible apply KeepsOut.fault | with_reducible apply State.tapIr_keeps | with_reducible apply State.debugAnswer_keeps | with_reducible apply State.chalAnswer_keeps | with_reducible apply Keeps.ite | with_reducible apply Keeps.foldl | with_reducible apply Keeps.foldlP | split | dsimp only | simp only [Keeps.upd])

theorem execDrain_keeps (f : Fin 4) (q : Fin 64) (s : State) :
    KeepsOut s (execDrain f q s) := by
  have h0 := Keeps.rfl' s
  unfold execDrain
  repeat' (first | with_reducible assumption | with_reducible intro _ | with_reducible apply KeepsOut.next | with_reducible apply KeepsOut.fault | with_reducible apply State.modFrond_keeps | with_reducible apply State.issueIns_keeps | with_reducible apply State.progFault_keeps | with_reducible apply Keeps.ite | with_reducible apply Keeps.foldl | with_reducible apply Keeps.foldlP | split | dsimp only | simp only [Keeps.upd])

theorem execHello_keeps (p : Fin 4) (d : Fin 256) (s : State) :
    KeepsOut s (execHello p d s) := by
  have h0 := Keeps.rfl' s
  unfold execHello
  repeat' (first | with_reducible assumption | with_reducible intro _ | with_reducible apply KeepsOut.next | with_reducible apply KeepsOut.fault | with_reducible apply State.runCmd_keeps | with_reducible apply State.doHello_keeps | with_reducible apply Keeps.ite | with_reducible apply Keeps.foldl | with_reducible apply Keeps.foldlP | split | dsimp only | simp only [Keeps.upd])

theorem execSorusPv_keeps (f : Fin 4) (q : Fin 64) (s : State) :
    KeepsOut s (execSorusPv f q s) := by
  have h0 := Keeps.rfl' s
  unfold execSorusPv
  repeat' (first | with_reducible assumption | with_reducible intro _ | with_reducible apply KeepsOut.next | with_reducible apply KeepsOut.fault | with_reducible apply State.doSorusPv_keeps | with_reducible apply Keeps.ite | with_reducible apply Keeps.foldl | with_reducible apply Keeps.foldlP | split | dsimp only | simp only [Keeps.upd])

theorem execDealerDeliver_keeps (s : State) :
    KeepsOut s (execDealerDeliver s) := by
  have h0 := Keeps.rfl' s
  unfold execDealerDeliver
  repeat' (first | with_reducible assumption | with_reducible intro _ | with_reducible apply KeepsOut.next | with_reducible apply KeepsOut.fault | with_reducible apply State.modDealer_keeps | with_reducible apply State.count_keeps | with_reducible apply State.logRec_keeps | with_reducible apply State.deliverNext_keeps | with_reducible apply State.feedFrame_keeps | with_reducible apply State.missRec_keeps | with_reducible apply Keeps.ite | with_reducible apply Keeps.foldl | with_reducible apply Keeps.foldlP | split | dsimp only | simp only [Keeps.upd])

theorem execQuotaSet_keeps (p : Fin 4) (d : Fin 256) (s : State) :
    KeepsOut s (execQuotaSet p d s) := by
  have h0 := Keeps.rfl' s
  unfold execQuotaSet
  repeat' (first | with_reducible assumption | with_reducible intro _ | with_reducible apply KeepsOut.next | with_reducible apply KeepsOut.fault | with_reducible apply State.runCmd_keeps | with_reducible apply State.doQuota_keeps | with_reducible apply Keeps.ite | with_reducible apply Keeps.foldl | with_reducible apply Keeps.foldlP | split | dsimp only | simp only [Keeps.upd])

theorem execVecAbs_keeps (f : Fin 4) (q : Fin 64) (s : State) :
    KeepsOut s (execVecAbs f q s) := by
  have h0 := Keeps.rfl' s
  unfold execVecAbs
  repeat' (first | with_reducible assumption | with_reducible intro _ | with_reducible apply KeepsOut.next | with_reducible apply KeepsOut.fault | with_reducible apply State.runVecFree_keeps | with_reducible apply Keeps.ite | with_reducible apply Keeps.foldl | with_reducible apply Keeps.foldlP | split | dsimp only | simp only [Keeps.upd])

theorem execKernelAbort_keeps (f : Fin 4) (s : State) :
    KeepsOut s (execKernelAbort f s) := by
  have h0 := Keeps.rfl' s
  unfold execKernelAbort
  repeat' (first | with_reducible assumption | with_reducible intro _ | with_reducible apply KeepsOut.next | with_reducible apply KeepsOut.fault | with_reducible apply State.l1_keeps | with_reducible apply Keeps.ite | with_reducible apply Keeps.foldl | with_reducible apply Keeps.foldlP | split | dsimp only | simp only [Keeps.upd])

theorem execSeqFork_keeps (p : Fin 4) (d : Fin 256) (s : State) :
    KeepsOut s (execSeqFork p d s) := by
  have h0 := Keeps.rfl' s
  unfold execSeqFork
  repeat' (first | with_reducible assumption | with_reducible intro _ | with_reducible apply KeepsOut.next | with_reducible apply KeepsOut.fault | with_reducible apply State.runCmd_keeps | with_reducible apply State.doFork_keeps | with_reducible apply Keeps.ite | with_reducible apply Keeps.foldl | with_reducible apply Keeps.foldlP | split | dsimp only | simp only [Keeps.upd])

theorem execForceRelease_keeps (p : Fin 4) (d : Fin 256) (s : State) :
    KeepsOut s (execForceRelease p d s) := by
  have h0 := Keeps.rfl' s
  unfold execForceRelease
  repeat' (first | with_reducible assumption | with_reducible intro _ | with_reducible apply KeepsOut.next | with_reducible apply KeepsOut.fault | with_reducible apply State.runCmd_keeps | with_reducible apply State.doForce_keeps | with_reducible apply State.forceRelease_keeps | with_reducible apply Keeps.ite | with_reducible apply Keeps.foldl | with_reducible apply Keeps.foldlP | split | dsimp only | simp only [Keeps.upd])

theorem execDealerRecordDone_keeps (lane : Fin 8) (decodeUs : ℕ) (s : State) :
    KeepsOut s (execDealerRecordDone lane decodeUs s) := by
  have h0 := Keeps.rfl' s
  unfold execDealerRecordDone
  repeat' (first | with_reducible assumption | with_reducible intro _ | with_reducible apply KeepsOut.next | with_reducible apply KeepsOut.fault | with_reducible apply State.modDealer_keeps | with_reducible apply State.reportRead_keeps | with_reducible apply Keeps.ite | with_reducible apply Keeps.foldl | with_reducible apply Keeps.foldlP | split | dsimp only | simp only [Keeps.upd])

theorem execPowerSample_keeps (mw : ℕ) (s : State) :
    KeepsOut s (execPowerSample mw s) := by
  have h0 := Keeps.rfl' s
  unfold execPowerSample
  repeat' (first | with_reducible assumption | with_reducible intro _ | with_reducible apply KeepsOut.next | with_reducible apply KeepsOut.fault | with_reducible apply State.applyOps_keeps | with_reducible apply State.count_keeps | with_reducible apply Keeps.ite | with_reducible apply Keeps.foldl | with_reducible apply Keeps.foldlP | split | dsimp only | simp only [Keeps.upd])

theorem execVecArgmax_keeps (f : Fin 4) (q : Fin 64) (s : State) :
    KeepsOut s (execVecArgmax f q s) := by
  have h0 := Keeps.rfl' s
  unfold execVecArgmax
  repeat' (first | with_reducible assumption | with_reducible intro _ | with_reducible apply KeepsOut.next | with_reducible apply KeepsOut.fault | with_reducible apply State.runVec_keeps | with_reducible apply Keeps.ite | with_reducible apply Keeps.foldl | with_reducible apply Keeps.foldlP | split | dsimp only | simp only [Keeps.upd])

theorem execClosePacket_keeps (l : Fin 3) (s : State) :
    KeepsOut s (execClosePacket l s) := by
  have h0 := Keeps.rfl' s
  unfold execClosePacket
  repeat' (first | with_reducible assumption | with_reducible intro _ | with_reducible apply KeepsOut.next | with_reducible apply KeepsOut.fault | with_reducible apply State.tookPkt_keeps | with_reducible apply State.pktTrick_keeps | with_reducible apply State.verifySlot_keeps | with_reducible apply Keeps.ite | with_reducible apply Keeps.foldl | with_reducible apply Keeps.foldlP | split | dsimp only | simp only [Keeps.upd])
  all_goals exact State.pktTrick_keeps _ _ _ _ (State.tookPkt_keeps _ _ _ h0) _ ‹State.pktTrick _ _ _ _ _ = _›

theorem execCpIrqClear_keeps (p : Fin 4) (v : Word) (s : State) :
    KeepsOut s (execCpIrqClear p v s) := by
  have h0 := Keeps.rfl' s
  unfold execCpIrqClear
  repeat' (first | with_reducible assumption | with_reducible intro _ | with_reducible apply KeepsOut.next | with_reducible apply KeepsOut.fault | with_reducible apply State.modPort_keeps | with_reducible apply Keeps.ite | with_reducible apply Keeps.foldl | with_reducible apply Keeps.foldlP | split | dsimp only | simp only [Keeps.upd])

theorem execVecRmax_keeps (f : Fin 4) (q : Fin 64) (s : State) :
    KeepsOut s (execVecRmax f q s) := by
  have h0 := Keeps.rfl' s
  unfold execVecRmax
  repeat' (first | with_reducible assumption | with_reducible intro _ | with_reducible apply KeepsOut.next | with_reducible apply KeepsOut.fault | with_reducible apply State.runVec_keeps | with_reducible apply Keeps.ite | with_reducible apply Keeps.foldl | with_reducible apply Keeps.foldlP | split | dsimp only | simp only [Keeps.upd])

theorem execWr_keeps (p : Fin 4) (bank : Fin 16) (col : ℕ) (data : List Byte) (mask : BitVec 32) (s : State) :
    KeepsOut s (execWr p bank col data mask s) := by
  have h0 := Keeps.rfl' s
  unfold execWr
  repeat' (first | with_reducible assumption | with_reducible intro _ | with_reducible apply KeepsOut.next | with_reducible apply KeepsOut.fault | with_reducible apply State.settled_keeps | with_reducible apply State.proto_keeps | with_reducible apply State.dropWrite_keeps | with_reducible apply State.winWrite_keeps | with_reducible apply Keeps.ite | with_reducible apply Keeps.foldl | with_reducible apply Keeps.foldlP | split | dsimp only | simp only [Keeps.upd])

theorem execRegRead_keeps (p : Fin 4) (d : Fin 256) (s : State) :
    KeepsOut s (execRegRead p d s) := by
  have h0 := Keeps.rfl' s
  unfold execRegRead
  repeat' (first | with_reducible assumption | with_reducible intro _ | with_reducible apply KeepsOut.next | with_reducible apply KeepsOut.fault | with_reducible apply State.runCmd_keeps | with_reducible apply State.doRegRead_keeps | with_reducible apply Keeps.ite | with_reducible apply Keeps.foldl | with_reducible apply Keeps.foldlP | split | dsimp only | simp only [Keeps.upd])

theorem execVecMin_keeps (f : Fin 4) (q : Fin 64) (s : State) :
    KeepsOut s (execVecMin f q s) := by
  have h0 := Keeps.rfl' s
  unfold execVecMin
  repeat' (first | with_reducible assumption | with_reducible intro _ | with_reducible apply KeepsOut.next | with_reducible apply KeepsOut.fault | with_reducible apply State.runVec_keeps | with_reducible apply Keeps.ite | with_reducible apply Keeps.foldl | with_reducible apply Keeps.foldlP | split | dsimp only | simp only [Keeps.upd])

theorem execGctlJoin_keeps (l : Fin 3) (s : State) :
    KeepsOut s (execGctlJoin l s) := by
  have h0 := Keeps.rfl' s
  unfold execGctlJoin
  repeat' (first | with_reducible assumption | with_reducible intro _ | with_reducible apply KeepsOut.next | with_reducible apply KeepsOut.fault | with_reducible apply State.tookPkt_keeps | with_reducible apply State.sendTo_keeps | with_reducible apply Keeps.ite | with_reducible apply Keeps.foldl | with_reducible apply Keeps.foldlP | split | dsimp only | simp only [Keeps.upd])

theorem execScratchpadMerge_keeps (f : Fin 4) (reqs : List SpReq) (rows : ℕ) (data : List Byte) (s : State) :
    KeepsOut s (execScratchpadMerge f reqs rows data s) := by
  have h0 := Keeps.rfl' s
  unfold execScratchpadMerge
  repeat' (first | with_reducible assumption | with_reducible intro _ | with_reducible apply KeepsOut.next | with_reducible apply KeepsOut.fault | with_reducible apply State.spWriteCmd_keeps | with_reducible apply State.spStore_keeps | with_reducible apply Keeps.ite | with_reducible apply Keeps.foldl | with_reducible apply Keeps.foldlP | split | dsimp only | simp only [Keeps.upd])

theorem execPdePdx_keeps (p : Fin 4) (enter : Bool) (s : State) :
    KeepsOut s (execPdePdx p enter s) := by
  have h0 := Keeps.rfl' s
  unfold execPdePdx
  repeat' (first | with_reducible assumption | with_reducible intro _ | with_reducible apply KeepsOut.next | with_reducible apply KeepsOut.fault | with_reducible apply State.proto_keeps | with_reducible apply State.modPort_keeps | with_reducible apply Keeps.ite | with_reducible apply Keeps.foldl | with_reducible apply Keeps.foldlP | split | dsimp only | simp only [Keeps.upd])

theorem execDebugAuthEnd_keeps (p : Fin 4) (d : Fin 256) (s : State) :
    KeepsOut s (execDebugAuthEnd p d s) := by
  have h0 := Keeps.rfl' s
  unfold execDebugAuthEnd
  repeat' (first | with_reducible assumption | with_reducible intro _ | with_reducible apply KeepsOut.next | with_reducible apply KeepsOut.fault | with_reducible apply State.runCmd_keeps | with_reducible apply State.doDebugEnd_keeps | with_reducible apply Keeps.ite | with_reducible apply Keeps.foldl | with_reducible apply Keeps.foldlP | split | dsimp only | simp only [Keeps.upd])

theorem execPatternRotationOverdue_keeps (f : Fin 4) (s : State) :
    KeepsOut s (execPatternRotationOverdue f s) := by
  have h0 := Keeps.rfl' s
  unfold execPatternRotationOverdue
  repeat' (first | with_reducible assumption | with_reducible intro _ | with_reducible apply KeepsOut.next | with_reducible apply KeepsOut.fault | with_reducible apply State.latent_keeps | with_reducible apply Keeps.ite | with_reducible apply Keeps.foldl | with_reducible apply Keeps.foldlP | split | dsimp only | simp only [Keeps.upd])

theorem execVecMax_keeps (f : Fin 4) (q : Fin 64) (s : State) :
    KeepsOut s (execVecMax f q s) := by
  have h0 := Keeps.rfl' s
  unfold execVecMax
  repeat' (first | with_reducible assumption | with_reducible intro _ | with_reducible apply KeepsOut.next | with_reducible apply KeepsOut.fault | with_reducible apply State.runVec_keeps | with_reducible apply Keeps.ite | with_reducible apply Keeps.foldl | with_reducible apply Keeps.foldlP | split | dsimp only | simp only [Keeps.upd])

theorem execExtest_keeps (scan : List Bool) (s : State) :
    KeepsOut s (execExtest scan s) := by
  have h0 := Keeps.rfl' s
  unfold execExtest
  repeat' (first | with_reducible assumption | with_reducible intro _ | with_reducible apply KeepsOut.next | with_reducible apply KeepsOut.fault | with_reducible apply State.takePins_keeps | with_reducible apply Keeps.ite | with_reducible apply Keeps.foldl | with_reducible apply Keeps.foldlP | split | dsimp only | simp only [Keeps.upd])

theorem execErrPulseEnd_keeps (s : State) :
    KeepsOut s (execErrPulseEnd s) := by
  have h0 := Keeps.rfl' s
  unfold execErrPulseEnd
  repeat' (first | with_reducible assumption | with_reducible intro _ | with_reducible apply KeepsOut.next | with_reducible apply KeepsOut.fault | with_reducible apply Keeps.ite | with_reducible apply Keeps.foldl | with_reducible apply Keeps.foldlP | split | dsimp only | simp only [Keeps.upd])

theorem execThermalLimitRaise_keeps (s : State) :
    KeepsOut s (execThermalLimitRaise s) := by
  have h0 := Keeps.rfl' s
  unfold execThermalLimitRaise
  repeat' (first | with_reducible assumption | with_reducible intro _ | with_reducible apply KeepsOut.next | with_reducible apply KeepsOut.fault | with_reducible apply Keeps.ite | with_reducible apply Keeps.foldl | with_reducible apply Keeps.foldlP | split | dsimp only | simp only [Keeps.upd])

theorem execVecMeanFin_keeps (f : Fin 4) (q : Fin 64) (s : State) :
    KeepsOut s (execVecMeanFin f q s) := by
  have h0 := Keeps.rfl' s
  unfold execVecMeanFin
  repeat' (first | with_reducible assumption | with_reducible intro _ | with_reducible apply KeepsOut.next | with_reducible apply KeepsOut.fault | with_reducible apply State.runVec_keeps | with_reducible apply Keeps.ite | with_reducible apply Keeps.foldl | with_reducible apply Keeps.foldlP | split | dsimp only | simp only [Keeps.upd])

theorem execDroopRecover_keeps (f : Fin 4) (s : State) :
    KeepsOut s (execDroopRecover f s) := by
  have h0 := Keeps.rfl' s
  unfold execDroopRecover
  repeat' (first | with_reducible assumption | with_reducible intro _ | with_reducible apply KeepsOut.next | with_reducible apply KeepsOut.fault | with_reducible apply State.modFrond_keeps | with_reducible apply Keeps.ite | with_reducible apply Keeps.foldl | with_reducible apply Keeps.foldlP | split | dsimp only | simp only [Keeps.upd])

theorem execRhizoidReset_keeps (s : State) :
    KeepsOut s (execRhizoidReset s) := by
  have h0 := Keeps.rfl' s
  unfold execRhizoidReset
  repeat' (first | with_reducible assumption | with_reducible intro _ | with_reducible apply KeepsOut.next | with_reducible apply KeepsOut.fault | with_reducible apply State.l4Rhizoid_keeps | with_reducible apply Keeps.ite | with_reducible apply Keeps.foldl | with_reducible apply Keeps.foldlP | split | dsimp only | simp only [Keeps.upd])

theorem execSecondsRollover_keeps (s : State) :
    KeepsOut s (execSecondsRollover s) := by
  have h0 := Keeps.rfl' s
  unfold execSecondsRollover
  repeat' (first | with_reducible assumption | with_reducible intro _ | with_reducible apply KeepsOut.next | with_reducible apply KeepsOut.fault | with_reducible apply Keeps.ite | with_reducible apply Keeps.foldl | with_reducible apply Keeps.foldlP | split | dsimp only | simp only [Keeps.upd])

theorem execHezorLinkReset_keeps (l : Fin 3) (s : State) :
    KeepsOut s (execHezorLinkReset l s) := by
  have h0 := Keeps.rfl' s
  unfold execHezorLinkReset
  repeat' (first | with_reducible assumption | with_reducible intro _ | with_reducible apply KeepsOut.next | with_reducible apply KeepsOut.fault | with_reducible apply State.l4Link_keeps | with_reducible apply Keeps.ite | with_reducible apply Keeps.foldl | with_reducible apply Keeps.foldlP | split | dsimp only | simp only [Keeps.upd])

theorem execFcolForcePulse_keeps (w : Writer) (i : Fin 32) (v : Word) (s : State) :
    KeepsOut s (execFcolForcePulse w i v s) := by
  have h0 := Keeps.rfl' s
  unfold execFcolForcePulse
  repeat' (first | with_reducible assumption | with_reducible intro _ | with_reducible apply KeepsOut.next | with_reducible apply KeepsOut.fault | with_reducible apply State.writeAs_keeps | with_reducible apply State.writeForcePulse_keeps | with_reducible apply Keeps.ite | with_reducible apply Keeps.foldl | with_reducible apply Keeps.foldlP | split | dsimp only | simp only [Keeps.upd])

theorem execThermalLimitLower_keeps (s : State) :
    KeepsOut s (execThermalLimitLower s) := by
  have h0 := Keeps.rfl' s
  unfold execThermalLimitLower
  repeat' (first | with_reducible assumption | with_reducible intro _ | with_reducible apply KeepsOut.next | with_reducible apply KeepsOut.fault | with_reducible apply State.lowerLimit_keeps | with_reducible apply Keeps.ite | with_reducible apply Keeps.foldl | with_reducible apply Keeps.foldlP | split | dsimp only | simp only [Keeps.upd])

theorem execMemFree_keeps (p : Fin 4) (d : Fin 256) (s : State) :
    KeepsOut s (execMemFree p d s) := by
  have h0 := Keeps.rfl' s
  unfold execMemFree
  repeat' (first | with_reducible assumption | with_reducible intro _ | with_reducible apply KeepsOut.next | with_reducible apply KeepsOut.fault | with_reducible apply State.runCmd_keeps | with_reducible apply checks_keeps | with_reducible apply accept_keeps | with_reducible apply State.freeAlloc_keeps | with_reducible apply Keeps.ite | with_reducible apply Keeps.foldl | with_reducible apply Keeps.foldlP | split | dsimp only | simp only [Keeps.upd])

theorem execDbgChal_keeps (level : BitVec 2) (key : Bool) (s : State) :
    KeepsOut s (execDbgChal level key s) := by
  have h0 := Keeps.rfl' s
  unfold execDbgChal
  repeat' (first | with_reducible assumption | with_reducible intro _ | with_reducible apply KeepsOut.next | with_reducible apply KeepsOut.fault | with_reducible apply State.tapIr_keeps | with_reducible apply State.chalAnswer_keeps | with_reducible apply State.closeDebug_keeps | with_reducible apply State.trngFault_keeps | with_reducible apply State.openChal_keeps | with_reducible apply Keeps.ite | with_reducible apply Keeps.foldl | with_reducible apply Keeps.foldlP | split | dsimp only | simp only [Keeps.upd])

theorem execCsi2Packet_keeps (port : Fin 12) (pkt : Csi2Packet) (s : State) :
    KeepsOut s (execCsi2Packet port pkt s) := by
  have h0 := Keeps.rfl' s
  unfold execCsi2Packet
  repeat' (first | with_reducible assumption | with_reducible intro _ | with_reducible apply KeepsOut.next | with_reducible apply KeepsOut.fault | with_reducible apply State.badEnd_keeps | with_reducible apply State.portLost_keeps | with_reducible apply State.noteCorrected_keeps | with_reducible apply State.errFrame_keeps | with_reducible apply State.cameraLine_keeps | with_reducible apply State.embedded_keeps | with_reducible apply State.quarantine_keeps | with_reducible apply Keeps.ite | with_reducible apply Keeps.foldl | with_reducible apply Keeps.foldlP | split | dsimp only | simp only [Keeps.upd])

theorem execWorkTake_keeps (f : Fin 4) (q : Fin 64) (s : State) :
    KeepsOut s (execWorkTake f q s) := by
  have h0 := Keeps.rfl' s
  unfold execWorkTake
  repeat' (first | with_reducible assumption | with_reducible intro _ | with_reducible apply KeepsOut.next | with_reducible apply KeepsOut.fault | with_reducible apply State.orFault_keeps | with_reducible apply State.workTake_keeps | with_reducible apply Keeps.ite | with_reducible apply Keeps.foldl | with_reducible apply Keeps.foldlP | split | dsimp only | simp only [Keeps.upd])

theorem execThermalTrip_keeps (sensor : Fin 24) (s : State) :
    KeepsOut s (execThermalTrip sensor s) := by
  have h0 := Keeps.rfl' s
  unfold execThermalTrip
  repeat' (first | with_reducible assumption | with_reducible intro _ | with_reducible apply KeepsOut.next | with_reducible apply KeepsOut.fault | with_reducible apply State.raise_keeps | with_reducible apply Keeps.ite | with_reducible apply Keeps.foldl | with_reducible apply Keeps.foldlP | split | dsimp only | simp only [Keeps.upd])

theorem execReadTimeout_keeps (p : Fin 4) (d : Fin 256) (s : State) :
    KeepsOut s (execReadTimeout p d s) := by
  have h0 := Keeps.rfl' s
  unfold execReadTimeout
  repeat' (first | with_reducible assumption | with_reducible intro _ | with_reducible apply KeepsOut.next | with_reducible apply KeepsOut.fault | with_reducible apply State.irq_keeps | with_reducible apply State.setRing_keeps | with_reducible apply Keeps.ite | with_reducible apply Keeps.foldl | with_reducible apply Keeps.foldlP | split | dsimp only | simp only [Keeps.upd])

end Sys2Proof.Machine
end

