-- ==== Sys2Proof/Laws/KeepsAll.lean ====
section
/-! SUPPORT. What every command but POR_N_ASSERT keeps, over all commands, and what a tick keeps. -/

namespace Sys2Proof.Machine

/-- Every command but POR_N_ASSERT keeps the queue, canonical memory, the safe state and the fuses. -/
theorem exec_keeps (c : Instr) (s : State) (h : c ≠ .porNAssert) : KeepsOut s (exec c s) :=
  match c with
  | .registerWrite w off v => execRegisterWrite_keeps w off v s
  | .regRead p d => execRegRead_keeps p d s
  | .regWrite p d => execRegWrite_keeps p d s
  | .groupWindowAccess caller off write => execGroupWindowAccess_keeps caller off write s
  | .frdMapoutWrite f v => execFrdMapoutWrite_keeps f v s
  | .injRes f pinna => execInjRes_keeps f pinna s
  | .loadw f q => execLoadw_keeps f q s
  | .weightSetReady f set => execWeightSetReady_keeps f set s
  | .stream f q => execStream_keeps f q s
  | .gang f q => execGang_keeps f q s
  | .operandRowEnter f => execOperandRowEnter_keeps f s
  | .accumulatorWrite f => execAccumulatorWrite_keeps f s
  | .accumulatorComplete f => execAccumulatorComplete_keeps f s
  | .drain f q => execDrain_keeps f q s
  | .drainEntryRead f => execDrainEntryRead_keeps f s
  | .drainOutputWrite f lost => execDrainOutputWrite_keeps f lost s
  | .drainComplete f => execDrainComplete_keeps f s
  | .kernelStart f => execKernelStart_keeps f s
  | .instructionFetch f q => execInstructionFetch_keeps f q s
  | .instructionDeliver f => execInstructionDeliver_keeps f s
  | .tokWait f q => execTokWait_keeps f q s
  | .tokSig f q => execTokSig_keeps f q s
  | .remoteSignalArrive f => execRemoteSignalArrive_keeps f s
  | .bar f q => execBar_keeps f q s
  | .endQueue f q => execEndQueue_keeps f q s
  | .kernelEnd f => execKernelEnd_keeps f s
  | .copy f q => execCopy_keeps f q s
  | .gather f q => execGather_keeps f q s
  | .scatter f q => execScatter_keeps f q s
  | .workTake f q => execWorkTake_keeps f q s
  | .workSet f q => execWorkSet_keeps f q s
  | .dmaTranspose f q => execDmaTranspose_keeps f q s
  | .dmaCslot f q => execDmaCslot_keeps f q s
  | .dmaUnitArrive f ch => execDmaUnitArrive_keeps f ch s
  | .dmaTimeout f ch => execDmaTimeout_keeps f ch s
  | .scratchpadRead f reqs => execScratchpadRead_keeps f reqs s
  | .spCeWriteback f => execSpCeWriteback_keeps f s
  | .scratchpadWrite f reqs data bcw => execScratchpadWrite_keeps f reqs data bcw s
  | .scratchpadMerge f reqs rows data => execScratchpadMerge_keeps f reqs rows data s
  | .partialRowWrite f reqs start data => execPartialRowWrite_keeps f reqs start data s
  | .frdSpRepairWrite f b sp v => execFrdSpRepairWrite_keeps f b sp v s
  | .frdSpResbaseWrite f v => execFrdSpResbaseWrite_keeps f v s
  | .drcMatRepairWrite b sp v => execDrcMatRepairWrite_keeps b sp v s
  | .matAccess reqs => execMatAccess_keeps reqs s
  | .zeroFillDone f => execZeroFillDone_keeps f s
  | .residentRestoreDone f => execResidentRestoreDone_keeps f s
  | .cropResize f q => execCropResize_keeps f q s
  | .maxpool f q => execMaxpool_keeps f q s
  | .avgpool f q => execAvgpool_keeps f q s
  | .vecAdd f q => execVecAdd_keeps f q s
  | .vecSub f q => execVecSub_keeps f q s
  | .vecMul f q => execVecMul_keeps f q s
  | .vecMin f q => execVecMin_keeps f q s
  | .vecMax f q => execVecMax_keeps f q s
  | .vecAbs f q => execVecAbs_keeps f q s
  | .vecNeg f q => execVecNeg_keeps f q s
  | .vecCvt f q => execVecCvt_keeps f q s
  | .vecScale2 f q => execVecScale2_keeps f q s
  | .vecAnd f q => execVecAnd_keeps f q s
  | .vecOr f q => execVecOr_keeps f q s
  | .vecXor f q => execVecXor_keeps f q s
  | .vecShl f q => execVecShl_keeps f q s
  | .vecShra f q => execVecShra_keeps f q s
  | .vecRsum f q => execVecRsum_keeps f q s
  | .vecRmax f q => execVecRmax_keeps f q s
  | .vecRmin f q => execVecRmin_keeps f q s
  | .vecArgmax f q => execVecArgmax_keeps f q s
  | .vecEafAdd f q => execVecEafAdd_keeps f q s
  | .vecEafOut f q => execVecEafOut_keeps f q s
  | .vecMeanFin f q => execVecMeanFin_keeps f q s
  | .vecVarFin f q => execVecVarFin_keeps f q s
  | .vecEafCvt f q => execVecEafCvt_keeps f q s
  | .vecExpmap f q => execVecExpmap_keeps f q s
  | .sfuExp f q => execSfuExp_keeps f q s
  | .sfuLog f q => execSfuLog_keeps f q s
  | .sfuReciprocal f q => execSfuReciprocal_keeps f q s
  | .sfuRsqrt f q => execSfuRsqrt_keeps f q s
  | .sfuSigmoid f q => execSfuSigmoid_keeps f q s
  | .sfuTanh f q => execSfuTanh_keeps f q s
  | .sfuGelu f q => execSfuGelu_keeps f q s
  | .sfuSilu f q => execSfuSilu_keeps f q s
  | .sfuSoftplus f q => execSfuSoftplus_keeps f q s
  | .sfuErf f q => execSfuErf_keeps f q s
  | .sfuUserTable f q => execSfuUserTable_keeps f q s
  | .sorusQk f q => execSorusQk_keeps f q s
  | .sorusPv f q => execSorusPv_keeps f q s
  | .sorusAppend f q => execSorusAppend_keeps f q s
  | .seqCreate p d => execSeqCreate_keeps p d s
  | .seqFork p d => execSeqFork_keeps p d s
  | .seqEditTruncate p d => execSeqEditTruncate_keeps p d s
  | .seqEditDropBelow p d => execSeqEditDropBelow_keeps p d s
  | .seqRetire p d => execSeqRetire_keeps p d s
  | .csi2Packet port pkt => execCsi2Packet_keeps port pkt s
  | .csi2FrameStart port head phase => execCsi2FrameStart_keeps port head phase s
  | .csi2FrameEnd port head => execCsi2FrameEnd_keeps port head s
  | .ethFrameReceive mac fcsOk phase frame => execEthFrameReceive_keeps mac fcsOk phase frame s
  | .auxMessage ctx p d phase => execAuxMessage_keeps ctx p d phase s
  | .frameStartGap ctx => execFrameStartGap_keeps ctx s
  | .ethLinkLoss mac => execEthLinkLoss_keeps mac s
  | .quarHoldExpire ctx => execQuarHoldExpire_keeps ctx s
  | .frameDeliver ctx => execFrameDeliver_keeps ctx s
  | .streamConfig p d => execStreamConfig_keeps p d s
  | .streamStart p d => execStreamStart_keeps p d s
  | .streamStop p d => execStreamStop_keeps p d s
  | .jobInstanceStart job => execJobInstanceStart_keeps job s
  | .dealerConfig p d => execDealerConfig_keeps p d s
  | .dealerStart p d => execDealerStart_keeps p d s
  | .dealerStop p d => execDealerStop_keeps p d s
  | .dealerRecordStart lane => execDealerRecordStart_keeps lane s
  | .dealerRecordDone lane decodeUs => execDealerRecordDone_keeps lane decodeUs s
  | .dealerBudgetExpire lane => execDealerBudgetExpire_keeps lane s
  | .dealerDeliver => execDealerDeliver_keeps s
  | .timeIncSet p d => execTimeIncSet_keeps p d s
  | .timeStep p d => execTimeStep_keeps p d s
  | .timeRead p d => execTimeRead_keeps p d s
  | .timeIncIntWrite w v => execTimeIncIntWrite_keeps w v s
  | .timeIncApply => execTimeIncApply_keeps s
  | .timeStepApply => execTimeStepApply_keeps s
  | .secondsRollover => execSecondsRollover_keeps s
  | .launchSetFrame p d => execLaunchSetFrame_keeps p d s
  | .launchSetTrigger p d => execLaunchSetTrigger_keeps p d s
  | .launchTransmit e => execLaunchTransmit_keeps e s
  | .timeTrigCtrlWrite w n v => execTimeTrigCtrlWrite_keeps w n v s
  | .trigPulse e => execTrigPulse_keeps e s
  | .act p bank row => execAct_keeps p bank row s
  | .pre p bank => execPre_keeps p bank s
  | .rd p bank col => execRd_keeps p bank col s
  | .wr p bank col data mask => execWr_keeps p bank col data mask s
  | .rd32Wr32 p write => execRd32Wr32_keeps p write s
  | .ref p => execRef_keeps p s
  | .rfm p => execRfm_keeps p s
  | .sre p => execSre_keeps p s
  | .srx p => execSrx_keeps p s
  | .pdePdx p enter => execPdePdx_keeps p enter s
  | .mrw p ma op valid5 valid4 => execMrw_keeps p ma op valid5 valid4 s
  | .mrr p ma => execMrr_keeps p ma s
  | .trainingCommand p t => execTrainingCommand_keeps p t s
  | .hostResetNAssert p => execHostResetNAssert_keeps p s
  | .hostResetNDeassert p => execHostResetNDeassert_keeps p s
  | .heartbeatTimeout p => execHeartbeatTimeout_keeps p s
  | .hostPortReady p => execHostPortReady_keeps p s
  | .hpSramZeroFillDone p => execHpSramZeroFillDone_keeps p s
  | .cpSqDb p d => execCpSqDb_keeps p d s
  | .cpSqDbDrop p d => execCpSqDbDrop_keeps p d s
  | .cpCqDb p d => execCpCqDb_keeps p d s
  | .cpCqDbSqFlagClear p d => execCpCqDbSqFlagClear_keeps p d s
  | .cpIrqClear p v => execCpIrqClear_keeps p v s
  | .sqPacketTake p d => execSqPacketTake_keeps p d s
  | .readTimeout p d => execReadTimeout_keeps p d s
  | .commandTimeout p d => execCommandTimeout_keeps p d s
  | .hello p d => execHello_keeps p d s
  | .caps p d => execCaps_keeps p d s
  | .partClaim p d => execPartClaim_keeps p d s
  | .partRelease p d => execPartRelease_keeps p d s
  | .quotaSet p d => execQuotaSet_keeps p d s
  | .memAlloc p d => execMemAlloc_keeps p d s
  | .memFree p d => execMemFree_keeps p d s
  | .apertureMap p d => execApertureMap_keeps p d s
  | .apertureFill p d => execApertureFill_keeps p d s
  | .apertureFlush p d => execApertureFlush_keeps p d s
  | .progLoad p d => execProgLoad_keeps p d s
  | .progUnload p d => execProgUnload_keeps p d s
  | .jobSubmit p d => execJobSubmit_keeps p d s
  | .jobCancel p d => execJobCancel_keeps p d s
  | .deckLoad p d => execDeckLoad_keeps p d s
  | .deckSwitch p d => execDeckSwitch_keeps p d s
  | .deckBankActivate r => execDeckBankActivate_keeps r s
  | .latTolSet p d => execLatTolSet_keeps p d s
  | .pwrHintNone p d => execPwrHintNone_keeps p d s
  | .pwrHintIdle p d => execPwrHintIdle_keeps p d s
  | .pwrHintStandbyOk p d => execPwrHintStandbyOk_keeps p d s
  | .groupForm p d => execGroupForm_keeps p d s
  | .groupLeave p d => execGroupLeave_keeps p d s
  | .faultRead p d => execFaultRead_keeps p d s
  | .faultAck p d => execFaultAck_keeps p d s
  | .forcePulse p d => execForcePulse_keeps p d s
  | .forceHold p d => execForceHold_keeps p d s
  | .forceRelease p d => execForceRelease_keeps p d s
  | .selftestStatus p d => execSelftestStatus_keeps p d s
  | .selftestPause p d => execSelftestPause_keeps p d s
  | .selftestResume p d => execSelftestResume_keeps p d s
  | .selftestRunNow p d => execSelftestRunNow_keeps p d s
  | .testpackLoad p d => execTestpackLoad_keeps p d s
  | .healthRead p d => execHealthRead_keeps p d s
  | .attestQuote p d => execAttestQuote_keeps p d s
  | .debugAuthBegin p d => execDebugAuthBegin_keeps p d s
  | .debugAuthEnd p d => execDebugAuthEnd_keeps p d s
  | .debugChallengeTimeout => execDebugChallengeTimeout_keeps s
  | .fwStage p d => execFwStage_keeps p d s
  | .fwCommit p d => execFwCommit_keeps p d s
  | .roundStart r => execRoundStart_keeps r s
  | .cardOpen f => execCardOpen_keeps f s
  | .cardClose f => execCardClose_keeps f s
  | .kernelSwitch f => execKernelSwitch_keeps f s
  | .kcapExpire f => execKcapExpire_keeps f s
  | .goldenRunEnd f => execGoldenRunEnd_keeps f s
  | .selftestSegmentStart f => execSelftestSegmentStart_keeps f s
  | .selftestSegmentEnd f matched => execSelftestSegmentEnd_keeps f matched s
  | .checkRotationOverdue f => execCheckRotationOverdue_keeps f s
  | .patternRotationOverdue f => execPatternRotationOverdue_keeps f s
  | .thallusCheckerTest checkers pairs detector => execThallusCheckerTest_keeps checkers pairs detector s
  | .comparatorInjectionTest u missed => execComparatorInjectionTest_keeps u missed s
  | .widowDifference u => execWidowDifference_keeps u s
  | .frondWakeStart f => execFrondWakeStart_keeps f s
  | .frondAstateEntry f => execFrondAstateEntry_keeps f s
  | .frondWakeDone f restoreUs => execFrondWakeDone_keeps f restoreUs s
  | .s1Entry => execS1Entry_keeps s
  | .s1Wake c => execS1Wake_keeps c s
  | .dramRead u addr units => execDramRead_keeps u addr units s
  | .dramWrite u addr data bcw => execDramWrite_keeps u addr data bcw s
  | .dramMerge u addr data => execDramMerge_keeps u addr data s
  | .dramWriteback c => execDramWriteback_keeps c s
  | .dramRefresh ch => execDramRefresh_keeps ch s
  | .exactAddedRefresh ch => execExactAddedRefresh_keeps ch s
  | .patrolScrub c => execPatrolScrub_keeps c s
  | .flitTransmit l => execFlitTransmit_keeps l s
  | .flitReceive l lanes => execFlitReceive_keeps l lanes s
  | .replayTimeout l => execReplayTimeout_keeps l s
  | .linkDetect e => execLinkDetect_keeps e s
  | .linkTrainDone l lanes => execLinkTrainDone_keeps l lanes s
  | .linkTrainTimeout l => execLinkTrainTimeout_keeps l s
  | .hezorHello l h => execHezorHello_keeps l h s
  | .linkLockLoss l => execLinkLockLoss_keeps l s
  | .fastRetrainDone l lanes ok => execFastRetrainDone_keeps l lanes ok s
  | .dataPacket l => execDataPacket_keeps l s
  | .closePacket l => execClosePacket_keeps l s
  | .commitPacket l => execCommitPacket_keeps l s
  | .gctlJoin l => execGctlJoin_keeps l s
  | .gctlLeave l => execGctlLeave_keeps l s
  | .trickLedgerExamine key entry inst => execTrickLedgerExamine_keeps key entry inst s
  | .trickTimeout key entry inst => execTrickTimeout_keeps key entry inst s
  | .clockLockLoss => execClockLockLoss_keeps s
  | .sealDecision job => execSealDecision_keeps job s
  | .twinCompare job => execTwinCompare_keeps job s
  | .ageDeadline job => execAgeDeadline_keeps job s
  | .faultSourceEvent e => execFaultSourceEvent_keeps e s
  | .brokenPair src => execBrokenPair_keeps src s
  | .collectorSelfFault => execCollectorSelfFault_keeps s
  | .fcolAck w v => execFcolAck_keeps w v s
  | .fcolForceHold w j v => execFcolForceHold_keeps w j v s
  | .fcolForcePulse w j v => execFcolForcePulse_keeps w j v s
  | .escalationTimeout => execEscalationTimeout_keeps s
  | .errPulseEnd => execErrPulseEnd_keeps s
  | .powerOnTimeSave => execPowerOnTimeSave_keeps s
  | .powerSample mw => execPowerSample_keeps mw s
  | .thermalSample temps => execThermalSample_keeps temps s
  | .thermalLimitLower => execThermalLimitLower_keeps s
  | .thermalLimitRaise => execThermalLimitRaise_keeps s
  | .thermalTrip sensor => execThermalTrip_keeps sensor s
  | .droopDetect f => execDroopDetect_keeps f s
  | .droopRecover f => execDroopRecover_keeps f s
  | .droopFault f => execDroopFault_keeps f s
  | .opChange f => execOpChange_keeps f s
  | .pllLockLoss domain => execPllLockLoss_keeps domain s
  | .avsTimeout => execAvsTimeout_keeps s
  | .pwrgdMainFail => execPwrgdMainFail_keeps s
  | .dbgChal level key => execDbgChal_keeps level key s
  | .dbgResp rs => execDbgResp_keeps rs s
  | .dbgAccRead addr => execDbgAccRead_keeps addr s
  | .dbgAccWrite addr v => execDbgAccWrite_keeps addr v s
  | .dbgHalt target => execDbgHalt_keeps target s
  | .dbgResume target => execDbgResume_keeps target s
  | .dbgStep target => execDbgStep_keeps target s
  | .dbgStage => execDbgStage_keeps s
  | .extest scan => execExtest_keeps scan s
  | .clamp => execClamp_keeps s
  | .highz => execHighz_keeps s
  | .samplePreload capture load => execSamplePreload_keeps capture load s
  | .tapReset => execTapReset_keeps s
  | .porNAssert => absurd rfl h
  | .porNRelease b => execPorNRelease_keeps b s
  | .warmReset c => execWarmReset_keeps c s
  | .bootWatchdogExpire => execBootWatchdogExpire_keeps s
  | .nocTimeout router u second block => execNocTimeout_keeps router u second block s
  | .kernelAbort f => execKernelAbort_keeps f s
  | .frondReset f => execFrondReset_keeps f s
  | .partitionReset r => execPartitionReset_keeps r s
  | .rhizoidReset => execRhizoidReset_keeps s
  | .hezorLinkReset l => execHezorLinkReset_keeps l s
  | .hostPortReset p => execHostPortReset_keeps p s
  | .recoveryStepOverrun sc => execRecoveryStepOverrun_keeps sc s
  | .i2cWrite bytes => execI2cWrite_keeps bytes s
  | .i2cRead n => execI2cRead_keeps n s
  | .i2cWake => execI2cWake_keeps s
  | .matCorrectedWriteback bank => execMatCorrectedWriteback_keeps bank s
  | .dramMr4Report ch code => execDramMr4Report_keeps ch code s
  | .testPackRead => execTestPackRead_keeps s
  | .cpIrqMaskWrite p v => execCpIrqMaskWrite_keeps p v s
  | .deskewCalibrationSequence port => execDeskewCalibrationSequence_keeps port s

end Sys2Proof.Machine
end

