-- ==== Sys2Proof/Laws/PerInstr.lean ====
section
/-! SUPPORT. The family `Bounds`: in a well-formed command every index names a unit that exists and every address, count and
length is below the bound the spec gives it; one lemma for each command. -/

namespace Sys2Proof.Laws.Bounds

/-- A FIFO write of a training command carries one burst of 32 bytes (R422). -/
def fifoLen : Training → List (Nat × Nat)
  | .fifoWrite b => [(b.length, 33)]
  | _ => []

/-- The operands of a command that have a range, each with its exclusive bound. -/
def bounds : Instr → List (Nat × Nat)
  | .registerWrite _ _ _ => []
  | .regRead p d => [(p.val, 4), (d.val, 256)]
  | .regWrite p d => [(p.val, 4), (d.val, 256)]
  | .groupWindowAccess caller _ _ => [(caller.elim 0 Fin.val, 4)]
  | .frdMapoutWrite f _ => [(f.val, 4)]
  | .injRes f pinna => [(f.val, 4), (pinna.val, 68)]
  | .loadw f q => [(f.val, 4), (q.val, 64)]
  | .weightSetReady f set => [(f.val, 4), (set.val, 2)]
  | .stream f q => [(f.val, 4), (q.val, 64)]
  | .gang f q => [(f.val, 4), (q.val, 64)]
  | .operandRowEnter f => [(f.val, 4)]
  | .accumulatorWrite f => [(f.val, 4)]
  | .accumulatorComplete f => [(f.val, 4)]
  | .drain f q => [(f.val, 4), (q.val, 64)]
  | .drainEntryRead f => [(f.val, 4)]
  | .drainOutputWrite f _ => [(f.val, 4)]
  | .drainComplete f => [(f.val, 4)]
  | .kernelStart f => [(f.val, 4)]
  | .instructionFetch f q => [(f.val, 4), (q.val, 64)]
  | .instructionDeliver f => [(f.val, 4)]
  | .tokWait f q => [(f.val, 4), (q.val, 64)]
  | .tokSig f q => [(f.val, 4), (q.val, 64)]
  | .remoteSignalArrive f => [(f.val, 4)]
  | .bar f q => [(f.val, 4), (q.val, 64)]
  | .endQueue f q => [(f.val, 4), (q.val, 64)]
  | .kernelEnd f => [(f.val, 4)]
  | .copy f q => [(f.val, 4), (q.val, 64)]
  | .gather f q => [(f.val, 4), (q.val, 64)]
  | .scatter f q => [(f.val, 4), (q.val, 64)]
  | .workTake f q => [(f.val, 4), (q.val, 64)]
  | .workSet f q => [(f.val, 4), (q.val, 64)]
  | .dmaTranspose f q => [(f.val, 4), (q.val, 64)]
  | .dmaCslot f q => [(f.val, 4), (q.val, 64)]
  | .dmaUnitArrive f ch => [(f.val, 4), (ch.val, 16)]
  | .dmaTimeout f ch => [(f.val, 4), (ch.val, 16)]
  | .scratchpadRead f reqs => [(f.val, 4)] ++ (reqs.map fun r => (r.row, 655360))
  | .spCeWriteback f => [(f.val, 4)]
  | .scratchpadWrite f reqs data _ => [(f.val, 4)] ++ ((data.length, 257) :: reqs.map fun r => (r.row, 655360))
  | .scratchpadMerge f reqs rows data => [(f.val, 4)] ++ ([(rows, 5), (data.length, 257)] ++ reqs.map fun r => (r.row, 655360))
  | .partialRowWrite f reqs start data => [(f.val, 4)] ++ ((start + data.length, 65) :: reqs.map fun r => (r.row, 655360))
  | .frdSpRepairWrite f b sp _ => [(f.val, 4), (b.val, 320), (sp.val, 32)]
  | .frdSpResbaseWrite f _ => [(f.val, 4)]
  | .drcMatRepairWrite b sp _ => [(b.val, 64), (sp.val, 16)]
  | .matAccess reqs => reqs.map fun r => (r.off, 2 ^ 24)
  | .zeroFillDone f => [(f.elim 0 Fin.val, 4)]
  | .residentRestoreDone f => [(f.val, 4)]
  | .cropResize f q => [(f.val, 4), (q.val, 64)]
  | .maxpool f q => [(f.val, 4), (q.val, 64)]
  | .avgpool f q => [(f.val, 4), (q.val, 64)]
  | .vecAdd f q => [(f.val, 4), (q.val, 64)]
  | .vecSub f q => [(f.val, 4), (q.val, 64)]
  | .vecMul f q => [(f.val, 4), (q.val, 64)]
  | .vecMin f q => [(f.val, 4), (q.val, 64)]
  | .vecMax f q => [(f.val, 4), (q.val, 64)]
  | .vecAbs f q => [(f.val, 4), (q.val, 64)]
  | .vecNeg f q => [(f.val, 4), (q.val, 64)]
  | .vecCvt f q => [(f.val, 4), (q.val, 64)]
  | .vecScale2 f q => [(f.val, 4), (q.val, 64)]
  | .vecAnd f q => [(f.val, 4), (q.val, 64)]
  | .vecOr f q => [(f.val, 4), (q.val, 64)]
  | .vecXor f q => [(f.val, 4), (q.val, 64)]
  | .vecShl f q => [(f.val, 4), (q.val, 64)]
  | .vecShra f q => [(f.val, 4), (q.val, 64)]
  | .vecRsum f q => [(f.val, 4), (q.val, 64)]
  | .vecRmax f q => [(f.val, 4), (q.val, 64)]
  | .vecRmin f q => [(f.val, 4), (q.val, 64)]
  | .vecArgmax f q => [(f.val, 4), (q.val, 64)]
  | .vecEafAdd f q => [(f.val, 4), (q.val, 64)]
  | .vecEafOut f q => [(f.val, 4), (q.val, 64)]
  | .vecMeanFin f q => [(f.val, 4), (q.val, 64)]
  | .vecVarFin f q => [(f.val, 4), (q.val, 64)]
  | .vecEafCvt f q => [(f.val, 4), (q.val, 64)]
  | .vecExpmap f q => [(f.val, 4), (q.val, 64)]
  | .sfuExp f q => [(f.val, 4), (q.val, 64)]
  | .sfuLog f q => [(f.val, 4), (q.val, 64)]
  | .sfuReciprocal f q => [(f.val, 4), (q.val, 64)]
  | .sfuRsqrt f q => [(f.val, 4), (q.val, 64)]
  | .sfuSigmoid f q => [(f.val, 4), (q.val, 64)]
  | .sfuTanh f q => [(f.val, 4), (q.val, 64)]
  | .sfuGelu f q => [(f.val, 4), (q.val, 64)]
  | .sfuSilu f q => [(f.val, 4), (q.val, 64)]
  | .sfuSoftplus f q => [(f.val, 4), (q.val, 64)]
  | .sfuErf f q => [(f.val, 4), (q.val, 64)]
  | .sfuUserTable f q => [(f.val, 4), (q.val, 64)]
  | .sorusQk f q => [(f.val, 4), (q.val, 64)]
  | .sorusPv f q => [(f.val, 4), (q.val, 64)]
  | .sorusAppend f q => [(f.val, 4), (q.val, 64)]
  | .seqCreate p d => [(p.val, 4), (d.val, 256)]
  | .seqFork p d => [(p.val, 4), (d.val, 256)]
  | .seqEditTruncate p d => [(p.val, 4), (d.val, 256)]
  | .seqEditDropBelow p d => [(p.val, 4), (d.val, 256)]
  | .seqRetire p d => [(p.val, 4), (d.val, 256)]
  | .csi2Packet port _ => [(port.val, 12)]
  | .csi2FrameStart port h phase => [(port.val, 12), (h.vc.val, 16), (phase.val, 32)]
  | .csi2FrameEnd port h => [(port.val, 12), (h.vc.val, 16)]
  | .ethFrameReceive mac _ phase _ => [(mac.val, 8), (phase.val, 32)]
  | .auxMessage ctx p d phase => [(ctx.val, 96), (p.val, 4), (d.val, 256), (phase.val, 32)]
  | .frameStartGap ctx => [(ctx.val, 96)]
  | .ethLinkLoss mac => [(mac.val, 8)]
  | .quarHoldExpire ctx => [(ctx.val, 96)]
  | .frameDeliver ctx => [(ctx.val, 96)]
  | .streamConfig p d => [(p.val, 4), (d.val, 256)]
  | .streamStart p d => [(p.val, 4), (d.val, 256)]
  | .streamStop p d => [(p.val, 4), (d.val, 256)]
  | .jobInstanceStart _ => []
  | .dealerConfig p d => [(p.val, 4), (d.val, 256)]
  | .dealerStart p d => [(p.val, 4), (d.val, 256)]
  | .dealerStop p d => [(p.val, 4), (d.val, 256)]
  | .dealerRecordStart lane => [(lane.val, 8)]
  | .dealerRecordDone lane _ => [(lane.val, 8)]
  | .dealerBudgetExpire lane => [(lane.val, 8)]
  | .dealerDeliver => []
  | .timeIncSet p d => [(p.val, 4), (d.val, 256)]
  | .timeStep p d => [(p.val, 4), (d.val, 256)]
  | .timeRead p d => [(p.val, 4), (d.val, 256)]
  | .timeIncIntWrite _ _ => []
  | .timeIncApply => []
  | .timeStepApply => []
  | .secondsRollover => []
  | .launchSetFrame p d => [(p.val, 4), (d.val, 256)]
  | .launchSetTrigger p d => [(p.val, 4), (d.val, 256)]
  | .launchTransmit e => [(e.unit.val, 8), (e.phase.val, 32)]
  | .timeTrigCtrlWrite _ n _ => [(n.val, 8)]
  | .trigPulse e => [(e.unit.val, 8), (e.phase.val, 32)]
  | .act p bank row => [(p.val, 4), (bank.val, 16)] ++ ([(row, 65536)])
  | .pre p bank => [(p.val, 4), (bank.elim 0 Fin.val, 16)]
  | .rd p bank col => [(p.val, 4), (bank.val, 16)] ++ ([(col, 64)])
  | .wr p bank col data _ => [(p.val, 4), (bank.val, 16)] ++ ([(col, 64), (data.length, 33)])
  | .rd32Wr32 p _ => [(p.val, 4)]
  | .ref p => [(p.val, 4)]
  | .rfm p => [(p.val, 4)]
  | .sre p => [(p.val, 4)]
  | .srx p => [(p.val, 4)]
  | .pdePdx p _ => [(p.val, 4)]
  | .mrw p _ _ _ _ => [(p.val, 4)]
  | .mrr p _ => [(p.val, 4)]
  | .trainingCommand p t => [(p.val, 4)] ++ (fifoLen t)
  | .hostResetNAssert p => [(p.val, 4)]
  | .hostResetNDeassert p => [(p.val, 4)]
  | .heartbeatTimeout p => [(p.val, 4)]
  | .hostPortReady p => [(p.val, 4)]
  | .hpSramZeroFillDone p => [(p.val, 4)]
  | .cpSqDb p d => [(p.val, 4), (d.val, 256)]
  | .cpSqDbDrop p d => [(p.val, 4), (d.val, 256)]
  | .cpCqDb p d => [(p.val, 4), (d.val, 256)]
  | .cpCqDbSqFlagClear p d => [(p.val, 4), (d.val, 256)]
  | .cpIrqClear p _ => [(p.val, 4)]
  | .sqPacketTake p d => [(p.val, 4), (d.val, 256)]
  | .readTimeout p d => [(p.val, 4), (d.val, 256)]
  | .commandTimeout p d => [(p.val, 4), (d.val, 256)]
  | .hello p d => [(p.val, 4), (d.val, 256)]
  | .caps p d => [(p.val, 4), (d.val, 256)]
  | .partClaim p d => [(p.val, 4), (d.val, 256)]
  | .partRelease p d => [(p.val, 4), (d.val, 256)]
  | .quotaSet p d => [(p.val, 4), (d.val, 256)]
  | .memAlloc p d => [(p.val, 4), (d.val, 256)]
  | .memFree p d => [(p.val, 4), (d.val, 256)]
  | .apertureMap p d => [(p.val, 4), (d.val, 256)]
  | .apertureFill p d => [(p.val, 4), (d.val, 256)]
  | .apertureFlush p d => [(p.val, 4), (d.val, 256)]
  | .progLoad p d => [(p.val, 4), (d.val, 256)]
  | .progUnload p d => [(p.val, 4), (d.val, 256)]
  | .jobSubmit p d => [(p.val, 4), (d.val, 256)]
  | .jobCancel p d => [(p.val, 4), (d.val, 256)]
  | .deckLoad p d => [(p.val, 4), (d.val, 256)]
  | .deckSwitch p d => [(p.val, 4), (d.val, 256)]
  | .deckBankActivate r => [(r.val, 4)]
  | .latTolSet p d => [(p.val, 4), (d.val, 256)]
  | .pwrHintNone p d => [(p.val, 4), (d.val, 256)]
  | .pwrHintIdle p d => [(p.val, 4), (d.val, 256)]
  | .pwrHintStandbyOk p d => [(p.val, 4), (d.val, 256)]
  | .groupForm p d => [(p.val, 4), (d.val, 256)]
  | .groupLeave p d => [(p.val, 4), (d.val, 256)]
  | .faultRead p d => [(p.val, 4), (d.val, 256)]
  | .faultAck p d => [(p.val, 4), (d.val, 256)]
  | .forcePulse p d => [(p.val, 4), (d.val, 256)]
  | .forceHold p d => [(p.val, 4), (d.val, 256)]
  | .forceRelease p d => [(p.val, 4), (d.val, 256)]
  | .selftestStatus p d => [(p.val, 4), (d.val, 256)]
  | .selftestPause p d => [(p.val, 4), (d.val, 256)]
  | .selftestResume p d => [(p.val, 4), (d.val, 256)]
  | .selftestRunNow p d => [(p.val, 4), (d.val, 256)]
  | .testpackLoad p d => [(p.val, 4), (d.val, 256)]
  | .healthRead p d => [(p.val, 4), (d.val, 256)]
  | .attestQuote p d => [(p.val, 4), (d.val, 256)]
  | .debugAuthBegin p d => [(p.val, 4), (d.val, 256)]
  | .debugAuthEnd p d => [(p.val, 4), (d.val, 256)]
  | .debugChallengeTimeout => []
  | .fwStage p d => [(p.val, 4), (d.val, 256)]
  | .fwCommit p d => [(p.val, 4), (d.val, 256)]
  | .roundStart r => [(r.val, 4)]
  | .cardOpen f => [(f.val, 4)]
  | .cardClose f => [(f.val, 4)]
  | .kernelSwitch f => [(f.val, 4)]
  | .kcapExpire f => [(f.val, 4)]
  | .goldenRunEnd f => [(f.val, 4)]
  | .selftestSegmentStart f => [(f.val, 4)]
  | .selftestSegmentEnd f _ => [(f.val, 4)]
  | .checkRotationOverdue f => [(f.val, 4)]
  | .patternRotationOverdue f => [(f.val, 4)]
  | .thallusCheckerTest _ _ _ => []
  | .comparatorInjectionTest _ _ => []
  | .widowDifference _ => []
  | .frondWakeStart f => [(f.val, 4)]
  | .frondAstateEntry f => [(f.val, 4)]
  | .frondWakeDone f _ => [(f.val, 4)]
  | .s1Entry => []
  | .s1Wake _ => []
  | .dramRead _ _ _ => []
  | .dramWrite _ _ data _ => [(data.length, 257)]
  | .dramMerge _ _ _ => []
  | .dramWriteback c => [(c.val, 16)]
  | .dramRefresh ch => [(ch.val, 32)]
  | .exactAddedRefresh ch => [(ch.val, 32)]
  | .patrolScrub c => [(c.val, 16)]
  | .flitTransmit l => [(l.val, 3)]
  | .flitReceive l lanes => [(l.val, 3), (lanes.length, 9)]
  | .replayTimeout l => [(l.val, 3)]
  | .linkDetect e => [(e.link.val, 3)]
  | .linkTrainDone l _ => [(l.val, 3)]
  | .linkTrainTimeout l => [(l.val, 3)]
  | .hezorHello l _ => [(l.val, 3)]
  | .linkLockLoss l => [(l.val, 3)]
  | .fastRetrainDone l _ _ => [(l.val, 3)]
  | .dataPacket l => [(l.val, 3)]
  | .closePacket l => [(l.val, 3)]
  | .commitPacket l => [(l.val, 3)]
  | .gctlJoin l => [(l.val, 3)]
  | .gctlLeave l => [(l.val, 3)]
  | .trickLedgerExamine _ _ _ => []
  | .trickTimeout _ _ _ => []
  | .clockLockLoss => []
  | .sealDecision _ => []
  | .twinCompare _ => []
  | .ageDeadline _ => []
  | .faultSourceEvent _ => []
  | .brokenPair _ => []
  | .collectorSelfFault => []
  | .fcolAck _ _ => []
  | .fcolForceHold _ i _ => [(i.val, 32)]
  | .fcolForcePulse _ i _ => [(i.val, 32)]
  | .escalationTimeout => []
  | .errPulseEnd => []
  | .powerOnTimeSave => []
  | .powerSample _ => []
  | .thermalSample temps => [(temps.length, 25)]
  | .thermalLimitLower => []
  | .thermalLimitRaise => []
  | .thermalTrip sensor => [(sensor.val, 24)]
  | .droopDetect f => [(f.val, 4)]
  | .droopRecover f => [(f.val, 4)]
  | .droopFault f => [(f.val, 4)]
  | .opChange f => [(f.val, 4)]
  | .pllLockLoss domain => [(domain.val, 32)]
  | .avsTimeout => []
  | .pwrgdMainFail => []
  | .dbgChal _ _ => []
  | .dbgResp _ => []
  | .dbgAccRead _ => []
  | .dbgAccWrite _ _ => []
  | .dbgHalt _ => []
  | .dbgResume _ => []
  | .dbgStep _ => []
  | .dbgStage => []
  | .extest _ => []
  | .clamp => []
  | .highz => []
  | .samplePreload _ _ => []
  | .tapReset => []
  | .porNAssert => []
  | .porNRelease _ => []
  | .warmReset _ => []
  | .bootWatchdogExpire => []
  | .nocTimeout router _ _ _ => [(router.val, 64)]
  | .kernelAbort f => [(f.val, 4)]
  | .frondReset f => [(f.val, 4)]
  | .partitionReset r => [(r.val, 4)]
  | .rhizoidReset => []
  | .hezorLinkReset l => [(l.val, 3)]
  | .hostPortReset p => [(p.val, 4)]
  | .recoveryStepOverrun _ => []
  | .i2cWrite _ => []
  | .i2cRead _ => []
  | .i2cWake => []
  | .matCorrectedWriteback bank => [(bank.val, 64)]
  | .dramMr4Report ch _ => [(ch.val, 32)]
  | .testPackRead => []
  | .cpIrqMaskWrite p _ => [(p.val, 4)]
  | .deskewCalibrationSequence port => [(port.val, 12)]

/-- Every operand of a well-formed command is below its bound. -/
def Statement (c : Instr) : Prop := c.wellFormed = true → ∀ e ∈ bounds c, e.1 < e.2

theorem one {a n : Nat} (h : a < n) : ∀ e ∈ [(a, n)], e.1 < e.2 := List.forall_mem_cons.2 ⟨h, fun _ h => absurd h List.not_mem_nil⟩
theorem two {a n b m : Nat} (h : a < n) (g : b < m) : ∀ e ∈ [(a, n), (b, m)], e.1 < e.2 := List.forall_mem_cons.2 ⟨h, one g⟩
theorem three {a n b m c k : Nat} (h : a < n) (g : b < m) (i : c < k) : ∀ e ∈ [(a, n), (b, m), (c, k)], e.1 < e.2 :=
  List.forall_mem_cons.2 ⟨h, two g i⟩

theorem registerWrite (w : Writer) (off : BitVec 28) (v : Word) : Statement (.registerWrite w off v) := fun _ _ h => absurd h List.not_mem_nil
theorem regRead (p : Fin 4) (d : Fin 256) : Statement (.regRead p d) := fun _ => two p.isLt d.isLt
theorem regWrite (p : Fin 4) (d : Fin 256) : Statement (.regWrite p d) := fun _ => two p.isLt d.isLt
theorem groupWindowAccess (caller : Option (Fin 4)) (off : BitVec 28) (write : Option Word) : Statement (.groupWindowAccess caller off write) := fun _ => by cases caller <;> simp [bounds]
theorem frdMapoutWrite (f : Fin 4) (v : Word) : Statement (.frdMapoutWrite f v) := fun _ => one f.isLt
theorem injRes (f : Fin 4) (pinna : Fin 68) : Statement (.injRes f pinna) := fun _ => two f.isLt pinna.isLt
theorem loadw (f : Fin 4) (q : Fin 64) : Statement (.loadw f q) := fun _ => two f.isLt q.isLt
theorem weightSetReady (f : Fin 4) (set : Fin 2) : Statement (.weightSetReady f set) := fun _ => two f.isLt set.isLt
theorem stream (f : Fin 4) (q : Fin 64) : Statement (.stream f q) := fun _ => two f.isLt q.isLt
theorem gang (f : Fin 4) (q : Fin 64) : Statement (.gang f q) := fun _ => two f.isLt q.isLt
theorem operandRowEnter (f : Fin 4) : Statement (.operandRowEnter f) := fun _ => one f.isLt
theorem accumulatorWrite (f : Fin 4) : Statement (.accumulatorWrite f) := fun _ => one f.isLt
theorem accumulatorComplete (f : Fin 4) : Statement (.accumulatorComplete f) := fun _ => one f.isLt
theorem drain (f : Fin 4) (q : Fin 64) : Statement (.drain f q) := fun _ => two f.isLt q.isLt
theorem drainEntryRead (f : Fin 4) : Statement (.drainEntryRead f) := fun _ => one f.isLt
theorem drainOutputWrite (f : Fin 4) (lost : Bool) : Statement (.drainOutputWrite f lost) := fun _ => one f.isLt
theorem drainComplete (f : Fin 4) : Statement (.drainComplete f) := fun _ => one f.isLt
theorem kernelStart (f : Fin 4) : Statement (.kernelStart f) := fun _ => one f.isLt
theorem instructionFetch (f : Fin 4) (q : Fin 64) : Statement (.instructionFetch f q) := fun _ => two f.isLt q.isLt
theorem instructionDeliver (f : Fin 4) : Statement (.instructionDeliver f) := fun _ => one f.isLt
theorem tokWait (f : Fin 4) (q : Fin 64) : Statement (.tokWait f q) := fun _ => two f.isLt q.isLt
theorem tokSig (f : Fin 4) (q : Fin 64) : Statement (.tokSig f q) := fun _ => two f.isLt q.isLt
theorem remoteSignalArrive (f : Fin 4) : Statement (.remoteSignalArrive f) := fun _ => one f.isLt
theorem bar (f : Fin 4) (q : Fin 64) : Statement (.bar f q) := fun _ => two f.isLt q.isLt
theorem endQueue (f : Fin 4) (q : Fin 64) : Statement (.endQueue f q) := fun _ => two f.isLt q.isLt
theorem kernelEnd (f : Fin 4) : Statement (.kernelEnd f) := fun _ => one f.isLt
theorem copy (f : Fin 4) (q : Fin 64) : Statement (.copy f q) := fun _ => two f.isLt q.isLt
theorem gather (f : Fin 4) (q : Fin 64) : Statement (.gather f q) := fun _ => two f.isLt q.isLt
theorem scatter (f : Fin 4) (q : Fin 64) : Statement (.scatter f q) := fun _ => two f.isLt q.isLt
theorem workTake (f : Fin 4) (q : Fin 64) : Statement (.workTake f q) := fun _ => two f.isLt q.isLt
theorem workSet (f : Fin 4) (q : Fin 64) : Statement (.workSet f q) := fun _ => two f.isLt q.isLt
theorem dmaTranspose (f : Fin 4) (q : Fin 64) : Statement (.dmaTranspose f q) := fun _ => two f.isLt q.isLt
theorem dmaCslot (f : Fin 4) (q : Fin 64) : Statement (.dmaCslot f q) := fun _ => two f.isLt q.isLt
theorem dmaUnitArrive (f : Fin 4) (ch : Fin 16) : Statement (.dmaUnitArrive f ch) := fun _ => two f.isLt ch.isLt
theorem dmaTimeout (f : Fin 4) (ch : Fin 16) : Statement (.dmaTimeout f ch) := fun _ => two f.isLt ch.isLt
theorem scratchpadRead (f : Fin 4) (reqs : List SpReq) : Statement (.scratchpadRead f reqs) := fun h => by simpa [bounds, Instr.wellFormed, SpReq.ok] using h
theorem spCeWriteback (f : Fin 4) : Statement (.spCeWriteback f) := fun _ => one f.isLt
theorem scratchpadWrite (f : Fin 4) (reqs : List SpReq) (data : List Byte) (bcw : Word) : Statement (.scratchpadWrite f reqs data bcw) := fun h => by
  simp only [Instr.wellFormed, SpReq.ok, Bool.and_eq_true, List.all_eq_true, decide_eq_true_eq] at h
  have h2 : ∀ e ∈ reqs.map fun r => (r.row, 655360), e.1 < e.2 := by simpa using h.1
  simp only [bounds, List.forall_mem_append, List.forall_mem_cons, List.not_mem_nil, false_implies, implies_true, and_true]
  refine ⟨f.isLt, ?_⟩
  exact ⟨by omega, h2⟩
theorem scratchpadMerge (f : Fin 4) (reqs : List SpReq) (rows : Nat) (data : List Byte) : Statement (.scratchpadMerge f reqs rows data) := fun h => by
  simp only [Instr.wellFormed, SpReq.ok, Bool.and_eq_true, List.all_eq_true, decide_eq_true_eq] at h
  have h2 : ∀ e ∈ reqs.map fun r => (r.row, 655360), e.1 < e.2 := by simpa using h.1
  simp only [bounds, List.forall_mem_append, List.forall_mem_cons, List.not_mem_nil, false_implies, implies_true, and_true]
  refine ⟨f.isLt, ?_⟩
  exact ⟨⟨by omega, by omega⟩, h2⟩
theorem partialRowWrite (f : Fin 4) (reqs : List SpReq) (start : Nat) (data : List Byte) : Statement (.partialRowWrite f reqs start data) := fun h => by
  simp only [Instr.wellFormed, SpReq.ok, Bool.and_eq_true, List.all_eq_true, decide_eq_true_eq] at h
  have h2 : ∀ e ∈ reqs.map fun r => (r.row, 655360), e.1 < e.2 := by simpa using h.1
  simp only [bounds, List.forall_mem_append, List.forall_mem_cons, List.not_mem_nil, false_implies, implies_true, and_true]
  refine ⟨f.isLt, ?_⟩
  exact ⟨by omega, h2⟩
theorem frdSpRepairWrite (f : Fin 4) (b : Fin 320) (sp : Fin 32) (v : Word) : Statement (.frdSpRepairWrite f b sp v) := fun _ => three f.isLt b.isLt sp.isLt
theorem frdSpResbaseWrite (f : Fin 4) (v : Word) : Statement (.frdSpResbaseWrite f v) := fun _ => one f.isLt
theorem drcMatRepairWrite (b : Fin 64) (sp : Fin 16) (v : Word) : Statement (.drcMatRepairWrite b sp v) := fun _ => two b.isLt sp.isLt
theorem matAccess (reqs : List MatReq) : Statement (.matAccess reqs) := fun h => by
  simp only [Instr.wellFormed, List.all_eq_true] at h
  simp only [bounds, List.forall_mem_map]
  exact fun r hr => of_decide_eq_true (Bool.and_eq_true _ _ ▸ h r hr).1
theorem zeroFillDone (f : Option (Fin 4)) : Statement (.zeroFillDone f) := fun _ => by cases f <;> simp [bounds]
theorem residentRestoreDone (f : Fin 4) : Statement (.residentRestoreDone f) := fun _ => one f.isLt
theorem cropResize (f : Fin 4) (q : Fin 64) : Statement (.cropResize f q) := fun _ => two f.isLt q.isLt
theorem maxpool (f : Fin 4) (q : Fin 64) : Statement (.maxpool f q) := fun _ => two f.isLt q.isLt
theorem avgpool (f : Fin 4) (q : Fin 64) : Statement (.avgpool f q) := fun _ => two f.isLt q.isLt
theorem vecAdd (f : Fin 4) (q : Fin 64) : Statement (.vecAdd f q) := fun _ => two f.isLt q.isLt
theorem vecSub (f : Fin 4) (q : Fin 64) : Statement (.vecSub f q) := fun _ => two f.isLt q.isLt
theorem vecMul (f : Fin 4) (q : Fin 64) : Statement (.vecMul f q) := fun _ => two f.isLt q.isLt
theorem vecMin (f : Fin 4) (q : Fin 64) : Statement (.vecMin f q) := fun _ => two f.isLt q.isLt
theorem vecMax (f : Fin 4) (q : Fin 64) : Statement (.vecMax f q) := fun _ => two f.isLt q.isLt
theorem vecAbs (f : Fin 4) (q : Fin 64) : Statement (.vecAbs f q) := fun _ => two f.isLt q.isLt
theorem vecNeg (f : Fin 4) (q : Fin 64) : Statement (.vecNeg f q) := fun _ => two f.isLt q.isLt
theorem vecCvt (f : Fin 4) (q : Fin 64) : Statement (.vecCvt f q) := fun _ => two f.isLt q.isLt
theorem vecScale2 (f : Fin 4) (q : Fin 64) : Statement (.vecScale2 f q) := fun _ => two f.isLt q.isLt
theorem vecAnd (f : Fin 4) (q : Fin 64) : Statement (.vecAnd f q) := fun _ => two f.isLt q.isLt
theorem vecOr (f : Fin 4) (q : Fin 64) : Statement (.vecOr f q) := fun _ => two f.isLt q.isLt
theorem vecXor (f : Fin 4) (q : Fin 64) : Statement (.vecXor f q) := fun _ => two f.isLt q.isLt
theorem vecShl (f : Fin 4) (q : Fin 64) : Statement (.vecShl f q) := fun _ => two f.isLt q.isLt
theorem vecShra (f : Fin 4) (q : Fin 64) : Statement (.vecShra f q) := fun _ => two f.isLt q.isLt
theorem vecRsum (f : Fin 4) (q : Fin 64) : Statement (.vecRsum f q) := fun _ => two f.isLt q.isLt
theorem vecRmax (f : Fin 4) (q : Fin 64) : Statement (.vecRmax f q) := fun _ => two f.isLt q.isLt
theorem vecRmin (f : Fin 4) (q : Fin 64) : Statement (.vecRmin f q) := fun _ => two f.isLt q.isLt
theorem vecArgmax (f : Fin 4) (q : Fin 64) : Statement (.vecArgmax f q) := fun _ => two f.isLt q.isLt
theorem vecEafAdd (f : Fin 4) (q : Fin 64) : Statement (.vecEafAdd f q) := fun _ => two f.isLt q.isLt
theorem vecEafOut (f : Fin 4) (q : Fin 64) : Statement (.vecEafOut f q) := fun _ => two f.isLt q.isLt
theorem vecMeanFin (f : Fin 4) (q : Fin 64) : Statement (.vecMeanFin f q) := fun _ => two f.isLt q.isLt
theorem vecVarFin (f : Fin 4) (q : Fin 64) : Statement (.vecVarFin f q) := fun _ => two f.isLt q.isLt
theorem vecEafCvt (f : Fin 4) (q : Fin 64) : Statement (.vecEafCvt f q) := fun _ => two f.isLt q.isLt
theorem vecExpmap (f : Fin 4) (q : Fin 64) : Statement (.vecExpmap f q) := fun _ => two f.isLt q.isLt
theorem sfuExp (f : Fin 4) (q : Fin 64) : Statement (.sfuExp f q) := fun _ => two f.isLt q.isLt
theorem sfuLog (f : Fin 4) (q : Fin 64) : Statement (.sfuLog f q) := fun _ => two f.isLt q.isLt
theorem sfuReciprocal (f : Fin 4) (q : Fin 64) : Statement (.sfuReciprocal f q) := fun _ => two f.isLt q.isLt
theorem sfuRsqrt (f : Fin 4) (q : Fin 64) : Statement (.sfuRsqrt f q) := fun _ => two f.isLt q.isLt
theorem sfuSigmoid (f : Fin 4) (q : Fin 64) : Statement (.sfuSigmoid f q) := fun _ => two f.isLt q.isLt
theorem sfuTanh (f : Fin 4) (q : Fin 64) : Statement (.sfuTanh f q) := fun _ => two f.isLt q.isLt
theorem sfuGelu (f : Fin 4) (q : Fin 64) : Statement (.sfuGelu f q) := fun _ => two f.isLt q.isLt
theorem sfuSilu (f : Fin 4) (q : Fin 64) : Statement (.sfuSilu f q) := fun _ => two f.isLt q.isLt
theorem sfuSoftplus (f : Fin 4) (q : Fin 64) : Statement (.sfuSoftplus f q) := fun _ => two f.isLt q.isLt
theorem sfuErf (f : Fin 4) (q : Fin 64) : Statement (.sfuErf f q) := fun _ => two f.isLt q.isLt
theorem sfuUserTable (f : Fin 4) (q : Fin 64) : Statement (.sfuUserTable f q) := fun _ => two f.isLt q.isLt
theorem sorusQk (f : Fin 4) (q : Fin 64) : Statement (.sorusQk f q) := fun _ => two f.isLt q.isLt
theorem sorusPv (f : Fin 4) (q : Fin 64) : Statement (.sorusPv f q) := fun _ => two f.isLt q.isLt
theorem sorusAppend (f : Fin 4) (q : Fin 64) : Statement (.sorusAppend f q) := fun _ => two f.isLt q.isLt
theorem seqCreate (p : Fin 4) (d : Fin 256) : Statement (.seqCreate p d) := fun _ => two p.isLt d.isLt
theorem seqFork (p : Fin 4) (d : Fin 256) : Statement (.seqFork p d) := fun _ => two p.isLt d.isLt
theorem seqEditTruncate (p : Fin 4) (d : Fin 256) : Statement (.seqEditTruncate p d) := fun _ => two p.isLt d.isLt
theorem seqEditDropBelow (p : Fin 4) (d : Fin 256) : Statement (.seqEditDropBelow p d) := fun _ => two p.isLt d.isLt
theorem seqRetire (p : Fin 4) (d : Fin 256) : Statement (.seqRetire p d) := fun _ => two p.isLt d.isLt
theorem csi2Packet (port : Fin 12) (pkt : Csi2Packet) : Statement (.csi2Packet port pkt) := fun _ => one port.isLt
theorem csi2FrameStart (port : Fin 12) (h : Csi2Head) (phase : Fin 32) : Statement (.csi2FrameStart port h phase) := fun _ => three port.isLt h.vc.isLt phase.isLt
theorem csi2FrameEnd (port : Fin 12) (h : Csi2Head) : Statement (.csi2FrameEnd port h) := fun _ => two port.isLt h.vc.isLt
theorem ethFrameReceive (mac : Fin 8) (fcsOk : Bool) (phase : Fin 32) (frame : List Byte) : Statement (.ethFrameReceive mac fcsOk phase frame) := fun _ => two mac.isLt phase.isLt
theorem auxMessage (ctx : Fin 96) (p : Fin 4) (d : Fin 256) (phase : Fin 32) : Statement (.auxMessage ctx p d phase) := fun _ =>
  List.forall_mem_cons.2 ⟨ctx.isLt, three p.isLt d.isLt phase.isLt⟩
theorem frameStartGap (ctx : Fin 96) : Statement (.frameStartGap ctx) := fun _ => one ctx.isLt
theorem ethLinkLoss (mac : Fin 8) : Statement (.ethLinkLoss mac) := fun _ => one mac.isLt
theorem quarHoldExpire (ctx : Fin 96) : Statement (.quarHoldExpire ctx) := fun _ => one ctx.isLt
theorem frameDeliver (ctx : Fin 96) : Statement (.frameDeliver ctx) := fun _ => one ctx.isLt
theorem streamConfig (p : Fin 4) (d : Fin 256) : Statement (.streamConfig p d) := fun _ => two p.isLt d.isLt
theorem streamStart (p : Fin 4) (d : Fin 256) : Statement (.streamStart p d) := fun _ => two p.isLt d.isLt
theorem streamStop (p : Fin 4) (d : Fin 256) : Statement (.streamStop p d) := fun _ => two p.isLt d.isLt
theorem jobInstanceStart (job : Nat) : Statement (.jobInstanceStart job) := fun _ _ h => absurd h List.not_mem_nil
theorem dealerConfig (p : Fin 4) (d : Fin 256) : Statement (.dealerConfig p d) := fun _ => two p.isLt d.isLt
theorem dealerStart (p : Fin 4) (d : Fin 256) : Statement (.dealerStart p d) := fun _ => two p.isLt d.isLt
theorem dealerStop (p : Fin 4) (d : Fin 256) : Statement (.dealerStop p d) := fun _ => two p.isLt d.isLt
theorem dealerRecordStart (lane : Fin 8) : Statement (.dealerRecordStart lane) := fun _ => one lane.isLt
theorem dealerRecordDone (lane : Fin 8) (decodeUs : Nat) : Statement (.dealerRecordDone lane decodeUs) := fun _ => one lane.isLt
theorem dealerBudgetExpire (lane : Fin 8) : Statement (.dealerBudgetExpire lane) := fun _ => one lane.isLt
theorem dealerDeliver : Statement (.dealerDeliver) := fun _ _ h => absurd h List.not_mem_nil
theorem timeIncSet (p : Fin 4) (d : Fin 256) : Statement (.timeIncSet p d) := fun _ => two p.isLt d.isLt
theorem timeStep (p : Fin 4) (d : Fin 256) : Statement (.timeStep p d) := fun _ => two p.isLt d.isLt
theorem timeRead (p : Fin 4) (d : Fin 256) : Statement (.timeRead p d) := fun _ => two p.isLt d.isLt
theorem timeIncIntWrite (w : Writer) (v : Word) : Statement (.timeIncIntWrite w v) := fun _ _ h => absurd h List.not_mem_nil
theorem timeIncApply : Statement (.timeIncApply) := fun _ _ h => absurd h List.not_mem_nil
theorem timeStepApply : Statement (.timeStepApply) := fun _ _ h => absurd h List.not_mem_nil
theorem secondsRollover : Statement (.secondsRollover) := fun _ _ h => absurd h List.not_mem_nil
theorem launchSetFrame (p : Fin 4) (d : Fin 256) : Statement (.launchSetFrame p d) := fun _ => two p.isLt d.isLt
theorem launchSetTrigger (p : Fin 4) (d : Fin 256) : Statement (.launchSetTrigger p d) := fun _ => two p.isLt d.isLt
theorem launchTransmit (e : UnitAt) : Statement (.launchTransmit e) := fun _ => two e.unit.isLt e.phase.isLt
theorem timeTrigCtrlWrite (w : Writer) (n : Fin 8) (v : Word) : Statement (.timeTrigCtrlWrite w n v) := fun _ => one n.isLt
theorem trigPulse (e : UnitAt) : Statement (.trigPulse e) := fun _ => two e.unit.isLt e.phase.isLt
theorem act (p : Fin 4) (bank : Fin 16) (row : Nat) : Statement (.act p bank row) := fun h => by
  simp only [Instr.wellFormed, decide_eq_true_eq] at h
  simp [bounds]
  omega
theorem pre (p : Fin 4) (bank : Option (Fin 16)) : Statement (.pre p bank) := fun _ => by cases bank <;> simp [bounds]
theorem rd (p : Fin 4) (bank : Fin 16) (col : Nat) : Statement (.rd p bank col) := fun h => by
  simp only [Instr.wellFormed, decide_eq_true_eq] at h
  simp [bounds]
  omega
theorem wr (p : Fin 4) (bank : Fin 16) (col : Nat) (data : List Byte) (mask : BitVec 32) : Statement (.wr p bank col data mask) := fun h => by
  simp only [Instr.wellFormed, decide_eq_true_eq] at h
  simp [bounds]
  omega
theorem rd32Wr32 (p : Fin 4) (write : Bool) : Statement (.rd32Wr32 p write) := fun _ => one p.isLt
theorem ref (p : Fin 4) : Statement (.ref p) := fun _ => one p.isLt
theorem rfm (p : Fin 4) : Statement (.rfm p) := fun _ => one p.isLt
theorem sre (p : Fin 4) : Statement (.sre p) := fun _ => one p.isLt
theorem srx (p : Fin 4) : Statement (.srx p) := fun _ => one p.isLt
theorem pdePdx (p : Fin 4) (enter : Bool) : Statement (.pdePdx p enter) := fun _ => one p.isLt
theorem mrw (p : Fin 4) (ma : BitVec 8) (op : Byte) (valid5 : Bool) (valid4 : Bool) : Statement (.mrw p ma op valid5 valid4) := fun _ => one p.isLt
theorem mrr (p : Fin 4) (ma : BitVec 8) : Statement (.mrr p ma) := fun _ => one p.isLt
theorem trainingCommand (p : Fin 4) (t : Training) : Statement (.trainingCommand p t) := fun h => by cases t <;> simp_all [bounds, fifoLen, Instr.wellFormed]
theorem hostResetNAssert (p : Fin 4) : Statement (.hostResetNAssert p) := fun _ => one p.isLt
theorem hostResetNDeassert (p : Fin 4) : Statement (.hostResetNDeassert p) := fun _ => one p.isLt
theorem heartbeatTimeout (p : Fin 4) : Statement (.heartbeatTimeout p) := fun _ => one p.isLt
theorem hostPortReady (p : Fin 4) : Statement (.hostPortReady p) := fun _ => one p.isLt
theorem hpSramZeroFillDone (p : Fin 4) : Statement (.hpSramZeroFillDone p) := fun _ => one p.isLt
theorem cpSqDb (p : Fin 4) (d : Fin 256) : Statement (.cpSqDb p d) := fun _ => two p.isLt d.isLt
theorem cpSqDbDrop (p : Fin 4) (d : Fin 256) : Statement (.cpSqDbDrop p d) := fun _ => two p.isLt d.isLt
theorem cpCqDb (p : Fin 4) (d : Fin 256) : Statement (.cpCqDb p d) := fun _ => two p.isLt d.isLt
theorem cpCqDbSqFlagClear (p : Fin 4) (d : Fin 256) : Statement (.cpCqDbSqFlagClear p d) := fun _ => two p.isLt d.isLt
theorem cpIrqClear (p : Fin 4) (v : Word) : Statement (.cpIrqClear p v) := fun _ => one p.isLt
theorem sqPacketTake (p : Fin 4) (d : Fin 256) : Statement (.sqPacketTake p d) := fun _ => two p.isLt d.isLt
theorem readTimeout (p : Fin 4) (d : Fin 256) : Statement (.readTimeout p d) := fun _ => two p.isLt d.isLt
theorem commandTimeout (p : Fin 4) (d : Fin 256) : Statement (.commandTimeout p d) := fun _ => two p.isLt d.isLt
theorem hello (p : Fin 4) (d : Fin 256) : Statement (.hello p d) := fun _ => two p.isLt d.isLt
theorem caps (p : Fin 4) (d : Fin 256) : Statement (.caps p d) := fun _ => two p.isLt d.isLt
theorem partClaim (p : Fin 4) (d : Fin 256) : Statement (.partClaim p d) := fun _ => two p.isLt d.isLt
theorem partRelease (p : Fin 4) (d : Fin 256) : Statement (.partRelease p d) := fun _ => two p.isLt d.isLt
theorem quotaSet (p : Fin 4) (d : Fin 256) : Statement (.quotaSet p d) := fun _ => two p.isLt d.isLt
theorem memAlloc (p : Fin 4) (d : Fin 256) : Statement (.memAlloc p d) := fun _ => two p.isLt d.isLt
theorem memFree (p : Fin 4) (d : Fin 256) : Statement (.memFree p d) := fun _ => two p.isLt d.isLt
theorem apertureMap (p : Fin 4) (d : Fin 256) : Statement (.apertureMap p d) := fun _ => two p.isLt d.isLt
theorem apertureFill (p : Fin 4) (d : Fin 256) : Statement (.apertureFill p d) := fun _ => two p.isLt d.isLt
theorem apertureFlush (p : Fin 4) (d : Fin 256) : Statement (.apertureFlush p d) := fun _ => two p.isLt d.isLt
theorem progLoad (p : Fin 4) (d : Fin 256) : Statement (.progLoad p d) := fun _ => two p.isLt d.isLt
theorem progUnload (p : Fin 4) (d : Fin 256) : Statement (.progUnload p d) := fun _ => two p.isLt d.isLt
theorem jobSubmit (p : Fin 4) (d : Fin 256) : Statement (.jobSubmit p d) := fun _ => two p.isLt d.isLt
theorem jobCancel (p : Fin 4) (d : Fin 256) : Statement (.jobCancel p d) := fun _ => two p.isLt d.isLt
theorem deckLoad (p : Fin 4) (d : Fin 256) : Statement (.deckLoad p d) := fun _ => two p.isLt d.isLt
theorem deckSwitch (p : Fin 4) (d : Fin 256) : Statement (.deckSwitch p d) := fun _ => two p.isLt d.isLt
theorem deckBankActivate (r : Fin 4) : Statement (.deckBankActivate r) := fun _ => one r.isLt
theorem latTolSet (p : Fin 4) (d : Fin 256) : Statement (.latTolSet p d) := fun _ => two p.isLt d.isLt
theorem pwrHintNone (p : Fin 4) (d : Fin 256) : Statement (.pwrHintNone p d) := fun _ => two p.isLt d.isLt
theorem pwrHintIdle (p : Fin 4) (d : Fin 256) : Statement (.pwrHintIdle p d) := fun _ => two p.isLt d.isLt
theorem pwrHintStandbyOk (p : Fin 4) (d : Fin 256) : Statement (.pwrHintStandbyOk p d) := fun _ => two p.isLt d.isLt
theorem groupForm (p : Fin 4) (d : Fin 256) : Statement (.groupForm p d) := fun _ => two p.isLt d.isLt
theorem groupLeave (p : Fin 4) (d : Fin 256) : Statement (.groupLeave p d) := fun _ => two p.isLt d.isLt
theorem faultRead (p : Fin 4) (d : Fin 256) : Statement (.faultRead p d) := fun _ => two p.isLt d.isLt
theorem faultAck (p : Fin 4) (d : Fin 256) : Statement (.faultAck p d) := fun _ => two p.isLt d.isLt
theorem forcePulse (p : Fin 4) (d : Fin 256) : Statement (.forcePulse p d) := fun _ => two p.isLt d.isLt
theorem forceHold (p : Fin 4) (d : Fin 256) : Statement (.forceHold p d) := fun _ => two p.isLt d.isLt
theorem forceRelease (p : Fin 4) (d : Fin 256) : Statement (.forceRelease p d) := fun _ => two p.isLt d.isLt
theorem selftestStatus (p : Fin 4) (d : Fin 256) : Statement (.selftestStatus p d) := fun _ => two p.isLt d.isLt
theorem selftestPause (p : Fin 4) (d : Fin 256) : Statement (.selftestPause p d) := fun _ => two p.isLt d.isLt
theorem selftestResume (p : Fin 4) (d : Fin 256) : Statement (.selftestResume p d) := fun _ => two p.isLt d.isLt
theorem selftestRunNow (p : Fin 4) (d : Fin 256) : Statement (.selftestRunNow p d) := fun _ => two p.isLt d.isLt
theorem testpackLoad (p : Fin 4) (d : Fin 256) : Statement (.testpackLoad p d) := fun _ => two p.isLt d.isLt
theorem healthRead (p : Fin 4) (d : Fin 256) : Statement (.healthRead p d) := fun _ => two p.isLt d.isLt
theorem attestQuote (p : Fin 4) (d : Fin 256) : Statement (.attestQuote p d) := fun _ => two p.isLt d.isLt
theorem debugAuthBegin (p : Fin 4) (d : Fin 256) : Statement (.debugAuthBegin p d) := fun _ => two p.isLt d.isLt
theorem debugAuthEnd (p : Fin 4) (d : Fin 256) : Statement (.debugAuthEnd p d) := fun _ => two p.isLt d.isLt
theorem debugChallengeTimeout : Statement (.debugChallengeTimeout) := fun _ _ h => absurd h List.not_mem_nil
theorem fwStage (p : Fin 4) (d : Fin 256) : Statement (.fwStage p d) := fun _ => two p.isLt d.isLt
theorem fwCommit (p : Fin 4) (d : Fin 256) : Statement (.fwCommit p d) := fun _ => two p.isLt d.isLt
theorem roundStart (r : Fin 4) : Statement (.roundStart r) := fun _ => one r.isLt
theorem cardOpen (f : Fin 4) : Statement (.cardOpen f) := fun _ => one f.isLt
theorem cardClose (f : Fin 4) : Statement (.cardClose f) := fun _ => one f.isLt
theorem kernelSwitch (f : Fin 4) : Statement (.kernelSwitch f) := fun _ => one f.isLt
theorem kcapExpire (f : Fin 4) : Statement (.kcapExpire f) := fun _ => one f.isLt
theorem goldenRunEnd (f : Fin 4) : Statement (.goldenRunEnd f) := fun _ => one f.isLt
theorem selftestSegmentStart (f : Fin 4) : Statement (.selftestSegmentStart f) := fun _ => one f.isLt
theorem selftestSegmentEnd (f : Fin 4) (matched : Bool) : Statement (.selftestSegmentEnd f matched) := fun _ => one f.isLt
theorem checkRotationOverdue (f : Fin 4) : Statement (.checkRotationOverdue f) := fun _ => one f.isLt
theorem patternRotationOverdue (f : Fin 4) : Statement (.patternRotationOverdue f) := fun _ => one f.isLt
theorem thallusCheckerTest (checkers : List (Fin 128)) (pairs : List (BitVec 10)) (detector : Bool) : Statement (.thallusCheckerTest checkers pairs detector) := fun _ _ h => absurd h List.not_mem_nil
theorem comparatorInjectionTest (u : WidowUnit) (missed : Bool) : Statement (.comparatorInjectionTest u missed) := fun _ _ h => absurd h List.not_mem_nil
theorem widowDifference (u : WidowUnit) : Statement (.widowDifference u) := fun _ _ h => absurd h List.not_mem_nil
theorem frondWakeStart (f : Fin 4) : Statement (.frondWakeStart f) := fun _ => one f.isLt
theorem frondAstateEntry (f : Fin 4) : Statement (.frondAstateEntry f) := fun _ => one f.isLt
theorem frondWakeDone (f : Fin 4) (restoreUs : Nat) : Statement (.frondWakeDone f restoreUs) := fun _ => one f.isLt
theorem s1Entry : Statement (.s1Entry) := fun _ _ h => absurd h List.not_mem_nil
theorem s1Wake (c : WakeCause) : Statement (.s1Wake c) := fun _ _ h => absurd h List.not_mem_nil
theorem dramRead (u : MemUnit) (addr : BitVec 48) (units : Nat) : Statement (.dramRead u addr units) := fun _ _ h => absurd h List.not_mem_nil
theorem dramWrite (u : MemUnit) (addr : BitVec 48) (data : List Byte) (bcw : Word) : Statement (.dramWrite u addr data bcw) := fun h => by
  simp only [Instr.wellFormed, decide_eq_true_eq] at h
  simp [bounds]
  omega
theorem dramMerge (u : MemUnit) (addr : BitVec 48) (data : List Byte) : Statement (.dramMerge u addr data) := fun _ _ h => absurd h List.not_mem_nil
theorem dramWriteback (c : Fin 16) : Statement (.dramWriteback c) := fun _ => one c.isLt
theorem dramRefresh (ch : Fin 32) : Statement (.dramRefresh ch) := fun _ => one ch.isLt
theorem exactAddedRefresh (ch : Fin 32) : Statement (.exactAddedRefresh ch) := fun _ => one ch.isLt
theorem patrolScrub (c : Fin 16) : Statement (.patrolScrub c) := fun _ => one c.isLt
theorem flitTransmit (l : Fin 3) : Statement (.flitTransmit l) := fun _ => one l.isLt
theorem flitReceive (l : Fin 3) (lanes : List (List Byte)) : Statement (.flitReceive l lanes) := fun h => by
  simp only [Instr.wellFormed, decide_eq_true_eq] at h
  exact two l.isLt (by omega)
theorem replayTimeout (l : Fin 3) : Statement (.replayTimeout l) := fun _ => one l.isLt
theorem linkDetect (e : Detected) : Statement (.linkDetect e) := fun _ => one e.link.isLt
theorem linkTrainDone (l : Fin 3) (lanes : BitVec 8) : Statement (.linkTrainDone l lanes) := fun _ => one l.isLt
theorem linkTrainTimeout (l : Fin 3) : Statement (.linkTrainTimeout l) := fun _ => one l.isLt
theorem hezorHello (l : Fin 3) (h : LinkHello) : Statement (.hezorHello l h) := fun _ => one l.isLt
theorem linkLockLoss (l : Fin 3) : Statement (.linkLockLoss l) := fun _ => one l.isLt
theorem fastRetrainDone (l : Fin 3) (lanes : BitVec 8) (ok : Bool) : Statement (.fastRetrainDone l lanes ok) := fun _ => one l.isLt
theorem dataPacket (l : Fin 3) : Statement (.dataPacket l) := fun _ => one l.isLt
theorem closePacket (l : Fin 3) : Statement (.closePacket l) := fun _ => one l.isLt
theorem commitPacket (l : Fin 3) : Statement (.commitPacket l) := fun _ => one l.isLt
theorem gctlJoin (l : Fin 3) : Statement (.gctlJoin l) := fun _ => one l.isLt
theorem gctlLeave (l : Fin 3) : Statement (.gctlLeave l) := fun _ => one l.isLt
theorem trickLedgerExamine (key : Word) (entry : Nat) (inst : Nat) : Statement (.trickLedgerExamine key entry inst) := fun _ _ h => absurd h List.not_mem_nil
theorem trickTimeout (key : Word) (entry : Nat) (inst : Nat) : Statement (.trickTimeout key entry inst) := fun _ _ h => absurd h List.not_mem_nil
theorem clockLockLoss : Statement (.clockLockLoss) := fun _ _ h => absurd h List.not_mem_nil
theorem sealDecision (job : Nat) : Statement (.sealDecision job) := fun _ _ h => absurd h List.not_mem_nil
theorem twinCompare (job : Nat) : Statement (.twinCompare job) := fun _ _ h => absurd h List.not_mem_nil
theorem ageDeadline (job : Nat) : Statement (.ageDeadline job) := fun _ _ h => absurd h List.not_mem_nil
theorem faultSourceEvent (e : FaultInfo) : Statement (.faultSourceEvent e) := fun _ _ h => absurd h List.not_mem_nil
theorem brokenPair (src : BitVec 10) : Statement (.brokenPair src) := fun _ _ h => absurd h List.not_mem_nil
theorem collectorSelfFault : Statement (.collectorSelfFault) := fun _ _ h => absurd h List.not_mem_nil
theorem fcolAck (w : Writer) (v : Word) : Statement (.fcolAck w v) := fun _ _ h => absurd h List.not_mem_nil
theorem fcolForceHold (w : Writer) (i : Fin 32) (v : Word) : Statement (.fcolForceHold w i v) := fun _ => one i.isLt
theorem fcolForcePulse (w : Writer) (i : Fin 32) (v : Word) : Statement (.fcolForcePulse w i v) := fun _ => one i.isLt
theorem escalationTimeout : Statement (.escalationTimeout) := fun _ _ h => absurd h List.not_mem_nil
theorem errPulseEnd : Statement (.errPulseEnd) := fun _ _ h => absurd h List.not_mem_nil
theorem powerOnTimeSave : Statement (.powerOnTimeSave) := fun _ _ h => absurd h List.not_mem_nil
theorem powerSample (mw : Nat) : Statement (.powerSample mw) := fun _ _ h => absurd h List.not_mem_nil
theorem thermalSample (temps : List (BitVec 16 × BitVec 16)) : Statement (.thermalSample temps) := fun h => by
  simp only [Instr.wellFormed, decide_eq_true_eq] at h
  simp [bounds]
  omega
theorem thermalLimitLower : Statement (.thermalLimitLower) := fun _ _ h => absurd h List.not_mem_nil
theorem thermalLimitRaise : Statement (.thermalLimitRaise) := fun _ _ h => absurd h List.not_mem_nil
theorem thermalTrip (sensor : Fin 24) : Statement (.thermalTrip sensor) := fun _ => one sensor.isLt
theorem droopDetect (f : Fin 4) : Statement (.droopDetect f) := fun _ => one f.isLt
theorem droopRecover (f : Fin 4) : Statement (.droopRecover f) := fun _ => one f.isLt
theorem droopFault (f : Fin 4) : Statement (.droopFault f) := fun _ => one f.isLt
theorem opChange (f : Fin 4) : Statement (.opChange f) := fun _ => one f.isLt
theorem pllLockLoss (domain : Fin 32) : Statement (.pllLockLoss domain) := fun _ => one domain.isLt
theorem avsTimeout : Statement (.avsTimeout) := fun _ _ h => absurd h List.not_mem_nil
theorem pwrgdMainFail : Statement (.pwrgdMainFail) := fun _ _ h => absurd h List.not_mem_nil
theorem dbgChal (level : BitVec 2) (key : Bool) : Statement (.dbgChal level key) := fun _ _ h => absurd h List.not_mem_nil
theorem dbgResp (rs : BitVec 512) : Statement (.dbgResp rs) := fun _ _ h => absurd h List.not_mem_nil
theorem dbgAccRead (addr : BitVec 48) : Statement (.dbgAccRead addr) := fun _ _ h => absurd h List.not_mem_nil
theorem dbgAccWrite (addr : BitVec 48) (v : Word) : Statement (.dbgAccWrite addr v) := fun _ _ h => absurd h List.not_mem_nil
theorem dbgHalt (target : BitVec 4) : Statement (.dbgHalt target) := fun _ _ h => absurd h List.not_mem_nil
theorem dbgResume (target : BitVec 4) : Statement (.dbgResume target) := fun _ _ h => absurd h List.not_mem_nil
theorem dbgStep (target : BitVec 4) : Statement (.dbgStep target) := fun _ _ h => absurd h List.not_mem_nil
theorem dbgStage : Statement (.dbgStage) := fun _ _ h => absurd h List.not_mem_nil
theorem extest (scan : List Bool) : Statement (.extest scan) := fun _ _ h => absurd h List.not_mem_nil
theorem clamp : Statement (.clamp) := fun _ _ h => absurd h List.not_mem_nil
theorem highz : Statement (.highz) := fun _ _ h => absurd h List.not_mem_nil
theorem samplePreload (capture : List Bool) (load : List Bool) : Statement (.samplePreload capture load) := fun _ _ h => absurd h List.not_mem_nil
theorem tapReset : Statement (.tapReset) := fun _ _ h => absurd h List.not_mem_nil
theorem porNAssert : Statement (.porNAssert) := fun _ _ h => absurd h List.not_mem_nil
theorem porNRelease (b : BootFacts) : Statement (.porNRelease b) := fun _ _ h => absurd h List.not_mem_nil
theorem warmReset (c : WarmCause) : Statement (.warmReset c) := fun _ _ h => absurd h List.not_mem_nil
theorem bootWatchdogExpire : Statement (.bootWatchdogExpire) := fun _ _ h => absurd h List.not_mem_nil
theorem nocTimeout (router : Fin 64) (u : MemUnit) (second : Bool) (block : Option (BitVec 40)) : Statement (.nocTimeout router u second block) := fun _ => one router.isLt
theorem kernelAbort (f : Fin 4) : Statement (.kernelAbort f) := fun _ => one f.isLt
theorem frondReset (f : Fin 4) : Statement (.frondReset f) := fun _ => one f.isLt
theorem partitionReset (r : Fin 4) : Statement (.partitionReset r) := fun _ => one r.isLt
theorem rhizoidReset : Statement (.rhizoidReset) := fun _ _ h => absurd h List.not_mem_nil
theorem hezorLinkReset (l : Fin 3) : Statement (.hezorLinkReset l) := fun _ => one l.isLt
theorem hostPortReset (p : Fin 4) : Statement (.hostPortReset p) := fun _ => one p.isLt
theorem recoveryStepOverrun (sc : Scope) : Statement (.recoveryStepOverrun sc) := fun _ _ h => absurd h List.not_mem_nil
theorem i2cWrite (bytes : List Byte) : Statement (.i2cWrite bytes) := fun _ _ h => absurd h List.not_mem_nil
theorem i2cRead (n : Nat) : Statement (.i2cRead n) := fun _ _ h => absurd h List.not_mem_nil
theorem i2cWake : Statement (.i2cWake) := fun _ _ h => absurd h List.not_mem_nil
theorem matCorrectedWriteback (bank : Fin 64) : Statement (.matCorrectedWriteback bank) := fun _ => one bank.isLt
theorem dramMr4Report (ch : Fin 32) (code : BitVec 3) : Statement (.dramMr4Report ch code) := fun _ => one ch.isLt
theorem testPackRead : Statement (.testPackRead) := fun _ _ h => absurd h List.not_mem_nil
theorem cpIrqMaskWrite (p : Fin 4) (v : Word) : Statement (.cpIrqMaskWrite p v) := fun _ => one p.isLt
theorem deskewCalibrationSequence (port : Fin 12) : Statement (.deskewCalibrationSequence port) := fun _ => one port.isLt

end Sys2Proof.Laws.Bounds
end

