-- ==== Sys2Proof/Tests/Slice0.lean ====
section
/-! SUPPORT. Tests: each check of WellFormed refuses an ill-formed command, and every statement that has hypotheses has a
state and operands that meet them together: `wit_<Name>` for `Obligations.<Name>`, clause by clause, at boundary values. A condition that
a signature verifies is a value of Config that nothing shows; `wit_EbwickHealth_pack` and `wit_EbwickSecurity_commit` take the Config as it is. -/

namespace Sys2Proof.Tests

open Machine Safety

/-! WellFormed. The bounds are those of the rules its docstrings cite. -/

/-- A scratchpad has 655,360 rows (R164). -/
theorem test_wf_scratchpad_row : (Instr.scratchpadRead 0 [⟨.drain, 655360, false, 0⟩]).wellFormed = false := by decide
theorem test_wf_scratchpad_write_row : (Instr.scratchpadWrite 0 [⟨.drain, 655360, true, 0⟩] (List.replicate 256 0) 0).wellFormed = false := by decide
theorem test_wf_scratchpad_write_length : (Instr.scratchpadWrite 0 [] [0] 0).wellFormed = false := by decide
theorem test_wf_scratchpad_merge_rows : (Instr.scratchpadMerge 0 [] 5 []).wellFormed = false := by decide
theorem test_wf_scratchpad_merge_length : (Instr.scratchpadMerge 0 [] 1 [0]).wellFormed = false := by decide
theorem test_wf_partial_row_empty : (Instr.partialRowWrite 0 [] 0 []).wellFormed = false := by decide
theorem test_wf_partial_row_end : (Instr.partialRowWrite 0 [] 64 [0]).wellFormed = false := by decide
/-- The Mat holds 16 MiB (R184). -/
theorem test_wf_mat_offset : (Instr.matAccess [⟨.rhizoid, 2 ^ 24, .read⟩]).wellFormed = false := by decide
theorem test_wf_mat_empty : (Instr.matAccess [⟨.rhizoid, 0, .write []⟩]).wellFormed = false := by decide
theorem test_wf_mat_block : (Instr.matAccess [⟨.rhizoid, 0, .writeBlock [0] 0⟩]).wellFormed = false := by decide
theorem test_wf_mat_write_end : (Instr.matAccess [⟨.rhizoid, 255, .write [0, 0]⟩]).wellFormed = false := by decide
theorem test_wf_eth_frame : (Instr.ethFrameReceive 0 true 0 []).wellFormed = false := by decide
theorem test_wf_act_row : (Instr.act 0 0 65536).wellFormed = false := by decide
theorem test_wf_rd_column : (Instr.rd 0 0 64).wellFormed = false := by decide
theorem test_wf_wr_column : (Instr.wr 0 0 64 (List.replicate 32 0) 0).wellFormed = false := by decide
theorem test_wf_wr_length : (Instr.wr 0 0 0 [] 0).wellFormed = false := by decide
theorem test_wf_training_fifo : (Instr.trainingCommand 0 (.fifoWrite [])).wellFormed = false := by decide
theorem test_wf_dram_write_block : (Instr.dramWrite .firmware 1 (List.replicate 256 0) 0).wellFormed = false := by decide
theorem test_wf_dram_write_length : (Instr.dramWrite .firmware 0 [] 0).wellFormed = false := by decide
theorem test_wf_dram_merge : (Instr.dramMerge .firmware 0 []).wellFormed = false := by decide
theorem test_wf_flit : (Instr.flitReceive 0 []).wellFormed = false := by decide
theorem test_wf_thermal : (Instr.thermalSample []).wellFormed = false := by decide
theorem test_wf_i2c : (Instr.i2cWrite []).wellFormed = false := by decide

/-! Small states. -/

/-- A booted device: SERVICE, memories filled. -/
def up : State := { State.reset with sys := { Sys.reset with st := .service, por := false, zfillMat := false } }

/-- The booted device with port 0 changed. -/
def upPort (g : Port → Port) : State := up.modPort 0 g

/-- Port 0 ready and settled to a mode, its SRAM filled. -/
def upHost (m : PortMode) : State := upPort fun x => { x with ready := true, filled := true, mode := m }

/-- The booted device with Frond 0 changed, its fill done. -/
def upFrond (g : Frond → Frond) : State := up.modFrond 0 fun x => g { x with zfill := false }

/-- A kernel of job 1. -/
def kern : KernelRun := ⟨1, 0, 7, 0, false, false, 0, 100⟩

/-- A queue with an instruction at its issue stage. -/
def qslot (w : IWord) : Queue := ⟨1, 0, 1, 1, [], some w, 0, false⟩

/-- Frond 0 runs a kernel whose queue 63 holds `w` at its issue stage. -/
def issued (w : IWord) (g : Frond → Frond) : State :=
  upFrond fun x => g { x with kernel := some kern, queues := [(63, qslot w)] }

/-- An instruction of a class with a field at a bit. -/
def ins (cls at_ v : Nat) : IWord := BitVec.ofNat 128 (cls + v * 2 ^ at_)

/-! A state and operands for the hypotheses of each statement. -/

/-- A program whose descriptor 0 is `d`. -/
def prog (d : List Byte) : Prog := ⟨0, 7, 0x1000, 4096, 0, [], d, 0, 0, 0, 0, 0⟩

/-- A job of partition 0 that runs program 7. -/
def job : Job := { up.newJob 0 [7] with st := .ready }

/-- Frond 0 runs a kernel whose queue 63 holds `w`, with descriptor 0 at hand and job 1 known. -/
def issuedWith (w : IWord) (d : List Byte) (g : Frond → Frond) : State := { issued w g with progs := [(7, prog d)], jobs := [(1, job)] }

theorem wit_HostRows :
    (PortUp (upHost .lpddr5) 0 ∧ (15 : Fin 16).val < ((upHost .lpddr5).port 0).banks ∧ 32767 < 32768) ∧
    (PortUp (upHost .lpddr4x) 0 ∧ (7 : Fin 16).val < ((upHost .lpddr4x).port 0).banks ∧ 65535 < 65536 ∧
      ((upHost .lpddr4x).port 0).mode ≠ .lpddr5) := by
  unfold PortUp; decide

/-- Port 0 with the row of bank 15 open, page `pg` writable. -/
def rowOpen (row pg : Nat) : State :=
  (upPort fun x => { x with ready := true, filled := true, mode := .lpddr5, openRows := [(15, row)] }).setPages 0 pg 1 true

theorem wit_HostBursts :
    (PortUp (rowOpen 193 0x60F) 0 ∧ ((rowOpen 193 0x60F).port 0).rowOf 15 = some 193 ∧ ((rowOpen 193 0x60F).port 0).rowOf 14 = none ∧
      (193 * 16 + 15) * 2048 + 32 * 63 = 0x60FFE0 ∧ (rowOpen 193 0x60F).pageOpen 0 (0x60FFE0 / 4096) = true ∧
      ((rowOpen 193 0x60F).port 0).filled = true ∧ (rowOpen 193 0x60F).sys.st ≠ .safe ∧ (List.replicate 32 (0xA5 : Byte)).length = 32 ∧
      (1 : BitVec 32) ≠ 0) ∧
    (PortUp (rowOpen 2 0x17) 0 ∧ (2 * 16 + 15) * 2048 + 32 * 0 = 0x17800) := by
  unfold PortUp; decide

theorem wit_HostHeartbeat :
    (PortUp (upHost .lpddr5) 0 ∧ ((upHost .lpddr5).port 0).openRows = [] ∧ ((upHost .lpddr5).port 0).ready = true ∧
      ((upHost .lpddr5).port 0).mode ≠ .unsettled) ∧
    (((upPort fun x => { x with hb := .live }).port 0).hb = .live ∧ (upPort fun x => { x with hb := .live }).heldBy 0 = [] ∧
      (upPort fun x => { x with hb := .live }).fcol.safe = false) ∧
    (up.sys.por = false ∧ (up.port 0).ready = false) := by
  unfold PortUp; decide

theorem wit_HostModeRegs :
    (((upPort fun x => { x with ready := true }).port 0).ready = true ∧ ((upPort fun x => { x with ready := true }).port 0).mode = .unsettled) ∧
    (((upHost .lpddr4x).port 0).ready = true ∧ ((upHost .lpddr4x).port 0).mode = .lpddr4x ∧ PortUp (upHost .lpddr4x) 0) ∧
    (PortUp (upPort fun x => { x with ready := true, mode := .lpddr5, fifo := [1] }) 0 ∧
      ((upPort fun x => { x with ready := true, mode := .lpddr5, fifo := [1] }).port 0).fifo ≠ []) := by
  unfold PortUp; decide

theorem wit_VecCommandsRun :
    (∀ v ∈ [0x00, 0x01, 0x02, 0x03, 0x04, 0x07, 0x08, 0x0A, 0x0B, 0x0C, 0x0D, 0x0E, 0x10, 0x11, 0x12, 0x13, 0x18, 0x19, 0x1A, 0x1B, 0x1C,
        0x20, 0x05, 0x06],
      (issued (ins 8 40 v) id).readyIns 0 63 8 = some (ins 8 40 v) ∧ (vecF (ins 8 40 v)).vop = v) := by
  decide

/-- A VEC instruction on a descriptor without rows meets the condition on `vecRun` with its output function. -/
theorem wit_VecCommandsRun_run :
    (∀ e ∈ [(0x00, outOp2 0x00), (0x01, outOp2 0x01), (0x02, outOp2 0x02), (0x03, outOp2 0x03), (0x04, outOp2 0x04), (0x07, outOp1 0x07 0),
        (0x08, outOp1 0x08 0), (0x0A, outOp2 0x0A), (0x0B, outOp2 0x0B), (0x0C, outOp2 0x0C), (0x0D, outOp2 0x0D), (0x0E, outOp2 0x0E),
        (0x10, outRsum), (0x11, outPick elemLt false), (0x12, outPick (fun a b => elemLt b a) false), (0x13, outPick elemLt true),
        (0x18, outEafAdd), (0x19, outEafOut), (0x1A, outMeanFin), (0x1C, outEafCvt), (0x20, outExpmap), (0x05, outOp1 0x05 7), (0x06, outOp1 0x06 7),
        (0x1B, outVarFin 7)],
      ∀ s ∈ [issued (ins 8 40 e.1) id], (s.vecRun 0 63 8 (ins 8 40 e.1) (e.2 (s.spReader 0) (vecF (ins 8 40 e.1)) (vecOf (s.desc 0 0)))).2 = false) := by
  decide

theorem wit_SfuCommandsRun :
    (∀ v ∈ [0, 1, 2, 3, 4, 5, 6, 7, 8, 9, 16, 31],
      (issued (ins 9 40 v) id).readyIns 0 63 9 = some (ins 9 40 v) ∧ (sfuF (ins 9 40 v)).vop = v) ∧
    ((issued (ins 9 40 16) id).frond 0).kernel = some kern := by
  decide

/-- The user table 0 of program 7 in slot 63, a header without segments. -/
def tabUp : State := issued (ins 9 40 16) fun x => { x with sfu := [(63, (7, 0, List.replicate 64 0))] }

set_option maxRecDepth 100000 in
theorem wit_SfuCommandsRun_run :
    (∀ v ∈ [0, 1, 2, 3, 4, 5, 6, 7, 8, 9], ∀ s ∈ [issued (ins 9 40 v) id],
      (s.vecRun 0 63 9 (ins 9 40 v) (outSfu (builtinEval v) (s.spReader 0) (sfuF (ins 9 40 v)) (vecOf (s.desc 0 0)))).2 = false) ∧
    (tabUp.readyIns 0 63 9 = some (ins 9 40 16) ∧ (tabUp.frond 0).userTable 7 0 = some (63, List.replicate 64 0)) := by
  decide

theorem wit_VecIntegersSaturate : -2 ^ 31 ≤ (-2147483648 : Int) ∧ (2147483647 : Int) < 2 ^ 31 := by decide

/-- Frond 0 with its map-out locked, both weight sets ready and half 0 accumulating. -/
def arrayReady (w : IWord) (st : HalfSt) : State :=
  (issued w fun x => ((x.putSet 0 { x.set0 with st := .ready }).putSet 1 { x.set1 with st := .ready }).putHalf 0
    { x.half0 with st := st }).setReg (oMapout 0) 0x80000000

theorem wit_ArrayIssues :
    ((arrayReady (ins 1 40 655000) .free).readyIns 0 63 1 = some (ins 1 40 655000) ∧
      (arrayReady (ins 1 40 655000) .free).loadwCan 0 (loadwF (ins 1 40 655000)) = true) ∧
    (((upFrond fun x => { x with loads := [⟨63, ins 1 77 1, 0, []⟩] }).frond 0).loadOf (1 : Fin 2).val = some ⟨63, ins 1 77 1, 0, []⟩ ∧
      ((upFrond fun x => { x with loads := [⟨63, ins 1 77 1, 0, []⟩] }).loadRows 0 1
        ((weightRows (loadwF (ins 1 77 1))).1 - 0)).2 = false) ∧
    (∀ c ∈ [2, 3], (arrayReady (ins c 126 1) .free).readyIns 0 63 c = some (ins c 126 1) ∧ (streamF (ins c 126 1)).clear = true ∧
      (arrayReady (ins c 126 1) .free).streamCan 0 (streamF (ins c 126 1)) (geoOf ((arrayReady (ins c 126 1) .free).desc 0 0)) = true) ∧
    (∀ c ∈ [2, 3], (arrayReady (ins c 0 0) .accumulating).readyIns 0 63 c = some (ins c 0 0) ∧
      ((arrayReady (ins c 0 0) .accumulating).frond 0).targetAny (streamF (ins c 0 0)).target .free = false ∧
      (arrayReady (ins c 0 0) .accumulating).streamCan 0 (streamF (ins c 0 0)) (geoOf ((arrayReady (ins c 0 0) .accumulating).desc 0 0)) = true) ∧
    ((arrayReady (ins 4 83 1) .complete).readyIns 0 63 4 = some (ins 4 83 1) ∧ ((arrayReady (ins 4 83 1) .complete).frond 0).drains = [] ∧
      ((arrayReady (ins 4 83 1) .complete).frond 0).targetAny (drainF (ins 4 83 1)).half .free = false) ∧
    (up.regF (oMapout 3) 31 1 = 0 ∧ (up.setReg (oMapout 3) 0x80000000).regF (oMapout 3) 31 1 = 1) := by
  decide

set_option maxRecDepth 100000 in
theorem wit_ArrayIssues_run :
    (∀ s ∈ [arrayReady (ins 1 40 655000) .free], (((s.issueIns 0 63).modFrond 0 fun x =>
      { (loadwF (ins 1 40 655000)).sets.foldl (fun x i => x.putSet i ((loadwF (ins 1 40 655000)).opened [])) x with
        loads := ((loadwF (ins 1 40 655000)).sets.foldl (fun x i => x.putSet i ((loadwF (ins 1 40 655000)).opened [])) x).loads ++
          [⟨63, ins 1 40 655000, 0, []⟩] }).loadRow 0 ((loadwF (ins 1 40 655000)).sets.headD 0)).2 = false) ∧
    (∀ c ∈ [2, 3], ∀ s ∈ [arrayReady (ins c 126 1) .free], isDead (streamF (ins c 126 1)) (geoOf (s.desc 0 0)) = false ∧
      headerRows (streamF (ins c 126 1)) (geoOf (s.desc 0 0)) = []) := by
  decide

/-- A stream of two rows of which `e` have entered and `w` are written. -/
def twoRows (e w : Nat) : StreamRun := ⟨63, BitVec.ofNat 128 (2 + 2 ^ 97 + 2 ^ 126), false, 2, e, w, [], [], []⟩

/-- A row of the array for entry 0 of half 0. -/
def aRow : RowRun := ⟨0, 0, true, false, [], [], 0, [], [], false⟩

/-- Frond 0 with both rows of a stream entered and none written. -/
def rowsIn : State := issued (ins 2 0 0) fun x => { x with streams := [twoRows 2 0], rows := [aRow, aRow] }

/-- Frond 0 with a DRAIN of one entry on half 0. -/
def draining (r : DrainRun) (st : HalfSt) : State :=
  issued (ins 4 83 1) fun x => { x with drains := [r], half0 := { x.half0 with st := st, closing := true } }

theorem wit_ArrayRows :
    (((issued (ins 2 0 0) fun x => { x with streams := [twoRows 0 0] }).frond 0).entering = some (twoRows 0 0) ∧
      ((issued (ins 2 0 0) fun x => { x with streams := [twoRows 0 0] }).buildRow 0 (twoRows 0 0) ((issued (ins 2 0 0) fun x =>
        { x with streams := [twoRows 0 0] }).nextShift 0 (twoRows 0 0))).2.2 = false) ∧
    ((rowsIn.frond 0).rows = [aRow, aRow] ∧ (rowsIn.frond 0).writing = some (twoRows 2 0) ∧ (twoRows 2 0).written + 1 < (twoRows 2 0).total ∧
      (rowsIn.frond 0).tagBad aRow = false) ∧
    ((((draining ⟨63, ins 4 83 1, 1, [], [], 0⟩ .accumulating).frond 0).half 0).closing = true ∧
      (((draining ⟨63, ins 4 83 1, 1, [], [], 0⟩ .accumulating).frond 0).half 0).st = .accumulating ∧
      ((draining ⟨63, ins 4 83 1, 1, [], [], 0⟩ .accumulating).frond 0).targetBusy 0 = false) ∧
    (((draining ⟨63, ins 4 83 1, 0, [], [], 0⟩ .complete).frond 0).draining = some ⟨63, ins 4 83 1, 0, [], [], 0⟩ ∧
      ((draining ⟨63, ins 4 83 1, 0, [], [], 0⟩ .complete).frond 0).drainCan ⟨63, ins 4 83 1, 0, [], [], 0⟩ = true) ∧
    (((draining ⟨63, ins 4 83 1, 1, [[⟨64, [1]⟩]], [], 0⟩ .free).frond 0).drains = [⟨63, ins 4 83 1, 1, [[⟨64, [1]⟩]], [], 0⟩] ∧
      (draining ⟨63, ins 4 83 1, 1, [[⟨64, [1]⟩]], [], 0⟩ .free).exactOn 0 = false) ∧
    (((draining ⟨63, ins 4 83 1, 1, [], [], 0⟩ .free).frond 0).drains = [⟨63, ins 4 83 1, 1, [], [], 0⟩] ∧ (drainF (ins 4 83 1)).ne = 1) := by
  decide

set_option maxRecDepth 100000 in
theorem wit_ArrayRows_run :
    (∀ s ∈ [issued (ins 2 0 0) fun x => { x with streams := [twoRows 0 0] }], (s.loadClock 0).2 = false) ∧
    (∀ s ∈ [draining ⟨63, ins 4 83 1, 1, [], [], 0⟩ .free], (s.spStoreAll (s.frondWho 0 4) 0 1 [⟨64, [1]⟩]).2 = false) := by
  decide

theorem wit_SorusSampleRun :
    (∀ v ∈ [0, 1, 2], (issued (ins 0x14 40 v) id).readyIns 0 63 0x14 = some (ins 0x14 40 v) ∧ (sorusF (ins 0x14 40 v)).sop = v) ∧
    (∀ v ∈ [0, 1, 2], (issuedWith (ins 0x10 0 0) [4, BitVec.ofNat 8 v] id).readyIns 0 63 0x10 = some (ins 0x10 0 0) ∧
      (sampleOf ((issuedWith (ins 0x10 0 0) [4, BitVec.ofNat 8 v] id).desc 0 (sampleF (ins 0x10 0 0)).desc)).mode = v) := by
  decide

set_option maxRecDepth 100000 in
theorem wit_SorusSampleRun_run :
    ((issued (ins 0x14 40 0) id).sorusQk 0 63 (ins 0x14 40 0)).2 = false ∧ ((issued (ins 0x14 40 1) id).sorusPv 0 63 (ins 0x14 40 1)).2 = false ∧
    (∀ s ∈ [issuedWith (ins 0x10 0 0) [4, 0] id], (s.sampleRun 0 63 (ins 0x10 0 0)
      (cropOut (s.spReader 0) (sampleOf (s.desc 0 0)) (sampleF (ins 0x10 0 0)))).2 = false) ∧
    (∀ v ∈ [1, 2], ∀ s ∈ [issuedWith (ins 0x10 0 0) [4, BitVec.ofNat 8 v] id], (s.sampleRun 0 63 (ins 0x10 0 0)
      (poolOut (s.spReader 0) (sampleOf (s.desc 0 0)) (sampleF (ins 0x10 0 0)) (decide (v = 2)))).2 = false) := by
  decide

/-- A remote signal for the kernel that runs. -/
def sig : RemoteSig := ⟨1, 0, 0, 255, 0xFFFF⟩

theorem wit_StipeTokens :
    ((issued (ins 0x38 0 0) id).readyIns 0 63 0x38 = some (ins 0x38 0 0)) ∧
    ((issued (ins 0x39 40 0xFFFF) id).readyIns 0 63 0x39 = some (ins 0x39 40 0xFFFF) ∧
      ((issued (ins 0x39 40 0xFFFF) id).frond 0).kernel = some kern ∧ (sigF (ins 0x39 40 0xFFFF)).remote = false) ∧
    ((issued (ins 0x39 64 7) id).readyIns 0 63 0x39 = some (ins 0x39 64 7) ∧ (sigF (ins 0x39 64 7)).remote = true ∧
      (sigF (ins 0x39 64 7)).tfrd = (3 : Fin 4).val ∧
      ((issued (ins 0x39 64 7) id).frond 3).remote.length + ((issued (ins 0x39 64 7) id).frond 3).inbound.length < 64) ∧
    (((issuedWith 0 [] fun x => { x with inbound := [sig] }).frond 0).inbound = [sig] ∧
      (issuedWith 0 [] fun x => { x with inbound := [sig] }).job sig.job = some job ∧
      ((issuedWith 0 [] fun x => { x with inbound := [sig] }).frond 0).runsKernel sig.job sig.inst sig.kernel = true) ∧
    ((issued (ins 0x3A 111 1) id).slotIns 0 63 0x3A = some (ins 0x3A 111 1) ∧ (barQmask (ins 0x3A 111 1)).testBit 63 = true ∧
      ∀ i < 64, (barQmask (ins 0x3A 111 1)).testBit i = true → (issued (ins 0x3A 111 1) id).readyIns 0 i 0x3A = some (ins 0x3A 111 1)) ∧
    ((issued (ins 0x3F 0 0) id).readyIns 0 63 0x3F = some (ins 0x3F 0 0) ∧
      ((issued (ins 0x3F 0 0) id).frond 0).queue 63 = some (qslot (ins 0x3F 0 0)) ∧ (issued (ins 0x3F 0 0) id).flitsOut 0 63 = false) := by
  decide

/-- A queue with 16 instructions still to fetch, at an address of main memory. -/
def fetching : Queue := ⟨1, 0x1000, 16, 0, [], none, 0, false⟩

theorem block_setBcw (s : State) (a : Nat) (w : Word) : (s.setBcw a w).block a = s.block a := by
  simp only [State.block, State.rdN, State.rd_setBcw]
theorem blockOk_of (s : State) (a : Nat) (w : Word) (h : crcWord (s.block a) = w) (h1 : s.bcwAt a = w) : s.blockOk a = true := by
  unfold State.blockOk; rw [h, h1]; exact decide_eq_true rfl
/-- A block whose BCW has just been written from its bytes agrees with it. -/
theorem blockOk_fresh (s : State) (a : Nat) : (s.setBcw a (crcWord (s.block a))).blockOk a = true :=
  blockOk_of _ _ _ (by rw [block_setBcw]) (State.bcwAt_setBcw _ _ _)

/-- Frond 0 whose queue 63 is about to fetch from a block with a good BCW. -/
def fetchFrom : State := let s := upFrond fun x => { x with kernel := some kern, queues := [(63, fetching)] }
  s.setBcw 0x1000 (crcWord (s.block 0x1000))

theorem wit_StipeKernels_fetch : (fetchFrom.frond 0).queue 63 = some fetching ∧ 0x1000 = fetching.base + 16 * fetching.fetch ∧
    16 = fetching.batch ∧ fetchFrom.blockOk 0x1000 = true := by
  exact ⟨by decide, by decide, by decide, blockOk_fresh _ _⟩

theorem wit_StipeKernels :
    (((upFrond fun x => { x with switching := some (1, 7, 100) }).frond 0).switching = some (1, 7, 100) ∧
      ((upFrond fun x => { x with switching := some (1, 7, 100) }).frond 0).kernel = none ∧
      ({ upFrond fun x => { x with switching := some (1, 7, 100) } with jobs := [(1, job)] } : State).job 1 = some job) ∧
    ((issued 0 id).stipeHalted 0 = false ∧ ((issued 0 id).frond 0).kernel = some kern) ∧
    (tfind [(63, { fetching with entries := [5] })] 63 = some { fetching with entries := [(5 : IWord)] }) ∧
    (∀ x ∈ [((upFrond fun x => { x with kernel := some kern, queues := [(63, { fetching with retired := true })] }))],
      (x.frond 0).kernel = some kern ∧ (∀ e ∈ (x.frond 0).queues, e.2.retired = true) ∧ (x.frond 0).endBad = false ∧
      ∀ i < 64, x.flitsOut 0 i = false) := by
  decide

/-- A DMA instruction of an operation. -/
def dmaIns (op : Nat) : IWord := BitVec.ofNat 128 (0xC + op * 2 ^ 40)

/-- Frond 0 about to run a DMA operation whose descriptor has the flags `fl`; job 1 is of partition 0. -/
def dmaUp (op : Nat) (fl : Byte) : State := issuedWith (dmaIns op) [0, fl] id

/-- The DMA state with every byte of an index row at 0xFF. -/
def dmaEnd (op : Nat) : State := (dmaUp op 0).wrN (spBase 0) (List.replicate 4 0xFF)

/-- A transfer in flight on channel 15. -/
def dmaFly (us : List DmaUnit) : State := upFrond fun x => { x with dma := [(15, ⟨63, dmaIns 0, us, [], 0, []⟩)] }

set_option maxRecDepth 100000 in
theorem wit_DmaCommands :
    (∀ op ∈ [0, 1, 2, 3, 4], (dmaUp op 0).readyIns 0 63 0xC = some (dmaIns op) ∧ ((dmaUp op 0).frond 0).kernel = some kern ∧
      ((dmaUp op 0).frond 0).freeChannel = some 0 ∧ (dmaF (dmaIns op)).dop = op ∧ (dmaUp op 0).partOn 0 = some 0) ∧
    (dmaOf ((dmaUp 0 0).desc 0 0)).plain = true ∧ (dmaOf ((dmaUp 0 1).desc 0 0)).transpose = true ∧ (dmaOf ((dmaUp 0 2).desc 0 0)).cslot = true ∧
    ((dmaUp 1 0).rdLe (spBase 0) 4 ≠ 0xFFFFFFFF ∧ (dmaEnd 1).rdLe (spBase 0) 4 = 0xFFFFFFFF ∧
      (dmaEnd 1).readyIns 0 63 0xC = some (dmaIns 1) ∧ ((dmaEnd 1).frond 0).kernel = some kern) ∧
    ((dmaUp 3 0).workTake 0 63 (dmaIns 3) 0).2 = false ∧
    (tfind ((dmaFly []).frond 0).dma (15 : Fin 16).val = some ⟨63, dmaIns 0, [], [], 0, []⟩ ∧
      tfind ((dmaFly [⟨0, [1], 0, false, true, none⟩]).frond 0).dma 15 = some ⟨63, dmaIns 0, [⟨0, [1], 0, false, true, none⟩], [], 0, []⟩) := by
  decide

/-- A plain descriptor of one row; the witness moves it from 0x2000 to 0x4000 of main memory. -/
def copyD : DmaD := dmaOf ((dmaUp 0 0).desc 0 0)

set_option maxRecDepth 100000 in
theorem wit_DmaCommands_moves :
    (∀ s ∈ [({ dmaUp 0 0 with allocs := [(5, ⟨0, 0, 0, 0x100000, 0, 0, 0⟩)] } : State)],
      MoveOk s 0 0 kern { copyD with len := 1, src := 0x2000, dst := 0x4000 } 0 0) ∧
    (dmaEnd 1).marksIn (spBase 0) 64 = [] ∧
    ((dmaUp 0 0).window = false ∧ (∀ u ∈ [(⟨spBase 0, [1], crcWord [1], false, true, none⟩ : DmaUnit)],
      ((dmaFly [u]).dmaTake 0 15 ⟨63, dmaIns 0, [u], [], 0, []⟩ u []).2 = false)) := by
  refine ⟨?_, by decide, by decide⟩
  unfold MoveOk; decide

/-- The booted device with partition 0 claimed in a mode. -/
def claimedIn (m : DetMode) : State := up.modPart 0 fun x => { x with st := .claimed, mode := m }

theorem wit_MainMemory :
    (((0xEBFFFFFE0 : BitVec 48).toNat / 32 * 32 + 32 * 1 ≤ dramEnd) ∧ up.marksIn ((0xEBFFFFFE0 : BitVec 48).toNat / 32 * 32) (32 * 1) = []) ∧
    ((0xEBFFFFF00 : BitVec 48).toNat % 256 = 0 ∧ (0xEBFFFFF00 : BitVec 48).toNat + 256 ≤ dramEnd) ∧
    ((0xEBFFFFFFF : BitVec 48).toNat % 256 + [(1 : Byte)].length ≤ 256 ∧ (0xEBFFFFFFF : BitVec 48).toNat + [(1 : Byte)].length ≤ dramEnd ∧
      up.marksIn ((0xEBFFFFFFF : BitVec 48).toNat / 256 * 256) 256 = []) ∧
    (tget (fun _ => []) ({ up.setMark 0xEBFFFFFE0 (.ce 3) with dramWb := [(15, [0xEBFFFFFE0])] } : State).dramWb (15 : Fin 16).val = [0xEBFFFFFE0] ∧
      ({ up.setMark 0xEBFFFFFE0 (.ce 3) with dramWb := [(15, [0xEBFFFFFE0])] } : State).wbHeld = false ∧
      ({ up.setMark 0xEBFFFFFE0 (.ce 3) with dramWb := [(15, [0xEBFFFFFE0])] } : State).mark 0xEBFFFFFE0 = .ce 3) ∧
    (({ claimedIn .exact with hot := [31] } : State).exactClaimed = true ∧ (31 : Fin 32).val ∈ ({ claimedIn .exact with hot := [31] } : State).hot ∧
      ({ claimedIn .exact with hot := [31] } : State).window = false) ∧
    up.exactClaimed = false := by
  decide

/-- A refresh window of EXACT: partition 0 in its REFRESH Card. -/
def windowUp : State := (claimedIn .exact).modFrond 0 fun x => { x with card := some 0, cardUse := .refresh }

theorem wit_MainMemory_window : windowUp.window = true ∧ up.window = false ∧ up.dramWait = [] := by decide

/-- A drain's request for the last row. -/
def lastWrite : SpReq := ⟨.drain, 655359, true, 0⟩

/-- Frond 0 with no row reserved, a word to be written back, its whole scratchpad not resident. -/
def spUp : State := ((upFrond fun x => { x with wb := [0x27FFFF8] }).setMark (spBase 0 + 0x27FFFF8) (.ce 2)).setReg (oResbase 0) 655360

theorem wit_ScratchpadBanks :
    ([⟨.vector, 655359, false, 0⟩, lastWrite].all SpReq.ok = true ∧ (spUp.frond 0).zfill = false ∧
      (spUp.spArb 0 [⟨.vector, 0, false, 0⟩]).2.2 = none) ∧
    ((∀ r ∈ [lastWrite], r.unit = lastWrite.unit → r.write = true → r ∈ spServed [lastWrite]) ∧
      64 * lastWrite.row + 64 * 1 ≤ spUp.resByte 0 ∧ 64 * lastWrite.row + 64 ≤ spUp.resByte 0 ∧
      256 * (lastWrite.row / 4) + 256 ≤ spUp.resByte 0 ∧ spUp.reserved 0 = []) ∧
    (∃ r ∈ [lastWrite, ⟨.feeder, 319, false, 0⟩], r.unit = lastWrite.unit ∧ r.write = true ∧ r ∉ spServed [lastWrite, ⟨.feeder, 319, false, 0⟩]) ∧
    ((spUp.frond 0).wb = [0x27FFFF8] ∧ spUp.mark (spBase 0 + 0x27FFFF8) = .ce 2) ∧
    ((spUp.spArb 0 [lastWrite]).2.2 = none ∧ (spUp.spArb 0 [lastWrite]).2.1.reserved 0 = [] ∧
      (spUp.spArb 0 [lastWrite]).2.1.resByte 0 = 64 * 655360) := by
  refine ⟨by decide, ?_, ⟨lastWrite, by decide⟩, by decide, ?_⟩
  · decide
  · decide

/-- A row that a read lost to a write. -/
def heldRow : HeldRow := ⟨.vector, 0, [7]⟩

theorem wit_ScratchpadBanks_reads :
    (spUp.frond 0).heldRows = [] ∧ (∀ r ∈ [(⟨.vector, 655359, false, 0⟩ : SpReq), ⟨.vector, 0, false, 0⟩], spUp.spFilling 0 r.row = false) ∧
    (∀ s ∈ [upFrond fun x => { x with heldRows := [heldRow] }], (s.frond 0).heldRows = [heldRow] ∧ heldRow.unit = .vector ∧
      s.spFilling 0 0 = false ∧ SpReq.ok ⟨.vector, 0, false, 0⟩ = true) ∧
    ((spUp.holdRows 0 [655359] []).resByte 0 = 64 * 655360 ∧ (spUp.holdRows 0 [655359] []).reserved 0 = []) := by
  decide

theorem wit_MatAndInit :
    ([⟨.rhizoid, 0xFFFFC0, .read⟩].all MatReq.ok = true ∧ up.sys.zfillMat = false) ∧
    (MatReq.ok ⟨.frond 3 63, 0xFFFFFF, .write [1]⟩ = true) ∧
    (({ up.setMark (matBase + 0xFFFFF8) (.ce 1) with matWb := [0xFFFFF8] } : State).matWb.find? (fun a => decide (matBank a = (63 : Fin 64).val)) =
        some 0xFFFFF8 ∧ ({ up.setMark (matBase + 0xFFFFF8) (.ce 1) with matWb := [0xFFFFF8] } : State).mark (matBase + 0xFFFFF8) = .ce 1) ∧
    (((upFrond fun x => { x with restore := true }).frond 0).restore = true) ∧
    ((up.frond 0).kernel = none ∧ (0x80000000 : Word).getLsbD 31 = true ∧
      up.marksIn (spBase 0 + 64 * ((0x80000000 : Word).toNat % 2048 * 320 + (319 : Fin 320).val)) 64 = []) ∧
    (((issued 0 id).frond 0).kernel = some kern) ∧
    ((655360 : Word).toNat % 2 ^ 20 % 4 = 0 ∧ (655360 : Word).toNat % 2 ^ 20 ≤ 655360 ∧ 655360 < (655361 : Word).toNat % 2 ^ 20) := by
  decide

/-- The Mat with its zero-fill running, and with allocation 6 over its first 64 KiB. -/
def matFill : State := { up with sys := { up.sys with zfillMat := true } }
def matAlloc : State := { up with allocs := [(6, ⟨0, 1, matBase, 65536, 0, 0, 0⟩)] }

theorem wit_MatAndInit_rest :
    (matFill.sys.zfillMat = true ∧ MatReq.ok ⟨.rhizoid, 0, .read⟩ = true ∧ up.matHeld = [] ∧ MatReq.ok ⟨.rhizoid, 0xFFFFFF, .writeBlock [] 0⟩ = true) ∧
    (up.matCover (matBase + matRowOff (63 : Fin 64).val 4095) = none ∧
      (matAlloc.matCover (matBase + matRowOff (0 : Fin 64).val 0)).map (·.1) = some 6) ∧
    (∀ s ∈ [((upFrond id).setMark (spBase 0) .ue).setReg (oResbase 0) 4], (∃ e ∈ s.marksIn (spBase 0) 64, e.2 = .ue) ∧ 0 < s.resByte 0) := by
  decide

/-- A Frond register, a Fault Collector register and a register seen through a window. -/
theorem wit_RegisterCommands :
    (up.dbg.halted.contains 4 = false) ∧
    ((regSpec (oFrd 3 0x30)).isSome = true ∧ up.outerWindow none (oFrd 3 0x30) = none ∧ up.pinWindow (oFrd 3 0x30) = none) ∧
    ((regSpec (oFcol 4)).isSome = true ∧ up.outerWindow none (oFcol 4) = none ∧ up.pinWindow (oFcol 4) = none ∧ inFrond (oFcol 4) = none ∧
      arr 0x04F01000 4 1024 (oFcol 4) = none ∧ oFcol 4 ≠ oTime 0x14 ∧ oFcol 4 ≠ oFcol 0xC ∧ oFcol 4 ≠ oPwr 0x20 ∧
      arr (oTime 0x100) 0x20 8 (oFcol 4) = none ∧ arr (oFcol 0x200) 4 32 (oFcol 4) = none ∧ arr (oFcol 0x300) 4 32 (oFcol 4) = none ∧
      (BitVec.ofNat 28 (oFcol 4)).toNat = oFcol 4) ∧
    (({ up with dbg := { up.dbg with level := 2 } } : State).dbg.level = 2) ∧ up.dbg.level ≠ 2 ∧
    ((up.outerWindow none 0x02C00030).isSome = true ∧ isReg 0x02C00030 = true ∧ noRegWrite 0x02C00030 = false) ∧
    (25 ≤ (27 : Word).toNat % 256 ∧ (27 : Word).toNat % 256 ≤ 27) ∧ (25 ≤ (25 : Word).toNat % 256) := by
  decide

theorem wit_RegisterCommands_windows :
    ((∀ c x, inStream (oFcol 4) = some (c, x) → x ≠ 0) ∧ up.noRegRead 0 0x02C00030 = false ∧ up.frondOff 0 0x02C00030 = false) ∧
    (claimedIn .exact).noRegRead 0 (oFrd 3 0x30) = true := by
  refine ⟨⟨?_, by decide, by decide⟩, by decide⟩
  intro c x h; simp [show inStream (oFcol 4) = none by decide] at h

/-! Ebwick. Port 0 has a session and holds partition 0 with the management role; ring 0 is an SQ whose CQ is ring 1. -/

/-- An ownership entry that gives partition 0 everything. -/
def owner0 : Owned :=
  { fronds := 0xF, claim := 0xF, mgmt := 0xF, dram := 64, dramMax := 60000, mat := 64, matMax := 255, time := 1000, timeMax := 100000,
    policy := .continue, hb := 8, cap := 0, trigs := 0xFF, macs := 0xFF, signing := false }

/-- Bytes of memory from their (address, value) pairs. -/
def cells (base : Nat) (l : List (Nat × Nat)) : List (Nat × Byte) := l.map fun e => (base + e.1, BitVec.ofNat 8 e.2)

/-- A program object of one kernel with one queue that holds END. -/
def objCells : List (Nat × Nat) := [(0, 67), (1, 80), (2, 82), (3, 71), (4, 3), (6, 1), (8, 128), (16, 64), (60, 241), (61, 19), (62, 107),
  (63, 243), (64, 1), (72, 96), (96, 2), (100, 16), (104, 112), (112, 63)]

/-- A Deck image: a JOB Card on Frond 0 and a SELFTEST Card on each Frond. -/
def deckCells : List (Nat × Nat) := [(0, 67), (1, 68), (2, 67), (3, 75), (4, 1), (12, 5), (60, 188), (61, 83), (62, 104), (63, 171), (64, 1),
  (66, 3), (72, 16), (73, 39), (76, 136), (77, 19), (96, 3), (99, 255), (100, 16), (101, 39), (104, 4), (105, 1), (108, 100), (128, 3),
  (129, 1), (131, 255), (132, 16), (133, 39), (136, 4), (137, 1), (140, 100), (160, 3), (161, 2), (163, 255), (164, 16), (165, 39),
  (168, 4), (169, 1), (172, 100), (192, 3), (193, 3), (195, 255), (196, 16), (197, 39), (200, 4), (201, 1), (204, 100)]

/-- An exchange area of one Trick entry. -/
def areaCells : List (Nat × Nat) := [(0, 67), (1, 84), (2, 82), (3, 75), (4, 1), (6, 1), (8, 9), (60, 178), (61, 45), (62, 31), (63, 209),
  (65, 16), (69, 1), (75, 1)]

/-- The device with its owner, allocations 5 (DRAM) and 6 (Mat) of partition 0 with an object, a Deck image and an exchange area, and its
port 0 changed. -/
def device (g : Port → Port) : State :=
  { (upPort g).modPart 0 fun x => { x with st := .claimed, port := 0, mgmt := true, dramQ := 64, matQ := 64, timeNext := 100000, mode := .relaxed } with
    nor := { up.nor with ownerTable := [owner0] }
    nextId := 20
    allocs := [(5, ⟨0, 0, 0, 0x100000, 0, 0, 0⟩), (6, ⟨0, 1, matBase, 65536, 0, 0, 0⟩)]
    mem := cells 0 objCells ++ cells 0x1000 deckCells ++ cells matBase areaCells }

/-- A command of partition 0. -/
def cmd (opc : Nat) (pl : List Byte) : Taken := ⟨opc, 7, 0, 0, 0, pl⟩

/-- The SQ and its CQ, with `t` taken from the SQ. -/
def ringsWith (t : Taken) : List (Nat × Ring) :=
  [(0, { Ring.armed 0x20000 1 1 0xFF 1 1 with taken := [t] }), (1, { Ring.armed 0x21000 1 2 0 0 1 with promises := [(0, 4096)] })]

/-- The device with a session open and a command taken. -/
def host (t : Taken) : State := device fun x => { x with session := some ⟨4, 1⟩, rings := ringsWith t, ready := true, filled := true }

/-- `Passes` as a check. -/
def passesB (s : State) (p : Fin 4) (d opc : Nat) (a : Auth) (t : Taken) : Bool :=
  decide (s.takenAt p d = some t ∧ t.opc = opc) && (layOf opc t.payload).any (fun l => t.wellFormed l) && (s.beforeCmd p t).verOk p t
    && (s.beforeCmd p t).devOk p opc && (s.beforeCmd p t).authOk p d t a && !s.fcol.safe && !s.dbg.halted.contains 4

theorem passes_of_passesB {s : State} {p : Fin 4} {d opc : Nat} {a : Auth} {t : Taken} (h : passesB s p d opc a t = true) :
    Passes s p d opc a t (s.beforeCmd p t) := by
  simp only [passesB, Bool.and_eq_true, decide_eq_true_eq, Option.any_eq_true, Bool.not_eq_true'] at h
  obtain ⟨⟨⟨⟨⟨⟨⟨h1, h2⟩, l, h3, h4⟩, h5⟩, h6⟩, h7⟩, h8⟩, h9⟩ := h
  exact ⟨h1, h2, ⟨l, h3, h4⟩, rfl, h5, h6, h7, h8, h9⟩

/-- Commands with their authority. HELLO has its own device below. -/
def cmds : List (Auth × Taken) :=
  [(.session, cmd 0x0002 []), (.session, cmd 0x0011 [1]), (.mgmt, cmd 0x0012 (List.replicate 4 0 ++ leBytes 4 100 ++ leBytes 4 255 ++ leBytes 4 0xFFFFFFFF)),
   (.claimed, cmd 0x0018 (leBytes 8 65536 ++ List.replicate 12 0)), (.claimed, cmd 0x0019 [6, 0, 0, 0]),
   (.claimed, cmd 0x001A ([3, 1, 0, 0] ++ leBytes 4 5 ++ leBytes 8 0xFFF00)), (.claimed, cmd 0x001B ([3, 0, 0, 0] ++ leBytes 4 0 ++ leBytes 4 256)),
   (.claimed, cmd 0x001C ([3, 0, 0, 0] ++ leBytes 4 0 ++ leBytes 4 256)), (.claimed, cmd 0x0020 (leBytes 8 5 ++ leBytes 8 0 ++ leBytes 4 128)),
   (.claimed, cmd 0x0021 [7, 0, 0, 0]), (.claimed, cmd 0x0029 (leBytes 8 1)), (.claimed, cmd 0x0030 (leBytes 8 5 ++ leBytes 8 0x1000 ++ leBytes 4 224 ++ [1])),
   (.claimed, cmd 0x0031 [1]), (.claimed, cmd 0x0032 [5, 0, 0, 0]), (.claimed, cmd 0x0033 [0]), (.claimed, cmd 0x0033 [1]), (.claimed, cmd 0x0033 [2]),
   (.claimed, cmd 0x0048 (leBytes 4 6 ++ [3, 15, 0, 0] ++ leBytes 4 0)), (.claimed, cmd 0x0049 [9, 0, 0, 0]),
   (.claimed, cmd 0x0070 (leBytes 8 (regBase + oFcol 4) ++ [16])), (.claimed, cmd 0x0071 (leBytes 8 (regBase + oFrd 3 0x30) ++ leBytes 4 5)),
   (.claimed, cmd 0x0040 ([3, 16, 1, 0, 0, 0, 0, 0] ++ leBytes 8 64)), (.claimed, cmd 0x0041 (leBytes 8 9 ++ leBytes 8 64)),
   (.claimed, cmd 0x0042 (leBytes 4 9 ++ [0, 0, 0, 0] ++ leBytes 8 64)), (.claimed, cmd 0x0042 (leBytes 4 9 ++ [1, 0, 0, 0] ++ leBytes 8 64)),
   (.claimed, cmd 0x0043 [9, 0, 0, 0]), (.claimed, cmd 0x0038 (List.replicate 44 0)), (.claimed, cmd 0x0039 [95]), (.claimed, cmd 0x003A [95]),
   (.claimed, cmd 0x0050 (List.replicate 76 0 ++ List.replicate 16 0xFF)), (.claimed, cmd 0x0051 []), (.claimed, cmd 0x0052 []),
   (.claimed, cmd 0x0058 []), (.mgmt, cmd 0x0059 (leBytes 8 (27 * 2 ^ 32))), (.mgmt, cmd 0x005A (leBytes 8 1)),
   (.claimed, cmd 0x005B ([0, 7, 1, 0] ++ leBytes 10 0 ++ leBytes 2 60 ++ List.replicate 76 0)),
   (.claimed, cmd 0x005B ([1, 7, 3, 0] ++ leBytes 16 0 ++ leBytes 4 1 ++ leBytes 4 0)), (.session, cmd 0x0060 [0, 0, 0, 0, 15]),
   (.session, cmd 0x0061 [3, 0, 0, 0]), (.mgmt, cmd 0x0062 [0xC7, 3, 0]), (.mgmt, cmd 0x0062 [0xC7, 3, 1]), (.mgmt, cmd 0x0062 [0xC7, 3, 2]),
   (.mgmt, cmd 0x0063 [0, 0, 63, 0]), (.mgmt, cmd 0x0063 [1, 0, 63, 0]), (.mgmt, cmd 0x0063 [2, 0, 63, 0]), (.mgmt, cmd 0x0063 [3, 0, 63, 0]),
   (.mgmt, cmd 0x0064 (leBytes 8 5 ++ leBytes 8 0x2000 ++ leBytes 4 128)), (.session, cmd 0x0065 [0xFF, 0xFF]),
   (.session, cmd 0x0068 (List.replicate 32 7 ++ [0x17])), (.mgmt, cmd 0x0069 [2, 1]), (.mgmt, cmd 0x006A []), (.mgmt, cmd 0x006A (List.replicate 64 1)),
   (.mgmt, cmd 0x0078 (leBytes 4 5 ++ leBytes 4 0 ++ leBytes 8 0 ++ leBytes 4 256))]

/-- Each command passes the checks 1 to 4 of R475 on its device. -/
theorem wit_Passes : ∀ e ∈ cmds, Passes (host e.2) 0 0 e.2.opc e.1 e.2 ((host e.2).beforeCmd 0 e.2) := by
  set_option maxRecDepth 100000 in
  have h : ∀ e ∈ cmds, passesB (host e.2) 0 0 e.2.opc e.1 e.2 = true := by decide
  exact fun e he => passes_of_passesB (h e he)

/-- The state on which a command is handled. -/
def hosted (t : Taken) : State := (host t).beforeCmd 0 t

/-- HELLO on a port without a session. -/
def helloCmd : Taken := cmd 0x0001 ([0, 1, 4, 1] ++ leBytes 4 7)
/-- Port 0 without a session, HELLO taken. -/
def helloUp : State := device fun x => { x with rings := [(0, { Ring.armed 0x20000 1 1 0xFF 1 1 with taken := [helloCmd] })] }
/-- A claim of partition 0 in STRICT with the management role. -/
def claimCmd : Taken := cmd 0x0010 ([1, 1, 1, 0] ++ List.replicate 32 0)
/-- Partition 0 unclaimed, the claim taken. -/
def claimUp : State := (host claimCmd).modPart 0 fun _ => Part.reset

set_option maxRecDepth 100000 in
theorem wit_EbwickSessions_claim : Passes claimUp 0 0 0x0010 .session claimCmd (claimUp.beforeCmd 0 claimCmd) ∧
    (claimUp.beforeCmd 0 claimCmd).claimable claimCmd = true ∧ ((claimUp.beforeCmd 0 claimCmd).doClaim 0 claimCmd).st = .ok := by
  exact ⟨passes_of_passesB (by decide), by decide, by decide⟩

theorem wit_EbwickSessions_hello : Passes helloUp 0 0 0x0001 .session helloCmd (helloUp.beforeCmd 0 helloCmd) ∧
    chooseVersion (fld helloCmd.payload 1 1 * 256 + fld helloCmd.payload 0 1) (fld helloCmd.payload 3 1 * 256 + fld helloCmd.payload 2 1) =
      some 0x104 := by
  exact ⟨passes_of_passesB (by decide), by decide⟩

/-- QUOTA_SET. -/
def quotaCmd : Taken := cmd 0x0012 (List.replicate 4 0 ++ leBytes 4 100 ++ leBytes 4 255 ++ leBytes 4 0xFFFFFFFF)
/-- REG_READ of 16 registers of the Fault Collector. -/
def readCmd : Taken := cmd 0x0070 (leBytes 8 (regBase + oFcol 0x200) ++ [16])
/-- REG_WRITE of FRD_PIN_MASK of Frond 3. -/
def writeCmd : Taken := cmd 0x0071 (leBytes 8 (regBase + oFrd 3 0x30) ++ leBytes 4 5)

set_option maxRecDepth 100000 in
theorem wit_EbwickSessions :
    ((hosted (cmd 0x0011 [1])).releasable (cmd 0x0011 [1]) = true ∧ (hosted (cmd 0x0011 [1])).mayRelease 0 (cmd 0x0011 [1]) = true) ∧
    ((hosted quotaCmd).doQuota quotaCmd).st = .ok ∧
    ((hosted readCmd).regState readCmd 16 = true ∧ regAddrOk (fld readCmd.payload 0 8) 16 = true ∧
      (∀ o ∈ regNames readCmd 16, isReg o = true ∧ (hosted readCmd).noRegRead ((hosted readCmd).cmdPart readCmd) o = false)) ∧
    ((hosted writeCmd).regState writeCmd 1 = true ∧ regAddrOk (fld writeCmd.payload 0 8) 1 = true ∧ isReg (oFrd 3 0x30) = true ∧
      fld writeCmd.payload 0 8 - regBase = oFrd 3 0x30 ∧
      (hosted writeCmd).noRegRead ((hosted writeCmd).cmdPart writeCmd) (oFrd 3 0x30) = false ∧ noRegWrite (oFrd 3 0x30) = false ∧
      (regSpec (unwindow (oFrd 3 0x30))).any (fun g => encOk g (fld writeCmd.payload 8 4)) = true) := by
  decide

/-- MEM_ALLOC of 64 KiB of DRAM. -/
def allocCmd : Taken := cmd 0x0018 (leBytes 8 65536 ++ List.replicate 12 0)
/-- APERTURE_MAP of aperture 3. -/
def mapCmd : Taken := cmd 0x001A ([3, 1, 0, 0] ++ leBytes 4 5 ++ leBytes 8 0xFFF00)
/-- PROG_LOAD of the object. -/
def loadCmd : Taken := cmd 0x0020 (leBytes 8 5 ++ leBytes 8 0 ++ leBytes 4 128)
/-- DECK_LOAD of the Deck image into bank 1. -/
def deckCmd : Taken := cmd 0x0030 (leBytes 8 5 ++ leBytes 8 0x1000 ++ leBytes 4 224 ++ [1])

set_option maxRecDepth 100000 in
theorem wit_EbwickWork_alloc : ((hosted allocCmd).doAlloc allocCmd).st = .ok := by
  have h : (hosted allocCmd).fitDram 65536 = some 0x100000 := by
    have e : (hosted allocCmd).dramTaken = [(0, 0x100000)] := by decide
    simp only [State.fitDram, firstFit, e, List.mergeSort_singleton]; decide
  unfold State.doAlloc
  have e1 : fld allocCmd.payload 8 1 = 0 := by decide
  have e2 : cdiv (fld allocCmd.payload 0 8) 65536 * 65536 = 65536 := by decide
  simp only [e1, e2]
  simp only [Nat.reduceEqDiff, ↓reduceIte, decide_false, Bool.false_eq_true, h, Option.isSome]
  decide

/-- Bank that the Deck image gives. -/
def deckBank : Bank := ⟨16666, ⟨1, 0, 3, 0, 10000, 5000, 0, 0⟩ :: (List.range 4).map fun f => ⟨3, f, 0, 10000, 260, 100, 0, 0⟩⟩
theorem deckBank_work : deckBank.workTime = 10000 := by
  have e : (deckBank.cards.filter fun c => decide (c.kind = 1 ∨ c.kind = 2)) = [⟨1, 0, 3, 0, 10000, 5000, 0, 0⟩] := by decide
  simp only [Bank.workTime, Bank.budgeted, e, List.mergeSort_singleton]; decide

set_option maxRecDepth 100000 in
theorem wit_EbwickWork_deck : ((hosted deckCmd).doDeckLoad deckCmd).st = .ok := by
  have h1 : (hosted deckCmd).allocOf ((hosted deckCmd).cmdPart deckCmd) (fld deckCmd.payload 0 4) = some ⟨0, 0, 0, 0x100000, 0, 0, 0⟩ := by decide
  have h2 : fld deckCmd.payload 20 1 ≤ 1 ∧ 64 ≤ fld deckCmd.payload 16 4 ∧ fld deckCmd.payload 8 8 + fld deckCmd.payload 16 4 ≤ 0x100000 := by decide
  have h3 : deckHeaderOk ((hosted deckCmd).rdN (0 + fld deckCmd.payload 8 8) (fld deckCmd.payload 16 4)) (fld deckCmd.payload 16 4)
    ((hosted deckCmd).cmdPart deckCmd) = true := by decide
  have h4 : (hosted deckCmd).badCard ((hosted deckCmd).cmdPart deckCmd) ((hosted deckCmd).rdN (0 + fld deckCmd.payload 8 8) (fld deckCmd.payload 16 4)) = none := by decide
  have h5 : (⟨roundOf ((hosted deckCmd).rdN (0 + fld deckCmd.payload 8 8) (fld deckCmd.payload 16 4)), (List.range (fld ((hosted deckCmd).rdN (0 + fld deckCmd.payload 8 8) (fld deckCmd.payload 16 4)) 12 2)).map fun i =>
      cardOf (slice ((hosted deckCmd).rdN (0 + fld deckCmd.payload 8 8) (fld deckCmd.payload 16 4)) (64 + 32 * i) 32)⟩ : Bank) = deckBank := by decide
  have h6 : ¬((hosted deckCmd).part ((hosted deckCmd).cmdPart deckCmd)).timeNext < 10000 := by decide
  have h7 : ((hosted deckCmd).part ((hosted deckCmd).cmdPart deckCmd)).active = none := by decide
  unfold State.doDeckLoad
  simp only [h1, if_pos h2, h3, h4, h5, deckBank_work, if_neg h6, h7, if_true, reduceCtorEq, if_false]
set_option maxRecDepth 100000 in
theorem wit_EbwickWork_map : ((hosted mapCmd).doMap 0 mapCmd).st = .ok := by decide

set_option maxRecDepth 100000 in
theorem wit_EbwickWork_load : ((hosted loadCmd).doProgLoad loadCmd).st = .ok := by decide

/-- FILL and FLUSH of one block of aperture 3, mapped at the end of allocation 5. -/
def fillCmd (opc : Nat) : Taken := cmd opc ([3, 0, 0, 0] ++ leBytes 4 0 ++ leBytes 4 256)
/-- The device with aperture 3 mapped. -/
def mapped (t : Taken) : State := (hosted t).modPort 0 fun x => { x with apers := [(3, ⟨5, 0xFFF00, true⟩)] }
/-- JOB_SUBMIT of program 7 on completion ring 1. -/
def submitCmd : Taken := cmd 0x0028 (leBytes 4 7 ++ [0, 3, 0, 0] ++ leBytes 8 1 ++ List.replicate 16 0 ++ List.replicate 8 0xFF ++ List.replicate 8 0)
/-- The device with a program that has no kernel left to check, bank 1 in force. -/
def submitUp : State := { (hosted submitCmd).modPart 0 fun x => { x with bank0 := some deckBank, bank1 := some deckBank, active := some 0 } with
  progs := [(7, prog [])] }
/-- GROUP_FORM over modules 0 and 1. -/
def formCmd : Taken := cmd 0x0048 (leBytes 4 6 ++ [3, 15, 0, 0] ++ leBytes 4 0)
/-- The device whose exchange area has its check word. -/
def formUp : State := (hosted formCmd).setBcw matBase (crcWord ((hosted formCmd).block matBase))
/-- A group of partition 0 on allocation 6. -/
def grp : Group := ⟨9, 6, 0, 3, 15, false, 1000, 1, 0, []⟩

set_option maxRecDepth 100000 in
theorem wit_EbwickWork :
    ((∀ c ∈ [0x001B, 0x001C], (mapped (fillCmd c)).aperMapped 0 (fillCmd c) = true) ∧ ((mapped (fillCmd 0x001B)).doFill 0 (fillCmd 0x001B)).st = .ok ∧
      ((mapped (fillCmd 0x001C)).doFlush 0 (fillCmd 0x001C)).st = .ok) ∧
    ((submitUp).doSubmit 0 submitCmd).st = .ok ∧
    ((hosted (cmd 0x0019 [6, 0, 0, 0])).allocOf 0 6 = some ⟨0, 1, matBase, 65536, 0, 0, 0⟩ ∧
      (hosted (cmd 0x0019 [6, 0, 0, 0])).inUse 6 ⟨0, 1, matBase, 65536, 0, 0, 0⟩ = false ∧ (hosted (cmd 0x0019 [6, 0, 0, 0])).groups = []) ∧
    (submitUp.progOfPart 0 7 = some (prog []) ∧ submitUp.jobs = []) ∧
    (({ hosted (cmd 0x0029 (leBytes 8 1)) with jobs := [(1, job)] } : State).jobOf 0 1 = some job) ∧
    (submitUp.bankLoaded (cmd 0x0031 [1]) = true ∧ (submitUp.part 0).bank (bankSel 1) = some deckBank ∧ (submitUp.part 0).active ≠ some (bankSel 1)) ∧
    (({ hosted (cmd 0x0049 [6, 0, 0, 0]) with groups := [grp] } : State).groupAt 0 6 = some grp) := by
  decide

set_option maxRecDepth 100000 in
theorem wit_EbwickWork_form : (formUp.doGroupForm formCmd).st = .ok := by
  have h1 : tfind formUp.allocs (fld formCmd.payload 0 4) = some ⟨0, 1, matBase, 65536, 0, 0, 0⟩ := by decide
  have h2 : formUp.blockOk matBase = true := blockOk_fresh _ _
  unfold State.doGroupForm
  simp only [h1, h2]
  decide

/-- The devices of the witnesses above take their commands. -/
theorem wit_EbwickWork_passes : passesB submitUp 0 0 0x0028 .claimed submitCmd = true ∧ passesB formUp 0 0 0x0048 .claimed formCmd = true ∧
    (∀ c ∈ [0x001B, 0x001C], passesB (mapped (fillCmd c)) 0 0 c .claimed (fillCmd c) = true) := by
  decide

/-- A sequence of partition 0 in pool 0: one span of two pages. -/
def seq0 : Seq := { part := 0, pool := 0, nhg := 1, hot := false, gen := 1, basePos := 0, len := 64, spans := [[(0, 1)]], retired := false }
/-- The device with a pool and a sequence. -/
def seqUp (t : Taken) : State := { hosted t with pools := [(0, ⟨8, 32, 0, 0, 64, [(0, ⟨1, false⟩), (1, ⟨1, false⟩)], []⟩), (3, ⟨8, 32, 0, 0, 64, [], []⟩)],
                                                 seqs := [(9, seq0)] }
/-- Commands on sequences. -/
def seqCmds : List Taken := [cmd 0x0040 ([3, 16, 1, 0, 0, 0, 0, 0] ++ leBytes 8 64), cmd 0x0041 (leBytes 8 9 ++ leBytes 8 64),
  cmd 0x0042 (leBytes 4 9 ++ [0, 0, 0, 0] ++ leBytes 8 64), cmd 0x0042 (leBytes 4 9 ++ [1, 0, 0, 0] ++ leBytes 8 64), cmd 0x0043 [9, 0, 0, 0]]

set_option maxRecDepth 100000 in
theorem wit_EbwickSequences : (∀ t ∈ seqCmds, passesB (seqUp t) 0 0 t.opc .claimed t = true) ∧
    (∀ t ∈ seqCmds, (tfind (seqUp t).pools (poolKey 0 3)).isSome = true ∧ (seqUp t).seqRoom 0 = true ∧ (seqUp t).seqOf 0 9 = some seq0 ∧
      asPart t.part = some 0 ∧ (seqUp t).cmdPart t = 0) ∧
    (seq0.retired = false ∧ seq0.basePos + 64 ≤ seq0.len ∧ seq0.gen.toNat ≠ 0xFFFFFFFF ∧ seq0.basePos ≤ 64 ∧ 64 ≤ seq0.len) ∧
    (∀ i ∈ spanPages (seq0.prefix 64), ((seqUp (cmd 0x0041 [])).pageOf seq0.pool i).taint = false ∧
      ((seqUp (cmd 0x0041 [])).pageOf seq0.pool i).count < 65535) := by
  decide

/-- STREAM_CONFIG of context 95 as AUX on ring 2. -/
def auxCmd : Taken := cmd 0x0038 ([95, 3, 2, 0, 0, 0, 0, 3] ++ [0, 0, 0, 0, 1, 0, 2, 0, 3, 0, 1, 0] ++ leBytes 4 0 ++ leBytes 4 5 ++ [1, 0, 0, 0] ++
  List.replicate 12 0)
/-- The device whose directory entry 2 is an SQ of partition 0. -/
def auxUp : State := { hosted auxCmd with mem := (hosted auxCmd).mem ++ [(sramBase 0 + 0x10000 + 38, 1)] }
/-- Context 95 an AUX context of partition 0 on ring 0, started or not. -/
def ctxUp (on_ : Nat) (t : Taken) : State := ((hosted t).setStream 95 { Stream.reset with owner := some 0 }).setReg (oStrm 95 0) (BitVec.ofNat 32 (on_ * 2 ^ 31 + 3 * 2 ^ 28))
/-- A training image of one sample. -/
def imgCells : List (Nat × Nat) := [(0, 67), (1, 82), (2, 83), (3, 49), (4, 1), (8, 1), (16, 64), (24, 80), (32, 80), (40, 234), (41, 154), (42, 112), (43, 66),
  (60, 24), (61, 217), (62, 45), (63, 164)]
/-- The Dealer's configuration of the commands. -/
def dealCfg : DealerCfg := { dealerCfgOf 0 (List.replicate 76 0 ++ List.replicate 16 0xFF) with base := 0x2000, len := 80 }
/-- The device with its Dealer configured on the image. -/
def dealUp (run : Bool) (t : Taken) : State := { hosted t with mem := cells 0x2000 imgCells, dealer := { Dealer.reset with cfg := some dealCfg, run := run } }

set_option maxRecDepth 100000 in
theorem wit_EbwickStreams :
    (passesB auxUp 0 0 0x0038 .claimed auxCmd = true ∧ auxUp.streamIdle auxCmd = true ∧ (auxUp.doStreamConfig 0 auxCmd).st = .ok) ∧
    (passesB (ctxUp 0 (cmd 0x0039 [95])) 0 0 0x0039 .claimed (cmd 0x0039 [95]) = true ∧ ((ctxUp 0 (cmd 0x0039 [95])).stream 95).owner = some 0 ∧
      (ctxUp 0 (cmd 0x0039 [95])).strmOn 95 = false ∧ (ctxUp 0 (cmd 0x0039 [95])).strmKind 95 = 3 ∧
      ((ctxUp 0 (cmd 0x0039 [95])).ring 0 ((ctxUp 0 (cmd 0x0039 [95])).auxRing 95)).isSome = true ∧ (ctxUp 0 (cmd 0x0039 [95])).pipeFits 95 = true) ∧
    (passesB (ctxUp 1 (cmd 0x003A [95])) 0 0 0x003A .claimed (cmd 0x003A [95]) = true ∧ ((ctxUp 1 (cmd 0x003A [95])).stream 95).owner = some 0 ∧
      (ctxUp 1 (cmd 0x003A [95])).strmOn 95 = true) ∧
    ((hosted (cmd 0x0050 [])).dealer.run = false ∧ (hosted (cmd 0x0050 [])).dealerChans (dealerCfgOf 0 (List.replicate 76 0 ++ List.replicate 16 0xFF)) = true ∧
      (hosted (cmd 0x0050 [])).dealerCfgOk (List.replicate 76 0 ++ List.replicate 16 0xFF) (dealerCfgOf 0 (List.replicate 76 0 ++ List.replicate 16 0xFF)) = true) ∧
    (passesB (dealUp false (cmd 0x0051 [])) 0 0 0x0051 .claimed (cmd 0x0051 []) = true ∧ (dealUp false (cmd 0x0051 [])).dealer.run = false ∧
      dealCfg.part = 0 ∧ (dealUp false (cmd 0x0051 [])).imageOk dealCfg = true) ∧
    (passesB (dealUp true (cmd 0x0052 [])) 0 0 0x0052 .claimed (cmd 0x0052 []) = true ∧ (dealUp true (cmd 0x0052 [])).dealer.run = true ∧
      (dealUp true (cmd 0x0052 [])).dealer.cfg = some dealCfg) := by
  decide

/-- LAUNCH_SET of a 60-byte frame on MAC 7, for time 0. -/
def frameCmd : Taken := cmd 0x005B ([0, 7, 1, 0] ++ leBytes 10 0 ++ leBytes 2 60 ++ List.replicate 76 0)
/-- LAUNCH_SET of trigger 7. -/
def trigCmd : Taken := cmd 0x005B ([1, 7, 3, 0] ++ leBytes 16 0 ++ leBytes 4 1 ++ leBytes 4 0)

set_option maxRecDepth 100000 in
theorem wit_EbwickTime :
    (∀ v ∈ [25 * 2 ^ 32, 27 * 2 ^ 32], passesB (host (cmd 0x0059 (leBytes 8 v))) 0 0 0x0059 .mgmt (cmd 0x0059 (leBytes 8 v)) = true ∧
      fld (cmd 0x0059 (leBytes 8 v)).payload 0 8 = v) ∧
    (0 ≤ ((hosted (cmd 0x005A (leBytes 8 1))).now : Int) + sext 64 (fld (cmd 0x005A (leBytes 8 1)).payload 0 8) ∧
      (hosted (cmd 0x005A (leBytes 8 1))).time.stepPend = none) ∧
    (fld frameCmd.payload 14 2 = 60 ∧ (hosted frameCmd).assigned frameCmd (·.macs) 7 = true ∧ fld frameCmd.payload 4 4 < 1000000000 ∧
      zerosAt frameCmd.payload 16 12 = true ∧ ((tfind (hosted frameCmd).time.launch 7).getD []).length < 16) ∧
    ((hosted trigCmd).assigned trigCmd (·.trigs) 7 = true ∧ fld trigCmd.payload 2 1 ≤ 3 ∧ fld trigCmd.payload 14 2 = 0 ∧
      fld trigCmd.payload 20 4 ≠ 0 ∧ fld trigCmd.payload 16 4 = 0) := by
  decide

set_option maxRecDepth 100000 in
theorem wit_mgmtCmd : (∀ t ∈ [cmd 0x0059 (leBytes 8 (25 * 2 ^ 32)), cmd 0x005A (leBytes 8 1)], (hosted t).mgmtCmd 0 t = true) ∧
    (∀ t ∈ [{ cmd 0x0059 (leBytes 8 (25 * 2 ^ 32)) with part := 1 }, { cmd 0x005A (leBytes 8 1) with part := 1 }],
      (hosted t).mgmtCmd 0 t = false ∧ (hosted t).isMgmt 0 = true ∧ (hosted t).partFits 0 0 t = true) := by
  decide

/-- A record of class U that is not acknowledged. -/
def rec3 : FaultRec := ⟨3, 1, false, false, 8, 6, 0, 0, 0, 0, 0, 0, 0, 0, 0, 0, 1, 0, 0, 0, false⟩

set_option maxRecDepth 100000 in
theorem wit_EbwickHealth :
    ((({ hosted (cmd 0x0061 [3, 0, 0, 0]) with fcol := { up.fcol with ring := [rec3] } } : State).faultRec 3 = some rec3) ∧ rec3.cls ≠ 0 ∧
      rec3.acked = false ∧ (hosted (cmd 0x0061 [3, 0, 0, 0])).isMgmt 0 = true) ∧
    (srcPresent (fld [0xC7, 3, 0] 0 2) = true ∧ fld [0xC7, 3, 0] 0 2 = 967) ∧
    (fld [3, 0, 63, 0] 2 2 < 64) := by
  decide

/-- A signed test pack is the one form whose check, SM2, is an open value of Config: where it holds, the other conditions can. -/
theorem wit_EbwickHealth_pack (k : Config.sm3 (beBytes 64 Config.vendorTableKey.toNat) ≠ 0) :
    ({ up with otp := { up.otp with vendorPkh := [Config.sm3 (beBytes 64 Config.vendorTableKey.toNat)] } } : State).vendorUsable
      Config.vendorTableKey = true := by
  simp [State.vendorUsable, List.any_eq_true]
  exact ⟨0, by decide, ⟨by decide, by simpa using k⟩, by simp⟩

/-- FW_STAGE of 8 bytes of aperture 0. -/
def stageCmd : Taken := cmd 0x0078 (leBytes 4 0xFFFFFFFF ++ leBytes 4 0 ++ leBytes 8 0xFFFF8 ++ leBytes 4 8)
/-- The device in lifecycle 1, where the vendor's key opens any level. -/
def provUp (t : Taken) : State := { hosted t with otp := { up.otp with lifecycle := 1 } }

set_option maxRecDepth 100000 in
theorem wit_EbwickSecurity :
    ((fld (List.replicate 32 7 ++ [0x17]) 32 1 ≠ 0) ∧ (fld (List.replicate 32 7 ++ [0x17]) 32 1).testBit 3 = false) ∧
    (passesB (provUp (cmd 0x0069 [2, 0])) 0 0 0x0069 .mgmt (cmd 0x0069 [2, 0]) = true ∧ (provUp (cmd 0x0069 [2, 0])).dbg.chal = none ∧
      (provUp (cmd 0x0069 [2, 0])).dbg.lockout = false ∧ (provUp (cmd 0x0069 [2, 0])).debugKeyOk 2 0 = true) ∧
    (({ up with dbg := { up.dbg with chal := some (2, 0, 0, false), fails := 2 } } : State).dbg.chal.isSome = true) ∧
    (passesB (host stageCmd) 0 0 0x0078 .mgmt stageCmd = true ∧ (hosted stageCmd).sys.dramBad = 0 ∧ (hosted stageCmd).partStaged = false ∧ fld stageCmd.payload 16 4 = 8 ∧
      (hosted stageCmd).stageSource 0 (fld stageCmd.payload 0 4) (fld stageCmd.payload 8 8) 8 = some (aper0 0 + 0xFFFF8) ∧
      (((hosted stageCmd).reportRead Who.firmware (aper0 0 + 0xFFFF8) 8).appendStage 0 ((hosted stageCmd).rdN (aper0 0 + 0xFFFF8) 8)).st = .ok) := by
  decide

/-- FW_COMMIT with the digest of what is staged. -/
def commitCmd : Taken := cmd 0x0079 (digestBytes (Config.sm3 [1]))
/-- An object of one byte verified and staged (its digest is an open value of Config). -/
def commitUp : State := { host commitCmd with sys := { up.sys with stage := [1], stageOk := true } }

theorem commit_bytes : commitCmd.payload.length = 32 := by
  simp [commitCmd, cmd, digestBytes, beBytes, leBytes]

theorem wit_EbwickSecurity_commit : Passes commitUp 0 0 0x0079 .mgmt commitCmd (commitUp.beforeCmd 0 commitCmd) ∧
    (commitUp.beforeCmd 0 commitCmd).sys.stageOk = true ∧
    commitCmd.payload.take 32 = digestBytes (Config.sm3 (commitUp.beforeCmd 0 commitCmd).sys.stage) := by
  have h : commitUp.beforeCmd 0 commitCmd = commitUp := if_neg (by decide)
  rw [h]
  refine ⟨⟨rfl, rfl, ⟨⟨32, [(0, 32)], 0⟩, rfl, ?_⟩, h.symm, by decide, by decide, by decide, rfl, by decide⟩, rfl, ?_⟩
  · have hz : ∀ e ∈ commitCmd.payload.zipIdx, e.2 < 32 := by
      intro e he
      have := List.snd_lt_of_mem_zipIdx he
      rw [commit_bytes] at this; omega
    simp only [Taken.wellFormed, commit_bytes, Bool.and_eq_true, decide_eq_true_eq, List.all_eq_true, List.any_cons, List.any_nil,
      Bool.or_eq_true, Nat.zero_le, Nat.zero_add, true_and]
    exact ⟨⟨Nat.le_refl _, rfl, rfl⟩, fun e he => Or.inr (Or.inl (hz e he))⟩
  · exact List.take_of_length_le (by rw [commit_bytes])

set_option maxRecDepth 100000 in
theorem wit_EbwickChecksOrder :
    ((host (cmd 0x0059 [1])).takenAt 0 0 = some (cmd 0x0059 [1]) ∧ (layOf 0x0059 [1]).all (fun l => !(cmd 0x0059 [1]).wellFormed l) = true) ∧
    (∀ x ∈ [(host (cmd 0x0064 (List.replicate 20 0))).modPort 0 fun x => { x with session := some ⟨2, 1⟩ }],
      x.takenAt 0 0 = some (cmd 0x0064 (List.replicate 20 0)) ∧ x.verOk 0 (cmd 0x0064 (List.replicate 20 0)) = false ∧
      (layOf 0x0064 (List.replicate 20 0)).all (fun l => (cmd 0x0064 (List.replicate 20 0)).wellFormed l) = true) ∧
    (∀ x ∈ [(host (cmd 0x0058 [])).modPort 0 fun x => { x with session := none }],
      x.takenAt 0 0 = some (cmd 0x0058 []) ∧ x.verOk 0 (cmd 0x0058 []) = true ∧ x.devOk 0 0x0058 = false) ∧
    (∀ x ∈ [(host (cmd 0x005A (leBytes 8 1))).modPart 0 fun x => { x with mgmt := false }],
      x.takenAt 0 0 = some (cmd 0x005A (leBytes 8 1)) ∧ x.verOk 0 (cmd 0x005A (leBytes 8 1)) = true ∧ x.devOk 0 0x005A = true ∧
      x.authOk 0 0 (cmd 0x005A (leBytes 8 1)) .mgmt = false ∧ x.isMgmt 0 = false ∧ x.claimedBy 0 0 = true) := by
  decide

/-- TIME_READ taken. -/
def readTime : Taken := cmd 0x0058 []

set_option maxRecDepth 100000 in
theorem wit_EbwickCompletion : (host readTime).ring 0 0 = some { Ring.armed 0x20000 1 1 0xFF 1 1 with taken := [readTime] } ∧
    (∀ k ∈ (host readTime).ring 0 1, k.agree = true ∧ k.padAt k.tail 48 = 0 ∧ k.used + 48 ≤ k.cap) ∧ ((host readTime).ring 0 1).isSome = true ∧
    48 = 16 * cdiv (16 + 28) 16 ∧ (host readTime).fcol.safe = false := by
  decide

set_option maxRecDepth 100000 in
theorem wit_TimeManagement : (∀ t ∈ [cmd 0x0059 (leBytes 8 (25 * 2 ^ 32)), cmd 0x005A (leBytes 8 1), readTime],
    (hosted t).partFits 0 0 t = true ∧ (hosted t).isMgmt 0 = true ∧ (hosted t).claimedBy 0 t.part = true ∧ (hosted t).time.stepPend = none) ∧
    0 ≤ ((hosted (cmd 0x005A (leBytes 8 1))).now : Int) + sext 64 (fld (cmd 0x005A (leBytes 8 1)).payload 0 8) := by
  decide

/-- An empty frame. -/
def frm : FrameRun := FrameRun.start 1 0 0 (some 0) false
/-- Context 0 started as a camera of port 11 and channel 15 that takes RAW12, with a frame open. -/
def camUp : State := (up.setStream 0 { Stream.reset with owner := some 0, frame := some frm }).setReg (oStrm 0 0)
  (BitVec.ofNat 32 (2 ^ 31 + 2 ^ 28 + 11 * 2 ^ 24 + 15 * 2 ^ 20 + 0x2C * 2 ^ 10))

theorem wit_CameraPackets :
    (up.cameraOf (11 : Fin 12).val (15 : Fin 16).val = none) ∧
    (camUp.cameraOf (11 : Fin 12).val (15 : Fin 16).val = some 0 ∧ camUp.strmSt 0 ≠ 4 ∧ (0x2C : BitVec 6).toNat = bits (camUp.strmCfg 0) 10 6 ∧
      (camUp.stream 0).frame = some frm) ∧
    ((up.reg (0x03000000 + 4 * (11 : Fin 12).val)).getLsbD 3 = false) := by
  decide

/-- Context `c` started with a KIND and a state. -/
def strmUp (c kind st : Nat) (g : Stream → Stream) : State :=
  ((up.setStream c (g { Stream.reset with owner := some 0 })).setReg (oStrm c 0) (BitVec.ofNat 32 (2 ^ 31 + kind * 2 ^ 28 + 3))).setReg (oStrm c 0x10)
    (BitVec.ofNat 32 (st * 2 ^ 29))
/-- A job of KIND STREAM that waits for context 95. -/
def waitJob : Job := { job with kind := 1, st := .waiting, streams := [95] }

set_option maxRecDepth 100000 in
theorem wit_StreamEvents :
    ((List.replicate 14 (0 : Byte)).length = 14 ∧ 14 + 4 ≤ 9216 ∧ fldBE (List.replicate 14 0) 12 2 ≠ 0x88E5) ∧
    ((strmUp 95 3 2 id).auxOn 95 = true ∧ ((strmUp 95 3 2 id).stream 95).owner = some 0 ∧
      ((strmUp 95 3 2 id).frameStart 95 (strmUp 95 3 2 id).now true).strmSt 95 ≠ 4) ∧
    ((strmUp 95 3 2 fun x => { x with lastStart := some 0 }).strmOn 95 = true ∧
      ((strmUp 95 3 2 fun x => { x with lastStart := some 0 }).stream 95).lastStart = some 0 ∧
      (strmUp 95 3 2 fun x => { x with lastStart := some 0 }).strmKind 95 ≠ 4 ∧ (strmUp 95 3 2 fun x => { x with lastStart := some 0 }).strmSt 95 ≠ 4 ∧
      0 + (strmUp 95 3 2 fun x => { x with lastStart := some 0 }).regF (oStrm 95 0xC) 0 16 * 10000 ≤
        (strmUp 95 3 2 fun x => { x with lastStart := some 0 }).now) ∧
    (∀ s ∈ [({ (strmUp 95 3 4 id).setReg (oStrm 95 0xC) 0x01000000 with time := { up.time with sec := 1 } } : State)],
      s.strmOn 95 = true ∧ s.strmSt 95 = 4 ∧ s.regF (oStrm 95 0xC) 24 8 ≠ 0 ∧
      (s.stream 95).quarAt + s.regF (oStrm 95 0xC) 24 8 * 10000000 ≤ s.now) ∧
    (∀ s ∈ [strmUp 95 3 2 fun x => { x with done := [⟨frm, 0, 2, false⟩] }], (s.stream 95).done = [⟨frm, 0, 2, false⟩] ∧ s.strmOn 95 = true ∧
      s.strmSt 95 = 2) ∧
    (∀ s ∈ [({ strmUp 95 3 2 (fun x => { x with slots := [⟨0, 1, 0, 0, false, false, 0⟩] }) with jobs := [(1, waitJob)] } : State)],
      s.job 1 = some waitJob ∧ waitJob.streams ≠ [] ∧ waitJob.st = .waiting ∧ waitJob.golden = none ∧ s.fcol.safe = false ∧
      ∀ c ∈ waitJob.streams, (s.frameFor 1 c).isSome = true) := by
  decide

/-- A message of 16 bytes at HEAD of the SQ that ring 0 of port 0 is. -/
def auxRingUp : State := { (strmUp 95 3 2 id).modPort 0 fun x => { x with rings := [(0, (Ring.armed 0x20000 1 1 0 1 1).setPtr 0 16 0)] } with
  mem := [(sramBase 0 + 0x20000, 16)] }

set_option maxRecDepth 100000 in
theorem wit_StreamEvents_aux : auxRingUp.auxOn 95 = true ∧ (auxRingUp.stream 95).owner = some 0 ∧
    (auxRingUp.part 0).port = 0 ∧ auxRingUp.auxRing 95 = (0 : Fin 256).val ∧
    (∀ r ∈ auxRingUp.ring 0 (0 : Fin 256).val, r.kind = 1 ∧ r.part = 0 ∧ r.agree = true ∧
      auxRingUp.atHead 0 r = .cmd 16) ∧ (auxRingUp.ring 0 (0 : Fin 256).val).isSome = true := by
  decide

/-- A training image of one AUX record. -/
def recCells : List (Nat × Nat) := [(0, 67), (1, 82), (2, 83), (3, 49), (4, 1), (8, 1), (16, 64), (24, 80), (32, 120), (40, 142), (41, 109),
  (42, 242), (43, 69), (60, 114), (61, 215), (62, 13), (63, 246), (64, 80), (72, 1), (80, 40), (84, 3), (108, 4), (112, 1), (113, 2),
  (114, 3), (115, 4), (116, 102), (117, 248), (118, 240), (119, 2)]
/-- The configuration that replays it into context 5, with a budget of 1 ms. -/
def recCfg : DealerCfg := { dealCfg with len := 120, chans := [5], floorMs := 1, mult := 2 }
/-- The Dealer replaying it, context 5 started as a Dealer context. -/
def recUp (g : Dealer → Dealer) : State :=
  { (up.setStream 5 { Stream.reset with owner := some 0 }).setReg (oStrm 5 0) (BitVec.ofNat 32 (2 ^ 31 + 4 * 2 ^ 28 + 3 * 2 ^ 16 + 3)) with
    mem := cells 0x2000 recCells, dealer := g { Dealer.reset with cfg := some recCfg, run := true, nsamp := 1 } }

set_option maxRecDepth 100000 in
theorem wit_DealerEvents :
    (∀ s ∈ [recUp id], s.dealer.cfg = some recCfg ∧ s.dealer.run = true ∧ tfind s.dealer.lanes (7 : Fin 8).val = none ∧
      recCfg.past s.dealer.startEpoch = false ∧
      s.dealer.startEpoch * s.dealer.nsamp + s.dealer.startPos < s.dealer.epoch * s.dealer.nsamp + s.dealer.pos + 64) ∧
    (∀ s ∈ [recUp fun x => { x with lanes := [(7, ⟨0, 0, 0, 80, false⟩)] }], tfind s.dealer.lanes (7 : Fin 8).val = some ⟨0, 0, 0, 80, false⟩ ∧
      s.dealer.budget recCfg = some 1000 ∧
      (entryOk (s.imgEntry recCfg 0 0) && s.recOk recCfg (s.imgEntry recCfg 0 0).1 80 (s.recBytes recCfg 80)) = true ∧
      decodeRec (s.recBytes recCfg 80) = some [1, 2, 3, 4]) ∧
    (∀ s ∈ [({ recUp fun x => { x with lanes := [(7, ⟨0, 0, 0, 80, false⟩)] } with mem := [] } : State)],
      (entryOk (s.imgEntry recCfg 0 0) && s.recOk recCfg (s.imgEntry recCfg 0 0).1 80 (s.recBytes recCfg 80)) = false) ∧
    (∀ s ∈ [recUp fun x => { x with done := [⟨0, 0, 0, .ok, 1, 0, 0, 0, [1, 2, 3, 4], [], false⟩] }], recCfg.ctx 0 = some 5 ∧ s.dealerReady 5 = true ∧
      s.dealer.done.find? (fun r => decide (r.epoch = s.dealer.epoch ∧ r.pos = s.dealer.pos ∧ r.num = s.dealer.nextRec)) =
        some ⟨0, 0, 0, .ok, 1, 0, 0, 0, [1, 2, 3, 4], [], false⟩) := by
  decide

theorem wit_DecodeBudget : (recUp fun x => { x with lanes := [(7, ⟨0, 0, 0, 80, false⟩)] }).dealer.cfg = some recCfg ∧
    tfind (recUp fun x => { x with lanes := [(7, ⟨0, 0, 0, 80, false⟩)] }).dealer.lanes (7 : Fin 8).val = some ⟨0, 0, 0, 80, false⟩ ∧
    (recUp fun x => { x with lanes := [(7, ⟨0, 0, 0, 80, false⟩)] }).dealer.budget recCfg = some 1000 := by
  decide

set_option maxRecDepth 100000 in
theorem wit_TimeIncrement : ∀ v ∈ [25 * 2 ^ 32 - 1, 25 * 2 ^ 32, 27 * 2 ^ 32, 27 * 2 ^ 32 + 1],
    passesB (host (cmd 0x0059 (leBytes 8 v))) 0 0 0x0059 .mgmt (cmd 0x0059 (leBytes 8 v)) = true ∧ fld (cmd 0x0059 (leBytes 8 v)).payload 0 8 = v := by
  decide

/-- The booted device with its time unit changed. -/
def timeUp (g : TimeUnit → TimeUnit) : State := { up with time := g up.time }
/-- A frame queued for time 0. -/
def lnch : Launch := ⟨0, false, false, 7, 0, [1, 2]⟩
/-- A forwarded frame on MAC 7. -/
def fwd7 : PtpFwd := ⟨7, 0, false, [1, 2]⟩

theorem wit_DeviceTime :
    ((timeUp fun t => { t with incPend := some 1 }).time.incPend = some 1) ∧
    ((timeUp fun t => { t with ns := 5, stepPend := some (-5) }).time.stepPend = some (-5) ∧
      0 ≤ ((timeUp fun t => { t with ns := 5, stepPend := some (-5) }).now : Int) + -5 ∧
      ((timeUp fun t => { t with ns := 5, stepPend := some (-5) }).now : Int) + -5 < 2 ^ 48 * 1000000000) ∧
    ((timeUp fun t => { t with ns := 1000000000 }).time.sec = BitVec.ofNat 48 0 ∧ 0 + (timeUp fun t => { t with ns := 1000000000 }).time.ns / 1000000000 < 2 ^ 48) ∧
    (tfind (timeUp fun t => { t with launch := [(7, [lnch])] }).time.launch (7 : Fin 8).val = some [lnch] ∧
      lnch.due ((timeUp fun t => { t with launch := [(7, [lnch])] }).capture (31 : Fin 32).val) = true ∧ lnch.event = false) ∧
    ((tfind (timeUp fun t => { t with fwd := [fwd7] }).time.launch (7 : Fin 8).val).getD [] = [] ∧
      (timeUp fun t => { t with fwd := [fwd7] }).time.fwd.find? (fun p => decide (p.mac = 7)) = some fwd7) ∧
    (((timeUp fun t => { t with trig := List.replicate 8 ⟨true, 0, none⟩ }).trig (7 : Fin 8).val).active = true ∧
      (timeUp fun t => { t with trig := List.replicate 8 ⟨true, 0, none⟩ }).edge (7 : Fin 8).val 0 ≤
        (timeUp fun t => { t with trig := List.replicate 8 ⟨true, 0, none⟩ }).capture (0 : Fin 32).val ∧ up.power.s1 = false) := by
  have e : (timeUp fun t => { t with ns := 5, stepPend := some (-5) }).now = 5 := by decide
  refine ⟨by decide, ⟨by decide, by rw [e]; decide, by rw [e]; norm_num⟩, by decide, by decide, by decide, by decide⟩

/-- Ring 255 of port 0 armed with a KIND, changed; a doorbell pending on it. -/
def ringUp (kind : Nat) (v : Word) (g : Ring → Ring) : State := upPort fun x =>
  { x with rings := [(255, g (Ring.armed 0x20000 1 kind 0 1 1))], sqDb := [(255, v)], cqDb := [(255, v)] }

theorem wit_RingEvents :
    (∀ v ∈ [(16 : Word), 0x80000010], tfind ((ringUp 1 v id).port 0).sqDb (255 : Fin 256).val = some v ∧ (ringUp 1 v id).takes = true ∧
      (Ring.armed 0x20000 1 1 0 1 1).agree = true ∧ (ringUp 1 v id).ring 0 255 = some (Ring.armed 0x20000 1 1 0 1 1)) ∧
    (tfind ((ringUp 2 16 id).port 0).cqDb 255 = some 16 ∧ (ringUp 2 16 id).takes = true ∧ (Ring.armed 0x20000 1 2 0 1 1).kind ≠ 1 ∧
      (Ring.armed 0x20000 1 2 0 1 1).agree = true) ∧
    (tfind ((ringUp 1 0x40000000 id).port 0).cqDb 255 = some 0x40000000 ∧ (0x40000000 : Word).getLsbD 30 = true) ∧
    (0 < ((Ring.armed 0x20000 1 2 0 1 1).setPtr 0 16 1).used ∧ ((Ring.armed 0x20000 1 2 0 1 1).setPtr 0 16 1).tmoDone = false) ∧
    (({ Ring.armed 0x20000 1 1 0 1 1 with taken := [readTime] } : Ring).taken.head? = some readTime ∧ readTime.opc ≠ 0x001B ∧
      up.dbg.halted.contains 4 = false) := by
  refine ⟨?_, by decide, by decide, by decide, ?_⟩
  · intro v hv; simp only [List.mem_cons, List.not_mem_nil, or_false] at hv; rcases hv with rfl | rfl <;> exact ⟨by decide, by decide, by decide, rfl⟩
  · exact ⟨rfl, by decide, by decide⟩

/-- A program of one kernel on Frond 0. -/
def prog1 : Prog := { prog [] with kernels := [⟨false, 1, 100, 1, [(2, 16, 112)]⟩] }
/-- Partition 0 with `deckBank` in force since deck time 0 and Frond 0 changed. -/
def deckUp (p : Part → Part) (g : Frond → Frond) : State :=
  { ((device id).modPart 0 fun x => p { x with bank0 := some deckBank, bank1 := some deckBank, active := some 0 }).modFrond 0 fun x =>
      g { x with zfill := false } with progs := [(7, prog1)], jobs := [(1, job)] }
/-- The JOB Card of `deckBank`. -/
def jobCard : Card := ⟨1, 0, 3, 0, 10000, 5000, 0, 0⟩
/-- A Frond in its JOB Card. -/
def inCard (x : Frond) : Frond := { x with card := some 0, cardUse := .work, cardEnd := 10000000 }
/-- A golden run of Frond 0 that has ended. -/
def goldJob : Job := { job with golden := some 0, st := .finished, pick := 0x3000 }
/-- Its argument block. -/
def goldCells : List (Nat × Nat) := [(0, 71), (1, 79), (2, 76), (3, 68), (4, 1), (60, 29), (61, 253), (62, 6), (63, 255)]
/-- The device on which it has ended, with and without its block. -/
def goldUp (m : List (Nat × Byte)) : State := { deckUp id id with jobs := [(1, goldJob)], progs := [(7, prog [])], mem := m }
/-- The same with the block's check word. -/
def goldOk : State := (goldUp (cells 0x3000 goldCells)).setBcw 0x3000 (crcWord ((goldUp (cells 0x3000 goldCells)).block 0x3000))

set_option maxRecDepth 100000 in
theorem wit_DeckEvents :
    (((deckUp (fun x => { x with switchTo := some (1, 0) }) id).part 0).switchTo = some (1, 0) ∧ 0 ≤ (deckUp id id).deckTime) ∧
    (((deckUp id id).part 0).activeBank = some deckBank ∧ ((deckUp id id).part 0).roundStart deckBank + deckBank.round * 1000 = 16666000 ∧
      16666000 ≤ ({ deckUp id id with time := { up.time with ns := 16666000 } } : State).deckTime) ∧
    ((deckUp id id).deckOf 0 = some (0, (deckUp id id).part 0, deckBank) ∧ ((deckUp id id).frond 0).card = none ∧
      ((deckUp id id).part 0).paused = false ∧ ((deckUp id id).part 0).cardAt deckBank 0 (deckUp id id).deckTime = some (jobCard, 0)) ∧
    (((deckUp id fun x => { inCard x with cardEnd := 0 }).frond 0).card.isSome = true ∧
      ((deckUp id fun x => { inCard x with cardEnd := 0 }).frond 0).cardEnd ≤ (deckUp id fun x => { inCard x with cardEnd := 0 }).deckTime) ∧
    ((deckUp id inCard).cardOn 0 = some (jobCard, (deckUp id inCard).part 0, deckBank) ∧ (deckUp id inCard).ownerOf 0 = some 0 ∧
      ((deckUp id inCard).frond 0).cardUse = .work ∧ ((deckUp id inCard).frond 0).switching = none ∧
      (deckUp id inCard).deckTime < ((deckUp id inCard).frond 0).cardEnd ∧ ((deckUp id inCard).frond 0).awake = true ∧
      ((deckUp id inCard).frond 0).holds = [] ∧ (deckUp id inCard).mapPending 0 = false ∧
      (deckUp id inCard).candidates 0 0 jobCard = [(1, job)] ∧ ({ deckUp id inCard with jobs := [] } : State).candidates 0 0 jobCard = []) ∧
    ((goldUp []).goldenJob 0 = some (1, goldJob) ∧ goldOk.goldenJob 0 = some (1, goldJob) ∧ goldJob.st = .finished) := by
  decide

theorem wit_DeckEvents_pick : pickJob [(1, job)] = some (1, job) ∧ pickJob [] = none := by
  simp [pickJob]

set_option maxRecDepth 100000 in
theorem wit_DeckEvents_passes : goldOk.goldenPasses goldJob = true := by
  have h : goldOk.blockOk goldJob.pick = true := blockOk_fresh _ _
  unfold State.goldenPasses State.goldenBlockOk
  rw [h]
  decide

set_option maxRecDepth 100000 in
theorem wit_DeckEvents_fails : ({ goldJob with ledger := [⟨0, 19, 0, 0, 0⟩] } : Job).st = .finished ∧
    (goldUp []).goldenPasses { goldJob with ledger := [⟨0, 19, 0, 0, 0⟩] } = false := by
  decide

/-- Frond 0 in a SELFTEST Card. -/
def testing (x : Frond) : Frond := { x with card := some 1, cardUse := .selftest, cardEnd := 10260000 }

set_option maxRecDepth 100000 in
theorem wit_SelftestEvents :
    (((deckUp id testing).frond 0).kernel.isSome = false ∧ (((deckUp id testing).startLate 0 0).nextSegment 0).isSome = true ∧
      (((deckUp id testing).startLate 0 0).frond 0).cardUse = .selftest ∧ (((deckUp id testing).startLate 0 0).frond 0).stRun = none ∧
      (((deckUp id testing).startLate 0 0).frond 0).awake = true ∧
      ∀ e ∈ (((deckUp id testing).startLate 0 0).nextSegment 0).map (·.2.1), ((deckUp id testing).startLate 0 0).deckTime + e ≤
        (((deckUp id testing).startLate 0 0).frond 0).cardEnd) ∧
    (((deckUp id fun x => { testing x with stRun := some 6 }).frond 0).stRun = some 6 ∧ 6 % 3 = 0 ∧ 6 / 3 ≠ 0) ∧
    (((deckUp id fun x => { testing x with stRun := some 4 }).frond 0).stRun = some 4 ∧ 4 % 3 = 1) ∧
    (∀ s ∈ [({ device id with time := { up.time with sec := 1 }, safety := { up.safety with rotStart := List.replicate 4 (some 0), patStart := List.replicate 4 (some 0) } } : State)],
      s.safety.rotStart.getD (3 : Fin 4).val none = some 0 ∧ 0 + 1000000000 ≤ s.deckTime ∧ s.safety.overdue.getD (3 : Fin 4).val false = false ∧
      s.safety.patStart.getD (3 : Fin 4).val none = some 0 ∧ 0 + fld (s.packOf 3) 16 4 * 1000000 ≤ s.deckTime ∧ s.safety.patLate.getD 3 false = false) ∧
    (up.widowHalted .management = false ∧ (up.frondWho 0 0xFF).job = 0) ∧
    (∀ s ∈ [({ up with nor := { up.nor with pack := [1] } } : State)], s.sys.packRead = false ∧ s.nor.pack.isEmpty = false ∧ s.packStands s.nor.pack = false) := by
  decide

set_option maxRecDepth 100000 in
theorem wit_PowerStates :
    (((upFrond fun x => { x with astate := 3 }).frond 0).astate ≠ 0 ∧ ((upFrond fun x => { x with astate := 3 }).frond 0).retired = false) ∧
    (∀ s ∈ [({ deckUp (fun x => { x with tol := 100000 }) id with jobs := [], time := { up.time with ns := 10300000 } } : State)],
      s.deckOf 0 = some (0, s.part 0, deckBank) ∧ (s.frond 0).astate < s.chosen (s.part 0) 0 ∧ (s.frond 0).waking = false ∧
      (s.frond 0).restore = false ∧ s.idleNow 0 = true ∧ s.workSoon 0 (s.part 0) deckBank (s.wakeNs 0 (s.chosen (s.part 0) 0)) = false) ∧
    (((upFrond fun x => { x with astate := 1, waking := true }).frond 0).waking = true ∧
      ((upFrond fun x => { x with astate := 1, waking := true }).frond 0).astate = 1) ∧
    (({ up with power := { up.power with s1 := true } } : State).power.s1 = true) := by
  decide

set_option maxRecDepth 100000 in
theorem wit_PowerStates_s1 : ({ up with otp := { up.otp with lifecycle := 2 } } : State).s1Ready = true := by decide

/-- Link 2 active, changed. -/
def linkUp (g : Link → Link) : State := up.setLink 2 (g { Link.reset with st := .active, lanes := 0xFF, credits := [8, 16, 128, 64] })
/-- A flit kept for replay. -/
def kept (n : Nat) : SentFlit := ⟨0, n, []⟩

/-- One step of CRC-16 as `crc16` folds it. -/
def crc16Step (c : Nat) (b : Byte) : Nat := (List.range 8).foldl (fun c _ => crc16Bit c) (c ^^^ (b.toNat * 256))
/-- A PAYLOAD flit of SEQ 0 without payload. -/
def flit1 : List Byte := 1 :: List.replicate 253 0 ++ leBytes 2 58238

set_option maxRecDepth 100000 in
theorem flit1_crc : crc16 (flit1.take 254) = 58238 := by
  have h1 : List.foldl crc16Step 35767 (List.replicate 64 0) = 58968 := by decide
  have h2 : List.foldl crc16Step 58968 (List.replicate 64 0) = 31989 := by decide
  have h3 : List.foldl crc16Step 31989 (List.replicate 64 0) = 16995 := by decide
  have h4 : List.foldl crc16Step 16995 (List.replicate 61 0) = 58238 := by decide
  have e : flit1.take 254 = [1] ++ (List.replicate 64 0 ++ (List.replicate 64 0 ++ (List.replicate 64 0 ++ List.replicate 61 0))) := by rfl
  have f : crc16 (flit1.take 254) = List.foldl crc16Step 0 (flit1.take 254) := rfl
  have h0 : List.foldl crc16Step 0 [(1 : Byte)] = 35767 := by decide
  rw [f, e, List.foldl_append, h0, List.foldl_append, h1, List.foldl_append, h2, List.foldl_append, h3, h4]

set_option maxRecDepth 100000 in
theorem wit_HezorFlits_good : flit1.length = 256 ∧ crc16 (flit1.take 254) = fld flit1 254 2 ∧ fld flit1 0 1 = 1 ∧
    fld flit1 2 2 = ((linkUp id).link 2).rxSeq :=
  ⟨rfl, flit1_crc.trans (by rfl), by rfl, by rfl⟩

set_option maxRecDepth 100000 in
theorem wit_HezorFlits :
    (((linkUp fun x => { x with nak := .owed }).link 2).nak = .owed ∧ ((linkUp id).link 2).st = .active ∧ ((linkUp id).link 2).retrain = false ∧
      (linkUp id).fcol.safe = false) ∧
    (∀ x ∈ [(linkUp fun x => { x with replay := [kept 1], resend := 1 }).link 2], x.nak ≠ .owed ∧ 0 < x.resend ∧ x.sendReplay.2 = false) ∧
    (∀ x ∈ [(linkUp fun x => { x with replay := [kept 3], resend := 1 }).link 2], x.nak ≠ .owed ∧ 0 < x.resend ∧ x.sendReplay.2 = true) ∧
    (∀ x ∈ [(linkUp fun x => { x with outq := [⟨3, 0, [1]⟩] }).link 2], x.nak ≠ .owed ∧ x.resend = 0 ∧ x.lane = some 3 ∧ x.replay.length < 256) ∧
    (((linkUp id).link 2).resend = 0 ∧ ((linkUp id).link 2).lane = none) ∧
    ((3 :: List.replicate 255 (0 : Byte)).length = 256 ∧ 2 < fld (3 :: List.replicate 255 0) 0 1) ∧
    (((linkUp fun x => { x with replay := [kept 1] }).link 2).replay = [kept 1]) := by
  refine ⟨by decide, by decide, by decide, by decide, by decide, ⟨rfl, by decide⟩, by decide⟩

theorem wit_HezorLinks :
    ((up.link 2).st = .down ∧ up.sys.por = false ∧ up.fcol.safe = false) ∧
    (((linkUp fun x => { x with st := .detect }).link 2).st = .detect) ∧
    (((linkUp fun x => { x with st := .train }).link 2).st = .train) ∧
    (((linkUp fun x => { x with st := .negotiate }).link 2).st = .negotiate ∧
      min (0x11 : BitVec 8).toNat 0x11 = 0x11 ∧ max (0x10 : BitVec 8).toNat 0x10 ≤ 0x11 ∧
      (3 : BitVec 2).toNat = ((linkUp id).sys.modId.toNat + (2 : Fin 3).val + 1) % 4 ∧ 7 ≤ laneCount 0xFF ∧ 7 ≤ laneCount 0xFE) ∧
    (((linkUp id).link 2).noReplay = false) ∧
    (((linkUp fun x => { x with retrain := true }).link 2).retrain = true ∧ (0xFF : BitVec 8) &&& ((linkUp id).link 2).lanes = ((linkUp id).link 2).lanes) := by
  decide

/-- The device with a group of one Trick entry that module 1 sends to, and a packet on lane 3 of link 2. -/
def pktUp (p : List Byte) : State := { device id with
  groups := [{ grp with mask := 3 }], mem := cells matBase (areaCells.dropLast ++ [(75, 3)]),
  links := (linkUp fun x => { x with rx := [(3, p)] }).links }
/-- A packet of a type, entry and instance 0, with its own bytes 2 and 3, kind bytes from 8 on. -/
def pkt (n ty e b2 b3 : Nat) (l : List Byte) : List Byte :=
  padTo n ([BitVec.ofNat 8 ty, BitVec.ofNat 8 e, BitVec.ofNat 8 b2, BitVec.ofNat 8 b3, 9, 0, 0, 0] ++ l)

set_option maxRecDepth 100000 in
theorem wit_HezorPackets :
    (∀ n ∈ [(276, 1, 0), (32, 2, 0), (16, 3, 1)], ∀ p ∈ [pkt n.1 n.2.1 0 0 n.2.2 [0, 0, 0, 0, 1]],
      ((pktUp p).link 2).nextPkt n.2.1 = some (3, p, []) ∧
      (((pktUp p).tookPkt 2 3 []).pktTrick (fld p 4 4) (fld p 1 1) (fld p 8 4) 1).isSome = true) ∧
    (∀ p ∈ [pkt 32 4 1 0 1 [0, 0, 3]], ((pktUp p).link 2).nextPkt 4 = some (3, p, []) ∧
      ((pktUp p).tookPkt 2 3 []).groupOf 9 = some { grp with mask := 3 } ∧ ((pktUp p).tookPkt 2 3 []).joins { grp with mask := 3 } p = true) ∧
    (∀ p ∈ [pkt 32 4 2 0 1 []], ((pktUp p).link 2).nextPkt 4 = some (3, p, []) ∧ fld p 1 1 = 2) := by
  decide

/-- An instance of the group's entry in which the own contribution is closed. -/
def trk : Trick := ⟨9, 0, 0, some 1, [⟨0, [], false, some (0, 0), false, none, false⟩], none⟩
/-- The device with the instance and its job. -/
def trkUp (l : List LedgerEntry) : State := { device id with groups := [grp], tricks := [trk], jobs := [(1, { job with ledger := l })] }
/-- A finished job. -/
def endUp (l : List LedgerEntry) : State := { device id with jobs := [(1, { job with st := .finished, ledger := l })] }

theorem wit_SealingEvents :
    (∀ l ∈ [[], [⟨0, 19, 0, 0, 0⟩]], (trkUp l).groupOf 9 = some grp ∧ (trkUp l).trick 9 0 0 = some trk ∧
      trk.slot (trkUp l).sys.modId.toNat = some ⟨0, [], false, some (0, 0), false, none, false⟩ ∧
      trk.job.bind (trkUp l).job = some { job with ledger := l }) ∧
    (∀ l ∈ [([], true), ([⟨0, 19, 0, 0, 0⟩], false)], ((endUp l.1).voidOpenOf 1).job 1 = some { job with st := .finished, ledger := l.1 } ∧
      ((endUp l.1).voidOpenOf 1).sealReady { job with st := .finished, ledger := l.1 } = true ∧
      ((endUp l.1).voidOpenOf 1).clean { job with st := .finished, ledger := l.1 } = l.2) ∧
    (tfind [(0, (5 : DWord))] 0 = some 5) ∧
    (∀ s ∈ [({ up with ages := [⟨1, 0, true, 1000, 0, 0, true⟩] } : State)],
      s.ages.find? (fun a => decide (a.job = 1) && a.armed) = some ⟨1, 0, true, 1000, 0, 0, true⟩ ∧ 0 ≤ s.deckNow) := by
  decide

theorem wit_FaultEvents :
    (∀ uk ∈ [(0, 1), (119, 2), (119, 7), (0, 0), (102, 6), (72, 1), (75, 2), (63, 1)], ∀ e ∈ [(⟨BitVec.ofNat 10 (8 * uk.1 + uk.2), 26, 0, 0, none⟩ : FaultInfo)],
      e.source.toNat = 8 * uk.1 + uk.2 ∧ srcPresent (8 * uk.1 + uk.2) = true ∧ up.fcolBit 0x400 (8 * uk.1 + uk.2) = false) ∧
    ((967 : BitVec 10).toNat = 967 ∧ up.fcol.refound.contains 967 = false) ∧ up.fcol.self = false ∧
    (earliest [(1, 0, 8)] = some (1, 0, 8) ∧ 0 ≤ up.deckNow.toNat) ∧
    (({ up with fcol := { up.fcol with pulse := true } } : State).fcol.pulseEnd ≤ up.deckNow.toNat) := by
  decide

/-- The booted device with its power unit changed. -/
def pwrUp (g : Power → Power) : State := { up with power := g up.power }
/-- 24 sensors at one temperature, in eighths of a degree. -/
def sens (t : Nat) : List (BitVec 16 × BitVec 16) := List.replicate 24 (BitVec.ofNat 16 t, BitVec.ofNat 16 t)

set_option maxRecDepth 100000 in
theorem wit_PowerEvents :
    (up.fcol.safe = false ∧ up.power.s1 = false ∧ up.power.stepped = false) ∧
    (0 < up.budgetAfter 180000 ∧ up.power.overTime < 10000) ∧ (up.budgetAfter 1000000000 ≤ 0) ∧
    ((sens 500).length = 24 ∧ hotSensors (sens 500) = [] ∧ hotSensors (sens 1000) ≠ [] ∧ up.power.tlim ≠ 5) ∧
    (∀ s ∈ [pwrUp fun p => { p with temps := sens 960 }], s.power.tlim < 5 ∧ s.power.temps ≠ [] ∧
      (8 * s.regF (oPwr 0x20) 0 8 : Nat) ≤ (hottest s.power.temps).2) ∧
    (∀ s ∈ [pwrUp fun p => { p with tlim := 1, temps := sens 0 }], 0 < s.power.tlim ∧ (hottest s.power.temps).2 ≤ (8 * s.regF (oPwr 0x20) 8 8 : Nat)) ∧
    ((up.frond 3).clocked = true ∧ (up.frond 3).droop = .none) ∧
    (∀ s ∈ [pwrUp fun p => { p with locked := true }], hasPll (6 : Fin 32).val = true ∧ (clkLock s).testBit (6 : Fin 32).val = true) ∧
    ((claimedIn .exact).exactClaimed = true) := by
  decide

/-- The booted device, in a lifecycle with a debug level open. -/
def dbgUp (lc lv : Nat) (g : Debug → Debug) : State := { up with otp := { up.otp with lifecycle := lc }, dbg := g { up.dbg with level := lv } }

set_option maxRecDepth 100000 in
theorem wit_TapCommands :
    ((dbgUp 1 0 id).tapOpen = true ∧ (dbgUp 1 0 id).otp.lifecycle ≠ 4 ∧ (dbgUp 1 0 id).dbg.chal = none ∧ (dbgUp 1 0 id).dbg.lockout = false ∧
      (dbgUp 1 0 id).debugKeyOk (2 : BitVec 2).toNat false.toNat = true) ∧
    ((dbgUp 1 0 fun d => { d with chal := some (2, 0, 0, true) }).dbg.chal = some (2, 0, 0, true)) ∧
    (((dbgUp 1 1 id).tapIr 0x23).accStatus (BitVec.ofNat 48 (regBase + oFcol 4)).toNat false = .ok ∧
      region (BitVec.ofNat 48 (regBase + oFcol 4)).toNat = .reg (oFcol 4) ∧
      ((dbgUp 1 2 id).tapIr 0x23).accStatus (BitVec.ofNat 48 (regBase + oFcol 4)).toNat true = .ok) ∧
    (∀ t ∈ [(3 : BitVec 4), 4, 5], ((dbgUp 1 2 id).tapIr 0x23).ctlStatus t = .ok ∧ ((dbgUp 1 2 id).tapIr 0x23).fifoFull (.halt t) = false) ∧
    (((dbgUp 1 2 fun d => { d with replay := List.replicate 32 (5, 0) }).tapIr 0x23).fifoFull (.halt 5) = true ∧ (dbgUp 1 2 id).dbg.held = none ∧
      inFrond (oFcol 4) = none) ∧
    (((dbgUp 1 2 fun d => { d with halted := [5] }).tapIr 0x23).debugEntry.dbg.halted.contains 5 = true) ∧
    ((dbgUp 0 2 id).dbg.level = 2 ∧ (dbgUp 0 2 id).otp.lifecycle = 0 ∧ (dbgUp 0 2 id).tapOpen = true) := by
  decide

theorem wit_ResetCommands : (State.reset.sys.por = true ∧ (2 : BitVec 2) ≠ 3) ∧ (up.sys.por = false ∧ up.fcol.safe = false ∧ up.power.s1 = false) ∧
    (({ up with sys := { up.sys with st := .startup } } : State).sys.st = .startup) := by
  decide

theorem wit_I2cTarget : up.sys.por = false ∧ (0xFE : Byte) ≠ 0x10 ∧ (1 : Byte).getLsbD 0 = true ∧ (pwrUp fun p => { p with s1 := true }).power.s1 = true ∧
    (pwrUp fun p => { p with s1 := true }).sys.por = false := by
  decide

theorem wit_IdleTick : (State.reset.pending = [] ∧ State.reset.sys.por = true) ∧
    (up.pending = [] ∧ up.sys.por = false ∧ up.power.s1 = false ∧ up.dbg.held = none ∧ up.dramWait = [] ∧ up.time.stepPend = none ∧ up.time.incPend = none ∧ up.time.ns < 1000000000) := by
  decide

/-- The machine after reset with POR_N asserted again at the front: what the invariants over a step ask for. -/
def porAgain : State := { State.reset with pending := [.porNAssert] }
theorem wit_Step : Memory.wf porAgain = true ∧ step porAgain = .next State.reset ∧ porAgain.otp.lifecycle ≤ 4 := by
  exact ⟨by decide, rfl, by decide⟩
theorem wit_SafeStateHolds : ({ State.reset with fcol := { State.reset.fcol with safe := true } } : State).fcol.safe = true ∧
    step { State.reset with fcol := { State.reset.fcol with safe := true } } = .next { State.reset with fcol := { State.reset.fcol with safe := true } } := by
  exact ⟨rfl, rfl⟩

theorem wit_LaneStriping : (0x7F : BitVec 8) ≠ 0 := by decide
theorem wit_ArgmaxLowest : [3, 7, (7 : Int)] ≠ [] := by decide
theorem wit_WellFormedGoesOn : queueWf porAgain := by unfold queueWf; decide

theorem wit_TokenCondition :
    ((issued (ins 0x38 6 1) id).slotIns 0 63 0x38 = some (ins 0x38 6 1)) ∧ (issued (ins 0x38 0 0) id).slotIns 0 63 0x38 = some (ins 0x38 0 0) ∧
    wen (ins 0x38 0 0) = false ∧ wen (ins 0x38 6 1) = true ∧ (unitClass 0x38 && ((issued (ins 0x38 0 0) id).frond 0).outrun 63) = false ∧
    (∀ x ∈ [upFrond fun x => { x with kernel := some kern, queues := [(62, qslot (ins 8 0 0)), (63, qslot (ins 8 0 0))] }],
      x.slotIns 0 63 8 = some (ins 8 0 0) ∧ (unitClass 8 && (x.frond 0).outrun 63) = true) := by
  decide

end Sys2Proof.Tests
end

/-! The token condition of R131 on the value of its counter, and what stands ready at an issue stage (R124, R125). -/

namespace Sys2Proof.Machine

/-! The token condition. -/

/-- WVAL is a field of 16 bits (R128). -/
theorem wval_lt (w : IWord) : wval w < 65536 := Nat.mod_lt _ (Nat.two_pow_pos 16)

theorem tokOk_of_not_wen {w : IWord} (hw : wen w = false) (t : Nat) : tokOk w t = true := by
  simp [tokOk, hw]

/-- The test on naturals is the formula of R131, the difference taken modulo 2¹⁶: the 65536 that `tokOk` adds keeps the
difference from going below 0, as WVAL is smaller. -/
theorem tokOk_iff_of_wen {w : IWord} (hw : wen w = true) (t : Nat) :
    tokOk w t = true ↔ ((t : Int) - wval w) % 2 ^ 16 < 2 ^ 15 := by
  have hv := wval_lt w
  have hmod : (((t + 65536 - wval w) % 65536 : Nat) : Int) = ((t : Int) - wval w) % 2 ^ 16 := by omega
  simp only [tokOk, hw, Bool.not_true, Bool.false_or, decide_eq_true_eq]
  omega

/-! What stands ready. -/

section
variable {s : State} {f : Fin 4} {q cls : Nat} {w : IWord}

theorem readyIns_of_slotIns (h : s.slotIns f q cls = some w) :
    s.readyIns f q cls =
      if tokOk w ((s.frond f).token (wtok w)).toNat && !(unitClass cls && (s.frond f).outrun q) then some w else none := by
  simp only [State.readyIns, h]

theorem readyIns_eq_none_of_outrun (h : s.slotIns f q cls = some w) (hturn : (unitClass cls && (s.frond f).outrun q) = true) :
    s.readyIns f q cls = none := by
  simp [readyIns_of_slotIns h, hturn]

/-- An instruction that has its turn waits for its token condition alone. -/
theorem readyIns_eq_some_iff_tokOk (h : s.slotIns f q cls = some w) (hturn : (unitClass cls && (s.frond f).outrun q) = false) :
    s.readyIns f q cls = some w ↔ tokOk w ((s.frond f).token (wtok w)).toNat = true := by
  simp [readyIns_of_slotIns h, hturn]

/-- Nothing but the instruction at the issue stage can stand ready there. -/
theorem readyIns_eq_none_iff_ne_some (h : s.slotIns f q cls = some w) : s.readyIns f q cls = none ↔ s.readyIns f q cls ≠ some w := by
  rw [readyIns_of_slotIns h]
  split <;> simp

end

/-- Settles O57: with its turn given, an instruction stands ready exactly when `tokOk` holds, and `tokOk` is the formula of R131. -/
theorem tokenCondition : Obligations.TokenCondition := by
  intro s f q cls w hslot
  refine ⟨fun hturn => ⟨fun hwen => ?_, fun hwen => ?_⟩, readyIns_eq_none_of_outrun hslot⟩
  · have hready := (readyIns_eq_some_iff_tokOk hslot hturn).trans (tokOk_iff_of_wen hwen _)
    have hnone := (readyIns_eq_none_iff_ne_some hslot).trans (not_congr hready)
    exact ⟨hready, hnone.trans not_lt⟩
  · exact (readyIns_eq_some_iff_tokOk hslot hturn).2 (tokOk_of_not_wen hwen _)

end Sys2Proof.Machine

/-! The elapsed decode budget of a Dealer lane (R365, R366). -/

namespace Sys2Proof.Machine

/-- DEALER_BUDGET_EXPIRE on a lane that decodes under a budget takes the lane out of the table and puts its record, SKIPPED and without
payload, behind the resolved ones. -/
theorem exec_dealerBudgetExpire {s : State} {l : Fin 8} {g : DealerCfg} {r : LaneRun} {t : Nat} (hcfg : s.dealer.cfg = some g)
    (hlane : tfind s.dealer.lanes l.val = some r) (hbudget : s.dealer.budget g = some t) :
    exec (.dealerBudgetExpire l) s = .next (s.modDealer fun x =>
      { x with lanes := tdel x.lanes l.val,
               done := x.done ++ [recNone r.epoch r.pos r.num .skipped (min 255 (t / 1000)) (s.recBytes g r.off)] }) := by
  have harm : exec (.dealerBudgetExpire l) s = execDealerBudgetExpire l s := rfl
  simp only [harm, execDealerBudgetExpire, hcfg, hlane, hbudget]

/-- Settles O30: the successor differs in the Dealer's lanes and resolved records alone, and the lane table loses the expired lane and
no other (`tfind_tdel_self`, `tfind_tdel_ne`). -/
theorem decodeBudget : Obligations.DecodeBudget := by
  intro s l g r t hcfg hlane hbudget
  have hfree : tfind (tdel s.dealer.lanes l.val) l.val = none := tfind_tdel_self _ _
  have hothers : ∀ k, k ≠ l.val → tfind (tdel s.dealer.lanes l.val) k = tfind s.dealer.lanes k :=
    fun _ hk => tfind_tdel_ne _ hk.symm
  exact ⟨_, _, exec_dealerBudgetExpire hcfg hlane hbudget, rfl, rfl, rfl, rfl, rfl, rfl, hfree, hothers, rfl, rfl, rfl, hcfg⟩

end Sys2Proof.Machine

/-! The device time commands: checks 5 to 7 of R475, what stands before check 4 (the authority), and who passes it (R377, R378). -/

namespace Sys2Proof.Machine
open Sys2Proof.Safety Sys2Proof.Laws

/-! Checks in order. -/

@[simp] theorem checks_nil (s : State) (r : Done) : checks [] s r = r := rfl

@[simp] theorem checks_cons_true (st : St) (l : List (Bool × St)) (s : State) (r : Done) : checks ((true, st) :: l) s r = checks l s r := rfl

@[simp] theorem checks_cons_false (st : St) (l : List (Bool × St)) (s : State) (r : Done) : checks ((false, st) :: l) s r = refuse st s := rfl

@[simp] theorem after_refuse (p : Fin 4) (d : Nat) (t : Taken) (st : St) (s : State) : after p d t (refuse st s) = s.complete p d t st [] := rfl

/-! Authority. -/

/-- The command that firmware runs next on SQ `d` is `t`, of code `opc`, and it passes the checks 1 to 3 of R475: its authority, check 4,
decides next. -/
def AtAuthority (s : State) (p : Fin 4) (d opc : Nat) (t : Taken) (s0 : State) : Prop :=
  s.takenAt p d = some t ∧ t.opc = opc ∧ (∃ l, layOf opc t.payload = some l ∧ t.wellFormed l = true) ∧
    s0 = s.beforeCmd p t ∧ s0.verOk p t = true ∧ s0.devOk p opc = true ∧ s.fcol.safe = false ∧ s.dbg.halted.contains 4 = false

section
variable {s s0 : State} {p : Fin 4} {d opc : Nat} {t : Taken}

theorem AtAuthority.passes (h : AtAuthority s p d opc t s0) {a : Auth} (ha : s0.authOk p d t a = true) : Passes s p d opc a t s0 := by
  obtain ⟨htaken, hopc, hlay, hbefore, hver, hdev, hsafe, hhalt⟩ := h
  exact ⟨htaken, hopc, hlay, hbefore, hver, hdev, ha, hsafe, hhalt⟩

theorem AtAuthority.runCmd_auth (h : AtAuthority s p d opc t s0) {a : Auth} (ha : s0.authOk p d t a = false) (body : State → Taken → Done) :
    s.runCmd p d opc anyPl anyObj a body = s0.complete p d t .auth [] := by
  obtain ⟨htaken, hopc, ⟨l, hlay, hwell⟩, hbefore, hver, hdev, hsafe, hhalt⟩ := h
  obtain ⟨-, -, -, hrefused⟩ := run_fails htaken hopc hlay hbefore hsafe hhalt body (a := a)
  exact hrefused hwell hver hdev ha

theorem authOk_claimed (hfits : s0.partFits p d t = true) (hclaim : s0.claimedBy p t.part = true) : s0.authOk p d t .claimed = true := by
  simp [State.authOk, hfits, hclaim]

theorem authOk_mgmt_of_isMgmt (hfits : s0.partFits p d t = true) (hmgmt : s0.isMgmt p = true) : s0.authOk p d t .mgmt = true := by
  simp [State.authOk, hfits, hmgmt]

/-- A command that is not legal in RECOVERY passes check 3 in no other device state than SERVICE (R479). -/
theorem service_of_devOk (hrec : inRecovery opc = false) (hdev : s0.devOk p opc = true) : s0.sys.st = .service := by
  have hhello : opc ≠ 0x0001 := by
    rintro rfl
    exact absurd hrec (by decide)
  cases hst : s0.sys.st <;> simp [State.devOk, hhello, hrec, hst] at hdev ⊢

/-- The session stands for the management role in RECOVERY alone. -/
theorem authOk_mgmt_of_not_isMgmt (hst : s0.sys.st = .service) (hmgmt : s0.isMgmt p = false) : s0.authOk p d t .mgmt = false := by
  simp [State.authOk, hst, hmgmt]

/-- A port without the management role is refused every command of that authority that is not legal in RECOVERY, whatever its body. -/
theorem AtAuthority.runCmd_notMgmt (h : AtAuthority s p d opc t s0) (hrec : inRecovery opc = false) (hmgmt : s0.isMgmt p = false)
    (body : State → Taken → Done) : s.runCmd p d opc anyPl anyObj .mgmt body = s0.complete p d t .auth [] := by
  have hdev : s0.devOk p opc = true := by
    obtain ⟨-, -, -, -, -, hdev, -, -⟩ := h
    exact hdev
  exact h.runCmd_auth (authOk_mgmt_of_not_isMgmt (service_of_devOk hrec hdev) hmgmt) body

end

/-! TIME_INC_SET, TIME_STEP and TIME_READ past check 4. -/

section
variable {s s0 : State} {p : Fin 4} {d : Fin 256} {t : Taken}

theorem exec_timeIncSet (h : Passes s p d.val 0x0059 .mgmt t s0) :
    exec (.timeIncSet p d) s = .next (after p d.val t
      (checks [(s0.mgmtCmd p t, .auth), (decide (25 * 2 ^ 32 ≤ fld t.payload 0 8 ∧ fld t.payload 0 8 ≤ 27 * 2 ^ 32), .arg)] s0
        (accept ((s0.writeReg (oTime 0x10) (BitVec.ofNat 32 (fld t.payload 0 8))).writeReg (oTime 0x14)
          (BitVec.ofNat 32 (fld t.payload 0 8 / 2 ^ 32)))))) :=
  runCmd_next h anyPl anyObj _ rfl rfl _ rfl

theorem exec_timeStep (h : Passes s p d.val 0x005A .mgmt t s0) :
    exec (.timeStep p d) s = .next (after p d.val t
      (checks [(s0.mgmtCmd p t, .auth), (decide (0 ≤ (s0.now : Int) + sext 64 (fld t.payload 0 8)), .arg), (s0.time.stepPend.isNone, .busy)] s0
        (accept { s0 with time := { s0.time with stepPend := some (sext 64 (fld t.payload 0 8)) } }))) :=
  runCmd_next h anyPl anyObj _ rfl rfl _ rfl

theorem exec_timeRead (h : Passes s p d.val 0x0058 .claimed t s0) :
    exec (.timeRead p d) s = .next (after p d.val t
      ⟨.ok, timeBytes s0.now ++ leBytes 2 0 ++ leBytes 8 s0.time.inc.toNat ++ leBytes 8 (code 64 s0.time.stepSum), s0⟩) :=
  runCmd_next h anyPl anyObj _ rfl rfl _ rfl

/-- An increment from 25.0 ns to 27.0 ns goes to TIME_INC_FRAC and TIME_INC_INT (R377). -/
theorem exec_timeIncSet_inRange (h : Passes s p d.val 0x0059 .mgmt t s0) (hpart : s0.mgmtCmd p t = true)
    (hinc : 25 * 2 ^ 32 ≤ fld t.payload 0 8 ∧ fld t.payload 0 8 ≤ 27 * 2 ^ 32) :
    exec (.timeIncSet p d) s = .next (after p d.val t (accept ((s0.writeReg (oTime 0x10) (BitVec.ofNat 32 (fld t.payload 0 8))).writeReg
      (oTime 0x14) (BitVec.ofNat 32 (fld t.payload 0 8 / 2 ^ 32))))) := by
  rw [exec_timeIncSet h, hpart, decide_eq_true hinc, checks_cons_true, checks_cons_true, checks_nil]

theorem exec_timeIncSet_outOfRange (h : Passes s p d.val 0x0059 .mgmt t s0) (hpart : s0.mgmtCmd p t = true)
    (hinc : ¬(25 * 2 ^ 32 ≤ fld t.payload 0 8 ∧ fld t.payload 0 8 ≤ 27 * 2 ^ 32)) :
    exec (.timeIncSet p d) s = .next (after p d.val t (refuse .arg s0)) := by
  rw [exec_timeIncSet h, hpart, decide_eq_false hinc, checks_cons_true, checks_cons_false]

/-- With the management role, but a PART that names another partition, TIME_INC_SET is refused (R378). -/
theorem exec_timeIncSet_otherPart (h : Passes s p d.val 0x0059 .mgmt t s0) (hpart : s0.mgmtCmd p t = false) :
    exec (.timeIncSet p d) s = .next (s0.complete p d.val t .auth []) := by
  rw [exec_timeIncSet h, hpart, checks_cons_false, after_refuse]

/-- A step that keeps device time from going below 0, while none is pending, becomes the pending one (R380, R381). -/
theorem exec_timeStep_accepted (h : Passes s p d.val 0x005A .mgmt t s0) (hpart : s0.mgmtCmd p t = true)
    (hnow : 0 ≤ (s0.now : Int) + sext 64 (fld t.payload 0 8)) (hpend : s0.time.stepPend = none) :
    exec (.timeStep p d) s = .next (after p d.val t
      (accept { s0 with time := { s0.time with stepPend := some (sext 64 (fld t.payload 0 8)) } })) := by
  rw [exec_timeStep h, hpart, decide_eq_true hnow, hpend, Option.isNone_none, checks_cons_true, checks_cons_true, checks_cons_true, checks_nil]

/-- With the management role, but a PART that names another partition, TIME_STEP is refused (R378). -/
theorem exec_timeStep_otherPart (h : Passes s p d.val 0x005A .mgmt t s0) (hpart : s0.mgmtCmd p t = false) :
    exec (.timeStep p d) s = .next (s0.complete p d.val t .auth []) := by
  rw [exec_timeStep h, hpart, checks_cons_false, after_refuse]

end

/-- Settles O56: neither TIME_INC_SET nor TIME_STEP is legal in RECOVERY, so a port without the management role fails check 4; with the
role, `mgmtCmd` decides on PART, then the checks of the value; TIME_READ asks for a claimed partition alone. -/
theorem timeManagement : Obligations.TimeManagement := by
  intro s s0 p d t l htaken hlay hwell hbefore hver hdev hsafe hhalt
  have hcmd : ∀ opc, t.opc = opc → AtAuthority s p d.val opc t s0 := by
    rintro _ rfl
    exact ⟨htaken, rfl, ⟨l, hlay, hwell⟩, hbefore, hver, hdev, hsafe, hhalt⟩
  refine ⟨fun hopc hmgmt => ?_, fun hopc hmgmt => ?_, fun hopc hfits hmgmt hpart => ?_, fun hopc hfits hmgmt hpart => ?_,
    fun hopc hfits hmgmt hpart hlow hhigh => ?_, fun hopc hfits hmgmt hpart hnow hpend => ?_, fun hopc hfits hclaim => ?_⟩
  · exact congrArg Host.Outcome.next ((hcmd _ hopc).runCmd_notMgmt (by decide) hmgmt _)
  · exact congrArg Host.Outcome.next ((hcmd _ hopc).runCmd_notMgmt (by decide) hmgmt _)
  · exact exec_timeIncSet_otherPart ((hcmd _ hopc).passes (authOk_mgmt_of_isMgmt hfits hmgmt)) hpart
  · exact exec_timeStep_otherPart ((hcmd _ hopc).passes (authOk_mgmt_of_isMgmt hfits hmgmt)) hpart
  · exact ⟨_, rfl, exec_timeIncSet_inRange ((hcmd _ hopc).passes (authOk_mgmt_of_isMgmt hfits hmgmt)) hpart ⟨hlow, hhigh⟩⟩
  · exact ⟨_, rfl, exec_timeStep_accepted ((hcmd _ hopc).passes (authOk_mgmt_of_isMgmt hfits hmgmt)) hpart hnow hpend⟩
  · exact ⟨_, rfl, exec_timeRead ((hcmd _ hopc).passes (authOk_claimed hfits hclaim))⟩

/-! Device time at POR_N (R377). -/

/-- A time unit at its reset stands at 0 s, 0 ns and fraction 0 and advances by 26.0416… ns. -/
theorem time_of_timeUnit_reset {s : State} (h : s.time = TimeUnit.reset) :
    s.now = 0 ∧ s.time.frac = 0 ∧ s.time.inc = 0x0000001A0AAAAAAB#64 := by
  unfold State.now
  rw [h]
  exact ⟨rfl, rfl, rfl⟩

/-- POR_N resets the time unit. -/
theorem porNAssert_time (s : State) : Completes .porNAssert s fun t => t.time = TimeUnit.reset := ⟨_, rfl, rfl⟩

/-- Settles O31: reset and POR_N give the time unit its reset value, and the range check of TIME_INC_SET is the one that decides once the
authority is given. -/
theorem timeIncrement : Obligations.TimeIncrement := by
  refine ⟨time_of_timeUnit_reset rfl, fun s => ?_, ?_⟩
  · obtain ⟨t, hexec, htime⟩ := porNAssert_time s
    exact ⟨t, hexec, time_of_timeUnit_reset htime⟩
  · rintro s s0 p d t _ hpasses hpart rfl
    exact ⟨exec_timeIncSet_inRange hpasses hpart, exec_timeIncSet_outOfRange hpasses hpart⟩

end Sys2Proof.Machine

/-! What a step keeps (R653, R686, R696; spec/95): the invariants over all commands and the tick. -/

namespace Sys2Proof.Machine

/-- With an empty queue a step is a tick. -/
theorem step_of_nil {s : State} (h : s.pending = []) : step s = .next (refclkTick s) := by
  simp [step, h]

/-- With a command waiting a step runs it on the state with the queue's rest. -/
theorem step_of_cons {s : State} {c : Instr} {rest : List Instr} (h : s.pending = c :: rest) :
    step s = exec c { s with pending := rest } := by
  simp [step, h]

/-- What POR_N leaves: everything at reset but OTP, NOR, the free values' counter and the queue. -/
theorem exec_porNAssert (s : State) :
    exec .porNAssert s = .next { State.reset with otp := s.otp, nor := s.nor.cut s.power.onTime, free := s.free, pending := s.pending } := rfl

/-- A step, said once: POR_N_ASSERT resets the device, and every other step keeps what `Keeps` says, with the command at the front gone. -/
theorem step_cases {s t : State} (h : step s = .next t) :
    (s.pending.head? = some .porNAssert ∧ t = { State.reset with otp := s.otp, nor := s.nor.cut s.power.onTime, free := s.free, pending := s.pending.tail }) ∨
      (s.pending.head? ≠ some .porNAssert ∧ Keeps { s with pending := s.pending.tail } t) := by
  cases hq : s.pending with
  | nil =>
    rw [step_of_nil hq] at h
    cases h
    have hs : ({ s with pending := s.pending.tail } : State) = s := by rw [hq, List.tail_nil, ← hq]
    refine .inr ⟨nofun, ?_⟩
    rw [← hq, hs]
    exact refclkTick_keeps (Keeps.rfl' s)
  | cons c rest =>
    rw [step_of_cons hq] at h
    by_cases hc : c = .porNAssert
    · subst hc
      rw [exec_porNAssert] at h
      cases h
      exact .inl ⟨rfl, rfl⟩
    · exact .inr ⟨by simpa using hc, exec_keeps c _ hc t h⟩

/-- Settles O49: POR_N leaves an empty memory, and every other step keeps the canonical form. -/
theorem memoryCanonical : Obligations.MemoryCanonical := by
  intro s t hwf hstep
  obtain ⟨-, rfl⟩ | ⟨-, hkeeps⟩ := step_cases hstep
  · rfl
  · exact hkeeps.canon hwf

/-- Settles O50: of the steps only the one of POR_N_ASSERT takes the device out of the safe state. -/
theorem safeStateHolds : Obligations.SafeStateHolds := by
  intro s t hsafe hstep
  obtain ⟨hpor, -⟩ | ⟨-, hkeeps⟩ := step_cases hstep
  · exact .inr hpor
  · exact .inl (hkeeps.safe hsafe)

/-- Settles O51: POR_N keeps the queue's rest as every other step does. -/
theorem queueFirstInFirstOut : Obligations.QueueFirstInFirstOut := by
  intro s t hstep
  obtain ⟨-, rfl⟩ | ⟨-, hkeeps⟩ := step_cases hstep
  · rfl
  · exact hkeeps.queue

/-- Settles O52: POR_N leaves the OTP as it is, and every other step keeps or raises the lifecycle and the ROLLBACK count. -/
theorem fusesNeverUndone : Obligations.FusesNeverUndone := by
  intro s t hlife hstep
  obtain ⟨-, rfl⟩ | ⟨-, hkeeps⟩ := step_cases hstep
  · exact ⟨le_rfl, hlife, le_rfl⟩
  · obtain ⟨hraised, hbound⟩ := hkeeps.fuses hlife
    exact ⟨hraised, hbound, hkeeps.count⟩

/-- Settles O46: on a queue with a front, `step` is `exec` of that front. -/
theorem stepRunsFront : Obligations.StepRunsFront := fun _ _ _ => step_of_cons rfl

end Sys2Proof.Machine

/-! Host ports: rows, bursts, heartbeat, mode registers (R402 to R452). -/

namespace Sys2Proof.Machine
open Sys2Proof.Safety Sys2Proof.Laws

section
variable {s : State} {p : Fin 4}

theorem settled_of_portUp (h : PortUp s p) (act : State) : s.settled p act = act := by
  obtain ⟨hready, hmode, hsr, hpd⟩ := h
  simp [State.settled, hready, hmode, hsr, hpd]

/-! Rows. -/

theorem exec_act_opens {b : Fin 16} {row : Nat} (h : PortUp s p) (hb : b.val < (s.port p).banks) (hrow : row < 65536)
    (h5 : (s.port p).mode = .lpddr5 → row < 32768) :
    exec (.act p b row) s = .next (s.modPort p fun x => { x with openRows := tput x.openRows b.val row }) := by
  have harm : exec (.act p b row) s = execAct p b row s := rfl
  have hfits : ¬((s.port p).banks ≤ b.val ∨ ((s.port p).mode = .lpddr5 ∧ 32768 ≤ row)) := by
    rintro (hbank | ⟨hmode, hlarge⟩)
    · omega
    · have := h5 hmode
      omega
  simp only [harm, execAct, Nat.mod_eq_of_lt hrow, settled_of_portUp h, if_neg hfits]

theorem exec_pre_bank {b : Fin 16} (h : PortUp s p) (hb : b.val < (s.port p).banks) :
    exec (.pre p (some b)) s = .next (s.modPort p fun x => { x with openRows := tdel x.openRows b.val }) := by
  have harm : exec (.pre p (some b)) s = execPre p (some b) s := rfl
  simp only [harm, execPre, settled_of_portUp h, if_neg (Nat.not_le.2 hb)]

theorem exec_pre_all (h : PortUp s p) : exec (.pre p none) s = .next (s.modPort p fun x => { x with openRows := [] }) :=
  congrArg Host.Outcome.next (settled_of_portUp h _)

end

/-- Settles O1: an ACT puts its row into the table of open rows, a PRE takes one bank's or every row out of it. -/
theorem hostRows : Obligations.HostRows := by
  refine ⟨fun s p b row hup hb hrow h5 => ?_, fun s p b hup hb => ?_, fun s p hup => ?_⟩
  · refine ⟨_, exec_act_opens hup hb hrow h5, ?_, fun c hc => ?_, rfl, rfl⟩
    · simp [Port.rowOf]
    · simp [Port.rowOf, tfind_tput_ne _ _ hc.symm]
  · refine ⟨_, exec_pre_bank hup hb, ?_, fun c hc => ?_, rfl, rfl⟩
    · simp [Port.rowOf]
    · simp [Port.rowOf, tfind_tdel_ne _ hc.symm]
  · exact ⟨_, exec_pre_all hup, fun c => by simp [Port.rowOf, tfind], rfl, rfl⟩

/-! Bursts. -/

/-- A byte field of exactly the length asked for is the list itself. -/
theorem slice_all {l : List Byte} {n : Nat} (h : l.length = n) : slice l 0 n = l := by
  simp [slice, ← h]

section
variable {s : State} {p : Fin 4} {b : Fin 16} {col row : Nat}

theorem exec_rd_open (h : PortUp s p) (hrow : (s.port p).rowOf b.val = some row) :
    exec (.rd p b col) s = .next ((if s.winStored p ((s.port p).winAddr row b.val (col % 64))
      then s.reportMarks (Who.unit (94 + p.val)) (sramBase p + (s.port p).winAddr row b.val (col % 64)) 32 else s).answer
      ((List.range 32).map fun i => s.winByte p ((s.port p).winAddr row b.val (col % 64) + i))) := by
  have harm : exec (.rd p b col) s = execRd p b col s := rfl
  simp only [harm, execRd, settled_of_portUp h, hrow]

theorem exec_rd_closed (h : PortUp s p) (hrow : (s.port p).rowOf b.val = none) :
    exec (.rd p b col) s = .next ((s.proto p).answer (d5 32)) := by
  have harm : exec (.rd p b col) s = execRd p b col s := rfl
  simp only [harm, execRd, settled_of_portUp h, hrow]

theorem exec_wr_open {d : List Byte} {m : BitVec 32} (h : PortUp s p) (hrow : (s.port p).rowOf b.val = some row) :
    exec (.wr p b col d m) s = .next (if m = -1 then s else if m ≠ 0 then s.dropWrite p
      else s.winWrite p ((s.port p).winAddr row b.val (col % 64)) (slice d 0 32)) := by
  have harm : exec (.wr p b col d m) s = execWr p b col d m s := rfl
  simp only [harm, execWr, settled_of_portUp h, hrow]

/-- A burst to an open page of stored window goes to the port's SRAM, after the count of an aperture write in use. -/
theorem winWrite_stored {x : Nat} {d : List Byte} (hfill : (s.port p).filled = true) (hlow : 0x10000 ≤ x) (hhigh : x < 0x610000)
    (hgap : ¬(0x16000 ≤ x ∧ x < 0x20000)) (hopen : s.pageOpen p (x / 4096) = true) (hst : s.sys.st ≠ .safe) :
    ∃ u, (u = s ∨ u = s.hpcCount p 0x28) ∧ s.winWrite p x d = u.put (sramBase p + x) d := by
  have hstored : (decide (x < 0x610000) && !decide (0x16000 ≤ x ∧ x < 0x20000)) = true := by simp [hhigh, hgap]
  have hlow' : ¬x < 0x10000 := by omega
  unfold State.winWrite
  simp only [hfill, hstored, hopen, hst, hlow', Bool.not_true, Bool.true_eq_false, Bool.false_eq_true, false_and, or_false, if_false]
  refine ⟨_, ?_, rfl⟩
  split
  · split
    · exact .inr rfl
    · exact .inl rfl
  · exact .inl rfl

/-- Counting in a port's own block moves no byte of memory. -/
theorem rd_hpcCount {o : Nat} (ho : o < 0x10000) (a : Nat) : (s.hpcCount p o).rd a = s.rd a := s.rd_count _ _ (repairReg_oHpc p ho) a

theorem rd_put_sram {x : Nat} {d : List Byte} (hx : x + d.length ≤ 0x800000) (i : Nat) (hi : i < d.length) :
    (s.put (sramBase p + x) d).rd (sramBase p + x + i) = d[i] := by
  rw [State.rd_put]
  refine State.rd_wrN_direct s _ d (fun j hj => ?_) i hi
  rw [Nat.add_assoc]
  exact direct_sram p (by omega)

theorem rd_put_sram_frame {x a : Nat} {d : List Byte} (hx : x + d.length ≤ 0x800000) (ha : ∀ i < d.length, a ≠ sramBase p + x + i) :
    (s.put (sramBase p + x) d).rd a = s.rd a := by
  rw [State.rd_put]
  refine State.rd_wrN_frame s _ d (fun j hj => ?_) ?_ a ha
  · rw [Nat.add_assoc]
    exact direct_sram p (by omega)
  · have := p.isLt
    unfold sramBase spareBase
    omega

theorem reg_dropWrite (o : Nat) : (s.dropWrite p).reg o = (s.hpcCount p 0x1C).reg o := rfl

theorem oHpc_ne {o m : Nat} (h : o ≠ m) : oHpc p o ≠ oHpc p m := by
  unfold oHpc
  omega

end

/-- Settles O2: a read answers the window's bytes at the burst's address; an unmasked write of stored window is a `put` into the port's SRAM
(`winWrite_stored`), and every other write only counts. -/
theorem hostBursts : Obligations.HostBursts := by
  refine ⟨fun s p b col row hup hcol hrow => ?_, fun s p b col hup hcol hrow => ?_,
    fun s p b col row x d hup hcol hd hrow hx hfill hlow hhigh hgap hopen hst => ?_, fun s p b col row d m hup hcol hd hrow hm => ?_,
    fun s p w hup => ?_⟩
  · refine ⟨_, exec_rd_open hup hrow, ?_⟩
    rw [Nat.mod_eq_of_lt hcol]
    rfl
  · exact ⟨_, exec_rd_closed hup hrow, rfl, s.reg_count _ _, rfl⟩
  · have haddr : (s.port p).winAddr row b.val (col % 64) = x := by rw [hx, Nat.mod_eq_of_lt hcol]; rfl
    obtain ⟨u, hu, hput⟩ := winWrite_stored (d := d) hfill hlow hhigh hgap hopen hst
    have hexec : exec (.wr p b col d 0) s = .next (u.put (sramBase p + x) d) := by
      rw [exec_wr_open hup hrow, if_neg (by decide), if_neg (by decide), haddr, slice_all hd, hput]
    have hrd : ∀ a, u.rd a = s.rd a := by
      obtain rfl | rfl := hu
      · exact fun _ => rfl
      · exact rd_hpcCount (by decide)
    refine ⟨_, hexec, rd_put_sram (by omega), fun a ha => ?_⟩
    rw [rd_put_sram_frame (by omega) (hd ▸ ha), hrd]
  · refine ⟨_, exec_wr_open hup hrow, ?_⟩
    by_cases hall : m = -1
    · simp [hall]
    · rw [if_neg hall, if_pos hm, if_neg hall]
      exact ⟨rfl, s.reg_count _ _⟩
  · have hexec : exec (.rd32Wr32 p w) s =
        .next (if w then (s.hpcCount p 0x20).dropWrite p else (s.hpcCount p 0x20).answer (d5 64)) :=
      congrArg Host.Outcome.next (settled_of_portUp hup _)
    refine ⟨_, hexec, ?_⟩
    cases w with
    | false => exact ⟨s.reg_count _ _, rfl, fun _ => rfl, nofun⟩
    | true =>
      refine ⟨?_, rfl, nofun, fun _ => ?_⟩
      · exact ((s.hpcCount p 0x20).reg_count_ne 1 (oHpc_ne (by decide))).trans (s.reg_count _ _)
      · exact ((s.hpcCount p 0x20).reg_count _ 1).trans
          (congrArg (countUp · 1) (s.reg_count_ne 1 (oHpc_ne (by decide))))

end Sys2Proof.Machine

/-! Host ports: heartbeat, sleep, restart, mode registers and training (R403, R410 to R424, R438 to R447). -/

namespace Sys2Proof.Machine
open Sys2Proof.Safety Sys2Proof.Laws

/-! What closes a session. -/

theorem setPages_port (s : State) (p q : Fin 4) (first n : Nat) (v : Bool) : (s.setPages p first n v).port q = s.port q := by
  unfold State.setPages
  induction List.range n generalizing s with
  | nil => rfl
  | cons i is ih => exact ih _

theorem hostPut_port (s : State) (a : Nat) (l : List Byte) (p : Fin 4) : (s.hostPut a l).port p = s.port p := by
  have hports : (s.hostPut a l).ports = s.ports := by
    unfold State.hostPut State.put State.cleanN
    rw [(marks_keep _ _).2, wrN_ports]
    rfl
  unfold State.port
  rw [hports]

theorem setRing_port (s : State) (p : Fin 4) (d : Nat) (r : Ring) :
    (s.setRing p d r).port p = { s.port p with rings := tput (s.port p).rings d r } := by
  unfold State.setRing
  rw [State.port_modPort, held_port]

/-- Arming the session rings changes a port in its rings alone. -/
theorem armSession_port (s : State) (p : Fin 4) : ∃ l, (s.armSession p).port p = { s.port p with rings := l } := by
  unfold State.armSession
  dsimp only
  simp only [setPages_port, setRing_port, hostPut_port]
  exact ⟨_, rfl⟩

/-- Closing a session leaves of a port everything but its rings and the session. -/
theorem closeSession_port (s : State) (p : Fin 4) : ∃ l, (s.closeSession p).port p = { s.port p with rings := l, session := none } := by
  have hpages : ∀ (l : List (Nat × Ring)) (s : State), (l.foldl (fun s e => if e.1 ≤ 1 then s else s.setPages p (e.2.base / 4096) e.2.size false) s).port p
      = s.port p := by
    intro l
    induction l with
    | nil => exact fun _ => rfl
    | cons e l ih =>
      intro s
      rw [List.foldl_cons, ih]
      split
      · rfl
      · exact setPages_port _ _ _ _ _ _
  unfold State.closeSession
  dsimp only
  split
  · exact (armSession_port _ p).imp fun l harm => harm.trans (by rw [State.port_modPort, hpages])
  · exact ⟨[], by rw [State.port_modPort, hpages]⟩

/-- A lost host: LOST, no interrupt pending, and, with no partition left to its policy outside the safe state, no session. -/
theorem enterLost_port {s : State} {p : Fin 4} (hheld : s.heldBy p = []) (hsafe : s.fcol.safe = false) :
    ((s.enterLost p).port p).hb = .lost ∧ ((s.enterLost p).port p).session = none ∧ ((s.enterLost p).port p).irqStatus = 0 := by
  unfold State.enterLost
  dsimp only
  rw [if_neg (by simpa using hsafe)]
  have hnone : ∀ o v, (((s.modPort p fun x => { x with hb := .lost, irqStatus := 0 }).setRegF o 0 32 v).heldBy p) = [] := fun _ _ => hheld
  rw [hnone, List.foldl_nil]
  obtain ⟨l, hport⟩ := closeSession_port
    ((s.modPort p fun x => { x with hb := .lost, irqStatus := 0 }).setRegF (oHpc p 0x18) 0 32
      (min 0xFFFFFFFF (((s.modPort p fun x => { x with hb := .lost, irqStatus := 0 }).reg (oHpc p 0x18)).toNat + 1))) p
  rw [hport]
  simp

section
variable {s : State} {p : Fin 4}

/-- The interrupt of a heartbeat change touches the interrupt status of its port alone. -/
theorem hbIrq_frame (s : State) (p : Fin 4) : (s.hbIrq p).mem = s.mem ∧ (s.hbIrq p).regs = s.regs ∧
    ∃ v, (s.hbIrq p).port p = { s.port p with irqStatus := v } := by
  unfold State.hbIrq
  split
  · exact ⟨rfl, rfl, _, rfl⟩
  · exact ⟨rfl, rfl, _, State.port_modPort _ _ _⟩

theorem hbIrq_reg (s : State) (p : Fin 4) (o : Nat) : (s.hbIrq p).reg o = s.reg o := by
  obtain ⟨-, hregs, -⟩ := hbIrq_frame s p
  unfold State.reg
  rw [hregs]

/-! Heartbeat. -/

theorem exec_ref (h : PortUp s p) (hrows : (s.port p).openRows = []) : exec (.ref p) s = .next
    (if (s.port p).hb = .init ∨ (s.port p).hb = .lost then ((s.countWrap (oHpc p 0x10)).modPort p fun x => { x with hb := .live }).hbIrq p
      else s.countWrap (oHpc p 0x10)) := by
  have harm : exec (.ref p) s = execRef p s := rfl
  simp only [harm, execRef, settled_of_portUp h, hrows, List.isEmpty_nil, if_true]

theorem exec_sre (h : PortUp s p) (hrows : (s.port p).openRows = []) : exec (.sre p) s = .next
    (if (s.port p).hb = .live then (((s.hpcCount p 0x14).modPort p fun x => { x with openRows := [], sr := true }).modPort p
        fun x => { x with hb := .sleeping, hint := true }).hbIrq p
      else (s.hpcCount p 0x14).modPort p fun x => { x with openRows := [], sr := true }) := by
  have harm : exec (.sre p) s = execSre p s := rfl
  simp only [harm, execSre, settled_of_portUp h, hrows, List.isEmpty_nil, if_true]

theorem exec_srx (hready : (s.port p).ready = true) (hmode : (s.port p).mode ≠ .unsettled) : exec (.srx p) s = .next
    (if (s.port p).hb = .sleeping then ((s.modPort p fun x => { x with sr := false, hint := false }).modPort p
        fun x => { x with hb := .live }).hbIrq p
      else s.modPort p fun x => { x with sr := false, hint := false }) := by
  have harm : exec (.srx p) s = execSrx p s := rfl
  simp only [harm, execSrx, hready, Bool.not_true, Bool.false_eq_true, if_false, if_neg hmode]

theorem exec_pdePdx {e : Bool} (hready : (s.port p).ready = true) (hmode : (s.port p).mode ≠ .unsettled) :
    exec (.pdePdx p e) s = .next (s.modPort p fun x => { x with pd := e }) := by
  have harm : exec (.pdePdx p e) s = execPdePdx p e s := rfl
  simp only [harm, execPdePdx, hready, Bool.not_true, Bool.false_eq_true, if_false, if_neg hmode]

theorem exec_heartbeatTimeout (hlive : (s.port p).hb = .live) : exec (.heartbeatTimeout p) s = .next (s.enterLost p) :=
  congrArg Host.Outcome.next (if_pos hlive)

theorem exec_hostPortReady (hpor : s.sys.por = false) (hready : (s.port p).ready = false) :
    exec (.hostPortReady p) s = .next (s.modPort p fun x => { x with ready := true }) := by
  have harm : exec (.hostPortReady p) s = execHostPortReady p s := rfl
  simp [harm, execHostPortReady, hpor, hready]

/-- The fill of a port's SRAM done, the port is filled; it stays so where it was. -/
theorem exec_hpSramZeroFillDone (hpor : s.sys.por = false) : ∃ t, exec (.hpSramZeroFillDone p) s = .next t ∧ (t.port p).filled = true := by
  have harm : exec (.hpSramZeroFillDone p) s = execHpSramZeroFillDone p s := rfl
  rw [harm, execHpSramZeroFillDone]
  cases hfill : (s.port p).filled with
  | true => exact ⟨s, by simp, hfill⟩
  | false => exact ⟨s.modPort p fun x => { x with filled := true }, by simp [hpor], by simp⟩

end

/-- Settles O3. The heartbeat moves by `exec_ref`, `exec_sre` and `exec_srx`, whose interrupt touches no more than the interrupt status;
`enterLost_port` is the lost host, `Port.restart` the restart. -/
theorem hostHeartbeat : Obligations.HostHeartbeat := by
  refine ⟨fun s p hup hrows => ⟨_, exec_ref hup hrows, ?_⟩, fun s p hup hmode => ?_, fun s p hup hrows => ⟨_, exec_sre hup hrows, ?_⟩,
    fun s p hready hmode => ⟨_, exec_srx hready hmode, ?_⟩, fun s p e hready hmode => ⟨_, exec_pdePdx hready hmode, ?_⟩,
    fun s p hlive hheld hsafe => ⟨_, exec_heartbeatTimeout hlive, enterLost_port hheld hsafe⟩, fun s p => ⟨_, rfl, ?_⟩, fun s p => ⟨_, rfl, ?_⟩,
    fun s p hpor hready => ⟨_, exec_hostPortReady hpor hready, ?_⟩, fun s p hpor => exec_hpSramZeroFillDone hpor⟩
  · split
    · obtain ⟨hmem, -, v, hport⟩ := hbIrq_frame ((s.countWrap (oHpc p 0x10)).modPort p fun x => { x with hb := .live }) p
      rw [hbIrq_reg, hmem, hport]
      exact ⟨by simp [State.countWrap], rfl, by simp⟩
    · exact ⟨by simp [State.countWrap], rfl, rfl⟩
  · have harm : exec (.rfm p) s = execRfm p s := rfl
    rw [harm, execRfm, settled_of_portUp hup, if_pos hmode]
  · split
    · obtain ⟨hmem, -, v, hport⟩ := hbIrq_frame
        (((s.hpcCount p 0x14).modPort p fun x => { x with openRows := [], sr := true }).modPort p fun x => { x with hb := .sleeping, hint := true }) p
      rw [hmem, hport]
      exact ⟨by simp, rfl, by simp⟩
    · exact ⟨by simp, rfl, by simp [State.hpcCount]⟩
  · split
    · obtain ⟨hmem, -, v, hport⟩ := hbIrq_frame
        ((s.modPort p fun x => { x with sr := false, hint := false }).modPort p fun x => { x with hb := .live }) p
      rw [hmem, hport]
      exact ⟨by simp, by simp, rfl, by simp⟩
    · exact ⟨by simp, by simp, rfl, by simp⟩
  · exact ⟨by simp, by simp, rfl⟩
  · simp [Port.restart]
  · simp [Port.restart]
  · exact ⟨by simp, by simp, rfl⟩

/-! Mode registers. -/

section
variable {s : State} {p : Fin 4}

/-- What a write in the settled mode does: the port keeps its mode, and the register takes `mrStored` unless the write has no place. -/
theorem mrWrite_frame (s : State) (p : Fin 4) (ma : Nat) (op : Byte) :
    ((s.mrWrite p ma op).port p).mode = (s.port p).mode ∧ (s.mrWrite p ma op).mem = s.mem ∧
      ((s.mrWrite p ma op).port p).mr ma = if mrFixed (s.port p).is5 ma ∨ Config.mrDefined (s.port p).is5 ma = false then (s.port p).mr ma
        else mrStored (s.port p).is5 ma ((s.port p).mr ma) op := by
  unfold State.mrWrite
  dsimp only
  by_cases hfixed : mrFixed (s.port p).is5 ma = true
  · simp only [hfixed, if_true, true_or]
    exact ⟨rfl, rfl, rfl⟩
  · cases hdef : Config.mrDefined (s.port p).is5 ma with
    | false =>
      simp only [hfixed, Bool.not_false, if_true, or_true]
      exact ⟨rfl, rfl, rfl⟩
    | true =>
      have hport : (if mrAsks (s.port p).is5 ma op = true then s.hpcCount p 0x20 else s).port p = s.port p := by split <;> rfl
      have hmem : (if mrAsks (s.port p).is5 ma op = true then s.hpcCount p 0x20 else s).mem = s.mem := by split <;> rfl
      simp only [hfixed, Bool.not_true, Bool.false_eq_true, if_false, State.port_modPort, State.modPort_mem, hport, hmem, or_self,
        Bool.true_eq_false]
      exact ⟨trivial, trivial, by simp [Port.mr, tget]⟩

theorem exec_mrw_unsettled {ma : BitVec 8} {op : Byte} {v4 : Bool} (hready : (s.port p).ready = true) (hmode : (s.port p).mode = .unsettled) :
    exec (.mrw p ma op (!v4) v4) s = .next ((s.modPort p fun x => { x with mode := if v4 then .lpddr4x else .lpddr5 }).mrWrite p ma.toNat op) := by
  have harm : exec (.mrw p ma op (!v4) v4) s = execMrw p ma op (!v4) v4 s := rfl
  rw [harm, execMrw]
  cases v4 <;> simp [hready, hmode]

theorem exec_mrw_lpddr4x {ma : BitVec 8} {op : Byte} {v5 : Bool} (hready : (s.port p).ready = true) (hmode : (s.port p).mode = .lpddr4x) :
    exec (.mrw p ma op v5 true) s = .next (s.mrWrite p ma.toNat op) := by
  have harm : exec (.mrw p ma op v5 true) s = execMrw p ma op v5 true s := rfl
  rw [harm, execMrw]
  simp [hready, hmode]

theorem port_answer (s : State) (l : List Byte) (p : Fin 4) : (s.answer l).port p = s.port p := rfl

theorem exec_trainingCommand (h : PortUp s p) (c : Training) : exec (.trainingCommand p c) s = .next (match c with
    | .fifoWrite b => s.modPort p fun x => { x with fifo := x.fifo ++ slice b 0 32 }
    | .fifoRead =>
      if (s.port p).fifo.isEmpty then let r := s.freeBytes 8; r.2.answer r.1
      else (s.modPort p fun x => { x with fifo := x.fifo.drop 32 }).answer ((s.port p).fifo.take 32)
    | .dqCalibration => let r := s.freeBytes 8; r.2.answer r.1
    | .zq => s
    | .oscillator => s
    | .levelling => s) := by
  refine Eq.trans ?_ (congrArg Host.Outcome.next (settled_of_portUp h _))
  rfl

end

/-- Settles O4: `mrWrite_frame` is the one rule for a mode register's write; the identity registers are constants of `mrValue`. -/
theorem hostModeRegs : Obligations.HostModeRegs := by
  refine ⟨fun s p ma op v4 hready hmode => ⟨_, exec_mrw_unsettled hready hmode, ?_⟩, fun s p ma op v5 hready hmode => ⟨_, exec_mrw_lpddr4x hready hmode, ?_⟩,
    fun s p ma hup => ⟨_, congrArg Host.Outcome.next (settled_of_portUp hup _), rfl, rfl, rfl, rfl⟩, fun s p => ⟨rfl, rfl, rfl, rfl, rfl, rfl⟩,
    fun s p b hup hb => ⟨_, exec_trainingCommand hup _, ?_⟩, fun s p hup hfifo => ⟨_, exec_trainingCommand hup _, ?_⟩, fun s p c hup hc => ?_⟩
  · obtain ⟨hkeeps, -, -⟩ := mrWrite_frame (s.modPort p fun x => { x with mode := if v4 then .lpddr4x else .lpddr5 }) p ma.toNat op
    rw [hkeeps, State.port_modPort]
  · obtain ⟨hkeeps, hmem, hreg⟩ := mrWrite_frame s p ma.toNat op
    have h4 : (s.port p).is5 = false := by simp [Port.is5, hmode]
    exact ⟨hkeeps.trans hmode, hmem, by rw [hreg, h4]⟩
  · exact ⟨by simp [slice_all hb], rfl⟩
  · have hne : (s.port p).fifo.isEmpty = false := by simpa using hfifo
    simp only [hne, Bool.false_eq_true, if_false]
    exact ⟨rfl, by simp [port_answer], rfl⟩
  · rw [exec_trainingCommand hup]
    obtain rfl | rfl | rfl := hc <;> rfl

end Sys2Proof.Machine

/-! Pure arithmetic of the units: INT32 of the vector unit (R242, R244), ARGMAX (R247), lane striping (R552). -/

namespace Sys2Proof.Machine

/-! INT32. -/

/-- An INT32 result is the exact one clamped, and counts as saturated exactly when the exact one lies outside (R244). -/
theorem intRes_eq (v : Int) : intRes v =
    ⟨.int (max (-2 ^ 31) (min (2 ^ 31 - 1) v)), if -2 ^ 31 ≤ v ∧ v < 2 ^ 31 then 0 else 1, 0⟩ := by
  have hcount : (if v < -2147483648 ∨ 2147483647 < v then 1 else 0) = if -2147483648 ≤ v ∧ v < 2147483648 then 0 else 1 := by
    split_ifs <;> omega
  norm_num [intRes, Fmt.range, clampInt, hcount]

theorem sext32_range (v : Nat) : -2 ^ 31 ≤ sext 32 v ∧ sext 32 v < 2 ^ 31 := by
  simp only [sext]
  split <;> omega

/-- An arithmetic shift to the right leaves INT32 nowhere. -/
theorem ediv_two_pow_range {x : Int} (hlow : -2 ^ 31 ≤ x) (hhigh : x < 2 ^ 31) (k : Nat) : -2 ^ 31 ≤ x / 2 ^ k ∧ x / 2 ^ k < 2 ^ 31 := by
  have hpos : (0 : Int) < 2 ^ k := Int.pow_pos (by decide)
  have hone : (1 : Int) ≤ 2 ^ k := hpos
  exact ⟨(Int.le_ediv_iff_mul_le hpos).2 (by nlinarith), Int.ediv_lt_of_lt_mul hpos (by nlinarith)⟩

/-- Settles O7: ADD, SUB, MUL and SHL end in `intRes` of the exact result, the others in an operand, in `sext 32`, or in a shift to the right. -/
theorem vecIntegersSaturate : Obligations.VecIntegersSaturate := by
  intro x y hxlow hxhigh hylow hyhigh
  refine ⟨fun e he => ?_, rfl, rfl, rfl, fun vop hvop => ?_⟩
  · simp only [List.mem_cons, List.not_mem_nil, or_false] at he
    obtain rfl | rfl | rfl | rfl := he <;> exact intRes_eq _
  · simp only [List.mem_cons, List.not_mem_nil, or_false] at hvop
    obtain rfl | rfl | rfl | rfl := hvop
    · exact ⟨_, rfl, sext32_range _⟩
    · exact ⟨_, rfl, sext32_range _⟩
    · exact ⟨_, rfl, sext32_range _⟩
    · exact ⟨_, rfl, ediv_two_pow_range hxlow hxhigh _⟩

/-! ARGMAX. -/

/-- One step of the search of `bestIdx`: the element met replaces the best one so far where that is below it. -/
def bestStep (lt : Elem → Elem → Bool) (acc : Option (Elem × Nat)) (e : Elem × Nat) : Option (Elem × Nat) :=
  match acc with
  | none => some e
  | some (b, j) => if lt b e.1 then some e else some (b, j)

theorem bestIdx_eq_foldl (lt : Elem → Elem → Bool) (l : List Elem) :
    bestIdx lt l = (l.zipIdx.foldl (bestStep lt) none).elim 0 (·.2) := rfl

/-- `m` stands at `i` in `l`, is one of the largest there, and all before it are smaller. -/
def IsFirstMax (l : List Int) (i : Nat) (m : Int) : Prop :=
  l[i]? = some m ∧ (∀ x ∈ l, x ≤ m) ∧ ∀ (j : Nat) (x : Int), j < i → l[j]? = some x → x < m

theorem IsFirstMax.lt_length {l : List Int} {i : Nat} {m : Int} (h : IsFirstMax l i m) : i < l.length :=
  (List.getElem?_eq_some_iff.1 h.1).1

/-- An element above the largest so far is the new one. -/
theorem IsFirstMax.append_larger {l : List Int} {i : Nat} {m a : Int} (h : IsFirstMax l i m) (ha : m < a) : IsFirstMax (l ++ [a]) l.length a := by
  obtain ⟨-, hmax, -⟩ := h
  refine ⟨by simp, fun x hx => ?_, fun j x hj hx => ?_⟩
  · obtain hx | rfl := by simpa using hx
    · exact (hmax x hx).trans ha.le
    · exact le_rfl
  · rw [List.getElem?_append_left hj] at hx
    exact (hmax x (List.mem_of_getElem? hx)).trans_lt ha

/-- An element not above it leaves the first largest where it is. -/
theorem IsFirstMax.append_not_larger {l : List Int} {i : Nat} {m a : Int} (h : IsFirstMax l i m) (ha : a ≤ m) : IsFirstMax (l ++ [a]) i m := by
  have hi := h.lt_length
  obtain ⟨hat, hmax, hfirst⟩ := h
  refine ⟨by rwa [List.getElem?_append_left hi], fun x hx => ?_, fun j x hj hx => ?_⟩
  · obtain hx | rfl := by simpa using hx
    · exact hmax x hx
    · exact ha
  · rw [List.getElem?_append_left (hj.trans hi)] at hx
    exact hfirst j x hj hx

/-- The search over a non-empty list of integers holds its first largest element. -/
theorem foldl_bestStep_isFirstMax (l : List Int) (hl : l ≠ []) :
    ∃ m i, (l.map Elem.int).zipIdx.foldl (bestStep elemLt) none = some (.int m, i) ∧ IsFirstMax l i m := by
  induction l using List.reverseRecOn with
  | nil => exact absurd rfl hl
  | append_singleton l a ih =>
    rw [List.map_append, List.zipIdx_append, List.foldl_append]
    cases l with
    | nil => exact ⟨a, 0, rfl, by simp [IsFirstMax]⟩
    | cons b l =>
      obtain ⟨m, i, hfold, hfirst⟩ := ih (List.cons_ne_nil _ _)
      rw [hfold]
      by_cases ha : m < a
      · exact ⟨a, (b :: l).length, by simp [bestStep, elemLt, ha], hfirst.append_larger ha⟩
      · exact ⟨m, i, by simp [bestStep, elemLt, ha], hfirst.append_not_larger (not_lt.1 ha)⟩

/-- Settles O53 by the search's invariant, the first largest element of what has been passed. -/
theorem argmaxLowest : Obligations.ArgmaxLowest := by
  intro l hl
  obtain ⟨m, i, hfold, hfirst⟩ := foldl_bestStep_isFirstMax l hl
  rw [bestIdx_eq_foldl, hfold]
  exact ⟨m, hfirst⟩

/-! Lanes. -/

/-- An element that a filter keeps stands there behind as many as the filter keeps before it. -/
theorem getElem?_filter_countP_take {α : Type} (p : α → Bool) (l : List α) (i : Nat) (x : α) (hx : l[i]? = some x) (hp : p x = true) :
    (l.filter p)[(l.take i).countP p]? = some x := by
  induction l generalizing i with
  | nil => simp at hx
  | cons a l ih =>
    cases i with
    | zero =>
      obtain rfl : a = x := by simpa using hx
      simp [hp]
    | succ i =>
      have hrest := ih i (by simpa using hx)
      by_cases ha : p a = true
      · simpa [ha] using hrest
      · simpa [ha] using hrest

/-- Of the first `i` bytes of a list, those whose index is `v` modulo `n` are as many as such numbers below `i`. -/
theorem countP_take_zipIdx (b : List Byte) (n v i : Nat) (hi : i ≤ b.length) :
    (b.zipIdx.take i).countP (fun e => decide (e.2 ≡ v [MOD n])) = Nat.count (· ≡ v [MOD n]) i := by
  induction i with
  | zero => rfl
  | succ i ih =>
    have hlt : i < b.zipIdx.length := by simpa using hi
    rw [List.take_succ_eq_append_getElem hlt, List.countP_append, ih (by omega), Nat.count_succ]
    simp

theorem length_laneList_pos {m : BitVec 8} (hm : m ≠ 0) : 0 < (laneList m).length := by
  revert m
  decide

theorem laneList_nodup (m : BitVec 8) : (laneList m).Nodup := List.nodup_range.filter _

theorem laneList_lt {m : BitVec 8} {k : Nat} (hk : k ∈ laneList m) : k < 8 := List.mem_range.1 (List.mem_filter.1 hk).1

/-- Byte `i` of the stream goes on one lane, behind the `i / n` bytes before it that went there too (R552). -/
theorem stripeLane_getElem? {ls : List Nat} (hnodup : ls.Nodup) (hpos : 0 < ls.length) (pos : Nat) (b : List Byte) (i : Nat) (hi : i < b.length) :
    (stripeLane ls pos b (ls[(pos + i) % ls.length]'(Nat.mod_lt _ hpos)))[i / ls.length]? = some b[i] := by
  have hsame : ∀ j, ls[(pos + j) % ls.length]? = some (ls[(pos + i) % ls.length]'(Nat.mod_lt _ hpos)) ↔ j ≡ i [MOD ls.length] := by
    intro j
    rw [List.getElem?_eq_getElem (Nat.mod_lt _ hpos), Option.some_inj, hnodup.getElem_inj_iff]
    exact ⟨Nat.ModEq.add_left_cancel' pos, Nat.ModEq.add_left pos⟩
  have hcount : (b.zipIdx.take i).countP (fun e => decide (e.2 ≡ i [MOD ls.length])) = i / ls.length := by
    rw [countP_take_zipIdx b _ _ i hi.le, Nat.count_modEq_card _ hpos]
    simp
  have hat : b.zipIdx[i]? = some (b[i], i) := by simp [hi]
  have hkept := getElem?_filter_countP_take (fun e : Byte × Nat => decide (e.2 ≡ i [MOD ls.length])) b.zipIdx i _ hat (decide_eq_true rfl)
  rw [hcount] at hkept
  simp only [stripeLane, hsame, List.getElem?_map, hkept, Option.map_some]

/-- Settles O58: of a lane that brings byte `i`, the receiver takes the byte at `i / n`, where the sender has put it. -/
theorem laneStriping : Obligations.LaneStriping := by
  intro m pos b hm
  have hpos := length_laneList_pos hm
  refine List.ext_getElem (by simp [unstripe]) fun i hleft hi => ?_
  have hlane : ((laneList m)[(pos + i) % (laneList m).length]'(Nat.mod_lt _ hpos)) < 8 := laneList_lt (List.getElem_mem _)
  have hbyte := stripeLane_getElem? (laneList_nodup m) hpos pos b i hi
  simp [unstripe, stripe, List.getD_eq_getElem?_getD, List.getElem?_eq_getElem (Nat.mod_lt _ hpos), hlane, hbyte]

/-! Reset. -/

/-- Settles O48: every field of the reset state is a literal. -/
theorem resetCanonical : Obligations.ResetCanonical := ⟨rfl, rfl, rfl, rfl, rfl, rfl, by decide, rfl⟩

/-- Settles O54: the registers are unlisted at reset, so each reads as `regReset` gives it; ports, partitions and links are replicas of theirs. -/
theorem resetValues : Obligations.ResetValues := by
  refine ⟨fun p => ?_, fun r => ?_, fun l => ?_, rfl, rfl, rfl, rfl, rfl, rfl, rfl, rfl, by decide, by decide, by decide, by decide, by decide⟩
  · have hport : State.reset.port p = Port.reset := by fin_cases p <;> rfl
    rw [hport]
    exact ⟨rfl, rfl, rfl, rfl, rfl⟩
  · have hpart : State.reset.part r = Part.reset := by fin_cases r <;> rfl
    rw [hpart]
    rfl
  · have hlink : State.reset.link l = Link.reset := by fin_cases l <;> rfl
    rw [hlink]
    rfl

end Sys2Proof.Machine

/-! Well-formed commands go on; bit fields; main memory (R529 to R536, R549). -/

namespace Sys2Proof.Machine
open Sys2Proof.Safety

/-! No well-formed command stops the block. -/

section
variable {s : State} {f : Fin 4} {reqs : List SpReq}

theorem exec_scratchpadRead (h : reqs.all SpReq.ok = true) : exec (.scratchpadRead f reqs) s = .next
    ((((s.spArb f reqs).2.1.modFrond f fun x => { x with
      spWait := x.spWait ++ ((s.spArb f reqs).1.filter fun r => !r.write).filter fun r => s.spFilling f r.row }).spServe f
        (((s.spArb f reqs).1.filter fun r => !r.write).filter fun r => !s.spFilling f r.row)).spEnd f (s.spArb f reqs).2.2) := by
  have harm : exec (.scratchpadRead f reqs) s = execScratchpadRead f reqs s := rfl
  rw [harm, execScratchpadRead, h]
  rfl

theorem exec_scratchpadWrite {d : List Byte} {bcw : Word} (h : reqs.all SpReq.ok = true) : exec (.scratchpadWrite f reqs d bcw) s = .next
    (s.spWriteCmd f reqs fun s h =>
      let a := 256 * (h.row / 4)
      let r := s.spStore (s.frondWho f h.unit.opcode) f h.unit.rank ⟨a, slice d 0 256⟩
      if s.resByte f < a + 256 then r else (r.1.setBcw (spBase f + a) bcw, r.2)) := by
  have harm : exec (.scratchpadWrite f reqs d bcw) s = execScratchpadWrite f reqs d bcw s := rfl
  rw [harm, execScratchpadWrite, h]
  rfl

theorem exec_scratchpadMerge {n : Nat} {d : List Byte} (h : reqs.all SpReq.ok = true) : exec (.scratchpadMerge f reqs n d) s = .next
    (s.spWriteCmd f reqs fun s h =>
      s.spStore (s.frondWho f h.unit.opcode) f h.unit.rank ⟨64 * h.row, slice d 0 (64 * min n (4 - h.row % 4))⟩) := by
  have harm : exec (.scratchpadMerge f reqs n d) s = execScratchpadMerge f reqs n d s := rfl
  rw [harm, execScratchpadMerge, h]
  rfl

theorem exec_partialRowWrite {st : Nat} {d : List Byte} (h : reqs.all SpReq.ok = true) : exec (.partialRowWrite f reqs st d) s = .next
    (s.spWriteCmd f reqs fun s h =>
      s.spStore (s.frondWho f h.unit.opcode) f h.unit.rank ⟨64 * h.row + st, d.take (64 - st)⟩) := by
  have harm : exec (.partialRowWrite f reqs st d) s = execPartialRowWrite f reqs st d s := rfl
  rw [harm, execPartialRowWrite, h]
  rfl

end

theorem exec_matAccess {s : State} {reqs : List MatReq} (h : reqs.all MatReq.ok = true) : exec (.matAccess reqs) s = .next
    ((matServed reqs).foldl State.matWrite
      ((if s.sys.zfillMat then { s with matWait := s.matWait ++ (matServed reqs).filter fun r => !r.writes, out := [] }
        else s.matServe ((matServed reqs).filter fun r => !r.writes)).matHold (matServed reqs)
          (reqs.filter fun r => !(matServed reqs).contains r))) := by
  have harm : exec (.matAccess reqs) s = execMatAccess reqs s := rfl
  rw [harm, execMatAccess, h]
  rfl

/-- Only an access of the scratchpad or the Mat past its end stops the block (R164, R184); every other arm of `exec` answers a next state. -/
theorem exec_goesOn {c : Instr} (h : c.wellFormed = true) (s : State) : ∃ t, exec c s = .next t := by
  cases c
  case scratchpadRead f reqs => exact ⟨_, exec_scratchpadRead h⟩
  case scratchpadWrite f reqs d bcw =>
    obtain ⟨hok, -⟩ := Bool.and_eq_true_iff.1 h
    exact ⟨_, exec_scratchpadWrite hok⟩
  case scratchpadMerge f reqs n d =>
    obtain ⟨hok, -⟩ := Bool.and_eq_true_iff.1 h
    exact ⟨_, exec_scratchpadMerge hok⟩
  case partialRowWrite f reqs st d =>
    obtain ⟨hok, -⟩ := Bool.and_eq_true_iff.1 h
    exact ⟨_, exec_partialRowWrite hok⟩
  case matAccess reqs =>
    have hok : reqs.all MatReq.ok = true := by
      refine List.all_eq_true.2 fun r hr => ?_
      obtain ⟨hin, -⟩ := Bool.and_eq_true_iff.1 (List.all_eq_true.1 h r hr)
      exact hin
    exact ⟨_, exec_matAccess hok⟩
  case i2cWrite bytes => cases bytes <;> exact ⟨_, rfl⟩
  all_goals exact ⟨_, rfl⟩

/-- Settles O55: an idle step is a tick, and the command at the front goes on by `exec_goesOn`. -/
theorem wellFormedGoesOn : Obligations.WellFormedGoesOn := by
  intro s hwf
  cases hq : s.pending with
  | nil => exact ⟨_, step_of_nil hq⟩
  | cons c rest =>
    obtain ⟨t, ht⟩ := exec_goesOn (hwf c (by simp [hq])) { s with pending := rest }
    exact ⟨t, (step_of_cons hq).trans ht⟩

/-! Bit fields. -/

theorem testBit_bits (v lo len i : Nat) : (bits v lo len).testBit i = (decide (i < len) && v.testBit (lo + i)) := by
  simp [bits, Nat.testBit_mod_two_pow, Nat.testBit_shiftRight]

/-- The fields above and below the one replaced, and what replaces it. -/
theorem setBits_eq (v lo len x : Nat) : setBits v lo len x = 2 ^ lo * (2 ^ len * (v / 2 ^ lo / 2 ^ len) + x % 2 ^ len) + v % 2 ^ lo := by
  have hlow := Nat.div_add_mod v (2 ^ lo)
  have hfield := Nat.div_add_mod (v / 2 ^ lo) (2 ^ len)
  have hsplit : v = 2 ^ lo * (2 ^ len * (v / 2 ^ lo / 2 ^ len)) + v / 2 ^ lo % 2 ^ len * 2 ^ lo + v % 2 ^ lo := by
    calc v = 2 ^ lo * (v / 2 ^ lo) + v % 2 ^ lo := hlow.symm
      _ = 2 ^ lo * (2 ^ len * (v / 2 ^ lo / 2 ^ len) + v / 2 ^ lo % 2 ^ len) + v % 2 ^ lo := by rw [hfield]
      _ = _ := by ring
  have hnew : 2 ^ lo * (2 ^ len * (v / 2 ^ lo / 2 ^ len) + x % 2 ^ len) =
      2 ^ lo * (2 ^ len * (v / 2 ^ lo / 2 ^ len)) + x % 2 ^ len * 2 ^ lo := by ring
  have hbits : bits v lo len = v / 2 ^ lo % 2 ^ len := by rw [bits, Nat.shiftRight_eq_div_pow]
  rw [setBits, hbits, hnew]
  omega

/-- A bit of a word of which one field is replaced. -/
theorem testBit_setBits (v lo len x i : Nat) :
    (setBits v lo len x).testBit i = if lo ≤ i ∧ i < lo + len then x.testBit (i - lo) else v.testBit i := by
  rw [setBits_eq, Nat.testBit_two_pow_mul_add _ (Nat.mod_lt _ (Nat.two_pow_pos _)),
    Nat.testBit_two_pow_mul_add _ (Nat.mod_lt _ (Nat.two_pow_pos _))]
  simp only [Nat.testBit_mod_two_pow, Nat.testBit_div_two_pow]
  by_cases hlow : i < lo
  · have hout : ¬(lo ≤ i ∧ i < lo + len) := by omega
    simp [hlow, hout]
  · by_cases hin : i - lo < len
    · have hfield : lo ≤ i ∧ i < lo + len := by omega
      simp [hlow, hin, hfield]
    · have hout : ¬(lo ≤ i ∧ i < lo + len) := by omega
      rw [if_neg hlow, if_neg hin, if_neg hout]
      congr 1
      omega

/-- The field replaced reads as the low bits of what replaced it. -/
theorem bits_setBits_self (v lo len x : Nat) : bits (setBits v lo len x) lo len = x % 2 ^ len := by
  refine Nat.eq_of_testBit_eq fun i => ?_
  rw [testBit_bits, testBit_setBits, Nat.testBit_mod_two_pow]
  by_cases hi : i < len <;> simp [hi]

/-- A field outside the one replaced reads as before. -/
theorem bits_setBits_ne {v lo len x lo' len' : Nat} (h : lo' + len' ≤ lo ∨ lo + len ≤ lo') : bits (setBits v lo len x) lo' len' = bits v lo' len' := by
  refine Nat.eq_of_testBit_eq fun i => ?_
  rw [testBit_bits, testBit_bits, testBit_setBits]
  by_cases hi : i < len'
  · rw [if_neg (by omega)]
  · simp [hi]

theorem setBits_lt {v lo len x n : Nat} (hv : v < 2 ^ n) (h : lo + len ≤ n) : setBits v lo len x < 2 ^ n := by
  refine Nat.lt_pow_two_of_testBit _ fun i hi => ?_
  rw [testBit_setBits, if_neg (by omega)]
  exact Nat.testBit_lt_two_pow (hv.trans_le (Nat.pow_le_pow_right (by decide) hi))

/-- A field of a register just written reads as written, cut to its width. -/
theorem regF_setRegF_self (s : State) {o lo len v : Nat} (h : lo + len ≤ 32) : (s.setRegF o lo len v).regF o lo len = v % 2 ^ len := by
  have hlt : setBits (s.reg o).toNat lo len v < 2 ^ 32 := setBits_lt (s.reg o).isLt h
  rw [State.regF, State.setRegF, State.reg_setReg, BitVec.toNat_ofNat, Nat.mod_eq_of_lt hlt, bits_setBits_self]

theorem regF_setRegF_ne (s : State) {o lo len v lo' len' : Nat} (h : lo + len ≤ 32) (hne : lo' + len' ≤ lo ∨ lo + len ≤ lo') :
    (s.setRegF o lo len v).regF o lo' len' = s.regF o lo' len' := by
  have hlt : setBits (s.reg o).toNat lo len v < 2 ^ 32 := setBits_lt (s.reg o).isLt h
  rw [State.regF, State.setRegF, State.reg_setReg, BitVec.toNat_ofNat, Nat.mod_eq_of_lt hlt, bits_setBits_ne hne, State.regF]

end Sys2Proof.Machine

/-! Main memory (R529 to R536, R549). -/

namespace Sys2Proof.Machine
open Sys2Proof.Safety

/-! What a write of memory leaves. -/

theorem wrN_eq (s : State) (a : Nat) (l : List Byte) : s.wrN a l = { s with mem := (s.wrN a l).mem } := by
  induction l generalizing s a with
  | nil => rfl
  | cons b l ih => exact ih (s.wr a b) (a + 1)

theorem cleanN_eq (s : State) (a n : Nat) : s.cleanN a n = { s with upsets := (s.cleanN a n).upsets } := by
  unfold State.cleanN
  induction unitsOf a n generalizing s with
  | nil => rfl
  | cons u us ih => exact ih (s.setMark u .none)

/-- Putting bytes changes bytes and marks, and nothing else. -/
theorem put_eq (s : State) (a : Nat) (l : List Byte) : s.put a l = { s with mem := (s.put a l).mem, upsets := (s.put a l).upsets } := by
  unfold State.put
  rw [cleanN_eq, wrN_eq]

theorem put_regs (s : State) (a : Nat) (l : List Byte) : (s.put a l).regs = s.regs := by rw [put_eq]
theorem put_bcwAt (s : State) (a : Nat) (l : List Byte) (x : Nat) : (s.put a l).bcwAt x = s.bcwAt x := by
  rw [put_eq]
  rfl

theorem bcwAt_setBcw_ne (s : State) {a x : Nat} (w : Word) (h : x / 256 ≠ a / 256) : (s.setBcw a w).bcwAt x = s.bcwAt x :=
  tget_tset_ne _ _ _ h.symm

/-- Bytes put into main memory read back, and no other byte changes. -/
theorem rd_put_dram {s : State} {a : Nat} {l : List Byte} (h : a + l.length ≤ dramEnd) :
    (∀ i (hi : i < l.length), (s.put a l).rd (a + i) = l[i]) ∧ ∀ x, (∀ i < l.length, x ≠ a + i) → (s.put a l).rd x = s.rd x := by
  have hdirect : ∀ i < l.length, direct (a + i) := fun i hi => direct_dram (by omega)
  refine ⟨fun i hi => ?_, fun x hx => ?_⟩
  · rw [State.rd_put]
    exact State.rd_wrN_direct s a l hdirect i hi
  · rw [State.rd_put]
    exact State.rd_wrN_frame s a l hdirect (h.trans (by decide)) x hx

/-- Nothing is reported of a range without marks. -/
theorem reportMarks_of_marksIn_nil {s : State} {a n : Nat} (h : s.marksIn a n = []) (w : Who) : s.reportMarks w a n = s := by
  unfold State.reportMarks
  rw [h]
  rfl

/-- Bytes inside one block are one piece. -/
theorem blockPieces_of_one_block {a : Nat} {l : List Byte} (hl : l ≠ []) (h : a % 256 + l.length ≤ 256) (k : Nat) :
    blockPieces (k + 1) a l = [(a, l)] := by
  have hall : l.length ≤ 256 - a % 256 := by omega
  have hrest : blockPieces k (a + (256 - a % 256)) [] = [] := by cases k <;> rfl
  simp [blockPieces, hl, List.take_of_length_le hall, List.drop_of_length_le hall, hrest]

/-! Requests. -/

theorem dramAccess_of_window {s : State} (h : s.window = true) (r : DramReq) : s.dramAccess r = { s with dramWait := s.dramWait ++ [r] } := if_pos h

/-- Outside a window, with no request waiting, a request is served at once. -/
theorem dramAccess_of_idle {s : State} (hwin : s.window = false) (hwait : s.dramWait = []) (r : DramReq) : s.dramAccess r = s.dramServe r := by
  have hkeep : ({ s with dramWait := [] } : State) = s := by rw [← hwait]
  unfold State.dramAccess State.dramGoOn
  simp only [hwin, Bool.false_eq_true, if_false, hwait, List.foldl_nil, hkeep]

theorem dramServe_write {s : State} {u : MemUnit} {addr : BitVec 48} {d : List Byte} {w : Word} (halign : addr.toNat % 256 = 0)
    (hd : d.length = 256) (hend : addr.toNat + 256 ≤ dramEnd) :
    s.dramServe ⟨u, addr, .write d w⟩ = s.putBlock addr.toNat d w := by
  have haddr : addr.toNat / 256 * 256 = addr.toNat := by omega
  simp only [State.dramServe, haddr, if_pos hend, slice_all hd]

theorem dramServe_merge {s : State} {u : MemUnit} {addr : BitVec 48} {d : List Byte} (hne : d ≠ []) (hblock : addr.toNat % 256 + d.length ≤ 256)
    (hend : addr.toNat + d.length ≤ dramEnd) (hmarks : s.marksIn (addr.toNat / 256 * 256) 256 = []) :
    s.dramServe ⟨u, addr, .merge d⟩ = s.mergeIn addr.toNat d := by
  have hpos : 0 < d.length := List.length_pos_iff.2 hne
  simp only [State.dramServe, if_pos hend, blockPieces_of_one_block hne hblock, List.foldl_cons, List.foldl_nil, State.mergeChecked,
    region_dram (show addr.toNat < dramEnd by omega), reportMarks_of_marksIn_nil hmarks]

/-! Marks. -/

theorem mark_setMark_self (s : State) (a : Nat) (u : Upset) : (s.setMark a u).mark a = u := tget_tset_self _ _ _ _

/-- A corrected unit written back carries no mark any more; no byte changes. -/
theorem writeBack_of_ce {s : State} {a b : Nat} (h : s.mark a = .ce b) : (s.writeBack a).mark a = .none ∧ (s.writeBack a).mem = s.mem := by
  unfold State.writeBack
  rw [h]
  exact ⟨mark_setMark_self s a .none, rfl⟩

/-- The write-back at the front of a controller's queue, when nothing holds it. -/
theorem exec_dramWriteback {s : State} {c : Fin 16} {a : Nat} {rest : List Nat} (hq : tget (fun _ => []) s.dramWb c.val = a :: rest)
    (hgo : s.wbHeld = false ∨ s.window = true) :
    exec (.dramWriteback c) s = .next { s.writeBack a with dramWb := tset (fun _ => []) s.dramWb c.val rest } := by
  have harm : exec (.dramWriteback c) s = execDramWriteback c s := rfl
  have hfree : (s.wbHeld && !s.window) = false := by
    rcases hgo with h | h <;> simp [h]
  simp only [harm, execDramWriteback, hq, hfree, Bool.false_eq_true, if_false]

/-- An MR4 report outside EXACT: the code goes to its field, and the channel joins or leaves the hot ones. -/
theorem exec_dramMr4Report {s : State} {ch : Fin 32} {code : BitVec 3} (h : s.exactClaimed = false) :
    ∃ l, exec (.dramMr4Report ch code) s = .next { s.setRegF (oDrc (ch.val / 2) 0) (8 * (ch.val % 2)) 3 code.toNat with hot := l } ∧
      (ch.val ∈ l ↔ 2 ≤ code.toNat ∧ code.toNat ≤ 5) := by
  have harm : exec (.dramMr4Report ch code) s = execDramMr4Report ch code s := rfl
  rw [harm, execDramMr4Report]
  by_cases hhot : 2 ≤ code.toNat ∧ code.toNat ≤ 5
  · by_cases hin : ch.val ∈ s.hot
    · refine ⟨s.hot, ?_, by simp [hin, hhot]⟩
      simp only [hhot, hin, and_self, decide_true, if_true, List.contains_iff_mem]
      rfl
    · refine ⟨s.hot ++ [ch.val], ?_, by simp [hhot]⟩
      simp only [hhot, hin, and_self, decide_true, if_true, List.contains_iff_mem, if_false]
      exact congrArg Host.Outcome.next (if_neg (by rw [Bool.not_eq_true]; exact h))
  · refine ⟨s.hot.filter (· ≠ ch.val), ?_, by simp [hhot]⟩
    simp only [hhot, decide_false, Bool.false_eq_true, if_false]
    rfl

/-- Settles O14: a request outside a window is served at once (`dramAccess_of_idle`) as `dramServe_write` and `dramServe_merge` say, and what it
writes lies where it is read (`rd_put_dram`). -/
theorem mainMemory : Obligations.MainMemory := by
  refine ⟨fun s u addr n hwin hwait hend => ?_, fun s u addr d w hwin hwait halign hd hend => ?_,
    fun s u addr d hwin hwait hne hblock hend hmarks => ?_, fun s u addr n d w hwin => ?_, fun s c a b rest hq hgo hce => ?_, fun _ _ => rfl,
    fun s ch hexact hhot hwin => ?_, fun s ch code hexact => ?_, fun s c hexact => ?_⟩
  · have hserve : exec (.dramRead u addr n) s = .next { s.reportMarks (s.memWho u) (addr.toNat / 32 * 32) (32 * n) with
        out := s.rdN (addr.toNat / 32 * 32) (32 * n) } :=
      congrArg Host.Outcome.next ((dramAccess_of_idle hwin hwait _).trans (if_pos hend))
    exact ⟨_, hserve, rfl, fun hmarks => by rw [reportMarks_of_marksIn_nil hmarks]⟩
  · have hserve : exec (.dramWrite u addr d w) s = .next (s.putBlock addr.toNat d w) :=
      congrArg Host.Outcome.next ((dramAccess_of_idle hwin hwait _).trans (dramServe_write halign hd hend))
    obtain ⟨hin, hout⟩ := rd_put_dram (s := s) (a := addr.toNat) (l := d) (hd ▸ hend)
    exact ⟨_, hserve, hin, fun a ha => hout a (hd ▸ ha), State.bcwAt_setBcw _ _ _, fun a ha => (bcwAt_setBcw_ne _ w ha).trans (put_bcwAt _ _ _ _),
      put_regs _ _ _⟩
  · have hserve : exec (.dramMerge u addr d) s = .next (s.mergeIn addr.toNat d) :=
      congrArg Host.Outcome.next ((dramAccess_of_idle hwin hwait _).trans (dramServe_merge hne hblock hend hmarks))
    obtain ⟨hin, hout⟩ := rd_put_dram (s := s) hend
    exact ⟨_, hserve, hin, hout, State.bcwAt_setBcw _ _ _, fun a ha => (bcwAt_setBcw_ne _ _ ha).trans (put_bcwAt _ _ _ _), put_regs _ _ _⟩
  · exact ⟨congrArg Host.Outcome.next (dramAccess_of_window hwin _), congrArg Host.Outcome.next (dramAccess_of_window hwin _),
      congrArg Host.Outcome.next (dramAccess_of_window hwin _)⟩
  · obtain ⟨hmark, hmem⟩ := writeBack_of_ce hce
    exact ⟨_, exec_dramWriteback hq hgo, hmark, tget_tset_self _ _ _ _, hmem⟩
  · exact congrArg Host.Outcome.next (if_pos (by simp [hexact, hhot, hwin]))
  · obtain ⟨l, hexec, hl⟩ := exec_dramMr4Report (s := s) (ch := ch) (code := code) hexact
    refine ⟨_, hexec, ?_, hl⟩
    have hfield : (s.setRegF (oDrc (ch.val / 2) 0) (8 * (ch.val % 2)) 3 code.toNat).regF (oDrc (ch.val / 2) 0) (8 * (ch.val % 2)) 3 = code.toNat % 2 ^ 3 :=
      regF_setRegF_self s (by omega)
    exact hfield.trans (Nat.mod_eq_of_lt code.isLt)
  · refine ⟨_, congrArg Host.Outcome.next (if_neg (by simp [hexact])), ?_⟩
    simp

end Sys2Proof.Machine

/-! Banks of the scratchpad (R152 to R155, R167 to R176, R191). -/

namespace Sys2Proof.Machine
open Sys2Proof.Safety

/-! Arbitration. -/

/-- Of two requests at one bank at most one is before the other in the order of R152. -/
theorem spReq_beats_asymm {a b : SpReq} (h : a.beats b = true) : b.beats a = false := by
  unfold SpReq.beats at h ⊢
  by_cases hrank : a.unit.rank = b.unit.rank
  · by_cases hwaited : a.unit.rank = 3 ∧ a.waited ≠ b.waited
    · have hwaited' : b.unit.rank = 3 ∧ b.waited ≠ a.waited := ⟨hrank ▸ hwaited.1, hwaited.2.symm⟩
      simp only [hrank, ne_eq, not_true_eq_false, if_false, hwaited', hwaited.2, not_false_eq_true, and_self, if_true, decide_eq_true_eq,
        decide_eq_false_iff_not] at h ⊢
      omega
    · have hwaited' : ¬(b.unit.rank = 3 ∧ b.waited ≠ a.waited) := fun hb => hwaited ⟨hrank.trans hb.1, hb.2.symm⟩
      rw [if_neg (not_not.2 hrank), if_neg hwaited, decide_eq_true_eq] at h
      rw [if_neg (not_not.2 hrank.symm), if_neg hwaited', decide_eq_false_iff_not]
      omega
  · rw [if_pos hrank, decide_eq_true_eq] at h
    rw [if_pos (Ne.symm hrank), decide_eq_false_iff_not]
    omega

/-- A request is served when every other one at its bank is one that it beats, or one behind it in the list that does not beat it. -/
theorem mem_spServed_zipIdx {reqs : List SpReq} {a : SpReq} : a ∈ spServed reqs → ∃ i, (a, i) ∈ reqs.zipIdx ∧ ∀ b j, (b, j) ∈ reqs.zipIdx →
    i = j ∨ spBank a.row ≠ spBank b.row ∨ a.beats b = true ∨ (b.beats a = false ∧ i < j) := by
  intro h
  obtain ⟨⟨a, i⟩, hkept, rfl⟩ := List.mem_map.1 h
  obtain ⟨hin, hall⟩ := List.mem_filter.1 hkept
  refine ⟨i, hin, fun b j hb => ?_⟩
  simpa [or_assoc] using List.all_eq_true.1 hall (b, j) hb

theorem spServed_subset {reqs : List SpReq} {a : SpReq} (h : a ∈ spServed reqs) : a ∈ reqs := by
  obtain ⟨i, hin, -⟩ := mem_spServed_zipIdx h
  exact List.fst_mem_of_mem_zipIdx hin

theorem zipIdx_pairwise_lt {α : Type} (l : List α) : l.zipIdx.Pairwise fun x y => x.2 < y.2 := by
  have hindex : (l.zipIdx.map (·.2)).Pairwise (· < ·) := by
    rw [List.zipIdx_map_snd]
    exact List.pairwise_lt_range'
  exact List.pairwise_map.1 hindex

/-- No bank serves two requests. -/
theorem spServed_pairwise (reqs : List SpReq) : (spServed reqs).Pairwise fun a b => spBank a.row ≠ spBank b.row := by
  unfold spServed
  rw [List.pairwise_map]
  refine ((zipIdx_pairwise_lt reqs).filter _).imp_of_mem ?_
  rintro ⟨a, i⟩ ⟨b, j⟩ ha hb hlt hbank
  obtain ⟨hain, haall⟩ := List.mem_filter.1 ha
  obtain ⟨hbin, hball⟩ := List.mem_filter.1 hb
  have hab := List.all_eq_true.1 haall (b, j) hbin
  have hba := List.all_eq_true.1 hball (a, i) hain
  have hij : i ≠ j := Nat.ne_of_lt hlt
  have hbehind : ¬j < i := Nat.not_lt.2 (Nat.le_of_lt hlt)
  have hlast : b.beats a = true := by simpa [hij.symm, hbank.symm, hbehind] using hba
  have hfirst : a.beats b = false := spReq_beats_asymm hlast
  simp [hij, hbank, hlast, hfirst] at hab

/-- Who is served loses to no other request at its bank. -/
theorem beats_of_mem_spServed {reqs : List SpReq} {a b : SpReq} (ha : a ∈ spServed reqs) (hb : b ∈ reqs) (hbank : spBank b.row = spBank a.row)
    (hne : a ≠ b) (hbeats : b.beats a = true) : a.beats b = true := by
  obtain ⟨i, hai, hall⟩ := mem_spServed_zipIdx ha
  obtain ⟨j, hj, hbj⟩ := List.mem_iff_getElem.1 hb
  have hbin : (b, j) ∈ reqs.zipIdx := List.mem_zipIdx_iff_getElem?.2 (by simp [hj, hbj])
  obtain rfl | hother | hbefore | ⟨hnot, -⟩ := hall b j hbin
  · have hat : reqs[i]? = some a := List.mem_zipIdx_iff_getElem?.1 hai
    rw [List.getElem?_eq_getElem hj, Option.some_inj] at hat
    exact absurd (hat.symm.trans hbj) hne
  · exact absurd hbank.symm hother
  · exact hbefore
  · rw [hbeats] at hnot
    nomatch hnot

/-! What arbitration leaves. -/

/-- From `s` to `t` registers moved, none of them one of the Mat's repair table: every byte, Frond and spare stays. -/
def SameButRegs (s t : State) : Prop := t = { s with regs := t.regs } ∧ ∀ a, t.rd a = s.rd a

theorem SameButRegs.refl (s : State) : SameButRegs s s := ⟨rfl, fun _ => rfl⟩

theorem SameButRegs.setReg {s t : State} (h : SameButRegs s t) {o : Nat} (ho : ¬repairReg o) (v : Word) : SameButRegs s (t.setReg o v) := by
  obtain ⟨heq, hrd⟩ := h
  refine ⟨?_, fun a => (t.rd_setReg o v ho a).trans (hrd a)⟩
  rw [heq]
  rfl

theorem SameButRegs.foldl {α : Type} {s t : State} {g : State → α → State} (h : SameButRegs s t) (hg : ∀ u a, SameButRegs s u → SameButRegs s (g u a))
    (l : List α) : SameButRegs s (l.foldl g t) := by
  induction l generalizing t with
  | nil => exact h
  | cons a l ih => exact ih (hg t a h)

theorem repairReg_oFrd (f : Fin 4) {o : Nat} (h : o < 0x100000) : ¬repairReg (oFrd f o) := by
  have := f.isLt
  unfold repairReg oFrd
  omega

theorem SameButRegs.noteRace {s t : State} (h : SameButRegs s t) (f : Fin 4) (win lose row : Nat) : SameButRegs s (t.noteRace f win lose row) :=
  (h.setReg (repairReg_oFrd f (by decide)) _).setReg (repairReg_oFrd f (by decide)) _

/-- Arbitration counts in the Frond's registers, and that is all. -/
theorem spArb_sameButRegs (s : State) (f : Fin 4) (reqs : List SpReq) : SameButRegs s (s.spArb f reqs).2.1 := by
  unfold State.spArb
  dsimp only
  refine SameButRegs.foldl ?_ (fun u e h => h.noteRace f _ _ _) _
  split
  · exact SameButRegs.refl s
  · exact (SameButRegs.refl s).setReg (repairReg_oFrd f (by decide)) _

theorem SameButRegs.frond {s t : State} (h : SameButRegs s t) (f : Fin 4) : t.frond f = s.frond f := by
  obtain ⟨heq, -⟩ := h
  rw [heq]
  rfl

theorem SameButRegs.mem {s t : State} (h : SameButRegs s t) : t.mem = s.mem := by
  obtain ⟨heq, -⟩ := h
  rw [heq]

theorem spArb_served (s : State) (f : Fin 4) (reqs : List SpReq) : (s.spArb f reqs).1 = spServed reqs := rfl

/-! Reads. -/

theorem spRow_of_no_held {s : State} {f : Fin 4} (h : (s.frond f).heldRows = []) (r : SpReq) :
    s.spRow f r = s.rdN (spBase f + 64 * r.row) 64 := by
  simp [State.spRow, h]

theorem frond_answer (s : State) (l : List Byte) (f : Fin 4) : (s.answer l).frond f = s.frond f := rfl

/-- A read whose row is held returns what is held, reports nothing, and the row is held no more (R153). -/
theorem spServe_held {s : State} {f : Fin 4} {r : SpReq} {h : HeldRow} (hheld : (s.frond f).heldRows = [h]) (hunit : h.unit = r.unit)
    (hrow : h.row = r.row) :
    (s.spServe f [r]).out = h.data ∧ ((s.spServe f [r]).frond f).heldRows = [] ∧ (s.spServe f [r]).mem = s.mem := by
  have hfound : (s.frond f).holds? r = true := by simp [Frond.holds?, hheld, hunit, hrow]
  have hdata : s.spRow f r = h.data := by simp [State.spRow, hheld, hunit, hrow]
  have hserve : s.spServe f [r] = (s.modFrond f fun x => { x with
      heldRows := x.heldRows.filter fun h => !([r].any fun r => decide (h.unit = r.unit ∧ h.row = r.row)) }).answer h.data := by
    simp [State.spServe, hfound, hdata, State.answer]
  rw [hserve]
  refine ⟨rfl, ?_, rfl⟩
  rw [frond_answer, State.frond_modFrond]
  simp [hheld, hunit, hrow]

theorem rdN_congr {s t : State} (h : ∀ a, t.rd a = s.rd a) (a n : Nat) : t.rdN a n = s.rdN a n := by
  simp [State.rdN, h]

theorem spServed_singleton (r : SpReq) : spServed [r] = [r] := by
  simp [spServed]

/-- A request alone meets no other: nothing is counted and no program fault stands. -/
theorem spArb_singleton (s : State) (f : Fin 4) (r : SpReq) : s.spArb f [r] = ([r], s, none) := by
  simp [State.spArb, spServed_singleton, spRaces]

/-! Writes. -/

section
variable {s s1 : State} {f : Fin 4} {h : SpReq} {rest : List SpReq}

/-- A write whose requests are all served acts on the state in which the rows of the losing reads have been kept. -/
theorem spWriteCmd_served {act : State → SpReq → State × Bool} {t : State} (hwrite : h.write = true)
    (hall : ∀ r ∈ h :: rest, r.unit = h.unit → r.write = true → r ∈ spServed (h :: rest)) (harb : (s.spArb f (h :: rest)).2 = (s1, none))
    (hact : act (s1.holdRows f (((h :: rest).filter fun r => decide (r.unit = h.unit) && r.write).map (·.row))
      ((h :: rest).filter fun r => !(spServed (h :: rest)).contains r)) h = (t, false)) :
    s.spWriteCmd f (h :: rest) act = t := by
  have hown : (((h :: rest).filter fun r => decide (r.unit = h.unit) && r.write).all (spServed (h :: rest)).contains) = true := by
    refine List.all_eq_true.2 fun r hr => ?_
    obtain ⟨hin, hkept⟩ := List.mem_filter.1 hr
    obtain ⟨hunit, hw⟩ := Bool.and_eq_true_iff.1 hkept
    exact List.contains_iff_mem.2 (hall r hin (of_decide_eq_true hunit) hw)
  have harb' : s.spArb f (h :: rest) = (spServed (h :: rest), s1, none) := by rw [← harb]; rfl
  simp only [State.spWriteCmd, harb', hwrite, hown, Bool.and_self, if_true, hact, Bool.false_and, Bool.false_eq_true, if_false, State.spEnd]

/-- A write of which a request loses its bank stores nothing. -/
theorem spWriteCmd_lost {act : State → SpReq → State × Bool}
    (hlost : ∃ r ∈ h :: rest, r.unit = h.unit ∧ r.write = true ∧ r ∉ spServed (h :: rest)) :
    s.spWriteCmd f (h :: rest) act = (s.spArb f (h :: rest)).2.1.spEnd f (s.spArb f (h :: rest)).2.2 := by
  obtain ⟨r, hin, hunit, hw, hnot⟩ := hlost
  have hown : (((h :: rest).filter fun r => decide (r.unit = h.unit) && r.write).all (spServed (h :: rest)).contains) = false := by
    refine List.all_eq_false.2 ⟨r, List.mem_filter.2 ⟨hin, by simp [hunit, hw]⟩, ?_⟩
    rwa [List.contains_iff_mem]
  simp only [State.spWriteCmd, spArb_served, hown, Bool.and_false, Bool.false_eq_true, if_false]

end

/-- A store of bytes of the working area that meets no reserved row. -/
theorem spStore_clear {s : State} {w : Who} {f : Fin 4} {unitCode a : Nat} {d : List Byte} (hne : d ≠ []) (hroom : a + d.length ≤ s.resByte f)
    (hclear : ∀ r ∈ s.reserved f, r ∉ rowsOf a d.length) : s.spStore w f unitCode ⟨a, d⟩ = (s.storeChecked w (spBase f + a) d, false) := by
  have hraces : s.raceRows f ⟨a, d⟩ = [] := by
    refine List.filter_eq_nil_iff.2 fun r hr hres => ?_
    exact hclear r (List.contains_iff_mem.1 hres) hr
  simp [State.spStore, hne, Nat.not_lt.2 hroom, hraces]

theorem spBase_mod (f : Fin 4) : spBase f % 256 = 0 := by
  have := f.isLt
  unfold spBase
  omega

/-- A store of one whole block is a block write with its CRC. -/
theorem storeChecked_block {s : State} {w : Who} {a : Nat} {d : List Byte} (halign : a % 256 = 0) (hd : d.length = 256) :
    s.storeChecked w a d = s.putBlock a d (crcWord d) := by
  have hne : d ≠ [] := List.ne_nil_of_length_pos (by omega)
  simp only [State.storeChecked, hd, blockPieces_of_one_block hne (by omega : a % 256 + d.length ≤ 256), List.foldl_cons, List.foldl_nil, if_true]

theorem mark_modFrond (s : State) (f : Fin 4) (g : Frond → Frond) (a : Nat) : (s.modFrond f g).mark a = s.mark a := rfl

/-- Settles O15: `spServed_pairwise` and `beats_of_mem_spServed` are the arbitration; a read's rows are as before it because arbitration moves no
byte (`spArb_sameButRegs`); a write is `spWriteCmd_served` with `spStore_clear`, or `spWriteCmd_lost`. -/
theorem scratchpadBanks : Obligations.ScratchpadBanks := by
  refine ⟨spServed_pairwise, fun reqs a ha => ⟨spServed_subset ha, fun b hb => beats_of_mem_spServed ha hb⟩,
    fun s f reqs hok hfill hheld hop => ?_, fun s f r h hok hread hfill hheld hunit hrow => ?_, fun s s1 s2 f h rest hok hwrite hall harb hs2 => ?_,
    fun s f h rest d bcw hok hd hlost => ?_, fun s f a b rest hwb hce => ?_⟩
  · have hframe := spArb_sameButRegs s f reqs
    have hready : (((spServed reqs).filter fun r => !r.write).filter fun r => !s.spFilling f r.row) = (spServed reqs).filter fun r => !r.write := by
      refine List.filter_eq_self.2 fun r hr => ?_
      rw [hfill r (spServed_subset (List.mem_filter.1 hr).1)]
      rfl
    refine ⟨_, exec_scratchpadRead hok, ?_⟩
    simp only [spArb_served, hready, hop, State.spEnd]
    refine List.flatMap_congr fun r _ => ?_
    rw [spRow_of_no_held (by rw [State.frond_modFrond, hframe.frond, hheld])]
    refine rdN_congr (fun a => ?_) _ _
    exact hframe.2 a
  · have hone : [r].all SpReq.ok = true := by simp [hok]
    refine ⟨_, exec_scratchpadRead hone, ?_⟩
    simp only [spArb_singleton, hread, hfill, State.spEnd, List.filter_cons, List.filter_nil, Bool.not_false, if_true,
      Bool.false_eq_true, if_false]
    exact spServe_held (by simpa using hheld) hunit hrow
  · have hserved : ∀ {act : State → SpReq → State × Bool} {t : State}, act s2 h = (t, false) → s.spWriteCmd f (h :: rest) act = t := by
      intro act t hact
      exact spWriteCmd_served hwrite hall harb (hs2 ▸ hact)
    refine ⟨fun d bcw a hd ha hroom hclear => ?_, fun n d hn hrows hd hroom hclear => ?_, fun st d hne hlen hroom hclear => ?_⟩
    · have hne : d ≠ [] := List.ne_nil_of_length_pos (by omega)
      have halign : (spBase f + a) % 256 = 0 := by
        have := spBase_mod f
        omega
      refine (exec_scratchpadWrite hok).trans (congrArg Host.Outcome.next (hserved ?_))
      simp only [← ha, slice_all hd, if_neg (Nat.not_lt.2 hroom), spStore_clear hne (hd ▸ hroom) (hd ▸ hclear), storeChecked_block halign hd]
    · have hne : d ≠ [] := List.ne_nil_of_length_pos (by omega)
      have hmin : min n (4 - h.row % 4) = n := by omega
      refine (exec_scratchpadMerge hok).trans (congrArg Host.Outcome.next (hserved ?_))
      simp only [hmin, slice_all hd, spStore_clear hne (hd ▸ hroom) (hd ▸ hclear)]
    · refine (exec_partialRowWrite hok).trans (congrArg Host.Outcome.next (hserved ?_))
      rw [List.take_of_length_le (by omega), spStore_clear hne (by omega) hclear]
  · exact (exec_scratchpadWrite hok).trans (congrArg Host.Outcome.next (spWriteCmd_lost hlost))
  · obtain ⟨hmark, hmem⟩ := writeBack_of_ce hce
    have hexec : exec (.spCeWriteback f) s = .next ((s.writeBack (spBase f + a)).modFrond f fun x => { x with wb := rest }) := by
      have harm : exec (.spCeWriteback f) s = execSpCeWriteback f s := rfl
      simp only [harm, execSpCeWriteback, hwb]
    exact ⟨_, hexec, (mark_modFrond _ _ _ _).trans hmark, by simp, hmem⟩

end Sys2Proof.Machine

/-! The Mat, zero-fill, restore and the repair registers (R153, R178 to R198). -/

namespace Sys2Proof.Machine
open Sys2Proof.Safety

/-! Mat requests. -/

theorem matServed_subset {reqs : List MatReq} {r : MatReq} (h : r ∈ matServed reqs) : r ∈ reqs := by
  obtain ⟨⟨r, i⟩, hkept, rfl⟩ := List.mem_map.1 h
  exact List.fst_mem_of_mem_zipIdx (List.mem_filter.1 hkept).1

theorem matServed_singleton (r : MatReq) : matServed [r] = [r] := by
  simp [matServed]

/-- A read that is served writes nothing. -/
theorem matWrite_of_read {s : State} {r : MatReq} (h : r.writes = false) : s.matWrite r = s := by
  unfold MatReq.writes at h
  unfold State.matWrite
  cases hact : r.act <;> simp [hact] at h ⊢

theorem foldl_matWrite_of_reads {l : List MatReq} (h : ∀ r ∈ l, r.writes = false) (s : State) : l.foldl State.matWrite s = s := by
  induction l generalizing s with
  | nil => rfl
  | cons r l ih =>
    rw [List.foldl_cons, matWrite_of_read (h r List.mem_cons_self)]
    exact ih (fun q hq => h q (List.mem_cons_of_mem _ hq)) s

/-- Where no write is served no content is held for the reads that lose. -/
theorem matHold_of_reads {win : List MatReq} (h : ∀ r ∈ win, r.writes = false) (lost : List MatReq) (s : State) : s.matHold win lost = s := by
  have hnone : ∀ r, (win.any fun w => w.writes && w.meets r) = false := fun r =>
    List.any_eq_false.2 fun w hw => by simp [h w hw]
  simp only [State.matHold, hnone, Bool.and_false, Bool.false_and, Bool.false_eq_true, if_false]
  induction lost with
  | nil => rfl
  | cons _ _ ih => exact ih

/-- A served read returns the bytes that stand, where no earlier content is held. -/
theorem matServe_out {s : State} {rds : List MatReq} (h : s.matHeld = []) :
    (s.matServe rds).out = rds.flatMap fun r => s.rdN (matBase + r.span.1) r.span.2 := by
  refine List.flatMap_congr fun r _ => ?_
  simp [State.matBytes, State.matHeldFor, h]

theorem matWho_withOut (s : State) (l : List Byte) (u : MatUnit) : ({ s with out := l } : State).matWho u = s.matWho u := by
  cases u <;> rfl

theorem matServe_nil (s : State) : s.matServe [] = { s with out := [] } := by
  simp [State.matServe]

/-- One request that writes: the Mat serves it, and there is nothing to hold. -/
theorem exec_matAccess_write {s : State} {r : MatReq} (hok : r.ok = true) (hwrites : r.writes = true) (hfill : s.sys.zfillMat = false) :
    exec (.matAccess [r]) s = .next (({ s with out := [] } : State).matWrite r) := by
  rw [exec_matAccess (by simpa using hok)]
  simp only [matServed_singleton, hfill, Bool.false_eq_true, if_false, List.filter_cons, List.filter_nil, hwrites, Bool.not_true,
    matServe_nil, List.foldl_cons, List.foldl_nil, List.contains_cons, beq_self_eq_true, Bool.true_or]
  rfl

/-- A corrected Mat word written back. -/
theorem exec_matCorrectedWriteback {s : State} {bank : Fin 64} {a : Nat} (h : s.matWb.find? (fun a => decide (matBank a = bank.val)) = some a) :
    exec (.matCorrectedWriteback bank) s = .next { s.writeBack (matBase + a) with matWb := s.matWb.filter (· ≠ a) } := by
  have harm : exec (.matCorrectedWriteback bank) s = execMatCorrectedWriteback bank s := rfl
  simp only [harm, execMatCorrectedWriteback, h]

theorem mark_withMatWb (s : State) (l : List Nat) (a : Nat) : ({ s with matWb := l } : State).mark a = s.mark a := rfl

/-! Repair registers. -/

theorem bits_zero (v len : Nat) : bits v 0 len = v % 2 ^ len := rfl

theorem putKeys_fronds (s : State) (k : Nat) (l : List Byte) : (s.putKeys k l).fronds = s.fronds := by
  induction l generalizing s k with
  | nil => rfl
  | cons b l ih => exact ih _ _

/-- Outside a kernel the entry takes the write, after the spare has taken its bytes. -/
theorem putKeys_writeSpRepair {s : State} {f : Fin 4} (h : (s.frond f).kernel = none) (k : Nat) (l : List Byte) (b sp : Nat) (v : Word) :
    (s.putKeys k l).writeSpRepair f b sp v = (s.putKeys k l).writeFields (oSpRepair f b sp) v := by
  have hkernel : ((s.putKeys k l).frond f).kernel = none := by
    rw [State.frond, putKeys_fronds]
    exact h
  simp [State.writeSpRepair, hkernel]

section
variable {s : State} {f : Fin 4} {b : Fin 320} {sp : Fin 32} {v : Word} {a : Nat}

theorem exec_frdSpRepairWrite (h : (s.frond f).kernel = none) : exec (.frdSpRepairWrite f b sp v) s = .next
    (if v.getLsbD 31 then
      let a := 64 * (bits v.toNat 0 11 * 320 + b.val)
      let copy := match (s.residents f).find? fun g => decide (64 * g.resRow ≤ a ∧ a + 64 ≤ 64 * g.resRow + g.resLen) with
        | some g => s.rdN (g.base + g.res + (a - 64 * g.resRow)) 64
        | none => List.replicate 64 0
      (s.putKeys (spSpareKey f b.val sp.val) (if (s.marksIn (spBase f + a) 64).all (fun e => e.2 ≠ .ue) then s.rdN (spBase f + a) 64
        else if s.resByte f ≤ a then copy else List.replicate 64 0)).writeFields (oSpRepair f b.val sp.val) v
    else s.writeFields (oSpRepair f b.val sp.val) v) := by
  have harm : exec (.frdSpRepairWrite f b sp v) s = .next (s.repairSpRow f b.val sp.val v) := rfl
  have hplain : s.writeSpRepair f b.val sp.val v = s.writeFields (oSpRepair f b.val sp.val) v := putKeys_writeSpRepair h 0 [] _ _ _
  rw [harm, State.repairSpRow, h]
  simp only [Option.isSome_none, Bool.false_eq_true, if_false, putKeys_writeSpRepair h, hplain] <;> rfl

theorem marks_all_iff : (s.marksIn (spBase f + a) 64).all (fun e => e.2 ≠ .ue) = true ↔ ∀ e ∈ s.marksIn (spBase f + a) 64, e.2 ≠ .ue := by
  simp

/-- A repair of a row that reads back: the row goes into the spare (R180). -/
theorem exec_frdSpRepairWrite_readable (h : (s.frond f).kernel = none) (ha : a = 64 * (v.toNat % 2048 * 320 + b.val)) (hvalid : v.getLsbD 31 = true)
    (hgood : ∀ e ∈ s.marksIn (spBase f + a) 64, e.2 ≠ .ue) : exec (.frdSpRepairWrite f b sp v) s =
      .next ((s.putKeys (spSpareKey f b.val sp.val) (s.rdN (spBase f + a) 64)).writeFields (oSpRepair f b.val sp.val) v) := by
  have haddr : 64 * (bits v.toNat 0 11 * 320 + b.val) = a := by norm_num [ha, bits_zero]
  rw [exec_frdSpRepairWrite h, if_pos hvalid]
  simp only [haddr, marks_all_iff.2 hgood, if_true]

/-- A repair of a row of the working area that does not read back: zeros go into the spare. -/
theorem exec_frdSpRepairWrite_lost (h : (s.frond f).kernel = none) (ha : a = 64 * (v.toNat % 2048 * 320 + b.val)) (hvalid : v.getLsbD 31 = true)
    (hbad : ∃ e ∈ s.marksIn (spBase f + a) 64, e.2 = .ue) (hwork : a < s.resByte f) : exec (.frdSpRepairWrite f b sp v) s =
      .next ((s.putKeys (spSpareKey f b.val sp.val) (List.replicate 64 0)).writeFields (oSpRepair f b.val sp.val) v) := by
  have haddr : 64 * (bits v.toNat 0 11 * 320 + b.val) = a := by norm_num [ha, bits_zero]
  have hnot : ¬(s.marksIn (spBase f + a) 64).all (fun e => e.2 ≠ .ue) = true := by
    obtain ⟨e, he, hue⟩ := hbad
    exact fun hall => marks_all_iff.1 hall e he hue
  rw [exec_frdSpRepairWrite h, if_pos hvalid]
  simp only [haddr, if_neg hnot, if_neg (Nat.not_le.2 hwork)]

/-- A running kernel shuts the repair registers of its Frond (R180). -/
theorem exec_frdSpRepairWrite_running {k : KernelRun} (h : (s.frond f).kernel = some k) : exec (.frdSpRepairWrite f b sp v) s = .next s := by
  have harm : exec (.frdSpRepairWrite f b sp v) s = .next (s.repairSpRow f b.val sp.val v) := rfl
  rw [harm, State.repairSpRow, h]
  rfl

/-- FRD_SP_RESBASE takes a row number that is a multiple of 4 and not above the memory's end (R194). -/
theorem exec_frdSpResbaseWrite : exec (.frdSpResbaseWrite f v) s = .next
    (if v.toNat % 2 ^ 20 % 4 = 0 ∧ v.toNat % 2 ^ 20 ≤ 655360 then s.setReg (oResbase f) (BitVec.ofNat 32 (v.toNat % 2 ^ 20)) else s) := rfl

end

section
variable {s : State} {b : Fin 64} {sp : Fin 16} {v : Word} {x : Nat}

theorem exec_drcMatRepairWrite (hx : x = matBase + matRowOff b.val (v.toNat % 4096)) : exec (.drcMatRepairWrite b sp v) s = .next
    (if v.getLsbD 31 then
      match s.matCover x with
      | none => (s.putKeys (matSpareKey b.val sp.val) (s.rdN x 64)).writeFields (oMatRepair b.val sp.val) v
      | some (h, y) =>
        match firstFit matBase (matBase + 0xFF0000) y.mat.2 ((x / 65536 * 65536, 65536) :: s.matTaken) with
        | none => s
        | some dest => ((s.moveMat h y dest).putKeys (matSpareKey b.val sp.val) ((s.moveMat h y dest).rdN x 64)).writeFields (oMatRepair b.val sp.val) v
    else s.writeFields (oMatRepair b.val sp.val) v) := by
  have harm : exec (.drcMatRepairWrite b sp v) s = .next (s.repairMatRow b.val sp.val v) := rfl
  have haddr : matBase + matRowOff b.val (bits v.toNat 0 12) = x := by norm_num [hx, bits_zero]
  rw [harm, State.repairMatRow, haddr]
  rfl

end

/-- Settles O16: reads neither write nor hold (`foldl_matWrite_of_reads`, `matHold_of_reads`); the ends of the fill and the restore are their
definitions; the repair registers act as their `exec_` lemmas say. -/
theorem matAndInit : Obligations.MatAndInit := by
  refine ⟨fun s reqs hok hfill hheld hreads => ?_, fun s u o d hok hfill => ?_, fun s u o d w hok hfill hd => ?_, fun s r hok hread hfill => ?_,
    fun s bank a b hwb hce => ?_, fun _ _ => rfl, fun _ => rfl, fun s f hrestore => congrArg Host.Outcome.next (if_pos hrestore),
    fun s f b sp v a hkernel ha => ⟨exec_frdSpRepairWrite_readable hkernel ha, exec_frdSpRepairWrite_lost hkernel ha, fun hinvalid => ?_⟩,
    fun s f b sp v k hkernel => exec_frdSpRepairWrite_running hkernel, fun s f v halign hend => ?_, fun s f v hbad => ?_,
    fun s b sp v x hx => ⟨fun hinvalid => ?_, fun hvalid hfree => ?_, fun h y hvalid hcover => ⟨fun hnofit => ?_, fun dst s1 hfit hs1 => ?_⟩⟩⟩
  · have hserved : ∀ r ∈ matServed reqs, r.writes = false := fun r hr => hreads r (matServed_subset hr)
    have hall : (matServed reqs).filter (fun r => !r.writes) = matServed reqs := List.filter_eq_self.2 fun r hr => by simp [hserved r hr]
    refine ⟨_, exec_matAccess hok, ?_⟩
    rw [foldl_matWrite_of_reads hserved, matHold_of_reads hserved, hfill, hall]
    simp only [Bool.false_eq_true, if_false, matServe_out hheld]
  · have htake : d.take (min d.length (256 - o % 256)) = d.take (256 - o % 256) := by
      rw [Nat.min_comm]
      exact List.take_eq_take_min.symm
    refine (exec_matAccess_write hok rfl hfill).trans (congrArg Host.Outcome.next ?_)
    simp only [State.matWrite, MatReq.span, htake, matWho_withOut]
  · refine (exec_matAccess_write hok rfl hfill).trans (congrArg Host.Outcome.next ?_)
    simp only [State.matWrite, MatReq.span, slice_all hd]
  · have hone : ∀ q ∈ [r], q.writes = false := by simpa using hread
    rw [exec_matAccess (by simpa using hok), matServed_singleton, foldl_matWrite_of_reads hone, matHold_of_reads hone, hfill]
    simp [hread]
  · obtain ⟨hmark, hmem⟩ := writeBack_of_ce hce
    exact ⟨_, exec_matCorrectedWriteback hwb, (mark_withMatWb _ _ _).trans hmark, by simp, hmem⟩
  · rw [exec_frdSpRepairWrite hkernel, if_neg (Bool.not_eq_true _ ▸ hinvalid)]
  · have hlt : v.toNat % 2 ^ 20 < 2 ^ 32 := (Nat.mod_lt _ (Nat.two_pow_pos 20)).trans (by decide)
    refine ⟨_, exec_frdSpResbaseWrite, ?_⟩
    rw [if_pos ⟨halign, hend⟩]
    refine ⟨?_, fun o ho => s.reg_setReg_ne _ ho.symm⟩
    rw [State.reg_setReg, BitVec.toNat_ofNat, Nat.mod_eq_of_lt hlt]
  · rw [exec_frdSpResbaseWrite, if_neg (by omega)]
  · rw [exec_drcMatRepairWrite hx, if_neg (Bool.not_eq_true _ ▸ hinvalid)]
  · rw [exec_drcMatRepairWrite hx, if_pos hvalid, hfree]
  · rw [exec_drcMatRepairWrite hx, if_pos hvalid, hcover]
    simp only [hnofit]
  · rw [exec_drcMatRepairWrite hx, if_pos hvalid, hcover]
    simp only [hfit, hs1]

end Sys2Proof.Machine

/-! The tick of the device clock and device time (R376 to R399), the I2C target (R752, R753). -/

namespace Sys2Proof.Machine
open Sys2Proof.Safety

/-! Seconds and nanoseconds. -/

/-- Bringing the nanoseconds below 10⁹ keeps the time, modulo the range of the seconds count (R376). -/
theorem rollover_time (t : TimeUnit) : t.rollover.ns < 1000000000 ∧
    t.rollover.sec.toNat * 1000000000 + t.rollover.ns = (t.sec.toNat * 1000000000 + t.ns) % (2 ^ 48 * 1000000000) := by
  have hsec := t.sec.isLt
  unfold TimeUnit.rollover
  split
  · simp only [BitVec.toNat_add, BitVec.toNat_ofNat]
    omega
  · omega

theorem rollover_frac (t : TimeUnit) : t.rollover.frac = t.frac := by
  unfold TimeUnit.rollover
  split <;> rfl

theorem rollover_stepPend (t : TimeUnit) : t.rollover.stepPend = t.stepPend := by
  unfold TimeUnit.rollover
  split <;> rfl

/-- One tick's increment, with the seconds taken out, adds up in nanoseconds and fraction together (R376). -/
theorem addInc_rollover_time (t : TimeUnit) (inc : Nat) :
    ((t.addInc inc).rollover.sec.toNat * 1000000000 + (t.addInc inc).rollover.ns) * 2 ^ 32 + (t.addInc inc).rollover.frac.toNat =
      ((t.sec.toNat * 1000000000 + t.ns) * 2 ^ 32 + t.frac.toNat + inc) % (2 ^ 48 * 1000000000 * 2 ^ 32) := by
  obtain ⟨-, htime⟩ := rollover_time (t.addInc inc)
  have hfrac : ((t.sec.toNat * 1000000000 + t.ns) * 2 ^ 32 + t.frac.toNat + inc) % 2 ^ 32 = (t.frac.toNat + inc) % 2 ^ 32 := by omega
  have hwhole : ((t.sec.toNat * 1000000000 + t.ns) * 2 ^ 32 + t.frac.toNat + inc) / 2 ^ 32 =
      t.sec.toNat * 1000000000 + (t.ns + (t.frac.toNat + inc) / 2 ^ 32) := by omega
  have hmod : ∀ x : Nat, x % (2 ^ 48 * 1000000000 * 2 ^ 32) = x / 2 ^ 32 % (2 ^ 48 * 1000000000) * 2 ^ 32 + x % 2 ^ 32 := fun x => by
    rw [Nat.mul_comm (2 ^ 48 * 1000000000), Nat.mod_mul, Nat.add_comm, Nat.mul_comm (2 ^ 32)]
  rw [htime, rollover_frac, hmod, hfrac, hwhole]
  simp only [TimeUnit.addInc, BitVec.toNat_ofNat]

theorem now_setNow {t : TimeUnit} {n : Nat} (h : n < 2 ^ 48 * 1000000000) : (t.setNow n).sec.toNat * 1000000000 + (t.setNow n).ns = n := by
  have hsec : n / 1000000000 < 2 ^ 48 := Nat.div_lt_of_lt_mul (by rwa [Nat.mul_comm])
  simp only [TimeUnit.setNow, BitVec.toNat_ofNat]
  rw [Nat.mod_eq_of_lt hsec, Nat.div_add_mod']

/-! The tick. -/

/-- Outside S1, with nothing pending, the time unit of a tick takes the increment and ends pulses. -/
theorem timeTick_of_idle {s : State} (hs1 : s.power.s1 = false) (hstep : s.time.stepPend = none) (hinc : s.time.incPend = none) :
    s.timeTick = ({ s with time := (s.time.addInc s.time.inc.toNat).rollover } : State).endPulses := by
  have happly : s.time.applyInc = s.time := by simp [TimeUnit.applyInc, hinc]
  have hpend : (s.time.addInc s.time.inc.toNat).rollover.stepPend = none := (rollover_stepPend _).trans hstep
  simp [State.timeTick, happly, hs1, State.applyStep, hpend]

/-- From `s` to `t` the queue, memory, registers and the clock stay. -/
structure SameTime (s t : State) : Prop where
  pending : t.pending = s.pending
  mem : t.mem = s.mem
  regs : t.regs = s.regs
  sec : t.time.sec = s.time.sec
  ns : t.time.ns = s.time.ns
  frac : t.time.frac = s.time.frac

theorem SameTime.trans {s t u : State} (h : SameTime s t) (g : SameTime t u) : SameTime s u :=
  ⟨g.pending.trans h.pending, g.mem.trans h.mem, g.regs.trans h.regs, g.sec.trans h.sec, g.ns.trans h.ns, g.frac.trans h.frac⟩

theorem endPulses_sameTime (s : State) : SameTime s s.endPulses := ⟨rfl, rfl, rfl, rfl, rfl, rfl⟩

theorem powerTick_eq (s : State) : ∃ pw, s.powerTick = { s with power := pw } := by
  unfold State.powerTick
  dsimp only
  split_ifs <;> exact ⟨_, rfl⟩

theorem powerTick_sameTime (s : State) : SameTime s s.powerTick ∧ s.powerTick.dbg = s.dbg ∧ s.powerTick.dramWait = s.dramWait := by
  obtain ⟨pw, hpower⟩ := powerTick_eq s
  rw [hpower]
  exact ⟨⟨rfl, rfl, rfl, rfl, rfl, rfl⟩, rfl, rfl⟩

theorem replayTick_sameTime {s : State} (h : s.dbg.held = none) : SameTime s s.replayTick ∧ s.replayTick.dramWait = s.dramWait := by
  have hreplay : s.replayTick = { s with dbg := { s.dbg with replay := [] } } := by
    simp only [State.replayTick, State.dbgGoOn, h]
  rw [hreplay]
  exact ⟨⟨rfl, rfl, rfl, rfl, rfl, rfl⟩, rfl⟩

theorem dramGoOn_of_none_waiting {s : State} (h : s.dramWait = []) : s.dramGoOn = s := by
  have hkeep : ({ s with dramWait := [] } : State) = s := by rw [← h]
  unfold State.dramGoOn
  rw [h, List.foldl_nil, hkeep, ite_self]

/-- What follows the clock in a tick: power-on time, replay FIFOs and requests, of which none moves the clock when nothing is held or waits. -/
theorem tickRest_sameTime {s : State} (hheld : s.dbg.held = none) (hwait : s.dramWait = []) :
    SameTime s s.endPulses.powerTick.replayTick.dramGoOn := by
  obtain ⟨hpower, hdbg, hdram⟩ := powerTick_sameTime s.endPulses
  obtain ⟨hreplay, hdram'⟩ := replayTick_sameTime (s := s.endPulses.powerTick) (by rw [hdbg]; exact hheld)
  rw [dramGoOn_of_none_waiting (hdram'.trans (hdram.trans hwait))]
  exact (endPulses_sameTime s).trans (hpower.trans hreplay)

/-- An idle tick outside S1 is the increment of the clock; queue, memory and registers stay. -/
theorem refclkTick_of_idle {s : State} (hpor : s.sys.por = false) (hs1 : s.power.s1 = false) (hheld : s.dbg.held = none) (hwait : s.dramWait = [])
    (hstep : s.time.stepPend = none) (hinc : s.time.incPend = none) :
    SameTime { s with time := (s.time.addInc s.time.inc.toNat).rollover } (refclkTick s) := by
  unfold refclkTick
  rw [if_neg (by simp [hpor]), timeTick_of_idle hs1 hstep hinc]
  exact tickRest_sameTime hheld hwait

/-- Settles O47: `refclkTick_of_idle` says what the tick is, `addInc_rollover_time` what the time becomes. -/
theorem idleTick : Obligations.IdleTick := by
  intro s hq
  refine ⟨fun hpor => ?_, fun hpor hs1 hheld hwait hstep hinc hns => ⟨refclkTick s, step_of_nil hq, ?_⟩⟩
  · rw [step_of_nil hq, refclkTick, if_pos hpor]
  · have htick := refclkTick_of_idle hpor hs1 hheld hwait hstep hinc
    obtain ⟨hlow, -⟩ := rollover_time (s.time.addInc s.time.inc.toNat)
    refine ⟨htick.pending.trans hq, htick.mem, htick.regs, htick.ns.trans_lt hlow, ?_⟩
    rw [State.now, htick.sec, htick.ns, htick.frac]
    exact addInc_rollover_time s.time s.time.inc.toNat

/-! Steps. -/

/-- From `s` to `t` the clock, the sum of steps, the pending step and memory stay. -/
structure SameClock (s t : State) : Prop where
  now : t.now = s.now
  stepSum : t.time.stepSum = s.time.stepSum
  stepPend : t.time.stepPend = s.time.stepPend
  mem : t.mem = s.mem

theorem SameClock.trans {s t u : State} (h : SameClock s t) (g : SameClock t u) : SameClock s u :=
  ⟨g.now.trans h.now, g.stepSum.trans h.stepSum, g.stepPend.trans h.stepPend, g.mem.trans h.mem⟩

theorem skipPulses_sameClock (s : State) (n : Nat) (d : Int) (t1 : Nat) : SameClock s (s.skipPulses n d t1) := by
  unfold State.skipPulses
  dsimp only
  split
  · split
    · exact ⟨rfl, rfl, rfl, rfl⟩
    · exact ⟨rfl, rfl, rfl, rfl⟩
  · exact ⟨rfl, rfl, rfl, rfl⟩

/-- The pulses that a step passes and the launches it makes late move no clock. -/
theorem foldl_skipPulses_sameClock (l : List Nat) (s : State) (d : Int) (t1 : Nat) : SameClock s (l.foldl (fun s n => s.skipPulses n d t1) s) := by
  induction l generalizing s with
  | nil => exact ⟨rfl, rfl, rfl, rfl⟩
  | cons n l ih => exact (skipPulses_sameClock s n d t1).trans (ih _)

/-- A pending step that keeps the time in its range moves the time by it and enters the sum (R380, R382). -/
theorem applyStep_now {s : State} {d : Int} (hpend : s.time.stepPend = some d) (hlow : 0 ≤ (s.now : Int) + d)
    (hhigh : (s.now : Int) + d < 2 ^ 48 * 1000000000) :
    (s.applyStep.now : Int) = s.now + d ∧ s.applyStep.time.stepSum = s.time.stepSum + d ∧ s.applyStep.time.stepPend = none ∧
      s.applyStep.mem = s.mem := by
  have hclock := foldl_skipPulses_sameClock (List.range 8) (({ s with time := { (s.time.setNow ((s.now : Int) + d).toNat) with
    stepPend := none, stepSum := s.time.stepSum + d, coarse := false } } : State).lateLaunches s.now ((s.now : Int) + d).toNat) d
      ((s.now : Int) + d).toNat
  have hset := now_setNow (t := s.time) (n := ((s.now : Int) + d).toNat) (by omega)
  have happly : s.applyStep = (List.range 8).foldl (fun u n => u.skipPulses n d ((s.now : Int) + d).toNat)
      (({ s with time := { (s.time.setNow ((s.now : Int) + d).toNat) with
        stepPend := none, stepSum := s.time.stepSum + d, coarse := false } } : State).lateLaunches s.now ((s.now : Int) + d).toNat) := by
    simp only [State.applyStep, hpend]
  rw [happly]
  refine ⟨?_, hclock.stepSum, hclock.stepPend, hclock.mem⟩
  have hnow := hclock.now.trans hset
  omega

/-! Frames. -/

section
variable (s : State) (m : Fin 8) (fr : List Byte)

/-- What leaves a MAC is sealed where the MAC protects it (R393). -/
theorem sendFrame_sent : (s.sendFrame m fr).time.sent = s.time.sent ++ [(m, if Config.macTxSecured m.val = true
    then Config.gcmSeal m.val (BitVec.ofNat 32 (s.time.txPn.getD m.val 1)) fr else fr)] := by
  unfold State.sendFrame
  split <;> rfl

theorem sendFrame_frame : (s.sendFrame m fr).mem = s.mem ∧ (s.sendFrame m fr).regs = s.regs ∧ (s.sendFrame m fr).time.launch = s.time.launch ∧
    (s.sendFrame m fr).time.fwd = s.time.fwd := by
  unfold State.sendFrame
  split <;> exact ⟨rfl, rfl, rfl, rfl⟩

end

section
variable {s : State} {m : Fin 8} {ph : Fin 32}

/-- A due launch that reports nothing goes out, and leaves its queue. -/
theorem exec_launchTransmit_due {q : Launch} {rest : List Launch} (hq : tfind s.time.launch m.val = some (q :: rest))
    (hdue : q.due (s.capture ph.val) = true) (hevent : q.event = false) : exec (.launchTransmit ⟨m, ph⟩) s = .next
      (({ s with free := s.free + 1, time := { s.time with launch := tput s.time.launch m.val rest } } : State).sendFrame m q.frame) := by
  have harm : exec (.launchTransmit ⟨m, ph⟩) s = execLaunchTransmit ⟨m, ph⟩ s := rfl
  simp only [harm, execLaunchTransmit, hq, Option.getD_some, hdue, if_true, hevent, Bool.false_eq_true, if_false]
  rfl

/-- Without a launch the first forwarded frame of the MAC goes out, with its residence time. -/
theorem exec_launchTransmit_forwarded {p : PtpFwd} (hq : (tfind s.time.launch m.val).getD [] = [])
    (hfwd : s.time.fwd.find? (fun p => decide (p.mac = m)) = some p) : exec (.launchTransmit ⟨m, ph⟩) s = .next
      (({ s with time := { s.time with fwd := s.time.fwd.erase p } } : State).sendFrame m (p.corrected (s.egress m.val (s.capture ph.val)))) := by
  have harm : exec (.launchTransmit ⟨m, ph⟩) s = execLaunchTransmit ⟨m, ph⟩ s := rfl
  simp only [harm, execLaunchTransmit, hq, hfwd]

theorem exec_trigPulse {e : Nat} (hactive : (s.trig m.val).active = true) (hedge : s.edge m.val (s.trig m.val).next = e)
    (hdue : e ≤ s.capture ph.val) (hs1 : s.power.s1 = false) : exec (.trigPulse ⟨m, ph⟩) s =
      .next (s.trigAfter m.val 1 (some (s.capture ph.val + (s.reg (oTrig m.val 0x14)).toNat))) := by
  have hgo : ((s.trig m.val).active && decide (s.edge m.val (s.trig m.val).next ≤ s.capture ph.val) && !s.power.s1) = true := by
    simp [hactive, hedge, hdue, hs1]
  exact congrArg Host.Outcome.next (if_pos hgo)

end

/-- Settles O32: `applyStep_now` is the step, `rollover_time` the seconds, `sendFrame_sent` what leaves a MAC. -/
theorem deviceTime : Obligations.DeviceTime := by
  intro s m ph
  refine ⟨fun v hpend => ⟨_, rfl, ?_⟩, fun d hpend hlow hhigh => ⟨_, rfl, applyStep_now hpend hlow hhigh⟩, fun sec hsec hrange => ⟨_, rfl, ?_⟩,
    fun q rest hq hdue hevent => ⟨_, exec_launchTransmit_due hq hdue hevent, ?_⟩, fun p hq hfwd => ⟨_, exec_launchTransmit_forwarded hq hfwd, ?_⟩,
    fun e hactive hedge hdue hs1 => exec_trigPulse hactive hedge hdue hs1⟩
  · have happly : s.time.applyInc = { s.time with inc := v, incPend := none } := by simp only [TimeUnit.applyInc, hpend]
    rw [happly]
    exact ⟨rfl, rfl, rfl⟩
  · obtain ⟨hlow, htime⟩ := rollover_time s.time
    refine ⟨htime.trans (Nat.mod_eq_of_lt ?_), hlow⟩
    have hsec' : s.time.sec.toNat = sec := by
      rw [hsec, BitVec.toNat_ofNat, Nat.mod_eq_of_lt (by omega)]
    omega
  · obtain ⟨hmem, hregs, hlaunch, -⟩ := sendFrame_frame ({ s with free := s.free + 1, time := { s.time with launch := tput s.time.launch m.val rest } } : State) m q.frame
    rw [hmem, hregs, hlaunch, sendFrame_sent]
    exact ⟨tfind_tput_self _ _ _, rfl, rfl, rfl⟩
  · obtain ⟨hmem, hregs, -, hfwd'⟩ := sendFrame_frame ({ s with time := { s.time with fwd := s.time.fwd.erase p } } : State) m
      (p.corrected (s.egress m.val (s.capture ph.val)))
    rw [hmem, hregs, hfwd', sendFrame_sent]
    exact ⟨rfl, rfl, rfl, fun hplain => by rw [if_neg (by simp [hplain])]⟩

/-! The I2C target. -/

/-- The register map ends at 0x0D (R753). -/
theorem i2cByte_of_ge (s : State) {a : Nat} (h : 0x0E ≤ a) : s.i2cByte a = 0 := by
  obtain ⟨n, rfl⟩ := Nat.exists_eq_add_of_le' h
  rfl

/-- Settles O45: the first byte written is the pointer, the one after it goes to the address named, of which only WAKE acts. -/
theorem i2cTarget : Obligations.I2cTarget := by
  intro s hpor
  refine ⟨fun a b => ⟨?_, fun ha => ?_, fun hbit hs1 => ?_⟩, fun n => ?_, rfl, rfl, fun a ha => i2cByte_of_ge s ha, fun hs1 => ?_⟩
  · exact congrArg Host.Outcome.next (if_neg (by simp [hpor]))
  · have hput : ¬(a.toNat % 256 = 0x10 ∧ b.getLsbD 0 = true) := by
      rintro ⟨haddr, -⟩
      exact ha (BitVec.eq_of_toNat_eq ((Nat.mod_eq_of_lt a.isLt).symm.trans haddr))
    refine congrArg Host.Outcome.next ((if_neg (by simp [hpor])).trans ?_)
    exact if_neg hput
  · refine congrArg Host.Outcome.next ((if_neg (by simp [hpor])).trans ?_)
    exact (if_pos ⟨rfl, hbit⟩).trans (if_pos hs1)
  · refine ⟨_, congrArg Host.Outcome.next (if_neg (by simp [hpor])), ?_, rfl, rfl, rfl, fun i hi => ?_⟩
    · simp
    · simp [List.getD_eq_getElem?_getD, hi]
  · exact congrArg Host.Outcome.next (if_pos hs1)

end Sys2Proof.Machine

/-! Instructions that run whole: the vector unit, special functions, Sorus and the Sampler (R223 to R300). -/

namespace Sys2Proof.Machine
open Sys2Proof.Safety Sys2Proof.Laws

section
variable {s t : State} {f : Fin 4} {q : Fin 64} {w : IWord}

theorem orFault_clear (t : State) (f : Fin 4) (op : Nat) : State.orFault (t, false) f op = t := rfl

/-! The vector unit. -/

theorem vecReady_of_ready (hw : s.readyIns f q.val 8 = some w) {vop : Nat} (hv : (vecF w).vop = vop) :
    s.vecReady f q.val vop = some (w, vecF w, vecOf (s.desc f (vecF w).desc)) := by
  simp only [State.vecReady, hw, hv, ↓reduceIte]

theorem runVec_of_clear (hw : s.readyIns f q.val 8 = some w) {vop : Nat} (hv : (vecF w).vop = vop) {out : Reader → VecF → VecD → VecOut}
    (hr : s.vecRun f q.val 8 w (out (s.spReader f) (vecF w) (vecOf (s.desc f (vecF w).desc))) = (t, false)) :
    s.runVec f q.val vop out = t := by
  simp only [State.runVec, vecReady_of_ready hw hv, State.finishVec, hr, orFault_clear]

theorem fresh_eq (s : State) : s.fresh = (Config.freeWord s.free, { s with free := s.free + 1 }) := rfl

theorem rd_free (s : State) (n : Nat) : ({ s with free := n } : State).rd = s.rd := rfl

theorem spReader_free (s : State) (n : Nat) (f : Fin 4) : ({ s with free := n } : State).spReader f = s.spReader f :=
  funext fun _ => congrFun (rd_free s n) _

theorem desc_free (s : State) (n : Nat) (f : Fin 4) (i : Nat) : ({ s with free := n } : State).desc f i = s.desc f i := rfl

theorem readyIns_free (s : State) (n : Nat) (f : Fin 4) (q cls : Nat) :
    ({ s with free := n } : State).readyIns f q cls = s.readyIns f q cls := rfl

/-- A fresh free value is drawn from a counter that no reader of an instruction sees. -/
theorem runVecFree_of_clear (hw : s.readyIns f q.val 8 = some w) {vop : Nat} (hv : (vecF w).vop = vop)
    {out : Word → Reader → VecF → VecD → VecOut}
    (hr : ({ s with free := s.free + 1 } : State).vecRun f q.val 8 w
      (out (Config.freeWord s.free) (s.spReader f) (vecF w) (vecOf (s.desc f (vecF w).desc))) = (t, false)) :
    s.runVecFree f q.val vop out = t := by
  have hready := vecReady_of_ready hw hv
  simp only [State.runVecFree, fresh_eq, hready, Option.isSome_some, ↓reduceIte]
  refine runVec_of_clear ((readyIns_free ..).trans hw) hv ?_
  rw [spReader_free, desc_free]
  exact hr

theorem exec_vec (s : State) (f : Fin 4) (q : Fin 64) :
    ∀ e ∈ [(Instr.vecAdd f q, 0x00, outOp2 0x00), (.vecSub f q, 0x01, outOp2 0x01), (.vecMul f q, 0x02, outOp2 0x02),
        (.vecMin f q, 0x03, outOp2 0x03), (.vecMax f q, 0x04, outOp2 0x04), (.vecCvt f q, 0x07, outOp1 0x07 0),
        (.vecScale2 f q, 0x08, outOp1 0x08 0), (.vecAnd f q, 0x0A, outOp2 0x0A), (.vecOr f q, 0x0B, outOp2 0x0B),
        (.vecXor f q, 0x0C, outOp2 0x0C), (.vecShl f q, 0x0D, outOp2 0x0D), (.vecShra f q, 0x0E, outOp2 0x0E),
        (.vecRsum f q, 0x10, outRsum), (.vecRmax f q, 0x11, outPick elemLt false),
        (.vecRmin f q, 0x12, outPick (fun a b => elemLt b a) false), (.vecArgmax f q, 0x13, outPick elemLt true),
        (.vecEafAdd f q, 0x18, outEafAdd), (.vecEafOut f q, 0x19, outEafOut), (.vecMeanFin f q, 0x1A, outMeanFin),
        (.vecEafCvt f q, 0x1C, outEafCvt), (.vecExpmap f q, 0x20, outExpmap)],
      exec e.1 s = .next (s.runVec f q.val e.2.1 e.2.2) := by
  simp only [List.forall_mem_cons, List.not_mem_nil, IsEmpty.forall_iff, implies_true, and_true]
  refine ⟨rfl, rfl, rfl, rfl, rfl, rfl, rfl, rfl, rfl, rfl, rfl, rfl, rfl, rfl, rfl, rfl, rfl, rfl, rfl, rfl, rfl⟩

theorem exec_vecFree (s : State) (f : Fin 4) (q : Fin 64) :
    ∀ e ∈ [(Instr.vecAbs f q, 0x05, outOp1 0x05), (.vecNeg f q, 0x06, outOp1 0x06), (.vecVarFin f q, 0x1B, outVarFin)],
      exec e.1 s = .next (s.runVecFree f q.val e.2.1 e.2.2) := by
  simp only [List.forall_mem_cons, List.not_mem_nil, IsEmpty.forall_iff, implies_true, and_true]
  exact ⟨rfl, rfl, rfl⟩

/-- Settles O5: each VOP's command runs `vecRun` on the output function of its VOP. -/
theorem vecCommandsRun : Obligations.VecCommandsRun := by
  intro s t f q w hw
  refine ⟨fun e he hv hr => ?_, fun e he hv hr => ?_⟩
  · rw [exec_vec s f q e he, runVec_of_clear hw hv hr]
  · rw [exec_vecFree s f q e he, runVecFree_of_clear hw hv hr]

/-! Special functions. -/

theorem runBuiltin_of_clear (hw : s.readyIns f q.val 9 = some w) {func : Nat} (hv : (sfuF w).vop = func)
    (hr : s.vecRun f q.val 9 w (outSfu (builtinEval func) (s.spReader f) (sfuF w) (vecOf (s.desc f (sfuF w).desc))) = (t, false)) :
    s.runBuiltin f q.val func = t := by
  simp only [State.runBuiltin, State.runSfu, hw, hv, ↓reduceIte, State.finishVec, hr, orFault_clear]

theorem exec_sfu (s : State) (f : Fin 4) (q : Fin 64) :
    ∀ e ∈ [(Instr.sfuExp f q, 0), (.sfuLog f q, 1), (.sfuReciprocal f q, 2), (.sfuRsqrt f q, 3), (.sfuSigmoid f q, 4),
        (.sfuTanh f q, 5), (.sfuGelu f q, 6), (.sfuSilu f q, 7), (.sfuSoftplus f q, 8), (.sfuErf f q, 9)],
      exec e.1 s = .next (s.runBuiltin f q.val e.2) := by
  simp only [List.forall_mem_cons, List.not_mem_nil, IsEmpty.forall_iff, implies_true, and_true]
  exact ⟨rfl, rfl, rfl, rfl, rfl, rfl, rfl, rfl, rfl, rfl⟩

theorem exec_sfuUserTable {r : KernelRun} {i k : Nat} {tab : List Byte} (hw : s.readyIns f q.val 9 = some w)
    (hk : (s.frond f).kernel = some r) (hv : (sfuF w).vop = 16 + i) (htab : (s.frond f).userTable r.prog i = some (k, tab)) :
    exec (.sfuUserTable f q) s = .next (s.runUserSfu f q.val w k tab) := by
  have harm : exec (.sfuUserTable f q) s = execSfuUserTable f q s := rfl
  rw [harm, execSfuUserTable]
  simp only [hw, hk, hv, Nat.le_add_right, ↓reduceIte, Nat.add_sub_cancel_left, htab]

/-- Settles O6: each built-in FUNC and the user tables run `vecRun` on their evaluation. -/
theorem sfuCommandsRun : Obligations.SfuCommandsRun := by
  rintro s t f q w d hw rfl
  refine ⟨fun e he hv hr => ?_, fun r i k tab hk hv htab hr => ?_⟩
  · rw [exec_sfu s f q e he, runBuiltin_of_clear hw hv hr]
  · rw [exec_sfuUserTable hw hk hv htab]
    simp only [State.runUserSfu, State.finishVec]
    rw [hr, orFault_clear]

/-! Sorus and the Sampler. -/

theorem sorusIns_of_ready (hw : s.readyIns f q.val 0x14 = some w) {sop : Nat} (hs : (sorusF w).sop = sop) :
    s.sorusIns f q.val sop = some w := by
  simp only [State.sorusIns, hw, hs, ↓reduceIte]

theorem runSample_of_clear (hw : s.readyIns f q.val 0x10 = some w) {mode : Nat} {out : Reader → SampleD → SampleF → SmpOut}
    (hm : (sampleOf (s.desc f (sampleF w).desc)).mode = mode)
    (hr : s.sampleRun f q.val w (out (s.spReader f) (sampleOf (s.desc f (sampleF w).desc)) (sampleF w)) = (t, false)) :
    s.runSample f q.val mode out = t := by
  simp only [State.runSample, hw, hm, ↓reduceIte, State.finishSample, hr, orFault_clear]

theorem exec_sample (s : State) (f : Fin 4) (q : Fin 64) :
    ∀ e ∈ [(Instr.cropResize f q, 0, cropOut), (.maxpool f q, 1, fun rd d t => poolOut rd d t false),
        (.avgpool f q, 2, fun rd d t => poolOut rd d t true)],
      exec e.1 s = .next (s.runSample f q.val e.2.1 e.2.2) := by
  simp only [List.forall_mem_cons, List.not_mem_nil, IsEmpty.forall_iff, implies_true, and_true]
  exact ⟨rfl, rfl, rfl⟩

theorem exec_sorusQk (h : s.sorusIns f q.val 0 = some w) : exec (.sorusQk f q) s = .next (s.doSorusQk f q.val w) := by
  have harm : exec (.sorusQk f q) s = execSorusQk f q s := rfl
  rw [harm, execSorusQk, h]

theorem exec_sorusPv (h : s.sorusIns f q.val 1 = some w) : exec (.sorusPv f q) s = .next (s.doSorusPv f q.val w) := by
  have harm : exec (.sorusPv f q) s = execSorusPv f q s := rfl
  rw [harm, execSorusPv, h]

theorem exec_sorusAppend (h : s.sorusIns f q.val 2 = some w) : exec (.sorusAppend f q) s = .next (s.doSorusAppend f q.val w) := by
  have harm : exec (.sorusAppend f q) s = execSorusAppend f q s := rfl
  rw [harm, execSorusAppend, h]

/-- Settles O10: a ready SORUS or SAMPLE instruction runs its own function. -/
theorem sorusSampleRun : Obligations.SorusSampleRun := by
  refine ⟨fun s t f q w hw => ⟨fun hs hr => ?_, fun hs hr => ?_, fun hs => ?_⟩, fun s t f q w hw e he hm hr => ?_⟩
  · rw [exec_sorusQk (sorusIns_of_ready hw hs), State.doSorusQk, hr, orFault_clear]
  · rw [exec_sorusPv (sorusIns_of_ready hw hs), State.doSorusPv, hr, orFault_clear]
  · rw [exec_sorusAppend (sorusIns_of_ready hw hs)]
  · rw [exec_sample s f q e he, runSample_of_clear hw hm hr]

end

end Sys2Proof.Machine

/-! Commands over Ebwick: completion, the order of the checks, sessions, device time (R458 to R498). -/

namespace Sys2Proof.Machine
open Sys2Proof.Safety Sys2Proof.Laws

section
variable {s s0 : State} {p : Fin 4} {d : Fin 256} {t : Taken}

/-! Sessions, partitions and registers. -/

theorem doHello_chosen {v : Nat} (hv : chooseVersion (fld t.payload 1 1 * 256 + fld t.payload 0 1)
    (fld t.payload 3 1 * 256 + fld t.payload 2 1) = some v) : s0.doHello p t =
    ⟨.ok, [BitVec.ofNat 8 v, BitVec.ofNat 8 (v / 256), BitVec.ofNat 8 p.val, BitVec.ofNat 8 s0.sys.modId.toNat] ++
      leBytes 4 (s0.sys.sessions + 1), { s0.modPort p fun x => { x with session := some ⟨v % 256, BitVec.ofNat 32 (fld t.payload 4 4)⟩ } with
        sys := { s0.sys with sessions := s0.sys.sessions + 1 } }⟩ := by
  simp only [State.doHello, hv]
  rfl

theorem doRelease_may (hmay : s0.mayRelease p t = true) (harg : fld t.payload 0 1 ≤ 1) :
    s0.doRelease p t = accept (s0.releaseAll (s0.cmdPart t)) := by
  rw [State.doRelease, hmay, decide_eq_true harg, checks_cons_true, checks_cons_true, checks_nil]

theorem doRegRead_open {n : Nat} (hn : fld t.payload 8 1 = n) (hlow : 1 ≤ n) (hhigh : n ≤ 16) (haddr : regAddrOk (fld t.payload 0 8) n = true)
    (hnames : ∀ o ∈ regNames t n, isReg o = true ∧ s0.noRegRead (s0.cmdPart t) o = false) : s0.doRegRead t =
    ⟨.ok, leBytes 4 n ++ (s0.readWords (s0.cmdPart t) (regNames t n)).1, (s0.readWords (s0.cmdPart t) (regNames t n)).2⟩ := by
  subst hn
  have hopen : (regNames t (fld t.payload 8 1)).all (fun o => !s0.noRegRead (s0.cmdPart t) o || !isReg o && decide (o < 0x08000000)) = true :=
    List.all_eq_true.2 fun o ho => by rw [(hnames o ho).2]; rfl
  have hregs : (regNames t (fld t.payload 8 1)).all isReg = true := List.all_eq_true.2 fun o ho => (hnames o ho).1
  rw [State.doRegRead]
  simp only [hopen, hregs, haddr, hlow, hhigh, and_self, decide_true, Bool.or_true, Bool.and_true, checks_cons_true, checks_nil]

theorem doRegWrite_open {o : Nat} {g : RegSpec} (haddr : regAddrOk (fld t.payload 0 8) 1 = true) (ho : fld t.payload 0 8 - regBase = o)
    (hreg : isReg o = true) (hread : s0.noRegRead (s0.cmdPart t) o = false) (hwrite : noRegWrite o = false)
    (hspec : regSpec (unwindow o) = some g) (henc : encOk g (fld t.payload 8 4) = true) :
    s0.doRegWrite t = accept (s0.writeAny (some (s0.cmdPart t)) o (BitVec.ofNat 32 (fld t.payload 8 4))) := by
  subst ho
  rw [State.doRegWrite]
  simp only [haddr, hreg, hread, hwrite, hspec, henc, Bool.not_true, Bool.not_false, Bool.and_true, Bool.or_true, checks_cons_true, checks_nil]

/-- Settles O18: each command passes its checks and answers its body. -/
theorem ebwickSessions : Obligations.EbwickSessions := by
  intro s s0 p d t
  refine ⟨fun v h hv => ?_, fun h => ?_, fun h hobj hok => ?_, fun h hobj hmay harg => ?_, fun h hok => ?_,
    fun n h hn hlow hhigh hst haddr hnames => ?_, fun o g h hst haddr ho hreg hread hwrite hspec henc => ?_⟩
  · exact runCmd_next h anyPl anyObj (fun s t => s.doHello p t) rfl rfl _ (doHello_chosen hv)
  · exact runCmd_next h anyPl anyObj (fun s _ => ⟨.ok, s.capsResp p, s⟩) rfl rfl _ rfl
  · exact runCmd_next h anyPl (fun s t => s.claimable t) (fun s t => s.doClaim p t) rfl hobj _ rfl
  · exact runCmd_next h anyPl (fun s t => s.releasable t) (fun s t => s.doRelease p t) rfl hobj _ (doRelease_may hmay harg)
  · exact runCmd_next h anyPl anyObj (fun s t => s.doQuota t) rfl rfl _ rfl
  · exact runCmd_next h anyPl (fun s t => s.regState t (fld t.payload 8 1)) (fun s t => s.doRegRead t) rfl (hn ▸ hst) _
      (doRegRead_open hn hlow hhigh haddr hnames)
  · exact runCmd_next h anyPl (fun s t => s.regState t 1) (fun s t => s.doRegWrite t) rfl hst _
      (doRegWrite_open haddr ho hreg hread hwrite hspec henc)

/-! Device time. -/

theorem doLaunchFrame_accepted {b : List Byte} {m n : Nat} (hb : t.payload = b) (hkind : fld b 0 1 = 0) (hm : fld b 1 1 = m) (hm8 : m < 8)
    (hmac : s0.assigned t (·.macs) m = true) (hflags : fld b 2 1 ≤ 1) (hn : fld b 14 2 = n) (hlow : 60 ≤ n) (hhigh : n ≤ 1522)
    (hns : fld b 4 4 < 1000000000) (hzero : zerosAt b 16 12 = true) (hroom : ((tfind s0.time.launch m).getD []).length < 16) :
    s0.doLaunchFrame t = ⟨if fldTime b 4 ≠ 0 ∧ fldTime b 4 < s0.now then .late else .ok, [],
      { s0 with time := { s0.time with launch := tput s0.time.launch m (launchPut ⟨fldTime b 4,
        decide (fldTime b 4 ≠ 0 ∧ fldTime b 4 < s0.now), bit1 (fld b 2 1) 0, BitVec.ofNat 32 t.tag, s0.cmdPart t, slice b 32 n⟩
        ((tfind s0.time.launch m).getD [])) } }⟩ := by
  subst hb hm hn
  rw [State.doLaunchFrame]
  refine (checks_ok _ _ _ ?_).trans ?_
  · simp only [List.forall_mem_cons, List.not_mem_nil, IsEmpty.forall_iff, implies_true, hkind, hm8, hmac, hflags, hlow, hhigh, hns, hzero,
      hroom, and_self, decide_true, Bool.or_true, Bool.and_self]
  · simp only [decide_eq_true_eq]

theorem doLaunchTrigger_accepted {b : List Byte} {n : Nat} (hb : t.payload = b) (hn : fld b 1 1 = n) (hn8 : n < 8)
    (htrig : s0.assigned t (·.trigs) n = true) (hctrl : fld b 2 1 ≤ 3) (hns : fld b 4 4 < 1000000000) (hzero : fld b 14 2 = 0)
    (hwidth : fld b 20 4 ≠ 0) (hperiod : fld b 16 4 = 0 ∨ fld b 20 4 < fld b 16 4) :
    s0.doLaunchTrigger t = accept
      (((((((s0.writeReg (oTrig n 4) (BitVec.ofNat 32 (fld b 4 4))).writeReg (oTrig n 8) (BitVec.ofNat 32 (fld b 8 4))).writeReg
        (oTrig n 0xC) (BitVec.ofNat 32 (fld b 12 2))).writeReg (oTrig n 0x10) (BitVec.ofNat 32 (fld b 16 4))).writeReg
        (oTrig n 0x14) (BitVec.ofNat 32 (fld b 20 4))).writeReg (oTrig n 0x18) (BitVec.ofNat 32 (fld b 24 4))).writeReg
        (oTrig n 0) (BitVec.ofNat 32 (fld b 2 1))) := by
  subst hb hn
  rw [State.doLaunchTrigger]
  refine (checks_ok _ _ _ ?_).trans ?_
  · simp only [List.forall_mem_cons, List.not_mem_nil, IsEmpty.forall_iff, implies_true, hn8, htrig, hctrl, hns, hzero, hwidth, hperiod,
      and_self, decide_true, Bool.or_true, ne_eq, not_false_eq_true]
  · simp only [List.foldl_cons, List.foldl_nil]

/-- Settles O22: each command passes its checks and answers its body. -/
theorem ebwickTime : Obligations.EbwickTime := by
  intro s s0 p d t b hb
  refine ⟨fun h => exec_timeRead h, fun v h hpart hv hlow hhigh => ?_, fun v h hpart hv hnow hpend => ?_,
    fun m n h hkind hm hm8 hmac hflags hn hlow hhigh hns hzero hroom => ?_,
    fun n h hkind hn hn8 htrig hctrl hns hzero hwidth hperiod => ?_⟩
  · subst hb hv
    exact exec_timeIncSet_inRange h hpart ⟨hlow, hhigh⟩
  · subst hb hv
    exact exec_timeStep_accepted h hpart hnow hpend
  · refine runCmd_next h (fun b => fld b 0 1 ≠ 1) anyObj (fun s t => s.doLaunchFrame t) ?_ rfl _
      (doLaunchFrame_accepted hb hkind hm hm8 hmac hflags hn hlow hhigh hns hzero hroom)
    rw [hb, hkind]
    rfl
  · refine runCmd_next h (fun b => fld b 0 1 = 1) anyObj (fun s t => s.doLaunchTrigger t) ?_ rfl _
      (doLaunchTrigger_accepted hb hn hn8 htrig hctrl hns hzero hwidth hperiod)
    rw [hb, hkind]
    rfl

/-! Sequences. -/

theorem seqStands_of_standing {r : Fin 4} {x : Seq} (hpart : asPart t.part = some r) (hseq : s0.seqOf r (fld t.payload 0 4) = some x)
    (hret : x.retired = false) : s0.seqStands t = true := by
  simp only [State.seqStands, hpart, Option.bind_some, hseq, hret, Bool.not_false]

theorem seqEdits_of_standing {r : Fin 4} {x : Seq} (hpart : asPart t.part = some r) (hseq : s0.seqOf r (fld t.payload 0 4) = some x)
    (hret : x.retired = false) (hgen : x.gen.toNat ≠ 0xFFFFFFFF) : s0.seqEdits t = true := by
  simp only [State.seqEdits, seqStands_of_standing hpart hseq hret, hpart, Option.bind_some, hseq, hgen, ne_eq, not_false_eq_true,
    decide_true, Bool.and_self]

theorem doFork_accepted {r : Fin 4} {x : Seq} {n : Nat} {sp : List Span} (hsp : x.spans.take (cdiv n 64) = sp) (hr : s0.cmdPart t = r) (hn : fld t.payload 8 8 = n)
    (hseq : s0.seqOf r (fld t.payload 0 4) = some x) (hlen : x.basePos + n ≤ x.len)
    (hpages : ∀ i ∈ spanPages sp, (s0.pageOf x.pool i).taint = false ∧ (s0.pageOf x.pool i).count < 65535)
    (hroom : s0.seqRoom r = true) : s0.doFork t = ⟨.ok, leBytes 4 s0.nextId ++ leBytes 4 1, { s0 with
      pools := tmod s0.pools x.pool fun y => y.incr (spanPages sp) false
      nextId := s0.nextId + 1
      seqs := tput s0.seqs s0.nextId { x with gen := 1, len := x.basePos + n, spans := sp } }⟩ := by
  subst hr hn
  have hclean : (spanPages sp).all (fun i => !(s0.pageOf x.pool i).taint) = true :=
    List.all_eq_true.2 fun i hi => by rw [(hpages i hi).1]; rfl
  have hcount : (spanPages sp).all (fun i => decide ((s0.pageOf x.pool i).count < 65535)) = true :=
    List.all_eq_true.2 fun i hi => decide_eq_true (hpages i hi).2
  subst hsp
  simp only [State.doFork, hseq]
  refine (checks_ok _ _ _ ?_).trans rfl
  simp only [List.forall_mem_cons, List.not_mem_nil, IsEmpty.forall_iff, implies_true, hroom, hlen, decide_true, and_true, true_and,
    Bool.and_true]
  exact ⟨hclean, hcount⟩

theorem doEdit_accepted {r : Fin 4} {x : Seq} (hr : s0.cmdPart t = r) (hseq : s0.seqOf r (fld t.payload 0 4) = some x)
    {ok : Seq → Bool} (hok : ok x = true) (base len : Seq → Nat) (sp : Seq → List Span) : s0.doEdit t ok base len sp =
    ⟨.ok, leBytes 4 (x.gen.toNat + 1), ({ s0.reSpan (fld t.payload 0 4) (sp x) (len x) false with
      seqs := tmod (s0.reSpan (fld t.payload 0 4) (sp x) (len x) false).seqs (fld t.payload 0 4) fun y =>
        { y with basePos := base x } } : State).sweepPool x.pool⟩ := by
  subst hr
  simp only [State.doEdit, hseq, hok, checks_cons_true, checks_nil]

theorem exec_seqCreate {b : List Byte} {r : Fin 4} (hb : t.payload = b) (hr : s0.cmdPart t = r) (h : Passes s p d.val 0x0040 .claimed t s0)
    (hpool : fld b 0 1 < 4) (hlow : 1 ≤ fld b 1 1) (hhigh : fld b 1 1 ≤ 16) (hflags : fld b 2 1 ≤ 1) (hbase : fld b 8 8 % 64 = 0)
    (hfound : (tfind s0.pools (poolKey r (fld b 0 1))).isSome = true) (hroom : s0.seqRoom r = true) :
    exec (.seqCreate p d) s = .next (after p d.val t (s0.addSeq
      { part := r, pool := poolKey r (fld b 0 1), nhg := fld b 1 1, hot := bit1 (fld b 2 1) 0, gen := 1, basePos := fld b 8 8,
        len := fld b 8 8, spans := [], retired := false })) := by
  subst hb hr
  refine runCmd_next h anyPl anyObj _ rfl rfl _ (checks_ok _ _ _ ?_)
  simp only [List.forall_mem_cons, List.not_mem_nil, IsEmpty.forall_iff, implies_true, hpool, hlow, hhigh, hflags, hbase, hfound, hroom,
    and_self, decide_true, Bool.and_self]

theorem exec_seqRetire {r : Fin 4} {x : Seq} (hr : s0.cmdPart t = r) (h : Passes s p d.val 0x0043 .claimed t s0)
    (hpart : asPart t.part = some r) (hseq : s0.seqOf r (fld t.payload 0 4) = some x) (hret : x.retired = false) :
    exec (.seqRetire p d) s = .next (after p d.val t (accept (s0.retireSeq (fld t.payload 0 4)))) := by
  subst hr
  refine runCmd_next h anyPl (fun s t => s.seqStands t) _ rfl (seqStands_of_standing hpart hseq hret) _ ?_
  simp only [hseq, Option.isSome_some, checks_cons_true, checks_nil]

/-- Settles O20: each command passes its checks and answers its body. -/
theorem ebwickSequences : Obligations.EbwickSequences := by
  intro s s0 p d t b r hb hr
  refine ⟨exec_seqCreate hb hr, fun x h hpart hseq hret hlen hpages hroom => ?_, fun x pos h hpart hseq hret hgen hop hpos hlow hhigh => ?_,
    fun x pos h hpart hseq hret hgen hop hpos hmod hlow hhigh => ?_, fun x h hpart hseq hret => ?_⟩ <;> subst hb
  · exact runCmd_next h anyPl (fun s t => s.seqStands t) (fun s t => s.doFork t) rfl (seqStands_of_standing hpart hseq hret) _
      (doFork_accepted rfl hr rfl hseq hlen hpages hroom)
  · subst hpos
    refine ⟨_, rfl, runCmd_next h (fun b => fld b 4 1 ≠ 1) (fun s t => s.seqEdits t) _ ?_ (seqEdits_of_standing hpart hseq hret hgen) _
      (doEdit_accepted hr hseq ?_ _ _ _)⟩
    · rw [hop]; rfl
    · exact decide_eq_true ⟨hop, hlow, hhigh⟩
  · subst hpos
    refine ⟨_, rfl, runCmd_next h (fun b => fld b 4 1 = 1) (fun s t => s.seqEdits t) _ ?_ (seqEdits_of_standing hpart hseq hret hgen) _
      (doEdit_accepted hr hseq ?_ _ _ _)⟩
    · rw [hop]; rfl
    · exact decide_eq_true ⟨hmod, hlow, hhigh⟩
  · exact exec_seqRetire hr h hpart hseq hret

end

end Sys2Proof.Machine

/-! Commands over Ebwick: streams and the Dealer, memory, programs, jobs, Decks, groups (R267 to R570). -/

namespace Sys2Proof.Machine
open Sys2Proof.Safety Sys2Proof.Laws

section
variable {s s0 : State} {p : Fin 4} {d : Fin 256} {t : Taken} {b : List Byte} {c : Nat}

/-! Streams and the Dealer. -/

theorem ownStream_of_owner (hown : (s0.stream (fld t.payload 0 1)).owner = some (s0.cmdPart t)) : s0.ownStream t = true := by
  simp only [State.ownStream, hown, decide_true, Bool.or_true, Bool.true_or]

theorem startable_of_stopped (hon : s0.strmOn (fld t.payload 0 1) = false) (hkind : s0.strmKind (fld t.payload 0 1) ≠ 0)
    (hring : s0.strmKind (fld t.payload 0 1) = 3 → (s0.ring p (s0.auxRing (fld t.payload 0 1))).isSome = true) :
    s0.startable p t = true := by
  have haux : (decide (s0.strmKind (fld t.payload 0 1) ≠ 3) || (s0.ring p (s0.auxRing (fld t.payload 0 1))).isSome) = true := by
    by_cases h3 : s0.strmKind (fld t.payload 0 1) = 3
    · rw [hring h3, Bool.or_true]
    · rw [decide_eq_true h3, Bool.true_or]
  rw [State.startable, hon, decide_eq_true hkind, haux]
  simp only [Bool.not_false, Bool.and_true, Bool.or_true]

theorem dealerMine_of_cfg {g : DealerCfg} (hcfg : s0.dealer.cfg = some g) (hpart : g.part = s0.cmdPart t) : s0.dealerMine t = true := by
  rw [State.dealerMine, hcfg]
  exact decide_eq_true hpart

theorem exec_streamStart (h : Passes s p d.val 0x0039 .claimed t s0) (hc : fld t.payload 0 1 < 96)
    (hown : (s0.stream (fld t.payload 0 1)).owner = some (s0.cmdPart t)) (hst : s0.startable p t = true)
    (hfits : s0.pipeFits (fld t.payload 0 1) = true) :
    exec (.streamStart p d) s = .next (after p d.val t (accept (s0.startStream (fld t.payload 0 1)))) := by
  refine runCmd_next h anyPl (fun s t => s.startable p t) _ rfl hst _ (checks_ok _ _ _ ?_)
  simp only [List.forall_mem_cons, List.not_mem_nil, IsEmpty.forall_iff, implies_true, ownStream_of_owner hown, hc, hfits, decide_true,
    and_self]

theorem exec_streamStop (h : Passes s p d.val 0x003A .claimed t s0) (hc : fld t.payload 0 1 < 96)
    (hown : (s0.stream (fld t.payload 0 1)).owner = some (s0.cmdPart t)) (hon : s0.strmOn (fld t.payload 0 1) = true) :
    exec (.streamStop p d) s = .next (after p d.val t (accept (s0.stopStream (fld t.payload 0 1)))) := by
  refine runCmd_next h anyPl (fun s t => decide (96 ≤ fld t.payload 0 1) || s.strmOn (fld t.payload 0 1)) _ rfl ?_ _ (checks_ok _ _ _ ?_)
  · rw [hon, Bool.or_true]
  · simp only [List.forall_mem_cons, List.not_mem_nil, IsEmpty.forall_iff, implies_true, ownStream_of_owner hown, hc, decide_true, and_self]

theorem exec_dealerConfig {g : DealerCfg} (h : Passes s p d.val 0x0050 .claimed t s0) (hrun : s0.dealer.run = false)
    (hg : dealerCfgOf (s0.cmdPart t) t.payload = g) (hchans : s0.dealerChans g = true) (hok : s0.dealerCfgOk t.payload g = true) :
    exec (.dealerConfig p d) s = .next (after p d.val t (accept { s0 with dealer := { Dealer.reset with cfg := some g } })) := by
  subst hg
  refine runCmd_next h anyPl (fun s _ => !s.dealer.run) _ rfl ?_ _ (checks_ok _ _ _ ?_)
  · rw [hrun]; rfl
  · simp only [List.forall_mem_cons, List.not_mem_nil, IsEmpty.forall_iff, implies_true, hchans, hok, and_self]

theorem doDealerStart_checked {g : DealerCfg} (hcfg : s0.dealer.cfg = some g) (hpart : g.part = s0.cmdPart t)
    (himg : s0.imageOk g = true) : s0.doDealerStart t = ⟨.ok, leBytes 8 (s0.imgSamples g),
      { ((s0.reportRead { Who.unit 75 with part := g.part.val } g.base 64).reportRead { Who.unit 75 with part := g.part.val }
          (g.base + s0.rdLe (g.base + 16) 8) (16 * s0.imgSamples g)).clearRegs (fun o => decide (0x03080010 ≤ o ∧ o < 0x03080020)) with
        dealer := { Dealer.reset with
          cfg := some g, run := true, nsamp := s0.imgSamples g, epoch := g.epoch0, startEpoch := g.epoch0 } }⟩ := by
  rw [State.doDealerStart]
  simp only [hcfg, dealerMine_of_cfg hcfg hpart, himg, checks_cons_true, checks_nil]

theorem exec_dealerStart {g : DealerCfg} {r : Done} (h : Passes s p d.val 0x0051 .claimed t s0) (hrun : s0.dealer.run = false)
    (hcfg : s0.dealer.cfg = some g) (hr : s0.doDealerStart t = r) : exec (.dealerStart p d) s = .next (after p d.val t r) := by
  refine runCmd_next h anyPl (fun s _ => s.dealer.cfg.isSome && !s.dealer.run) (fun s t => s.doDealerStart t) rfl ?_ _ hr
  rw [hcfg, hrun]
  rfl

theorem exec_dealerStop {g : DealerCfg} (h : Passes s p d.val 0x0052 .claimed t s0) (hrun : s0.dealer.run = true)
    (hcfg : s0.dealer.cfg = some g) (hpart : g.part = s0.cmdPart t) : exec (.dealerStop p d) s = .next (after p d.val t
      ⟨.ok, leBytes 4 s0.dealer.pos ++ leBytes 4 s0.dealer.epoch, s0.modDealer fun x => { x with run := false, lanes := [], done := [] }⟩) := by
  refine runCmd_next h anyPl (fun s _ => s.dealer.run) _ rfl hrun _ ?_
  simp only [dealerMine_of_cfg hcfg hpart, checks_cons_true, checks_nil]

/-- Settles O21: each command passes its checks and answers its body. -/
theorem ebwickStreams : Obligations.EbwickStreams := by
  rintro s s0 p d t _ _ rfl rfl
  refine ⟨fun h hidle hok => ?_, fun h hc hown hon hkind hring hfits => ?_, fun h hc hown hon => exec_streamStop h hc hown hon,
    fun g h hrun hg hchans hok => exec_dealerConfig h hrun hg hchans hok, fun g h hrun hcfg hpart himg => ?_,
    fun g h hrun hcfg hpart => exec_dealerStop h hrun hcfg hpart⟩
  · exact runCmd_next h anyPl (fun s t => s.streamIdle t) (fun s t => s.doStreamConfig p t) rfl hidle _ rfl
  · exact exec_streamStart h hc hown (startable_of_stopped hon hkind hring) hfits
  · exact ⟨_, rfl, exec_dealerStart h hrun hcfg (doDealerStart_checked hcfg hpart himg)⟩

/-! Memory, apertures, programs, jobs, Decks and groups. -/

theorem exec_claimed (p : Fin 4) (d : Fin 256) (t : Taken) (s0 : State) :
    ∀ e ∈ [(Instr.memAlloc p d, 0x0018, s0.doAlloc t), (.apertureMap p d, 0x001A, s0.doMap p t), (.progLoad p d, 0x0020, s0.doProgLoad t),
        (.jobSubmit p d, 0x0028, s0.doSubmit p t), (.deckLoad p d, 0x0030, s0.doDeckLoad t), (.groupForm p d, 0x0048, s0.doGroupForm t)],
      Passes s p d.val e.2.1 .claimed t s0 → exec e.1 s = .next (after p d.val t e.2.2) := by
  simp only [List.forall_mem_cons, List.not_mem_nil, IsEmpty.forall_iff, implies_true, and_true]
  exact ⟨fun h => runCmd_next h anyPl anyObj (fun s t => s.doAlloc t) rfl rfl _ rfl,
    fun h => runCmd_next h anyPl anyObj (fun s t => s.doMap p t) rfl rfl _ rfl,
    fun h => runCmd_next h anyPl anyObj (fun s t => s.doProgLoad t) rfl rfl _ rfl,
    fun h => runCmd_next h anyPl anyObj (fun s t => s.doSubmit p t) rfl rfl _ rfl,
    fun h => runCmd_next h anyPl anyObj (fun s t => s.doDeckLoad t) rfl rfl _ rfl,
    fun h => runCmd_next h anyPl anyObj (fun s t => s.doGroupForm t) rfl rfl _ rfl⟩

theorem exec_aperture (p : Fin 4) (d : Fin 256) (t : Taken) (s0 : State) :
    ∀ e ∈ [(Instr.apertureFill p d, 0x001B, s0.doFill p t), (.apertureFlush p d, 0x001C, s0.doFlush p t)],
      Passes s p d.val e.2.1 .claimed t s0 → s0.aperMapped p t = true → exec e.1 s = .next (after p d.val t e.2.2) := by
  simp only [List.forall_mem_cons, List.not_mem_nil, IsEmpty.forall_iff, implies_true, and_true]
  exact ⟨fun h hmap => runCmd_next h anyPl (fun s t => s.aperMapped p t) (fun s t => s.doFill p t) rfl hmap _ rfl,
    fun h hmap => runCmd_next h anyPl (fun s t => s.aperMapped p t) (fun s t => s.doFlush p t) rfl hmap _ rfl⟩

theorem exec_memFree {a : Alloc} {r : Fin 4} (h : Passes s p d.val 0x0019 .claimed t s0) (hpart : asPart t.part = some r)
    (hcmd : s0.cmdPart t = r) (halloc : s0.allocOf r (fld t.payload 0 4) = some a) (huse : s0.inUse (fld t.payload 0 4) a = false)
    (hgroups : ∀ g ∈ s0.groups, g.handle ≠ fld t.payload 0 4) :
    exec (.memFree p d) s = .next (after p d.val t (accept (s0.freeAlloc (fld t.payload 0 4)))) := by
  have hfree : (s0.groups.all fun g => decide (g.handle ≠ fld t.payload 0 4)) = true :=
    List.all_eq_true.2 fun g hg => decide_eq_true (hgroups g hg)
  refine runCmd_next h anyPl _ _ rfl ?_ _ ?_
  · simp only [hpart, Option.bind_some, halloc, huse, Bool.not_false]
  · simp only [hcmd, halloc, Option.isSome_some, hfree, checks_cons_true, checks_nil]

theorem exec_progUnload {g : Prog} (h : Passes s p d.val 0x0021 .claimed t s0)
    (hjobs : ∀ e ∈ s0.jobs, ¬(e.2.prog = fld t.payload 0 4 ∧ e.2.part.val = t.part))
    (hprog : s0.progOfPart (s0.cmdPart t) (fld t.payload 0 4) = some g) :
    exec (.progUnload p d) s = .next (after p d.val t (accept (s0.unloadProg (fld t.payload 0 4)))) := by
  have hnone : (s0.jobs.any fun e => decide (e.2.prog = fld t.payload 0 4 ∧ e.2.part.val = t.part)) = false :=
    List.any_eq_false.2 fun e he => by rw [decide_eq_false (hjobs e he)]; exact Bool.false_ne_true
  refine runCmd_next h anyPl _ _ rfl ?_ _ ?_
  · simp only [hnone, Bool.not_false]
  · simp only [hprog, Option.isSome_some, checks_cons_true, checks_nil]

theorem exec_jobCancel {j : Job} (h : Passes s p d.val 0x0029 .claimed t s0) (hjob : s0.jobOf t.part (fld t.payload 0 8) = some j) :
    exec (.jobCancel p d) s = .next (after p d.val t (accept (s0.cancelJob (fld t.payload 0 8)))) := by
  refine runCmd_next h anyPl (fun s t => (s.jobOf t.part (fld t.payload 0 8)).isSome) (fun s t => accept (s.cancelJob (fld t.payload 0 8)))
    rfl ?_ _ rfl
  rw [hjob]
  rfl

theorem doDeckSwitch_loaded {k : Bank} (hsel : fld t.payload 0 1 ≤ 1)
    (hbank : (s0.part (s0.cmdPart t)).bank (bankSel (fld t.payload 0 1)) = some k)
    (hactive : (s0.part (s0.cmdPart t)).active ≠ some (bankSel (fld t.payload 0 1)))
    (hfits : ∀ e ∈ s0.jobs, e.2.part = s0.cmdPart t → e.2.golden = none → s0.bankFits k e.2 = true) :
    s0.doDeckSwitch t = ⟨.ok, s0.deckAsTime (s0.switchTime (s0.part (s0.cmdPart t))),
      (s0.frondsOf (s0.cmdPart t)).foldl State.clearDeckRegs (s0.modPart (s0.cmdPart t) fun y => { y with
        switchTo := some (bankSel (fld t.payload 0 1), s0.switchTime (s0.part (s0.cmdPart t))), idleAll := false })⟩ := by
  have hall : ((s0.jobs.filter fun e => decide (e.2.part = s0.cmdPart t) && e.2.golden.isNone).all fun e => s0.bankFits k e.2) = true := by
    refine List.all_eq_true.2 fun e he => ?_
    obtain ⟨hmem, hown⟩ := List.mem_filter.1 he
    obtain ⟨hpart, hgolden⟩ := Bool.and_eq_true_iff.1 hown
    exact hfits e hmem (of_decide_eq_true hpart) (Option.isNone_iff_eq_none.1 hgolden)
  rw [State.doDeckSwitch]
  simp only [hbank, hsel, decide_true, hactive, if_false, hall, checks_cons_true, checks_nil]

theorem exec_deckSwitch {r : Done} (h : Passes s p d.val 0x0031 .claimed t s0) (hload : s0.bankLoaded t = true) (hr : s0.doDeckSwitch t = r) :
    exec (.deckSwitch p d) s = .next (after p d.val t r) :=
  runCmd_next h anyPl (fun s t => s.bankLoaded t) (fun s t => s.doDeckSwitch t) rfl hload _ hr

theorem exec_groupLeave {g : Group} (h : Passes s p d.val 0x0049 .claimed t s0)
    (hgroup : s0.groupAt (s0.cmdPart t) (fld t.payload 0 4) = some g) :
    exec (.groupLeave p d) s = .next (after p d.val t (accept (s0.leaveGroup g.key).sweepRetired)) := by
  refine runCmd_next h anyPl (fun s t => s.isMember t) (fun s t => s.doGroupLeave t) rfl ?_ _ ?_
  · rw [State.isMember, hgroup]; rfl
  · simp only [State.doGroupLeave, hgroup]

theorem setHint_listed {n : Nat} (hn : fld t.payload 0 1 = n) (hle : n ≤ 2) : s0.setHint t n =
    accept (s0.modPart (s0.cmdPart t) fun x => { x with hint := n, idling := decide (n ≠ 0) }) := by
  subst hn
  simp only [State.setHint, hle, decide_true, checks_cons_true, checks_nil]

theorem exec_pwrHint (h : Passes s p d.val 0x0033 .claimed t s0) :
    ∀ e ∈ [(Instr.pwrHintNone p d, 0), (.pwrHintIdle p d, 1), (.pwrHintStandbyOk p d, 2)], fld t.payload 0 1 = e.2 →
      exec e.1 s = .next (after p d.val t (accept (s0.modPart (s0.cmdPart t) fun x => { x with hint := e.2, idling := decide (e.2 ≠ 0) }))) := by
  simp only [List.forall_mem_cons, List.not_mem_nil, IsEmpty.forall_iff, implies_true, and_true]
  refine ⟨fun hv => ?_, fun hv => ?_, fun hv => ?_⟩
  · exact runCmd_next h (fun b => decide (fld b 0 1 = 0 ∨ 2 < fld b 0 1)) anyObj (fun s t => s.setHint t 0) (decide_eq_true (.inl hv)) rfl _
      (setHint_listed hv (by decide))
  · exact runCmd_next h (fun b => decide (fld b 0 1 = 1)) anyObj (fun s t => s.setHint t 1) (decide_eq_true hv) rfl _
      (setHint_listed hv (by decide))
  · exact runCmd_next h (fun b => decide (fld b 0 1 = 2)) anyObj (fun s t => s.setHint t 2) (decide_eq_true hv) rfl _
      (setHint_listed hv (by decide))

/-- LAT_TOL_SET answers one byte: the A-state that firmware chooses (R480). -/
theorem exec_latTolSet (h : Passes s p d.val 0x0032 .claimed t s0) : ∃ b, exec (.latTolSet p d) s = .next (after p d.val t
    ⟨.ok, [b], s0.modPart (s0.cmdPart t) fun x => { x with tol := fld t.payload 0 4 }⟩) :=
  ⟨_, runCmd_next h anyPl anyObj _ rfl rfl _ rfl⟩

/-- Settles O19: each command passes its checks and answers its body. -/
theorem ebwickWork : Obligations.EbwickWork := by
  intro s s0 p d t
  refine ⟨fun e he h _ => exec_claimed p d t s0 e he h, fun e he h hmap _ => exec_aperture p d t s0 e he h hmap,
    fun a r h hpart hcmd halloc huse hgroups => exec_memFree h hpart hcmd halloc huse hgroups,
    fun g h hjobs hprog => exec_progUnload h hjobs hprog, fun j h hjob => exec_jobCancel h hjob,
    fun k h hsel hload hbank hactive hfits => exec_deckSwitch h hload (doDeckSwitch_loaded hsel hbank hactive hfits),
    fun g h hgroup => exec_groupLeave h hgroup, exec_latTolSet, fun e he h hv => exec_pwrHint h e he hv⟩

end

end Sys2Proof.Machine

/-! Commands over Ebwick: faults, self-test, health and security (R480, R630 to R725). -/

namespace Sys2Proof.Machine
open Sys2Proof.Safety Sys2Proof.Laws

section
variable {s s0 : State} {p : Fin 4} {d : Fin 256} {t : Taken}

/-! Faults, self-test and health. -/

theorem exec_faultRead {n : Nat} (h : Passes s p d.val 0x0060 .session t s0) (hn : fld t.payload 4 1 = n) (hlow : 1 ≤ n) (hhigh : n ≤ 15) :
    exec (.faultRead p d) s = .next (after p d.val t ⟨.ok, leBytes 16 n ++ (List.range n).flatMap fun i =>
      ((s0.faultRec (fld t.payload 0 4 + i)).map FaultRec.bytes).getD (List.replicate 64 0), s0⟩) := by
  subst hn
  refine runCmd_next h anyPl anyObj (fun s t => s.doFaultRead t) rfl rfl _ ?_
  simp only [State.doFaultRead, hlow, hhigh, and_self, decide_true, checks_cons_true, checks_nil]

theorem exec_faultAck {r : FaultRec} (h : Passes s p d.val 0x0061 .session t s0) (hrec : s0.faultRec (fld t.payload 0 4) = some r)
    (hcls : r.cls ≠ 0) (hack : r.acked = false) (hmgmt : s0.isMgmt p = true) :
    exec (.faultAck p d) s = .next (after p d.val t (accept ({ s0 with fcol := { s0.fcol with
      ring := s0.fcol.ring.map fun (x : FaultRec) => if x.seq = fld t.payload 0 4 then { x with acked := true } else x } }).clearHold)) := by
  refine runCmd_next h anyPl (fun s t => s.ackable t) (fun s t => s.doFaultAck p t) rfl ?_ _ ?_
  · simp only [State.ackable, hrec, hcls, hack, ne_eq, not_false_eq_true, decide_true, Bool.not_false, Bool.and_self]
  · simp only [State.doFaultAck, State.mayAck, hmgmt, Bool.true_or, hrec, Option.isSome_some, checks_cons_true, checks_nil]

theorem doForce_present {act : State → Nat → State} (hop : fld t.payload 2 1 ≤ 2) (hsrc : srcPresent (fld t.payload 0 2) = true)
    (hlt : fld t.payload 0 2 < 1024) : s0.doForce t act = accept (act s0 (fld t.payload 0 2)).sweepRetired := by
  simp only [State.doForce, hop, hsrc, hlt, and_self, decide_true, Bool.and_self, checks_cons_true, checks_nil]

theorem exec_force (h : Passes s p d.val 0x0062 .mgmt t s0) (hsrc : srcPresent (fld t.payload 0 2) = true) (hlt : fld t.payload 0 2 < 1024) :
    ∀ e ∈ [(Instr.forceRelease p d, 0, State.forceRelease), (.forcePulse p d, 1, State.forcePulse), (.forceHold p d, 2, State.forceHold)],
      fld t.payload 2 1 = e.2.1 → exec e.1 s = .next (after p d.val t (accept (e.2.2 s0 (fld t.payload 0 2)).sweepRetired)) := by
  simp only [List.forall_mem_cons, List.not_mem_nil, IsEmpty.forall_iff, implies_true, and_true]
  refine ⟨fun hv => ?_, fun hv => ?_, fun hv => ?_⟩
  · exact runCmd_next h (fun b => decide (fld b 2 1 = 0 ∨ 2 < fld b 2 1)) anyObj (fun s t => s.doForce t State.forceRelease)
      (decide_eq_true (.inl hv)) rfl _ (doForce_present (hv.trans_le (by decide)) hsrc hlt)
  · exact runCmd_next h (fun b => decide (fld b 2 1 = 1)) anyObj (fun s t => s.doForce t State.forcePulse)
      (decide_eq_true hv) rfl _ (doForce_present (hv.trans_le (by decide)) hsrc hlt)
  · exact runCmd_next h (fun b => decide (fld b 2 1 = 2)) anyObj (fun s t => s.doForce t State.forceHold)
      (decide_eq_true hv) rfl _ (doForce_present (hv.trans_le (by decide)) hsrc hlt)

theorem selfCtrl_listed {act : State → Fin 4 → State} (hop : fld t.payload 0 1 ≤ 3) (hpart : fld t.payload 2 2 < 64) :
    s0.selfCtrl t act = ⟨.ok, ((act s0 (selfFrond t.payload)).selfReport (selfFrond t.payload)).1,
      ((act s0 (selfFrond t.payload)).selfReport (selfFrond t.payload)).2⟩ := by
  simp only [State.selfCtrl, hop, hpart, and_self, decide_true, checks_cons_true, checks_nil]

theorem exec_selftestCtrl (h : Passes s p d.val 0x0063 .mgmt t s0) (hpart : fld t.payload 2 2 < 64) :
    ∀ e ∈ [(Instr.selftestStatus p d, 0, s0), (.selftestPause p d, 1, { s0 with safety := { s0.safety with patPaused := true } }),
        (.selftestResume p d, 2, { s0 with safety := { s0.safety with patPaused := false } }),
        (.selftestRunNow p d, 3, { s0 with safety := { s0.safety with runNow := s0.safety.runNow.set (selfFrond t.payload).val true } })],
      fld t.payload 0 1 = e.2.1 →
      exec e.1 s = .next (after p d.val t ⟨.ok, (e.2.2.selfReport (selfFrond t.payload)).1, (e.2.2.selfReport (selfFrond t.payload)).2⟩) := by
  simp only [List.forall_mem_cons, List.not_mem_nil, IsEmpty.forall_iff, implies_true, and_true]
  refine ⟨fun hv => ?_, fun hv => ?_, fun hv => ?_, fun hv => ?_⟩
  · exact runCmd_next h (fun b => decide (fld b 0 1 = 0 ∨ 3 < fld b 0 1)) anyObj (fun s t => s.selfCtrl t fun s _ => s)
      (decide_eq_true (.inl hv)) rfl _ (selfCtrl_listed (hv.trans_le (by decide)) hpart)
  · exact runCmd_next h (fun b => decide (fld b 0 1 = 1)) anyObj (fun s t => s.selfCtrl t _)
      (decide_eq_true hv) rfl _ (selfCtrl_listed (hv.trans_le (by decide)) hpart)
  · exact runCmd_next h (fun b => decide (fld b 0 1 = 2)) anyObj (fun s t => s.selfCtrl t _)
      (decide_eq_true hv) rfl _ (selfCtrl_listed (hv.trans_le (by decide)) hpart)
  · exact runCmd_next h (fun b => decide (fld b 0 1 = 3)) anyObj (fun s t => s.selfCtrl t _)
      (decide_eq_true hv) rfl _ (selfCtrl_listed (hv.trans_le (by decide)) hpart)

theorem doPack_signed {a : Alloc} {pk : List Byte} {s1 : State} (halloc : tfind s0.allocs (fld t.payload 0 4) = some a)
    (hclaim : s0.claimedBy p a.part.val = true) (hlow : 128 ≤ fld t.payload 16 4) (hhigh : fld t.payload 16 4 ≤ 0x400000)
    (hfits : fld t.payload 8 8 + fld t.payload 16 4 ≤ a.size) (hpk : s0.rdN (a.base + fld t.payload 8 8) (fld t.payload 16 4) = pk)
    (hs1 : s0.reportRead Who.firmware (a.base + fld t.payload 8 8) (fld t.payload 16 4) = s1) (hhdr : packHeaderOk pk = true)
    (hprog : packProgOk pk = true) (hkey : s0.vendorUsable Config.vendorTableKey = true)
    (hsig : sigOk Config.vendorTableKey (pk.take (fld pk 32 4)) (slice pk (fld pk 32 4) 64) = true)
    (hver : fld s0.nor.pack 8 4 ≤ fld pk 8 4) : s0.doPack p t =
    ⟨.ok, leBytes 4 (fld pk 8 4), ({ s1 with nor := { s1.nor with pack := pk } }).extendMb 3 pk⟩ := by
  subst hpk hs1
  rw [State.doPack]
  simp only [halloc, hclaim, hlow, hhigh, hfits, and_self, if_true, hhdr, hprog, hkey, hsig, hver, decide_true, Bool.and_self,
    checks_cons_true, checks_nil]

theorem exec_healthRead (h : Passes s p d.val 0x0065 .session t s0) (hu : fld t.payload 0 2 ≤ 127 ∨ fld t.payload 0 2 = 0xFFFF) :
    exec (.healthRead p d) s = .next (after p d.val t ⟨.ok, leBytes 16 (s0.healthOf (fld t.payload 0 2)).length ++
      (s0.healthOf (fld t.payload 0 2)).flatMap Health.bytes, s0⟩) := by
  refine runCmd_next h anyPl anyObj (fun s t => s.doHealthRead t) rfl rfl _ ?_
  simp only [State.doHealthRead, hu, decide_true, checks_cons_true, checks_nil]

/-- Settles O23: each command passes its checks and answers its body. -/
theorem ebwickHealth : Obligations.EbwickHealth := by
  rintro s s0 p d t _ rfl
  refine ⟨fun n h hn hlow hhigh => exec_faultRead h hn hlow hhigh, fun r h hrec hcls hack hmgmt => exec_faultAck h hrec hcls hack hmgmt,
    fun e he h hv hsrc hlt => exec_force h hsrc hlt e he hv, fun e he h hv hpart => exec_selftestCtrl h hpart e he hv,
    fun a pk sg s1 h halloc hclaim hlow hhigh hfits hpk hs1 hhdr hprog hsg hkey hsig hver => ?_, fun u h hu hrange => ?_⟩
  · subst hsg
    exact runCmd_next h anyPl anyObj (fun s t => s.doPack p t) rfl rfl _
      (doPack_signed halloc hclaim hlow hhigh hfits hpk hs1 hhdr hprog hkey hsig hver)
  · subst hu
    exact exec_healthRead h hrange

/-! Security. -/

theorem exec_attestQuote (h : Passes s p d.val 0x0068 .session t s0) (hmask : fld t.payload 32 1 ≠ 0)
    (hpack : (fld t.payload 32 1).testBit 3 = true → s0.sys.packRead = true) : exec (.attestQuote p d) s =
      .next (after p d.val t ⟨.ok, s0.quote (t.payload.take 32) (fld t.payload 32 1), s0⟩) := by
  have hread : (!(fld t.payload 32 1).testBit 3 || s0.sys.packRead) = true := by
    cases hbit : (fld t.payload 32 1).testBit 3
    · rfl
    · exact hpack hbit
  refine runCmd_next h anyPl anyObj (fun s t => s.doQuote t) rfl rfl _ ?_
  rw [State.doQuote]
  simp only [hmask, hread, ne_eq, not_false_eq_true, decide_true, checks_cons_true, checks_nil]

theorem exec_debugAuthBegin {r : Done} (h : Passes s p d.val 0x0069 .mgmt t s0) (hchal : s0.dbg.chal = none) (hr : s0.doDebugBegin t = r) :
    exec (.debugAuthBegin p d) s = .next (after p d.val t r) := by
  refine runCmd_next h anyPl (fun s _ => s.dbg.chal.isNone) (fun s t => s.doDebugBegin t) rfl ?_ _ hr
  rw [hchal]
  rfl

section
variable (hlevel : fld t.payload 0 1 = 1 ∨ fld t.payload 0 1 = 2) (hkey : fld t.payload 1 1 ≤ 1) (hlock : s0.dbg.lockout = false)
  (hok : s0.debugKeyOk (fld t.payload 0 1) (fld t.payload 1 1) = true)
include hlevel hkey hlock hok

theorem doDebugBegin_challenge (htrng : Config.trngFails s0.free = false) : s0.doDebugBegin t =
    ⟨.ok, digestBytes (Config.trng s0.free), s0.openChal (fld t.payload 0 1) (fld t.payload 1 1) false⟩ := by
  rw [State.doDebugBegin]
  simp only [hlevel, hkey, hlock, hok, htrng, and_self, decide_true, Bool.not_false, Bool.and_self, checks_cons_true, checks_nil]
  rfl

theorem doDebugBegin_trngFails (htrng : Config.trngFails s0.free = true) : s0.doDebugBegin t = ⟨.busy, [], s0.trngFault true⟩ := by
  rw [State.doDebugBegin]
  simp only [hlevel, hkey, hlock, hok, htrng, and_self, decide_true, Bool.not_false, Bool.not_true, Bool.and_self, checks_cons_true,
    checks_cons_false]
  rfl

end

theorem exec_debugAuthEnd {r : Done} (h : Passes s p d.val 0x006A .mgmt t s0) (hend : s0.endable t = true) (hr : s0.doDebugEnd t = r) :
    exec (.debugAuthEnd p d) s = .next (after p d.val t r) :=
  runCmd_next h anyPl (fun s t => s.endable t) (fun s t => s.doDebugEnd t) rfl hend _ hr

theorem endable_of_chal {level key : Nat} {c : BitVec 256} (hchal : s0.dbg.chal = some (level, key, c, false)) : s0.endable t = true := by
  rw [State.endable, hchal]
  exact Bool.or_true _

theorem endable_of_empty (hb : t.payload = []) : s0.endable t = true := by
  rw [State.endable, hb]
  rfl

theorem doDebugEnd_verified {level key : Nat} {c : BitVec 256} (hb : t.payload ≠ []) (hchal : s0.dbg.chal = some (level, key, c, false))
    (hver : s0.debugVerifies level key c (beField 512 t.payload 0 64) = true) : s0.doDebugEnd t =
    ⟨.ok, leBytes 1 (s0.debugOpened level key).dbg.level, s0.debugOpened level key⟩ := by
  have hnonempty : t.payload.isEmpty = false := List.isEmpty_eq_false_iff.2 hb
  simp only [State.doDebugEnd, hnonempty, hchal, State.debugAnswer, hver, if_true, Bool.false_eq_true, if_false]

theorem doDebugEnd_empty (hb : t.payload = []) : s0.doDebugEnd t = ⟨.ok, leBytes 1 s0.closeDebug.dbg.level, s0.closeDebug⟩ := by
  simp only [State.doDebugEnd, hb, List.isEmpty_nil, if_true]

theorem debugFailed_dbg (s : State) : s.debugFailed.dbg = { s.dbg with
    chal := none, fails := min 3 (s.dbg.fails + 1), lockout := decide (3 ≤ min 3 (s.dbg.fails + 1)) || s.dbg.lockout } := rfl

/-- A challenge that is not answered in time counts as a failed authentication (R703). -/
theorem exec_debugChallengeTimeout (h : s.dbg.chal.isSome = true) : Completes .debugChallengeTimeout s fun u => u.dbg.chal = none ∧
    u.mem = s.mem ∧ u.dbg.fails = min 3 (s.dbg.fails + 1) ∧ (2 ≤ s.dbg.fails → u.dbg.lockout = true) := by
  have harm : exec .debugChallengeTimeout s = .next s.debugFailed := congrArg Host.Outcome.next (if_pos h)
  refine ⟨_, harm, congrArg Debug.chal (debugFailed_dbg s), rfl, congrArg Debug.fails (debugFailed_dbg s), fun hfails => ?_⟩
  have hthree : decide (3 ≤ min 3 (s.dbg.fails + 1)) = true := decide_eq_true (by omega)
  rw [debugFailed_dbg, hthree]
  rfl

theorem doStage_source {n a : Nat} (hport : s0.partStaged = true → s0.sys.stagePort = p) (hdram : s0.sys.dramBad = 0)
    (hn : fld t.payload 16 4 = n) (hpos : n ≠ 0) (ha : s0.stageSource p (fld t.payload 0 4) (fld t.payload 8 8) n = some a) :
    s0.doStage p t = (s0.reportRead Who.firmware a n).appendStage p (s0.rdN a n) := by
  subst hn
  have hmine : ¬(s0.partStaged = true ∧ s0.sys.stagePort ≠ p) := fun ⟨hpart, hne⟩ => hne (hport hpart)
  rw [State.doStage]
  simp only [hmine, if_false, hdram, ne_eq, not_true_eq_false, hpos, ha]

theorem exec_fwCommit (h : Passes s p d.val 0x0079 .mgmt t s0) (hstage : s0.sys.stageOk = true)
    (hdigest : t.payload.take 32 = digestBytes (Config.sm3 s0.sys.stage)) :
    exec (.fwCommit p d) s = .next (after p d.val t (accept s0)).commitReset := by
  have hbody : s0.doCommit t = accept s0 := by
    rw [State.doCommit, decide_eq_true hdigest, checks_cons_true, checks_nil]
  have hrun := runCmdThen_eq h anyPl (fun s _ => s.sys.stageOk) (fun s t => s.doCommit t)
    (fun r s => if r.st = .ok then s.commitReset else s) rfl hstage
  simp only [hbody] at hrun
  exact congrArg Host.Outcome.next hrun

/-- Settles O24: each command passes its checks and answers its body; FW_COMMIT's reset follows its completion. -/
theorem ebwickSecurity : Obligations.EbwickSecurity := by
  rintro s s0 p d t _ rfl
  refine ⟨fun h hmask hpack => exec_attestQuote h hmask hpack, ?_, fun level key c h hb hchal hver => ?_, fun h hb => ?_,
    exec_debugChallengeTimeout, fun n a h hport hdram hn hpos ha hok => ?_, fun h hstage hdigest => exec_fwCommit h hstage hdigest⟩
  · rintro _ _ h hchal rfl rfl hlevel hkey hlock hok
    exact ⟨fun htrng => exec_debugAuthBegin h hchal (doDebugBegin_challenge hlevel hkey hlock hok htrng),
      fun htrng => exec_debugAuthBegin h hchal (doDebugBegin_trngFails hlevel hkey hlock hok htrng)⟩
  · exact exec_debugAuthEnd h (endable_of_chal hchal) (doDebugEnd_verified hb hchal hver)
  · exact exec_debugAuthEnd h (endable_of_empty hb) (doDebugEnd_empty hb)
  · exact runCmd_next h anyPl anyObj (fun s t => s.doStage p t) rfl rfl _ (doStage_source hport hdram hn hpos ha)

end

end Sys2Proof.Machine

/-! Commands over Ebwick: the order of the checks, and a completion (R458, R468, R475, R476). -/

namespace Sys2Proof.Machine
open Sys2Proof.Safety Sys2Proof.Laws

/-- The commands whose object state needs no check run through `runCmd` with nothing to pick. -/
theorem exec_anyObj (s : State) (p : Fin 4) (d : Fin 256) :
    ∀ e ∈ [(Instr.hello p d, 0x0001, Auth.session), (.caps p d, 0x0002, .session), (.quotaSet p d, 0x0012, .mgmt),
      (.memAlloc p d, 0x0018, .claimed), (.apertureMap p d, 0x001A, .claimed), (.progLoad p d, 0x0020, .claimed),
      (.jobSubmit p d, 0x0028, .claimed), (.deckLoad p d, 0x0030, .claimed), (.latTolSet p d, 0x0032, .claimed),
      (.seqCreate p d, 0x0040, .claimed), (.groupForm p d, 0x0048, .claimed), (.timeRead p d, 0x0058, .claimed),
      (.timeIncSet p d, 0x0059, .mgmt), (.timeStep p d, 0x005A, .mgmt), (.faultRead p d, 0x0060, .session),
      (.testpackLoad p d, 0x0064, .mgmt), (.healthRead p d, 0x0065, .session), (.attestQuote p d, 0x0068, .session),
      (.fwStage p d, 0x0078, .mgmt)],
      ∃ body, exec e.1 s = .next (s.runCmd p d.val e.2.1 anyPl anyObj e.2.2 body) := by
  simp only [List.forall_mem_cons, List.not_mem_nil, IsEmpty.forall_iff, implies_true, and_true]
  exact ⟨⟨_, rfl⟩, ⟨_, rfl⟩, ⟨_, rfl⟩, ⟨_, rfl⟩, ⟨_, rfl⟩, ⟨_, rfl⟩, ⟨_, rfl⟩, ⟨_, rfl⟩, ⟨_, rfl⟩, ⟨_, rfl⟩, ⟨_, rfl⟩, ⟨_, rfl⟩, ⟨_, rfl⟩,
    ⟨_, rfl⟩, ⟨_, rfl⟩, ⟨_, rfl⟩, ⟨_, rfl⟩, ⟨_, rfl⟩, ⟨_, rfl⟩⟩

/-- Settles O25: the four checks of `runCmd` stand in the order of R475. -/
theorem ebwickChecksOrder : Obligations.EbwickChecksOrder := by
  intro s s0 p d t l c opc a hmem htaken hopc hlay hs0 hsafe hhalt
  obtain ⟨body, hexec⟩ := exec_anyObj s p d _ hmem
  obtain ⟨harg, hversion, hstate, hauth⟩ := run_fails (a := a) htaken hopc hlay hs0 hsafe hhalt body
  rw [hexec]
  exact ⟨fun hw => congrArg _ (harg hw), fun hw hv => congrArg _ (hversion hw hv), fun hw hv hd => congrArg _ (hstate hw hv hd),
    fun hw hv hd hau => congrArg _ (hauth hw hv hd hau)⟩

section
variable {s : State} {p : Fin 4} {d c : Nat}

theorem ringUse_of_agree {k : Ring} (hk : s.ring p c = some k) (hagree : k.agree = true) : s.ringUse p c = s := by
  simp only [State.ringUse, hk, hagree, if_true]

theorem modRing_frame (s : State) (p : Fin 4) (d : Nat) (g : Ring → Ring) :
    (s.modRing p d g).regs = s.regs ∧ (s.modRing p d g).repairs = s.repairs ∧ (s.modRing p d g).mem = s.mem ∧
      (s.modRing p d g).fcol = s.fcol := ⟨rfl, rfl, rfl, rfl⟩

/-- The SQ gives up its command and the CQ the promise of its completion (R458, R468). -/
def unpromised (s : State) (p : Fin 4) (d c : Nat) : State :=
  (s.modRing p d fun r => { r with taken := r.taken.drop 1 }).modRing p c fun r => { r with promises := dropPromise d r.promises }

theorem unpromised_sq {q : Ring} (hq : s.ring p d = some q) (hne : c ≠ d) :
    (unpromised s p d c).ring p d = some { q with taken := q.taken.drop 1 } := by
  rw [unpromised, modRing_ring_ne _ _ _ _ _ hne.symm, modRing_ring, hq, Option.map_some]

theorem unpromised_cq {k : Ring} (hk : s.ring p c = some k) (hne : c ≠ d) :
    (unpromised s p d c).ring p c = some { k with promises := dropPromise d k.promises } := by
  rw [unpromised, modRing_ring, modRing_ring_ne _ _ _ _ _ hne, hk, Option.map_some]

theorem unpromised_frame (s : State) (p : Fin 4) (d c : Nat) : (unpromised s p d c).regs = s.regs ∧
    (unpromised s p d c).repairs = s.repairs ∧ (unpromised s p d c).mem = s.mem ∧ (unpromised s p d c).fcol = s.fcol :=
  ⟨rfl, rfl, rfl, rfl⟩

/-- Where the packet fits, a completion writes it to the CQ, moves the CQ's pointers and sets COMPL (R466, R476). -/
theorem complete_fits {t : Taken} {st : St} {pl : List Byte} {q k : Ring} {n : Nat} (hq : s.ring p d = some q) (hpair : q.pair = c)
    (hne : c ≠ d) (hk : s.ring p c = some k) (hagree : k.agree = true) (hsafe : s.fcol.safe = false)
    (hn : n = 16 * cdiv (16 + pl.length) 16) (hpad : k.padAt k.tail n = 0) (hroom : k.used + n ≤ k.cap) : s.complete p d t st pl =
    (((unpromised s p d c).hostPut (ringAddr p k k.tail) (packet ((t.opc + 0x8000) % 65536) k.nseq t.tag st.code t.part 0 pl)).setRing p c
      { ({ k with promises := dropPromise d k.promises } : Ring).setPtr k.head (k.tail + n) (k.nseq + 1) with tmoDone := false }).irq p
        irqCompl := by
  subst hpair hn
  have hcq := unpromised_cq (d := d) hk hne
  have huse : (unpromised s p d q.pair).ringUse p q.pair = unpromised s p d q.pair := ringUse_of_agree hcq hagree
  have hsafe2 : (unpromised s p d q.pair).fcol.safe = false := hsafe
  have hput := ringPutIn_fits hcq ((t.opc + 0x8000) % 65536) t.tag st.code t.part pl hpad hroom
  have hcomplete : s.complete p d t st pl = if ((unpromised s p d q.pair).ringUse p q.pair).fcol.safe
      then (unpromised s p d q.pair).ringUse p q.pair
      else ((unpromised s p d q.pair).ringUse p q.pair).ringPutIn false p q.pair ((t.opc + 0x8000) % 65536) t.tag st.code t.part pl := by
    rw [State.complete, hq]
    rfl
  rw [addr_pr] at hput
  rw [hcomplete, huse, hsafe2, if_neg Bool.false_ne_true]
  exact hput

end

/-- Settles O26: the completion's two rings, the bytes of its packet and COMPL, read off `complete_fits`. -/
theorem ebwickCompletion : Obligations.EbwickCompletion := by
  intro p d c n t r q k hq hpair hne hk hagree hsafe hn hpad hroom
  obtain ⟨hregs, hrepairs, hmem, -⟩ := unpromised_frame r.s p d c
  rw [after, complete_fits hq hpair hne hk hagree hsafe hn hpad hroom]
  refine ⟨?_, ⟨_, (irq_ring ..).trans (setRing_ring ..), rfl, rfl, rfl, agree_setPtr k k.head (k.tail + n) (k.nseq + 1), rfl, rfl⟩, ?_, irq_bit _ p⟩
  · rw [irq_ring, setRing_ring_ne _ _ _ _ _ hne.symm, hostPut_ring, unpromised_sq hq hne]
  · exact (hostPut_mem _ _ _).trans (put_congr _ _ hregs hrepairs hmem _ _)

end Sys2Proof.Machine

/-! Events of rings and Decks (R461 to R518). -/

namespace Sys2Proof.Machine
open Sys2Proof.Safety Sys2Proof.Laws

section
variable {s s1 : State} {p : Fin 4} {d : Fin 256} {v : Word} {r : Ring}

/-! Doorbells, rings and timers. -/

theorem modPort_ring {g : Port → Port} (hg : (g (s.port p)).rings = (s.port p).rings) (e : Nat) :
    (s.modPort p g).ring p e = s.ring p e := by
  rw [State.ring, modPort_port, hg, State.ring]

/-- A doorbell that firmware takes acts once the pointers of its ring agree (R463 to R465). -/
theorem takeSqDb_taken {drop : Bool} (hr : s.ring p d.val = some r)
    (hs1 : s1 = s.modPort p (fun x => { x with sqDb := tdel x.sqDb d.val })) (hdb : tfind (s.port p).sqDb d.val = some v)
    (htakes : s.takes = true) (hagree : r.agree = true) (hdrop : v.getLsbD 31 = drop) : s.takeSqDb p d.val drop =
    if drop then (s1.sqDoorbell p d.val v).takeAll (r.cap / 16 + 1) p d.val else s1.sqDoorbell p d.val v := by
  subst hs1
  have hring : (s.modPort p (fun x => { x with sqDb := tdel x.sqDb d.val })).ring p d.val = some r := (modPort_ring rfl _).trans hr
  simp only [State.takeSqDb, hdb, htakes, hdrop, beq_self_eq_true, Bool.and_self, if_true, hring, hagree]

theorem exec_cpSqDb (s : State) : exec (.cpSqDb p d) s = .next (s.takeSqDb p d.val false) := rfl

theorem exec_cpSqDbDrop (s : State) : exec (.cpSqDbDrop p d) s = .next (s.takeSqDb p d.val true) := rfl

theorem clearsSq_eq (hr : s.ring p d.val = some r) : s.clearsSq p d.val v = (decide (r.kind = 1) && v.getLsbD 30) := by
  rw [State.clearsSq, hr]

theorem exec_cpCqDb (hr : s.ring p d.val = some r) (hs1 : s1 = s.modPort p (fun x => { x with cqDb := tdel x.cqDb d.val }))
    (hdb : tfind (s.port p).cqDb d.val = some v) (htakes : s.takes = true) (hkind : r.kind ≠ 1) (hagree : r.agree = true) :
    exec (.cpCqDb p d) s = .next (s1.cqDoorbell p d.val v) := by
  subst hs1
  have harm : exec (.cpCqDb p d) s = execCpCqDb p d s := rfl
  have hring : (s.modPort p (fun x => { x with cqDb := tdel x.cqDb d.val })).ring p d.val = some r := (modPort_ring rfl _).trans hr
  have hclears : s.clearsSq p d.val v = false := by rw [clearsSq_eq hr, decide_eq_false hkind, Bool.false_and]
  rw [harm, execCpCqDb]
  simp only [hdb, htakes, hclears, Bool.not_false, Bool.and_self, if_true, hring, hkind, if_false, hagree]

theorem exec_cpCqDbSqFlagClear (hr : s.ring p d.val = some r) (hs1 : s1 = s.modPort p (fun x => { x with cqDb := tdel x.cqDb d.val }))
    (hdb : tfind (s.port p).cqDb d.val = some v) (htakes : s.takes = true) (hkind : r.kind = 1) (hclr : v.getLsbD 30 = true) :
    exec (.cpCqDbSqFlagClear p d) s = .next (s1.modRing p d.val fun r => { r with reset := false, overrun := false }) := by
  subst hs1
  have harm : exec (.cpCqDbSqFlagClear p d) s = execCpCqDbSqFlagClear p d s := rfl
  have hclears : s.clearsSq p d.val v = true := by rw [clearsSq_eq hr, decide_eq_true hkind, hclr, Bool.true_and]
  rw [harm, execCpCqDbSqFlagClear]
  simp only [hdb, htakes, hclears, Bool.and_self, if_true]

theorem exec_sqPacketTake (hr : s.ring p d.val = some r) (htakes : s.takes = true) (hkind : r.kind = 1) (hagree : r.agree = true) :
    exec (.sqPacketTake p d) s = .next ((s.flushUnknown p d.val).takeOne p d.val) := by
  have harm : exec (.sqPacketTake p d) s = execSqPacketTake p d s := rfl
  rw [harm, execSqPacketTake]
  simp only [hr, htakes, hkind, decide_true, Bool.and_self, if_true, hagree]

theorem exec_readTimeout (hr : s.ring p d.val = some r) (hkind : r.kind ≠ 1) (hused : 0 < r.used) (hdone : r.tmoDone = false) :
    exec (.readTimeout p d) s = .next ((s.setRing p d.val { r with tmoDone := true }).irq p irqReadTmo) := by
  have harm : exec (.readTimeout p d) s = execReadTimeout p d s := rfl
  rw [harm, execReadTimeout]
  simp only [hr, if_pos (⟨hkind, hused, hdone⟩ : r.kind ≠ 1 ∧ 0 < r.used ∧ r.tmoDone = false)]

theorem partFill_of_ne {t : Taken} (hopc : t.opc ≠ 0x001B) : s.partFill p d.val t = s := by
  rw [State.partFill]
  cases layOf t.opc t.payload with
  | none => rfl
  | some l => exact if_neg fun h => hopc h.1

theorem exec_commandTimeout {t : Taken} (hr : s.ring p d.val = some r) (ht : r.taken.head? = some t) (hsafe : s.fcol.safe = false)
    (hhalt : s.dbg.halted.contains 4 = false) (hopc : t.opc ≠ 0x001B) :
    exec (.commandTimeout p d) s = .next (s.complete p d.val t .timeout []) := by
  have harm : exec (.commandTimeout p d) s = execCommandTimeout p d s := rfl
  have htaken : s.takenAt p d.val = some t := by rw [State.takenAt, hr, Option.bind_some, ht]
  rw [harm, execCommandTimeout]
  simp only [htaken, hsafe, hhalt, Bool.false_eq_true, or_self, if_false, partFill_of_ne hopc]

/-- Settles O33: one lemma per event. -/
theorem ringEvents : Obligations.RingEvents := by
  intro s p d v r s1 hr
  refine ⟨fun hs1 hdb htakes hagree => ⟨fun hdrop => ?_, fun hdrop => ?_⟩, fun hs1 hdb htakes => ⟨fun hkind hagree => ?_, fun hkind hclr => ?_⟩,
    fun htakes hkind hagree => exec_sqPacketTake hr htakes hkind hagree, fun hkind hused hdone => exec_readTimeout hr hkind hused hdone,
    fun t ht hsafe hhalt hopc => exec_commandTimeout hr ht hsafe hhalt hopc⟩
  · rw [exec_cpSqDb, takeSqDb_taken hr hs1 hdb htakes hagree hdrop, if_neg Bool.false_ne_true]
  · rw [exec_cpSqDbDrop, takeSqDb_taken hr hs1 hdb htakes hagree hdrop, if_pos rfl]
  · exact exec_cpCqDb hr hs1 hdb htakes hkind hagree
  · exact exec_cpCqDbSqFlagClear hr hs1 hdb htakes hkind hclr

end

/-! Decks. -/

section
variable {s : State} {r f : Fin 4}

theorem exec_deckBankActivate {b : Fin 2} {t : Nat} (hsw : (s.part r).switchTo = some (b, t)) (hst : s.sys.st = .service)
    (htime : t ≤ s.deckTime) : exec (.deckBankActivate r) s = .next ((((s.closeDue r).modPart r fun y =>
      { y with active := some b, t0 := t, round := 0, cut := none, switchTo := none, paused := false }).endBreak r).takeBudget r) := by
  have harm : exec (.deckBankActivate r) s = execDeckBankActivate r s := rfl
  rw [harm, execDeckBankActivate]
  simp only [hsw, hst, ne_eq, not_true_eq_false, false_or, Nat.not_lt.2 htime, if_false]

theorem exec_roundStart {b : Bank} (hbank : (s.part r).activeBank = some b) (hst : s.sys.st = .service)
    (htime : (s.part r).roundStart b + b.round * 1000 ≤ s.deckTime)
    (hdue : ∀ k t, (s.part r).switchTo = some (k, t) → (s.part r).roundStart b + b.round * 1000 < t) : exec (.roundStart r) s =
      .next ((((((s.closeDue r).modPart r (fun y => { y with round := y.round + 1, paused := false })).frondsOf r).foldl
        (fun s f => s.countWrap (oDeck f 4)) ((s.closeDue r).modPart r (fun y => { y with round := y.round + 1, paused := false }))).endBreak
          r).takeBudget r) := by
  have harm : exec (.roundStart r) s = execRoundStart r s := rfl
  rw [harm, execRoundStart]
  cases hsw : (s.part r).switchTo with
  | none =>
    simp only [hbank, hst, Nat.not_lt.2 htime, ne_eq, not_true_eq_false, Bool.false_eq_true, or_self, if_false]
  | some e =>
    have hlate := Nat.not_le.2 (hdue e.1 e.2 hsw)
    simp only [hbank, hst, Nat.not_lt.2 htime, ne_eq, not_true_eq_false, hlate, decide_false, Bool.false_eq_true, or_self, if_false]

theorem exec_cardOpen {x : Part} {b : Bank} {c : Card} {i : Nat} (hdeck : s.deckOf f = some (r, x, b)) (hcard : (s.frond f).card = none)
    (hst : s.sys.st = .service) (hpaused : x.paused = false) (hstart : x.roundStart b ≤ s.deckTime)
    (hend : s.deckTime < x.roundStart b + b.round * 1000) (hat : x.cardAt b f s.deckTime = some (c, i)) :
    exec (.cardOpen f) s = .next (s.openCard f r x b c i) := by
  have harm : exec (.cardOpen f) s = execCardOpen f s := rfl
  rw [harm, execCardOpen]
  simp only [hdeck, hcard, hst, hpaused, Nat.not_lt.2 hstart, Nat.not_le.2 hend, hat, ne_eq, not_true_eq_false, Bool.false_eq_true, or_self,
    if_false]

theorem exec_cardClose (hcard : (s.frond f).card.isSome = true) (hend : (s.frond f).cardEnd ≤ s.deckTime) :
    exec (.cardClose f) s = .next (s.closeCard f) := congrArg Host.Outcome.next (if_pos ⟨hcard, hend⟩)

section
variable {cd : Card × Part × Bank} {o : Fin 4} (hcard : s.cardOn f = some cd) (howner : s.ownerOf f = some o)
  (huse : (s.frond f).cardUse = .work) (hsw : (s.frond f).switching = none) (hst : s.sys.st = .service)
  (hend : s.deckTime < (s.frond f).cardEnd) (hkernel : (s.frond f).kernel = none)
include hcard howner huse hsw hst hend hkernel

theorem exec_kernelSwitch_best {j : Nat} {x : Job} (hpick : pickJob (s.candidates f o cd.1) = some (j, x)) (hawake : (s.frond f).awake = true)
    (hholds : (s.frond f).holds = []) (hmap : s.mapPending f = false) :
    exec (.kernelSwitch f) s = .next (s.beginSwitch f cd.1 j x) := by
  have harm : exec (.kernelSwitch f) s = execKernelSwitch f s := rfl
  rw [harm, execKernelSwitch]
  simp only [hcard, howner, huse, hsw, hst, Nat.not_le.2 hend, hkernel, hpick, hawake, hholds, hmap, true_or, not_true_eq_false,
    Option.isSome_none, Bool.false_eq_true, ne_eq, or_self, if_false, List.isEmpty_nil, Bool.not_false, Bool.and_self, Bool.true_or, if_true]

theorem exec_kernelSwitch_none (hpick : pickJob (s.candidates f o cd.1) = none) :
    exec (.kernelSwitch f) s = .next (s.startLate f 0) := by
  have harm : exec (.kernelSwitch f) s = execKernelSwitch f s := rfl
  rw [harm, execKernelSwitch]
  simp only [hcard, howner, huse, hsw, hst, Nat.not_le.2 hend, hkernel, hpick, true_or, not_true_eq_false,
    Option.isSome_none, Bool.false_eq_true, ne_eq, or_self, if_false]

end

theorem exec_kcapExpire {k : KernelRun} (hk : (s.frond f).kernel = some k) : exec (.kcapExpire f) s = .next ((s.raise
    { (s.frondWho f 0xFF).ev (srcOf (16 * f.val) 4) 19 0 (s.fclkNs f k.kcap / 1000) with stepNo := 1 }).l1 f 4) := by
  have harm : exec (.kcapExpire f) s = execKcapExpire f s := rfl
  rw [harm, execKcapExpire]
  simp only [hk]

theorem exec_goldenRunEnd {j : Nat} {x : Job} {s1 : State} (hjob : s.goldenJob f = some (j, x)) (hst : x.st = .finished)
    (hs1 : s1 = (((s.dropGolden j).setReg (oDeck f 0x18) 0).modFrond f fun y => { y with cardUse := .none })) :
    exec (.goldenRunEnd f) s = .next (if s.goldenPasses x
      then (({ s1 with safety := { s1.safety with passAt := tput s1.safety.passAt (32 * f.val + 31) s.deckTime } } : State).endHold f 1 0)
      else s1.goldenFail f) := by
  subst hs1
  have harm : exec (.goldenRunEnd f) s = execGoldenRunEnd f s := rfl
  rw [harm, execGoldenRunEnd]
  simp only [hjob, hst, ne_eq, not_true_eq_false, if_false]

/-- Settles O34: one lemma per event. -/
theorem deckEvents : Obligations.DeckEvents := by
  intro s r f
  refine ⟨fun b t hsw hst htime => exec_deckBankActivate hsw hst htime,
    fun b hbank hst htime hdue => ⟨_, rfl, exec_roundStart hbank hst htime hdue⟩,
    fun x b c i hdeck hcard hst hpaused hstart hend hat => exec_cardOpen hdeck hcard hst hpaused hstart hend hat,
    fun hcard hend => exec_cardClose hcard hend, fun cd o hcard howner huse hsw hst hend hkernel => ⟨?_, ?_⟩,
    fun k hk => exec_kcapExpire hk, fun j x s1 hjob hst hs1 => ⟨fun hpass => ?_, fun hfail => ?_⟩⟩
  · exact fun j x hpick hawake hholds hmap => exec_kernelSwitch_best hcard howner huse hsw hst hend hkernel hpick hawake hholds hmap
  · exact fun hpick => exec_kernelSwitch_none hcard howner huse hsw hst hend hkernel hpick
  · rw [exec_goldenRunEnd hjob hst hs1, if_pos hpass]
  · rw [exec_goldenRunEnd hjob hst hs1, if_neg (by rw [hfail]; exact Bool.false_ne_true)]

end

end Sys2Proof.Machine

/-! Events of self-test and of the links (R512 to R732). -/

namespace Sys2Proof.Machine
open Sys2Proof.Safety Sys2Proof.Laws

section
variable {s : State} {f : Fin 4}

/-! Self-test. -/

theorem exec_selftestSegmentStart {c ns : Nat} {s1 : State} (hidle : (s.frond f).kernel.isSome = false)
    (hnext : (s.startLate f 0).nextSegment f = some (c, ns, s1)) (hst : s.sys.st = .service)
    (huse : ((s.startLate f 0).frond f).cardUse = .selftest) (hkernel : ((s.startLate f 0).frond f).kernel = none)
    (hrun : ((s.startLate f 0).frond f).stRun = none) (hawake : ((s.startLate f 0).frond f).awake = true)
    (hfits : (s.startLate f 0).deckTime + ns ≤ ((s.startLate f 0).frond f).cardEnd) :
    exec (.selftestSegmentStart f) s = .next (s1.modFrond f fun y => { y with stRun := some c }) := by
  have harm : exec (.selftestSegmentStart f) s = execSelftestSegmentStart f s := rfl
  have hlate : (if (s.frond f).kernel.isNone then s.startLate f 0 else s) = s.startLate f 0 :=
    if_pos (by rw [← Option.not_isSome, hidle]; rfl)
  rw [harm, execSelftestSegmentStart, hlate]
  simp only [huse, hkernel, hrun, hawake, hst, Option.isNone_none, and_self, if_true, hnext, hfits]

theorem exec_selftestSegmentEnd_check {c i : Nat} {matched : Bool} (hrun : (s.frond f).stRun = some c) (hi : c / 3 = i) (hkind : c % 3 = 0)
    (hpos : i ≠ 0) : exec (.selftestSegmentEnd f matched) s = .next ((if matched
      then (s.modFrond f fun x => { x with stRun := none }).checkPassed f i
      else (s.modFrond f fun x => { x with stRun := none }).checkFailed f i).checkAdvance f i) := by
  subst hi
  have harm : exec (.selftestSegmentEnd f matched) s = execSelftestSegmentEnd f matched s := rfl
  rw [harm, execSelftestSegmentEnd]
  simp only [hrun, hkind, if_true, hpos, if_false]

theorem exec_selftestSegmentEnd_pattern {c i : Nat} {matched : Bool} (hrun : (s.frond f).stRun = some c) (hi : c / 3 = i)
    (hkind : c % 3 = 1) : exec (.selftestSegmentEnd f matched) s = .next ((if matched
      then s.modFrond f fun x => { x with stRun := none }
      else (s.modFrond f fun x => { x with stRun := none }).patternFailed f (packSeg (s.packOf f) i)).patternAdvance f i) := by
  subst hi
  have harm : exec (.selftestSegmentEnd f matched) s = execSelftestSegmentEnd f matched s := rfl
  rw [harm, execSelftestSegmentEnd]
  simp only [hrun, hkind, Nat.one_ne_zero, if_false, if_true]

theorem exec_checkRotationOverdue {t : Nat} (hrot : s.safety.rotStart.getD f.val none = some t) (htime : t + 1000000000 ≤ s.deckTime)
    (honce : s.safety.overdue.getD f.val false = false) (hsafe : s.fcol.safe = false) : exec (.checkRotationOverdue f) s = .next
      ((({ s with safety := { s.safety with overdue := s.safety.overdue.set f.val true } } : State).latent f (16 * f.val + 15) 0).raise
        { src := srcOf (16 * f.val + 15) 6, cause := 15, part := (s.ownerOf f).elim 0xFF (·.val) }) := by
  have harm : exec (.checkRotationOverdue f) s = execCheckRotationOverdue f s := rfl
  rw [harm, execCheckRotationOverdue]
  simp only [hrot, Nat.not_lt.2 htime, honce, hsafe, Bool.false_eq_true, or_self, if_false]

theorem exec_patternRotationOverdue {t : Nat} (hpat : s.safety.patStart.getD f.val none = some t)
    (htime : t + fld (s.packOf f) 16 4 * 1000000 ≤ s.deckTime) (honce : s.safety.patLate.getD f.val false = false)
    (hsafe : s.fcol.safe = false) : exec (.patternRotationOverdue f) s = .next
      (({ s with safety := { s.safety with patLate := s.safety.patLate.set f.val true } } : State).latent f (16 * f.val + 15) 0) := by
  have harm : exec (.patternRotationOverdue f) s = execPatternRotationOverdue f s := rfl
  rw [harm, execPatternRotationOverdue]
  simp only [hpat, Nat.not_lt.2 htime, honce, hsafe, Bool.false_eq_true, or_self, if_false]

theorem exec_thallusCheckerTest {l : List (Fin 128)} {bad : List Nat} {s0 : State} (hst : s.sys.st = .service) (hbad : l.map (·.val) = bad)
    (hs0 : s0 = (s.thallusWidow .management (bad.contains 112)).thallusWidow .safety (bad.contains 113)) :
    exec (.thallusCheckerTest l [] false) s = .next (bad.foldl State.checkerMissed
      ((testedUnits.filter fun u => !bad.contains u).foldl State.checkerPassed s0)) := by
  subst hbad hs0
  have harm : exec (.thallusCheckerTest l [] false) s = execThallusCheckerTest l [] false s := rfl
  rw [harm, execThallusCheckerTest]
  simp only [hst, ne_eq, not_true_eq_false, if_false, List.filter_nil, List.foldl_nil, Bool.false_eq_true]

theorem exec_comparatorInjectionTest {u : WidowUnit} {m : Bool} (hst : s.sys.st = .service) (hhalt : s.widowHalted u = false) :
    exec (.comparatorInjectionTest u m) s = .next (s.comparatorTest u m) := congrArg Host.Outcome.next (if_pos ⟨hst, hhalt⟩)

section
variable (hsafe : s.fcol.safe = false)
include hsafe

theorem exec_widowDifference_management : exec (.widowDifference .management) s =
    .next (s.discardHeld.raise { src := srcOf 112 5, cause := 17, stepNo := 6 }) :=
  congrArg Host.Outcome.next (if_neg (by rw [hsafe]; exact Bool.false_ne_true))

theorem exec_widowDifference_safety : exec (.widowDifference .safety) s =
    .next (s.discardHeld.raise { src := srcOf 113 5, cause := 17, stepNo := 6 }) :=
  congrArg Host.Outcome.next (if_neg (by rw [hsafe]; exact Bool.false_ne_true))

theorem exec_widowDifference_stipe (hjob : (s.frondWho f 0xFF).job = 0) : exec (.widowDifference (.stipe f)) s =
    .next ((s.raise { (s.frondWho f 0xFF).ev (srcOf (16 * f.val) 5) 17 0 0 with stepNo := 2 }).l2 f) := by
  have harm : exec (.widowDifference (.stipe f)) s = execWidowDifference (.stipe f) s := rfl
  rw [harm, execWidowDifference]
  simp only [hsafe, Bool.false_eq_true, if_false, hjob, if_true]

end

theorem exec_testPackRead (hst : s.sys.st = .service) (hread : s.sys.packRead = false) (hpack : s.nor.pack.isEmpty = false) :
    exec .testPackRead s = .next (if ({ s with sys := { s.sys with packRead := true } } : State).packStands s.nor.pack
      then ({ s with sys := { s.sys with packRead := true } } : State).extendMb 3 s.nor.pack
      else ({ s with sys := { s.sys with packRead := true }, nor := { s.nor with pack := [] } } : State).raise
        { src := srcOf 116 1, cause := 30, sub := 0x1C00 }) := by
  have harm : exec .testPackRead s = execTestPackRead s := rfl
  rw [harm, execTestPackRead]
  simp only [hst, hread, and_self, if_true, hpack, Bool.false_eq_true, if_false]
  rfl

theorem packStands_packRead (s : State) (pk : List Byte) :
    ({ s with sys := { s.sys with packRead := true } } : State).packStands pk = s.packStands pk := rfl

/-- Settles O35: one lemma per event. -/
theorem selftestEvents : Obligations.SelftestEvents := by
  intro s f
  refine ⟨fun c ns s1 hidle hnext hst huse hkernel hrun hawake hfits =>
      exec_selftestSegmentStart hidle hnext hst huse hkernel hrun hawake hfits,
    fun c i s1 hrun hi hs1 => ?_, fun t hrot htime honce hsafe => exec_checkRotationOverdue hrot htime honce hsafe,
    fun t hpat htime honce hsafe => exec_patternRotationOverdue hpat htime honce hsafe,
    fun l bad s0 hst hbad hs0 => exec_thallusCheckerTest hst hbad hs0, fun u m hst hhalt => exec_comparatorInjectionTest hst hhalt,
    fun hsafe => ⟨exec_widowDifference_management hsafe, exec_widowDifference_safety hsafe, exec_widowDifference_stipe hsafe⟩,
    fun hst hread hpack => ?_⟩
  · subst hs1
    exact ⟨fun hkind hpos => ⟨exec_selftestSegmentEnd_check hrun hi hkind hpos, exec_selftestSegmentEnd_check hrun hi hkind hpos⟩,
      fun hkind => ⟨exec_selftestSegmentEnd_pattern hrun hi hkind, exec_selftestSegmentEnd_pattern hrun hi hkind⟩⟩
  · rw [exec_testPackRead hst hread hpack, packStands_packRead]
    exact ⟨fun hstands => congrArg Host.Outcome.next (if_pos hstands),
      fun hstands => congrArg Host.Outcome.next (if_neg (by rw [hstands]; exact Bool.false_ne_true))⟩

end

/-! Training and loss of a link. -/

section
variable {s : State} {l : Fin 3} {m : BitVec 8}

theorem exec_linkDetect_down (hpor : s.sys.por = false) (hsafe : s.fcol.safe = false) (hst : (s.link l).st = .down) :
    exec (.linkDetect ⟨l, m⟩) s = .next (s.modLink l fun y => { y with st := .detect }) := by
  have harm : exec (.linkDetect ⟨l, m⟩) s = execLinkDetect ⟨l, m⟩ s := rfl
  rw [harm, execLinkDetect]
  simp only [hpor, hsafe, hst, Bool.false_eq_true, or_self, if_false]

theorem exec_linkDetect_detect (hpor : s.sys.por = false) (hsafe : s.fcol.safe = false) (hst : (s.link l).st = .detect) :
    exec (.linkDetect ⟨l, m⟩) s = .next (s.modLink l fun y => { y with st := .train, lanes := m }) := by
  have harm : exec (.linkDetect ⟨l, m⟩) s = execLinkDetect ⟨l, m⟩ s := rfl
  rw [harm, execLinkDetect]
  simp only [hpor, hsafe, hst, Bool.false_eq_true, or_self, if_false]

theorem exec_linkTrainDone (hst : (s.link l).st = .train) : exec (.linkTrainDone l m) s = .next (s.modLink l fun y =>
    { y with st := .negotiate, lanes := y.lanes &&& m, sentHello := some (s.ownHello (y.lanes &&& m)) }) := by
  have harm : exec (.linkTrainDone l m) s = execLinkTrainDone l m s := rfl
  rw [harm, execLinkTrainDone]
  simp only [hst]

theorem exec_linkTrainTimeout (hdown : (s.link l).st ≠ .down) (hactive : (s.link l).st ≠ .active) : exec (.linkTrainTimeout l) s =
    .next ((s.setLink l { Link.reset with peer := (s.link l).peer }).count (oHzl (0x1000 * l.val + 0x10)) 1) :=
  congrArg Host.Outcome.next (if_neg (not_or.2 ⟨hdown, hactive⟩))

theorem exec_hezorHello {h : LinkHello} {v : Nat} (hst : (s.link l).st = .negotiate) (hv : v = min h.maxVer.toNat 0x11)
    (hlow : max h.minVer.toNat 0x10 ≤ v) (hmod : h.module.toNat = (s.sys.modId.toNat + l.val + 1) % 4)
    (hown : 7 ≤ laneCount (s.link l).lanes) (hpeer : 7 ≤ laneCount h.lanes) : exec (.hezorHello l h) s = .next (s.setLink l { Link.reset with
      st := .active, lanes := (s.link l).lanes, verMaj := v / 16, verMin := v % 16, peer := h.module,
      noReplay := h.noReplay || s.moduleExact, credits := [8, 16, 128, 64] }) := by
  subst hv
  have harm : exec (.hezorHello l h) s = execHezorHello l h s := rfl
  rw [harm, execHezorHello]
  simp only [hst, ne_eq, not_true_eq_false, if_false, Nat.not_lt.2 hlow, hmod, Nat.not_lt.2 hown, Nat.not_lt.2 hpeer, or_self]

theorem exec_linkLockLoss (hst : (s.link l).st = .active) (hretrain : (s.link l).retrain = false) (hreplay : (s.link l).noReplay = false) :
    exec (.linkLockLoss l) s =
      .next ((s.modLink l fun y => { y with retrain := true }).raise { src := srcOf (98 + l.val) 0, cause := 0, sub := 0xFF }) := by
  have harm : exec (.linkLockLoss l) s = .next (s.fastRetrain l) := congrArg Host.Outcome.next (if_pos ⟨hst, hretrain⟩)
  rw [harm, State.fastRetrain, hreplay, if_neg Bool.false_ne_true]

theorem exec_fastRetrainDone (hst : (s.link l).st = .active) (hretrain : (s.link l).retrain = true)
    (hlanes : m &&& (s.link l).lanes = (s.link l).lanes) : exec (.fastRetrainDone l m true) s = .next (s.setLink l { s.link l with
      retrain := false, lanes := (s.link l).lanes, replay := (s.link l).replay.map fun (e : SentFlit) => { e with sends := 1 },
      resend := (s.link l).replay.length, txPos := 0, rxPos := 0 }) := by
  have harm : exec (.fastRetrainDone l m true) s = execFastRetrainDone l m true s := rfl
  rw [harm, execFastRetrainDone]
  simp only [hst, hretrain, hlanes, ne_eq, not_true_eq_false, Bool.true_eq_false, or_self, if_false, true_or, and_self, if_true,
    List.length_map]

/-- Settles O38: one lemma per event. -/
theorem hezorLinks : Obligations.HezorLinks := by
  rintro s l _ rfl
  exact ⟨fun m hpor hsafe => ⟨exec_linkDetect_down hpor hsafe, exec_linkDetect_detect hpor hsafe⟩, fun m hst => exec_linkTrainDone hst,
    fun hdown hactive => exec_linkTrainTimeout hdown hactive,
    fun h v hst hv hlow hmod hown hpeer => exec_hezorHello hst hv hlow hmod hown hpeer,
    fun hst hretrain hreplay => exec_linkLockLoss hst hretrain hreplay, fun m hst hretrain hlanes => exec_fastRetrainDone hst hretrain hlanes,
    rfl⟩

end

end Sys2Proof.Machine

/-! Events of sealing, the Fault Collector, power, and resets (R574 to R744). -/

namespace Sys2Proof.Machine
open Sys2Proof.Safety Sys2Proof.Laws

section
variable {s : State} {j : Nat}

/-! What ends with a job's run: contribution, seal, deadline. -/

section
variable {key : Word} {e i : Nat} {g : Group} {t : Trick} {q : SlotSt} {x : Job} (hgroup : s.groupOf key = some g)
  (htrick : s.trick key e i = some t) (hslot : t.slot s.sys.modId.toNat = some q) (hclosed : q.closed ≠ none) (hcommit : q.commit = none)
  (hjob : t.job.bind s.job = some x)
include hgroup htrick hslot hclosed hcommit hjob

theorem exec_trickLedgerExamine : exec (.trickLedgerExamine key e i) s = .next (if x.ledger.isEmpty
    then (s.sendVerdict g t (!x.ledger.isEmpty)).settle key e i else (s.sendVerdict g t (!x.ledger.isEmpty)).voidTrick key e i) := by
  have harm : exec (.trickLedgerExamine key e i) s = execTrickLedgerExamine key e i s := rfl
  have hopen : q.closed.isNone = false := by rw [← Option.not_isSome, Option.isSome_iff_ne_none.2 hclosed]; rfl
  rw [harm, execTrickLedgerExamine]
  simp only [hgroup, htrick, hslot, hopen, hcommit, hjob, Option.isSome_none, Bool.false_eq_true, or_self, if_false]

theorem exec_trickLedgerExamine_clean (hledger : x.ledger = []) :
    exec (.trickLedgerExamine key e i) s = .next ((s.sendVerdict g t false).settle key e i) := by
  rw [exec_trickLedgerExamine hgroup htrick hslot hclosed hcommit hjob, hledger]
  rfl

theorem exec_trickLedgerExamine_void (hledger : x.ledger ≠ []) :
    exec (.trickLedgerExamine key e i) s = .next ((s.sendVerdict g t true).voidTrick key e i) := by
  rw [exec_trickLedgerExamine hgroup htrick hslot hclosed hcommit hjob, List.isEmpty_eq_false_iff.2 hledger]
  rfl

end

theorem exec_sealDecision {y x : Job} {s1 : State} (hjob : s.job j = some y) (hst : y.st = .finished) (hgolden : y.golden = none)
    (hsafe : s.fcol.safe = false) (hvoid : s.voidOpenOf j = s1) (hx : s1.job j = some x) (hready : s1.sealReady x = true) :
    exec (.sealDecision j) s = .next (if s1.clean x then s1.sealJob j x else s1.endInstance j St.withheld.code false false) := by
  subst hvoid
  have harm : exec (.sealDecision j) s = execSealDecision j s := rfl
  rw [harm, execSealDecision]
  simp only [hjob, hst, hgolden, hsafe, ne_eq, not_true_eq_false, Option.isSome_none, Bool.false_eq_true, or_self, if_false, hx, hready,
    if_true]

theorem exec_twinCompare_agree {x : Job} {k : Nat} {a : DWord} (hjob : s.job j = some x) (hb : x.digestB = [(k, a)])
    (ha : tfind x.digestA k = some a) : exec (.twinCompare j) s =
      .next (s.modJob j fun y => { y with digestA := tdel y.digestA k, digestB := tdel y.digestB k }).sweepRetired := by
  have harm : exec (.twinCompare j) s = execTwinCompare j s := rfl
  rw [harm, execTwinCompare]
  simp only [hjob, hb, List.foldl_cons, List.foldl_nil, ha, decide_true, State.twinPair, if_true]

theorem exec_ageDeadline {a : AgeEntry} (hfind : s.ages.find? (fun a => decide (a.job = j) && a.armed) = some a) (hstream : a.stream = true)
    (htime : a.deadline ≤ s.deckNow) (hsafe : s.fcol.safe = false) : exec (.ageDeadline j) s = .next
      (({ s with ages := s.ages.map fun (b : AgeEntry) => if b.job = j then { b with armed := false } else b } : State).missing a) := by
  have harm : exec (.ageDeadline j) s = execAgeDeadline j s := rfl
  rw [harm, execAgeDeadline]
  simp only [hfind, hstream, hsafe, not_lt.2 htime, Bool.false_eq_true, or_self, if_false, if_true]

/-- Settles O40: one lemma per event. -/
theorem sealingEvents : Obligations.SealingEvents := by
  intro s j
  refine ⟨fun key e i g t q x hgroup htrick hslot hclosed hcommit hjob => ⟨?_, ?_⟩, fun key e i => rfl,
    fun y s1 x hjob hst hgolden hsafe hvoid hx hready => ⟨fun hclean => ?_, fun hclean => ?_⟩,
    fun x k a hjob hb ha => exec_twinCompare_agree hjob hb ha, fun a hfind hstream htime hsafe => exec_ageDeadline hfind hstream htime hsafe⟩
  · exact exec_trickLedgerExamine_clean hgroup htrick hslot hclosed hcommit hjob
  · exact exec_trickLedgerExamine_void hgroup htrick hslot hclosed hcommit hjob
  · rw [exec_sealDecision hjob hst hgolden hsafe hvoid hx hready, if_pos hclean]
  · rw [exec_sealDecision hjob hst hgolden hsafe hvoid hx hready, hclean, if_neg Bool.false_ne_true]

/-! The Fault Collector's events. -/

theorem exec_faultSourceEvent {e : FaultInfo} {n : Nat} (hn : e.source.toNat = n) (hpresent : srcPresent n = true)
    (hpair : s.fcolBit 0x400 n = false) (hsafe : s.fcol.safe = false) :
    exec (.faultSourceEvent e) s = .next (s.eventReact e (s.eventWho (n / 8) e.job)).sweepRetired := by
  subst hn
  have harm : exec (.faultSourceEvent e) s = execFaultSourceEvent e s := rfl
  rw [harm, execFaultSourceEvent]
  simp only [hpresent, hpair, hsafe, Bool.not_false, Bool.and_self, if_true]

section
variable {e : FaultInfo} {u k : Nat} {w : Who} (hsrc : e.source.toNat = 8 * u + k) (hk : k < 8)
include hsrc hk

theorem source_unit : e.source.toNat / 8 = u := by omega

theorem source_kind : e.source.toNat % 8 = k := by omega

/-- A failed check outside the Rhizoid's pipelines and the overlap check (R601). -/
theorem eventReact_check (hkind : k = 1 ∨ k = 2) (hunit : ¬(72 ≤ u ∧ u ≤ 75)) (hoverlap : e.cause.toNat = 8 → 64 ≤ u) :
    s.eventReact e w = s.checkFail w u k e.cause.toNat e.subunit.toNat e.syndrome.toNat := by
  have hno : ¬(e.cause.toNat = 8 ∧ u < 64) := fun ⟨hc, hu⟩ => absurd (hoverlap hc) (by omega)
  rw [State.eventReact]
  simp only [source_unit hsrc hk, source_kind hsrc hk, hkind, if_true, hunit, if_false, hno]

/-- A failed overlap check of a Frond's unit marks the block it is about to write (R606). -/
theorem eventReact_overlap {f : Fin 4} (hkind : k = 1 ∨ k = 2) (hcause : e.cause.toNat = 8) (hf : u / 16 = f.val) :
    s.eventReact e w = (s.modFrond f fun x => { x with overlap := (x.overlap ++ [u % 16]).dedup }).checkFail w u k e.cause.toNat
      e.subunit.toNat e.syndrome.toNat := by
  have hu : u < 64 := by have := f.isLt; omega
  have hunit : ¬(72 ≤ u ∧ u ≤ 75) := by omega
  have hfrond : (⟨u / 16 % 4, Nat.mod_lt _ (by decide)⟩ : Fin 4) = f := Fin.ext (by rw [hf]; exact Nat.mod_eq_of_lt f.isLt)
  rw [State.eventReact]
  simp only [source_unit hsrc hk, source_kind hsrc hk, hkind, if_true, hunit, if_false, hcause, hu, and_self, hfrond]

/-- A failed check of a Rhizoid pipeline marks its frame, and is laid to the partition that owns the frame's context (R331, R336). -/
theorem eventReact_pipe (hkind : k = 1 ∨ k = 2) (hlow : 72 ≤ u) (hhigh : u ≤ 75) : s.eventReact e w =
    (s.markIcheck u k e.subunit.toNat).checkFail
      { w with part := ((s.pipeCtx u e.subunit.toNat).bind fun c => (s.stream c).owner).elim w.part (·.val) } u k e.cause.toNat
      e.subunit.toNat e.syndrome.toNat := by
  rw [State.eventReact]
  simp only [source_unit hsrc hk, source_kind hsrc hk, hkind, if_true, hlow, hhigh, and_self]

/-- Degradations, latent conditions and uncorrected errors are recorded; class U takes a step of its own (R643). -/
theorem eventReact_record (hkind : k = 0 ∨ k = 6 ∨ k = 7) : s.eventReact e w = s.raise
    { w.ev (8 * u + k) e.cause.toNat e.subunit.toNat e.syndrome.toNat with stepNo := if classOf (8 * u + k) = 2 then 6 else 0xFF } := by
  have h12 : ¬(k = 1 ∨ k = 2) := by omega
  have h34 : ¬(k = 3 ∨ k = 4) := by omega
  have h5 : k ≠ 5 := by omega
  have hunit : (8 * u + k) / 8 = u := hsrc ▸ source_unit hsrc hk
  have hmod : (8 * u + k) % 8 = k := hsrc ▸ source_kind hsrc hk
  rw [State.eventReact]
  simp only [hsrc, hunit, hmod, h12, h34, h5, false_and, if_false]

end

theorem exec_brokenPair {src : BitVec 10} {n : Nat} (hn : src.toNat = n) (hpresent : srcPresent n = true) (hpair : s.fcolBit 0x400 n = false)
    (hsafe : s.fcol.safe = false) (hfirst : s.fcol.refound.contains n = false) : exec (.brokenPair src) s =
    .next (((({ s with fcol := { s.fcol with refound := s.fcol.refound ++ [n] } } : State).raise
      { src := 918, cause := 21, sub := n, stepNo := brokenStep (n / 8) }).setFcolBit 0x400 n true).brokenReset (n / 8)).sweepRetired := by
  subst hn
  have harm : exec (.brokenPair src) s = execBrokenPair src s := rfl
  rw [harm, execBrokenPair]
  simp only [hpresent, hpair, hsafe, hfirst, Bool.not_false, Bool.and_self, if_true, Bool.false_eq_true, if_false]

theorem exec_collectorSelfFault (hself : s.fcol.self = false) : exec .collectorSelfFault s = .next s.selfFault :=
  congrArg Host.Outcome.next (if_neg (by rw [hself]; exact Bool.false_ne_true))

theorem exec_escalationTimeout {e} (he : earliest s.fcol.pending = some e) (htime : e.2.1 ≤ s.deckNow.toNat) : exec .escalationTimeout s =
    .next (({ s with fcol := { s.fcol with pending := s.fcol.pending.filter fun x => decide (x.1 ≠ e.1) } } : State).escalateF e.2.2) := by
  have harm : exec .escalationTimeout s = execEscalationTimeout s := rfl
  rw [harm, execEscalationTimeout]
  simp only [he, not_lt.2 htime, if_false]

theorem exec_errPulseEnd (hpulse : s.fcol.pulse = true) (hend : s.fcol.pulseEnd ≤ s.deckNow.toNat) :
    exec .errPulseEnd s = .next { s with fcol := { s.fcol with pulse := false } } :=
  congrArg Host.Outcome.next (if_pos ⟨hpulse, hend⟩)

theorem exec_powerOnTimeSave (s : State) : Completes .powerOnTimeSave s fun t =>
    t.nor.powerOn = s.power.powerOn ∧ t.mem = s.mem ∧ t.fcol = s.fcol := ⟨_, rfl, rfl, rfl, rfl⟩

/-- Settles O41: `eventReact` by the kind of the source, and one lemma per other event. -/
theorem faultEvents : Obligations.FaultEvents := by
  intro s
  refine ⟨fun e u k hsrc hk hpresent hpair hsafe => ?_, fun src n hn hpresent hpair hsafe hfirst =>
      exec_brokenPair hn hpresent hpair hsafe hfirst, exec_collectorSelfFault, fun e he htime => exec_escalationTimeout he htime,
    fun hpulse hend => exec_errPulseEnd hpulse hend, exec_powerOnTimeSave s⟩
  have hunit : (8 * u + k) / 8 = u := by omega
  have hexec := exec_faultSourceEvent hsrc hpresent hpair hsafe
  rw [hunit] at hexec
  rw [hexec]
  refine ⟨fun hkind hout hoverlap => ?_, fun f hkind hcause hf => ?_, fun hkind hlow hhigh => ?_, fun hkind => ?_⟩
  · rw [eventReact_check hsrc hk hkind hout hoverlap]
  · rw [eventReact_overlap hsrc hk hkind hcause hf]
  · refine ⟨_, ?_, congrArg (fun t : State => Host.Outcome.next t.sweepRetired) (eventReact_pipe hsrc hk hkind hlow hhigh)⟩
    rfl
  · rw [eventReact_record hsrc hk hkind]

/-! Power, temperature and clocks. -/

theorem range_getD_self {α : Type} (l : List α) (d : Nat → α) : ((List.range l.length).map fun i => l.getD i (d i)) = l := by
  refine List.ext_getElem (by simp) fun i h1 h2 => ?_
  simp only [List.getElem_map, List.getElem_range, List.getD_eq_getElem _ _ h2]

section
variable {f : Fin 4} (hsafe : s.fcol.safe = false) (hs1 : s.power.s1 = false)
include hsafe hs1

theorem exec_powerSample {mw : Nat} {b : Int} {n : Nat} {s1 : State} (hb : s.budgetAfter mw = b)
    (hn : (if sustainedMw < mw then s.power.overTime + 1 else 0) = n) (hstep : s.power.stepped = false)
    (hs : s1 = { s with power := { s.power with budget := b, overTime := n, pkgMw := mw } }) : exec (.powerSample mw) s =
    .next (if b ≤ 0 ∨ 10000 ≤ n then (({ s1 with power := { s1.power with stepped := true } } : State).count (oPwr 0x34) 1).applyOps
      else s1) := by
  subst hs hb hn
  have harm : exec (.powerSample mw) s = execPowerSample mw s := rfl
  rw [harm, execPowerSample]
  simp only [hsafe, hs1, hstep, Bool.false_eq_true, or_self, if_false]

theorem exec_thermalSample {l : List (BitVec 16 × BitVec 16)} (hlen : l.length = 24) : exec (.thermalSample l) s =
    .next (if (hotSensors l).isEmpty then { s with power := { s.power with temps := l } }
      else (hotSensors l).foldl (fun s i => s.raise { src := srcOf 119 6, cause := 26, sub := i })
        (if s.power.tlim = 5 then { s with power := { s.power with temps := l } }
          else ({ s with power := { s.power with temps := l } } : State).lowerLimit 5)) := by
  have harm : exec (.thermalSample l) s = execThermalSample l s := rfl
  have hall : ((List.range 24).map fun i => l.getD i (s.power.temps.getD i (0, 0))) = l := hlen ▸ range_getD_self l _
  rw [harm, execThermalSample]
  simp only [hsafe, hs1, Bool.false_eq_true, or_self, if_false, hall]

theorem exec_thermalLimitLower (hlim : s.power.tlim < 5) (htemps : s.power.temps ≠ [])
    (hhot : (8 * s.regF (oPwr 0x20) 0 8 : Nat) ≤ (hottest s.power.temps).2) :
    exec .thermalLimitLower s = .next (s.lowerLimit (s.power.tlim + 1)) :=
  congrArg Host.Outcome.next (if_pos ⟨hlim, hsafe, hs1, htemps, hhot⟩)

theorem exec_thermalLimitRaise (hlim : 0 < s.power.tlim) (htemps : s.power.temps ≠ [])
    (hcool : (hottest s.power.temps).2 ≤ (8 * s.regF (oPwr 0x20) 8 8 : Nat)) :
    exec .thermalLimitRaise s = .next { s with power := { s.power with tlim := s.power.tlim - 1 } } :=
  congrArg Host.Outcome.next (if_pos ⟨hlim, hsafe, hs1, htemps, hcool⟩)

theorem exec_avsTimeout : exec .avsTimeout s = .next (({ s with power := { s.power with avsHeld := true }, fronds := s.fronds.map fun
    (x : Frond) => { x with op := if x.powered then max x.op (opOfRail s.power.vdd) else x.op } } : State).raise
      { src := srcOf 118 4, cause := 27 }) :=
  congrArg Host.Outcome.next (if_neg (by rw [hsafe, hs1]; simp))

end

theorem exec_droopDetect {f : Fin 4} (hclock : (s.frond f).clocked = true) (hdroop : (s.frond f).droop = .none) :
    exec (.droopDetect f) s =
      .next (((s.modFrond f fun y => { y with droop := .stretched }).count (oPwr (0x40 + 4 * f.val)) 1).breakRound 1) :=
  congrArg Host.Outcome.next (if_pos (by rw [hclock, hdroop]; rfl))

theorem exec_droopFault {f : Fin 4} (hclock : (s.frond f).clocked = true) : exec (.droopFault f) s =
    .next (s.raise { src := srcOf (16 * f.val + 13) 0, cause := 27, part := (s.ownerOf f).elim 0xFF (·.val) }) :=
  congrArg Host.Outcome.next (if_pos hclock)

theorem exec_pllLockLoss {d : Fin 32} (hpll : hasPll d.val = true) (hlock : (clkLock s).testBit d.val = true) (hd : d.val ≠ 2) :
    exec (.pllLockLoss d) s =
      .next ((s.raise { src := srcOf 118 1, cause := 27, sub := d.val, stepNo := domainStepNo d.val }).domainStep d.val) := by
  have harm : exec (.pllLockLoss d) s = execPllLockLoss d s := rfl
  rw [harm, execPllLockLoss]
  simp only [hpll, hlock, Bool.true_eq_false, or_self, if_false, hd]

theorem exec_clockLockLoss (hexact : s.exactClaimed = true) :
    exec .clockLockLoss s = .next ((s.breakRound 4).raise { src := srcOf 118 0, cause := 27 }) := congrArg Host.Outcome.next (if_pos hexact)

theorem exec_pwrgdMainFail (hs1 : s.power.s1 = false) (hpor : s.sys.por = false) :
    exec .pwrgdMainFail s = .next (s.raise { src := srcOf 118 7, cause := 27, stepNo := 6 }) :=
  congrArg Host.Outcome.next (if_neg (by rw [hs1, hpor]; simp))

/-- Settles O42: one lemma per event. -/
theorem powerEvents : Obligations.PowerEvents := by
  intro s f hsafe hs1
  refine ⟨fun mw b n s1 hb hn hstep hs => ⟨fun hpos hlow => ?_, fun hspent => ?_⟩, fun l hlen hcool => ?_, fun l hlen hhot hlim => ?_,
    fun hlim htemps hhot => exec_thermalLimitLower hsafe hs1 hlim htemps hhot,
    fun hlim htemps hcool => exec_thermalLimitRaise hsafe hs1 hlim htemps hcool, fun i => rfl,
    fun hclock hdroop => exec_droopDetect hclock hdroop, rfl, exec_droopFault, rfl,
    fun d hpll hlock hd => exec_pllLockLoss hpll hlock hd, exec_clockLockLoss, exec_avsTimeout hsafe hs1, exec_pwrgdMainFail hs1⟩
  · rw [exec_powerSample hsafe hs1 hb hn hstep hs, if_neg (by omega)]
  · rw [exec_powerSample hsafe hs1 hb hn hstep hs, if_pos hspent]
  · rw [exec_thermalSample hsafe hs1 hlen, hcool]
    rfl
  · rw [exec_thermalSample hsafe hs1 hlen, List.isEmpty_eq_false_iff.2 hhot, if_neg Bool.false_ne_true, if_neg hlim]

/-! Resets and recovery steps. -/

theorem setMode_port (l : List (Fin 4)) (m : Fin 4 → PortMode) (p : Fin 4) : ∀ s : State, p ∈ l ∨ (s.port p).mode = m p →
    ((l.foldl (fun s p => s.modPort p fun x => { x with mode := m p }) s).port p).mode = m p := by
  induction l with
  | nil => exact fun s h => h.resolve_left List.not_mem_nil
  | cons a l ih =>
    refine fun s h => ih _ ?_
    by_cases hap : p = a
    · subst hap
      exact .inr (by rw [modPort_port])
    · refine (h.imp_left fun hmem => (List.mem_cons.1 hmem).resolve_left hap).imp_right fun hm => ?_
      rw [State.port_modPort_ne _ _ (fun h => hap h.symm), hm]

/-- At the end of POR_N every host port has the mode its fuses lock, or none (R405). -/
theorem porStart_mode (s : State) (b : BootFacts) (p : Fin 4) : ((s.porStart b).port p).mode = s.lockedMode p :=
  setMode_port (List.finRange 4) s.lockedMode p _ (.inl (List.mem_finRange p))

theorem exec_porNRelease {b : BootFacts} (hpor : s.sys.por = true) (hsrc : b.bootSrc ≠ 3) :
    exec (.porNRelease b) s = .next ((s.porStart b).readNor.trainDram b).boot := by
  have harm : exec (.porNRelease b) s = execPorNRelease b s := rfl
  rw [harm, execPorNRelease]
  simp only [hpor, Bool.true_eq_false, if_false, hsrc]

section
variable (hpor : s.sys.por = false) (hsafe : s.fcol.safe = false) (hs1 : s.power.s1 = false)
include hpor hsafe

theorem not_por_or_safe : ¬(s.sys.por = true ∨ s.fcol.safe = true) := by rw [hpor, hsafe]; simp

theorem exec_nocTimeout_first {r : Fin 64} {u : MemUnit} {b : Option (BitVec 40)} : exec (.nocTimeout r u false b) s =
    .next (s.raise { (s.memWho u).ev (srcOf 93 0) 19 r.val 4 with stepNo := 0 }) :=
  congrArg Host.Outcome.next ((if_neg (not_por_or_safe hpor hsafe)).trans (if_neg Bool.false_ne_true))

theorem exec_nocTimeout_second {r : Fin 64} {u : MemUnit} : exec (.nocTimeout r u true none) s =
    .next (s.checkFail (s.memWho u) 93 4 19 r.val 4).sweepRetired :=
  congrArg Host.Outcome.next ((if_neg (not_por_or_safe hpor hsafe)).trans (if_pos rfl))

theorem exec_warmReset (c : WarmCause) : exec (.warmReset c) s = .next (s.warmBy c) :=
  congrArg Host.Outcome.next (if_neg (not_por_or_safe hpor hsafe))

theorem exec_bootWatchdogExpire (hst : s.sys.st = .startup) : exec .bootWatchdogExpire s = .next (s.warmBy .watchdog) :=
  congrArg Host.Outcome.next ((if_neg (not_por_or_safe hpor hsafe)).trans (if_pos (.inl hst)))

include hs1

theorem canRecover_awake : s.canRecover = true := by rw [State.canRecover, hpor, hsafe, hs1]; rfl

end

/-! Outside S1 no wake precedes a warm reset. -/

section
variable (hs1 : s.power.s1 = false)
include hs1

theorem warmBy_pin : s.warmBy .pin = s.l5 false := by rw [State.warmBy, hs1, if_neg Bool.false_ne_true]

theorem warmBy_escalation : s.warmBy .escalation = s.l5 true := by rw [State.warmBy, hs1, if_neg Bool.false_ne_true]

theorem warmBy_watchdog : s.warmBy .watchdog = ({ s with sys := { s.sys with bootFail := s.sys.bootFail + 1 } } : State).l5 true := by
  rw [State.warmBy, hs1, if_neg Bool.false_ne_true]

end

/-- Settles O44: one lemma per reset. -/
theorem resetCommands : Obligations.ResetCommands := by
  intro s f
  refine ⟨exec_porNAssert s, fun b hpor hsrc => ⟨exec_porNRelease hpor hsrc, porStart_mode s b⟩, fun hpor hsafe hs1 => ?_⟩
  have hrecover := canRecover_awake hpor hsafe hs1
  refine ⟨?_, ?_, fun hst => ?_, fun r u b => exec_nocTimeout_first hpor hsafe,
    fun r u => exec_nocTimeout_second hpor hsafe, congrArg Host.Outcome.next (if_pos hrecover), congrArg Host.Outcome.next (if_pos hrecover),
    congrArg Host.Outcome.next (if_pos hrecover), congrArg Host.Outcome.next (if_pos hrecover),
    congrArg Host.Outcome.next (if_pos hrecover), fun sc => congrArg Host.Outcome.next (if_pos hrecover)⟩
  · rw [exec_warmReset hpor hsafe, warmBy_pin hs1]
  · rw [exec_warmReset hpor hsafe, warmBy_escalation hs1]
  · rw [exec_bootWatchdogExpire hpor hsafe hst, warmBy_watchdog hs1]

end

end Sys2Proof.Machine

/-! Cameras, point streams, message streams and delivery (R309 to R350). -/

namespace Sys2Proof.Machine
open Sys2Proof.Safety Sys2Proof.Laws

section
variable {s s1 : State} {port : Fin 12} {vc : Fin 16} {c : Nat}

/-! Cameras. -/

/-- A packet of a virtual channel that no context takes is counted on its port (R310). -/
theorem exec_csi2_lost {k : Instr} (hc : s.cameraOf port.val vc.val = none)
    (hk : k = Instr.csi2Packet port (.badHeader vc) ∨ (∃ co, k = .csi2Packet port (.line vc co) ∨ k = .csi2FrameEnd port ⟨vc, co⟩) ∨
      (∃ dt co crcOk pl, k = .csi2Packet port (.long vc dt co crcOk pl)) ∨ (∃ co ph, k = .csi2FrameStart port ⟨vc, co⟩ ph)) :
    exec k s = .next (s.portLost port.val) := by
  obtain rfl | ⟨co, rfl | rfl⟩ | ⟨dt, co, crcOk, pl, rfl⟩ | ⟨co, ph, rfl⟩ := hk
  · have harm : exec (.csi2Packet port (.badHeader vc)) s = execCsi2Packet port (.badHeader vc) s := rfl
    rw [harm, execCsi2Packet]
    simp only [hc]
  · have harm : exec (.csi2Packet port (.line vc co)) s = execCsi2Packet port (.line vc co) s := rfl
    rw [harm, execCsi2Packet]
    simp only [hc]
  · have harm : exec (.csi2FrameEnd port ⟨vc, co⟩) s = execCsi2FrameEnd port ⟨vc, co⟩ s := rfl
    rw [harm, execCsi2FrameEnd]
    simp only [hc]
  · have harm : exec (.csi2Packet port (.long vc dt co crcOk pl)) s = execCsi2Packet port (.long vc dt co crcOk pl) s := rfl
    rw [harm, execCsi2Packet]
    simp only [hc]
  · have harm : exec (.csi2FrameStart port ⟨vc, co⟩ ph) s = execCsi2FrameStart port ⟨vc, co⟩ ph s := rfl
    rw [harm, execCsi2FrameStart]
    simp only [hc]

section
variable (hc : s.cameraOf port.val vc.val = some c)
include hc

theorem exec_csi2Packet_line {co : Bool} : exec (.csi2Packet port (.line vc co)) s = .next (s.noteCorrected c co) := by
  have harm : exec (.csi2Packet port (.line vc co)) s = execCsi2Packet port (.line vc co) s := rfl
  rw [harm, execCsi2Packet]
  simp only [hc]

theorem exec_csi2Packet_badHeader : exec (.csi2Packet port (.badHeader vc)) s = .next (s.errFrame c) := by
  have harm : exec (.csi2Packet port (.badHeader vc)) s = execCsi2Packet port (.badHeader vc) s := rfl
  rw [harm, execCsi2Packet]
  simp only [hc]

/-- A packet of the context's image data type is a line of its frame (R337). -/
theorem exec_csi2Packet_image {co crcOk : Bool} {dt : BitVec 6} {pl : List Byte} (hs1 : s.noteCorrected c co = s1) (hst : s1.strmSt c ≠ 4)
    (hdt : dt.toNat = bits (s1.strmCfg c) 10 6) :
    exec (.csi2Packet port (.long vc dt co crcOk pl)) s = .next (s1.cameraLine c dt.toNat crcOk pl) := by
  subst hs1
  have harm : exec (.csi2Packet port (.long vc dt co crcOk pl)) s = execCsi2Packet port (.long vc dt co crcOk pl) s := rfl
  rw [harm, execCsi2Packet]
  simp only [hc, hst, if_false, hdt, if_true]

theorem exec_csi2FrameStart {co : Bool} {ph : Fin 32} : exec (.csi2FrameStart port ⟨vc, co⟩ ph) s =
    .next (((s.badEnd c).frameStart c (s.capture ph.val) true).noteCorrected c co) := by
  have harm : exec (.csi2FrameStart port ⟨vc, co⟩ ph) s = execCsi2FrameStart port ⟨vc, co⟩ ph s := rfl
  rw [harm, execCsi2FrameStart]
  simp only [hc]

theorem exec_csi2FrameEnd {co : Bool} : exec (.csi2FrameEnd port ⟨vc, co⟩) s = .next ((s.noteCorrected c co).cameraEnd c) := by
  have harm : exec (.csi2FrameEnd port ⟨vc, co⟩) s = execCsi2FrameEnd port ⟨vc, co⟩ s := rfl
  rw [harm, execCsi2FrameEnd]
  simp only [hc]

end

theorem noteCorrected_counts (s : State) (c : Nat) : (s.noteCorrected c true).reg (oStrm c 0x34) = countUp (s.reg (oStrm c 0x34)) 1 ∧
    (s.noteCorrected c true).mem = s.mem := by
  refine ⟨?_, rfl⟩
  rw [State.noteCorrected, if_pos rfl]
  exact State.reg_count s _ _

section
variable {r : FrameRun} (hframe : (s.stream c).frame = some r)
include hframe

theorem cameraEnd_unsigned (hcmac : bit1 (s.strmCfg c) 6 = false) :
    s.cameraEnd c = if s.frameBad c r = true then s.badEnd c else s.goodEnd c false := by
  rw [State.cameraEnd]
  simp only [hframe, hcmac, Bool.false_eq_true, if_false]

theorem cameraEnd_forged (hcmac : bit1 (s.strmCfg c) 6 = true) (htag : s.cmacOk c r = none) : s.cameraEnd c = s.quarantine c 11 := by
  rw [State.cameraEnd]
  simp only [hframe, hcmac, if_true, htag]

theorem cameraEnd_signed {n : Nat} (hcmac : bit1 (s.strmCfg c) 6 = true) (htag : s.cmacOk c r = some n) : s.cameraEnd c =
    if s.frameBad c r = true then (s.modStream c fun x => { x with fcnt := some n, frame := some { r with sensCnt := n } }).badEnd c
    else (s.modStream c fun x => { x with fcnt := some n, frame := some { r with sensCnt := n } }).goodEnd c true := by
  rw [State.cameraEnd]
  simp only [hframe, hcmac, if_true, htag]

end

theorem exec_deskew (h : (s.reg (0x03000000 + 4 * port.val)).getLsbD 3 = false) :
    exec (.deskewCalibrationSequence port) s = .next (s.setRegF (0x03000000 + 4 * port.val) 2 1 1) :=
  congrArg Host.Outcome.next (if_neg (Bool.not_eq_true _ ▸ h))

/-- Settles O27: one lemma per packet; the end of a frame by its tag. -/
theorem cameraPackets : Obligations.CameraPackets := by
  intro s port vc c
  refine ⟨rfl, fun k hc hk => exec_csi2_lost hc hk, fun hc => ⟨?_, ?_⟩, fun co s1 crcOk pl dt r hc hs1 hst hdt hframe => ?_,
    fun hc => ⟨exec_csi2Packet_badHeader hc, fun co ph => exec_csi2FrameStart hc⟩, fun co s1 r hc hs1 hframe => ?_, exec_deskew⟩
  · exact exec_csi2Packet_line hc
  · exact ⟨_, exec_csi2Packet_line hc, noteCorrected_counts s c⟩
  · rw [exec_csi2Packet_image hc hs1 hst hdt, State.cameraLine]
    simp only [hframe]
  · subst hs1
    rw [exec_csi2FrameEnd hc]
    cases hcmac : bit1 ((s.noteCorrected c co).strmCfg c) 6 with
    | false => rw [cameraEnd_unsigned hframe hcmac, if_neg Bool.false_ne_true]
    | true =>
      cases htag : (s.noteCorrected c co).cmacOk c r with
      | none => rw [cameraEnd_forged hframe hcmac htag, if_pos rfl]
      | some n => rw [cameraEnd_signed hframe hcmac htag, if_pos rfl]

end

/-! Point streams, message streams and delivery. -/

section
variable {s : State} {m : Fin 8} {x : Fin 96} {c : Nat}

theorem exec_ethFrameReceive_damaged {ph : Fin 32} {fr : List Byte} {ok : Bool} (hbad : ok = false ∨ 9216 < fr.length + 4) :
    exec (.ethFrameReceive m ok ph fr) s = .next (s.count (0x03000080 + 4 * m.val) 1) := by
  refine congrArg Host.Outcome.next (if_pos ?_)
  exact hbad.imp (fun h => by rw [h]; rfl) .inr

theorem exec_ethFrameReceive_clear {ph : Fin 32} {fr : List Byte} (hshort : 14 ≤ fr.length) (hlong : fr.length + 4 ≤ 9216)
    (htype : fldBE fr 12 2 ≠ 0x88E5) : exec (.ethFrameReceive m true ph fr) s = .next (s.ethClear m ph.val none fr) := by
  refine congrArg Host.Outcome.next ((if_neg ?_).trans (if_neg htype))
  rintro (h | h | h)
  · exact Bool.false_ne_true h
  · omega
  · omega

theorem exec_auxMessage {p : Fin 4} {d : Fin 256} {o : Fin 4} {r : Ring} {n : Nat} {ph : Fin 32} (hx : x.val = c) (hon : s.auxOn c = true)
    (howner : (s.stream c).owner = some o) (hport : (s.part o).port = p) (hring : s.auxRing c = d.val) (hr : s.ring p d.val = some r)
    (hkind : r.kind = 1) (hpart : r.part = o.val) (hagree : r.agree = true) (hhead : s.atHead p r = .cmd n) : exec (.auxMessage x p d ph) s =
      .next ((s.consume p d.val n).auxFrame c (s.capture ph.val) (Config.auxEntry (s.packetAt p r n).payload)) := by
  subst hx
  have harm : exec (.auxMessage x p d ph) s = execAuxMessage x p d ph s := rfl
  have hpair : s.auxPair x.val p d.val = true := by
    rw [State.auxPair, howner, Option.any_some]
    exact decide_eq_true ⟨hport, hring⟩
  rw [harm, execAuxMessage]
  simp only [hr, hpair, hon, hkind, howner, hpart, Option.map_some, and_self, decide_true, Bool.and_self, if_true, hagree, hhead]

theorem auxFrame_taken {t : Nat} {e : List Byte × Nat} {s1 : State} (hs1 : s.frameStart c t true = s1) (hst : s1.strmSt c ≠ 4) :
    s.auxFrame c t e = if 240 < e.1.length then s1.quarantine c 9 else (s1.modStream c fun y => { y with
      frame := y.frame.map fun (r : FrameRun) => { r with lines := [e.1], sens := some e.2 } }).goodEnd c false := by
  subst hs1
  exact if_neg hst

theorem exec_frameStartGap {t : Nat} (hx : x.val = c) (hon : s.strmOn c = true) (hstart : (s.stream c).lastStart = some t)
    (hkind : s.strmKind c ≠ 4) (hst : s.strmSt c ≠ 4) (hgap : t + s.regF (oStrm c 0xC) 0 16 * 10000 ≤ s.now) :
    exec (.frameStartGap x) s = .next (s.absent c 4) := by
  subst hx
  have harm : exec (.frameStartGap x) s = execFrameStartGap x s := rfl
  rw [harm, execFrameStartGap]
  simp only [hstart, hon, hkind, hst, hgap, ne_eq, not_false_eq_true, and_self, decide_true, Bool.and_self, if_true]

theorem exec_quarHoldExpire (hx : x.val = c) (hon : s.strmOn c = true) (hst : s.strmSt c = 4) (hhold : s.regF (oStrm c 0xC) 24 8 ≠ 0)
    (htime : (s.stream c).quarAt + s.regF (oStrm c 0xC) 24 8 * 10000000 ≤ s.now) :
    exec (.quarHoldExpire x) s = .next (s.absent c 12) := by
  subst hx
  refine congrArg Host.Outcome.next (if_pos ?_)
  rw [hon, decide_eq_true ⟨hst, hhold, htime⟩]
  rfl

theorem exec_frameDeliver {d : FrameDone} {rest : List FrameDone} (hx : x.val = c) (hdone : (s.stream c).done = d :: rest)
    (hon : s.strmOn c = true) (hst : s.strmSt c = 2 ∨ s.strmSt c = 3) : exec (.frameDeliver x) s =
      .next (((s.modStream c fun x => { x with done := rest }).readLines c d.run).2.deliverFrame c
        { d with run := ((s.modStream c fun x => { x with done := rest }).readLines c d.run).1 } (s.frameTensor c (s.jitterOf c d.run) d.run)) := by
  subst hx
  have harm : exec (.frameDeliver x) s = execFrameDeliver x s := rfl
  rw [harm, execFrameDeliver]
  simp only [hdone, hon, hst, decide_true, Bool.and_self, if_true]

theorem exec_jobInstanceStart {j : Nat} {y : Job} {got : List (Nat × SlotFrame)} (hjob : s.job j = some y) (hstreams : y.streams ≠ [])
    (hst : y.st = .waiting) (hgolden : y.golden = none) (hsafe : s.fcol.safe = false) (hframes : ∀ c ∈ y.streams, (s.frameFor j c).isSome = true)
    (hgot : got = (y.streams.filterMap fun c => (s.frameFor j c).map fun f => (c, f))) : exec (.jobInstanceStart j) s = .next
      ((got.zipIdx.foldl (fun s (e, i) => s.putBlock (y.pick + 256 * i) (padTo 256 (leBytes 4 e.2.slot))
        (crcWord (padTo 256 (leBytes 4 e.2.slot)))) (got.foldl (fun s e => s.takeFrame j y.inst e.1 e.2) s)).setJob j
        (y.begin s.now (got.any fun e => decide (s.strmKind e.1 = 4)) (got.map (·.2)))) := by
  subst hgot
  have harm : exec (.jobInstanceStart j) s = execJobInstanceStart j s := rfl
  have hall : ((y.streams.map fun c => (c, s.frameFor j c)).all fun e => e.2.isSome) = true := by
    rw [List.all_map]
    exact List.all_eq_true.2 hframes
  have hmap : (y.streams.map fun c => (c, s.frameFor j c)).filterMap (fun e => e.2.map fun f => (e.1, f)) =
      y.streams.filterMap fun c => (s.frameFor j c).map fun f => (c, f) := List.filterMap_map
  rw [harm, execJobInstanceStart]
  simp only [hjob, hst, hgolden, hsafe, hstreams, ne_eq, not_false_eq_true, Bool.not_false, and_self, if_true, hall, hmap]

/-- Settles O28: one lemma per event. -/
theorem streamEvents : Obligations.StreamEvents := by
  intro s m x c hx
  exact ⟨fun ph fr ok _ hbad => exec_ethFrameReceive_damaged hbad,
    fun ph fr hshort hlong htype => exec_ethFrameReceive_clear hshort hlong htype,
    fun p d o r n u ph hon howner hport hring hr hkind hpart hagree hhead hu =>
      hu ▸ exec_auxMessage hx hon howner hport hring hr hkind hpart hagree hhead,
    fun t e s1 hs1 hst => auxFrame_taken hs1 hst, fun t hon hstart hkind hst hgap => exec_frameStartGap hx hon hstart hkind hst hgap, rfl,
    fun hon hst hhold htime => exec_quarHoldExpire hx hon hst hhold htime, fun d rest hdone hon hst => ⟨_, rfl, exec_frameDeliver hx hdone hon hst⟩,
    fun j y got hjob hstreams hst hgolden hsafe hframes hgot =>
      ⟨_, exec_jobInstanceStart hjob hstreams hst hgolden hsafe hframes hgot, rfl⟩⟩

end

end Sys2Proof.Machine

/-! Register writes outside the rings (R5, R81, R379 to R401, R432, R646, R649). -/

namespace Sys2Proof.Machine
open Sys2Proof.Safety Sys2Proof.Laws

section
variable {s : State}

theorem writeAs_firmware (h : s.dbg.halted.contains 4 = false) (act : State → State) : s.writeAs .firmware act = act s := by
  rw [State.writeAs, State.mayWrite, h]
  rfl

theorem writeAs_debug (h : s.dbg.level = 2) (act : State → State) : s.writeAs .debug act = act s.debugEntry := by
  rw [State.writeAs, State.mayWrite, decide_eq_true h]
  rfl

theorem writeAs_debug_closed (h : s.dbg.level ≠ 2) (act : State → State) : s.writeAs .debug act = s := by
  rw [State.writeAs, State.mayWrite, decide_eq_false h]
  rfl

theorem writeVia_inner {wr : State → Nat → Word → State} {c : Option (Fin 4)} {o : Nat} (v : Word) (houter : s.outerWindow c o = none)
    (hpin : s.pinWindow o = none) : s.writeVia wr c o v = wr s o v := by
  simp only [State.writeVia, houter, State.writeInner, hpin]

theorem writeVia_outer {wr : State → Nat → Word → State} {c : Option (Fin 4)} {o : Nat} {w : Window} (v : Word)
    (houter : s.outerWindow c o = some w) : s.writeVia wr c o v = windowWrite (fun s o => s.writeInner wr o v) s w := by
  simp only [State.writeVia, houter]

theorem writeFields_spec {o : Nat} {r : RegSpec} (v : Word) (h : regSpec o = some r) :
    s.writeFields o v = s.setReg o (BitVec.ofNat 32 (regAfter r (s.reg o).toNat v.toNat)) := by
  simp only [State.writeFields, h]

/-- A register without a behaviour of its own takes the write by its fields (R5, R8). -/
theorem writeReg_plain {o : Nat} {r : RegSpec} (v : Word) (hfrond : inFrond o = none) (hmat : arr 0x04F01000 4 1024 o = none)
    (hinc : o ≠ oTime 0x14) (hack : o ≠ oFcol 0xC) (htherm : o ≠ oPwr 0x20) (hstrm : ∀ c x, inStream o = some (c, x) → x ≠ 0)
    (htrig : arr (oTime 0x100) 0x20 8 o = none) (hhold : arr (oFcol 0x200) 4 32 o = none) (hpulse : arr (oFcol 0x300) 4 32 o = none)
    (hspec : regSpec o = some r) : s.writeReg o v = s.setReg o (BitVec.ofNat 32 (regAfter r (s.reg o).toNat v.toNat)) := by
  rw [← writeFields_spec v hspec, State.writeReg]
  cases hin : inStream o with
  | none => simp only [hfrond, hmat, Bool.false_eq_true, if_false, hinc, hack, htherm, htrig, hhold, hpulse]
  | some e =>
    have hx : decide (e.2 = 0) = false := decide_eq_false (hstrm e.1 e.2 hin)
    simp only [hfrond, hmat, hx, Bool.false_eq_true, if_false, hinc, hack, htherm, htrig, hhold, hpulse]

theorem fwWriteReg_outside {o : Nat} (v : Word) (hfrond : inFrond o = none) (hmat : arr 0x04F01000 4 1024 o = none) :
    s.fwWriteReg o v = s.writeReg o v := by
  simp only [State.fwWriteReg, hfrond, hmat]

section
variable {off : BitVec 28} {v : Word}

theorem exec_registerWrite_firmware (h : s.dbg.halted.contains 4 = false) :
    exec (.registerWrite .firmware off v) s = .next (s.fwWrite off.toNat v) := congrArg Host.Outcome.next (writeAs_firmware h _)

theorem exec_registerWrite_debug (h : s.dbg.level = 2) :
    exec (.registerWrite .debug off v) s = .next (s.debugEntry.writeAny none off.toNat v) := congrArg Host.Outcome.next (writeAs_debug h _)

theorem exec_registerWrite_debug_closed (h : s.dbg.level ≠ 2) : exec (.registerWrite .debug off v) s = .next s :=
  congrArg Host.Outcome.next (writeAs_debug_closed h _)

end

/-! Access through a window. -/

/-- Whether a caller's access lies outside its privilege or in a Frond that is off (R83). -/
def windowClosed (s : State) (c : Option (Fin 4)) (o : Nat) : Bool := c.any fun r => s.noRegRead r o || s.frondOff r o

theorem execGroupWindowAccess_eq (s : State) (c : Option (Fin 4)) (off : BitVec 28) (w : Option Word) :
    exec (.groupWindowAccess c off w) s = .next (
      if (s.outerWindow c off.toNat).isNone && (s.pinWindow off.toNat).isNone then s
      else if !isReg off.toNat then s
      else if windowClosed s c off.toNat then s
      else match w, c with
        | none, _ => { (s.readAny c off.toNat).2 with out := leBytes 4 (s.readAny c off.toNat).1.toNat }
        | some v, none => s.fwWrite off.toNat v
        | some v, some _ => if noRegWrite off.toNat then s else s.writeAny c off.toNat v) := by
  cases c <;> cases w <;> rfl

theorem exec_groupWindowAccess_closed {r : Fin 4} {off : BitVec 28} {w : Option Word}
    (h : s.noRegRead r off.toNat = true ∨ s.frondOff r off.toNat = true) : exec (.groupWindowAccess (some r) off w) s = .next s := by
  have hclosed : windowClosed s (some r) off.toNat = true := by
    rw [windowClosed, Option.any_some]
    exact Bool.or_eq_true_iff.2 h
  rw [execGroupWindowAccess_eq, hclosed]
  simp only [if_true, ite_self]

section
variable {c : Option (Fin 4)} {off : BitVec 28} {w : Window} (hw : s.outerWindow c off.toNat = some w) (hreg : isReg off.toNat = true)
  (hopen : ∀ r, c = some r → s.noRegRead r off.toNat = false ∧ s.frondOff r off.toNat = false)
include hopen

theorem windowClosed_of_open : windowClosed s c off.toNat = false := by
  cases c with
  | none => rfl
  | some r => rw [windowClosed, Option.any_some, (hopen r rfl).1, (hopen r rfl).2]; rfl

include hw hreg

theorem exec_groupWindowAccess_read : exec (.groupWindowAccess c off none) s =
    .next { (s.readAny c off.toNat).2 with out := leBytes 4 (s.readAny c off.toNat).1.toNat } := by
  rw [execGroupWindowAccess_eq]
  simp only [hw, hreg, windowClosed_of_open hopen, Option.isNone_some, Bool.false_and, Bool.not_true, Bool.false_eq_true, if_false]

theorem exec_groupWindowAccess_write {v : Word} (hwrite : c ≠ none → noRegWrite off.toNat = false) :
    exec (.groupWindowAccess c off (some v)) s =
      .next (s.writeVia (if c = none then State.fwWriteReg else State.writeReg) c off.toNat v) := by
  have hclosed := windowClosed_of_open hopen
  rw [execGroupWindowAccess_eq]
  cases c with
  | none =>
    simp only [hw, hreg, hclosed, Option.isNone_some, Bool.false_and, Bool.not_true, Bool.false_eq_true, if_false, if_true]
    rfl
  | some r =>
    simp only [hw, hreg, hclosed, hwrite (Option.some_ne_none r), Option.isNone_some, Bool.false_and, Bool.not_true, Bool.false_eq_true,
      if_false, reduceCtorEq]
    rfl

end

/-! Registers whose write has a behaviour of its own. -/

theorem writeFields_frame (s : State) (o : Nat) (v : Word) : (s.writeFields o v).time = s.time ∧ (s.writeFields o v).mem = s.mem := by
  rw [State.writeFields]
  cases regSpec o with
  | none => exact ⟨rfl, rfl⟩
  | some r => exact ⟨rfl, rfl⟩

theorem writeIncInt_accepted {v : Word} (hlow : 25 ≤ v.toNat % 256) (hhigh : v.toNat % 256 ≤ 27) : s.writeIncInt v =
    { s.writeFields (oTime 0x14) v with time := { s.time with
      incPend := some (BitVec.ofNat 64 (v.toNat % 256 * 2 ^ 32 + ((s.writeFields (oTime 0x14) v).reg (oTime 0x10)).toNat)) } } := by
  have hbits : bits v.toNat 0 8 = v.toNat % 256 := bits_zero _ _
  rw [State.writeIncInt, hbits, if_pos ⟨hlow, hhigh⟩]
  simp only [(writeFields_frame s (oTime 0x14) v).1]

theorem writeTrigCtrl_time (s : State) (n : Fin 8) (v : Word) : (s.writeTrigCtrl n.val v).time =
    { s.time with trig := s.time.trig.set n.val ⟨v.getLsbD 0, 0, none⟩ } := by
  rw [State.writeTrigCtrl]
  cases hen : v.getLsbD 0 with
  | false => rw [if_neg Bool.false_ne_true, (writeFields_frame s _ v).1]
  | true => rw [if_pos rfl, (writeFields_frame s _ v).1]

theorem writeTrigCtrl_missCnt (s : State) (n : Fin 8) {v : Word} (hen : v.getLsbD 0 = true) :
    (s.writeTrigCtrl n.val v).reg (oTime (0x11C + 0x20 * n.val)) = 0 := by
  rw [State.writeTrigCtrl, if_pos hen]
  exact State.reg_setReg _ _ _

theorem writeTrigCtrl_mem (s : State) (n : Fin 8) (v : Word) : (s.writeTrigCtrl n.val v).mem = s.mem := by
  rw [State.writeTrigCtrl]
  cases v.getLsbD 0 with
  | false => exact (writeFields_frame s _ v).2
  | true => exact (writeFields_frame s _ v).2

end

/-- Settles O17: who may write, the windows, and one lemma per register with a behaviour of its own. -/
theorem registerCommands : Obligations.RegisterCommands := by
  refine ⟨fun s off v hfw => ⟨exec_registerWrite_firmware hfw, fun r houter hpin hfrond hmat hinc hack htherm hstrm htrig hhold hpulse hspec => ?_⟩,
    fun s off v hlevel => exec_registerWrite_debug hlevel, fun s off v hlevel => exec_registerWrite_debug_closed hlevel,
    fun s c off w hw hreg hopen => ⟨exec_groupWindowAccess_read hw hreg hopen, fun v => ⟨fun hc => ?_, fun hc hwrite => ?_⟩⟩,
    fun s r off v h => exec_groupWindowAccess_closed h, fun s v hfw hlow hhigh => ?_,
    fun s n v hfw => ⟨_, congrArg Host.Outcome.next (writeAs_firmware hfw _), writeTrigCtrl_time s n v, writeTrigCtrl_missCnt s n,
      writeTrigCtrl_mem s n v⟩,
    fun s v hfw => congrArg Host.Outcome.next (writeAs_firmware hfw _),
    fun s i v hfw => ⟨congrArg Host.Outcome.next (writeAs_firmware hfw _), congrArg Host.Outcome.next (writeAs_firmware hfw _)⟩,
    fun s p v => ⟨rfl, rfl⟩⟩
  · rw [exec_registerWrite_firmware hfw, State.fwWrite, writeVia_inner v houter hpin, fwWriteReg_outside v hfrond hmat,
      writeReg_plain v hfrond hmat hinc hack htherm hstrm htrig hhold hpulse hspec]
  · rw [exec_groupWindowAccess_write hw hreg hopen fun h => absurd hc h, if_pos hc, writeVia_outer v hw]
  · rw [exec_groupWindowAccess_write hw hreg hopen fun _ => hwrite, if_neg hc, writeVia_outer v hw]
  · exact congrArg Host.Outcome.next ((writeAs_firmware hfw _).trans (writeIncInt_accepted hlow hhigh))

end Sys2Proof.Machine

/-! Tokens, barriers, and the bounds and fetch of a kernel (R121 to R138, R510). -/

namespace Sys2Proof.Machine
open Sys2Proof.Safety Sys2Proof.Laws

section
variable {s : State} {f : Fin 4} {q : Fin 64} {w : IWord}

/-! Tokens, barriers and queue ends. -/

theorem exec_tokWait (hw : s.readyIns f q.val 0x38 = some w) : exec (.tokWait f q) s = .next (s.runIns f q.val w) := by
  have harm : exec (.tokWait f q) s = execTokWait f q s := rfl
  rw [harm, execTokWait]
  simp only [hw]

theorem exec_tokSig_local {k : KernelRun} (hw : s.readyIns f q.val 0x39 = some w) (hk : (s.frond f).kernel = some k)
    (hlocal : (sigF w).remote = false) :
    exec (.tokSig f q) s = .next ((s.runIns f q.val w).modFrond f fun x => x.addToken (sigF w).ttok (sigF w).inc) := by
  have harm : exec (.tokSig f q) s = execTokSig f q s := rfl
  rw [harm, execTokSig]
  simp only [hw, hk, hlocal, Bool.false_eq_true, if_false]

theorem exec_tokSig_remote {t : Fin 4} {k : KernelRun} (hw : s.readyIns f q.val 0x39 = some w) (hk : (s.frond f).kernel = some k)
    (hremote : (sigF w).remote = true) (ht : (sigF w).tfrd = t.val)
    (hroom : (s.frond t).runsKernel k.job k.inst k.kernel = true ∨ (s.frond t).remote.length + (s.frond t).inbound.length < 64) :
    exec (.tokSig f q) s = .next ((s.runIns f q.val w).modFrond t fun x =>
      { x with inbound := x.inbound ++ [⟨k.job, k.inst, k.kernel, (sigF w).ttok, (sigF w).inc⟩] }) := by
  have harm : exec (.tokSig f q) s = execTokSig f q s := rfl
  have htarget : (⟨(sigF w).tfrd % 4, Nat.mod_lt _ (by decide)⟩ : Fin 4) = t := Fin.ext (by rw [ht]; exact Nat.mod_eq_of_lt t.isLt)
  have hfits : (s.frond t).hasRoom ⟨k.job, k.inst, k.kernel, (sigF w).ttok, (sigF w).inc⟩ = true := by
    rw [Frond.hasRoom]
    exact Bool.or_eq_true_iff.2 (hroom.imp_right decide_eq_true)
  rw [harm, execTokSig]
  simp only [hw, hk, hremote, if_true, htarget, hfits]

theorem token_addToken_self (x : Frond) (t n : Nat) : (x.addToken t n).token t = tokAdd (x.token t) n := by
  rw [Frond.token, Frond.addToken, tget_tset_self]

theorem token_addToken_ne (x : Frond) {t i : Nat} (n : Nat) (h : i ≠ t) : (x.addToken t n).token i = x.token i := by
  rw [Frond.token, Frond.addToken, tget_tset_ne _ _ _ (Ne.symm h), Frond.token]

theorem exec_remoteSignalArrive_running {r : RemoteSig} {rest : List RemoteSig} {j : Job} (hin : (s.frond f).inbound = r :: rest)
    (hj : s.job r.job = some j) (hruns : (s.frond f).runsKernel r.job r.inst r.kernel = true) : exec (.remoteSignalArrive f) s =
      .next ((s.modFrond f fun x => { x with inbound := rest }).modFrond f fun y => y.addToken r.ttok r.inc) := by
  have harm : exec (.remoteSignalArrive f) s = execRemoteSignalArrive f s := rfl
  rw [harm, execRemoteSignalArrive]
  simp only [hin, hj, hruns, if_true]

/-- Where every queue holds a ready BAR of the BARID, the BARs are as many as the queues (R135). -/
theorem barsAt_length {id : Nat} : ∀ {qs : List Nat}, (∀ i ∈ qs, ∃ v, s.readyIns f i 0x3A = some v ∧ barId v = id) →
    (s.barsAt f id qs).length = qs.length
  | [], _ => rfl
  | i :: qs, h => by
    obtain ⟨v, hv, hid⟩ := h i (List.mem_cons_self ..)
    have hrest := barsAt_length (id := id) (qs := qs) fun a ha => h a (List.mem_cons_of_mem _ ha)
    rw [State.barsAt, List.filterMap_cons_some (b := (i, v)) (by simp only [hv, hid, if_true]), List.length_cons, List.length_cons,
      ← hrest, State.barsAt]

theorem exec_bar (hw : s.slotIns f q.val 0x3A = some w) (hself : (barQmask w).testBit q.val = true)
    (hall : ∀ i < 64, (barQmask w).testBit i = true → ∃ v, s.readyIns f i 0x3A = some v ∧ barId v = barId w) : exec (.bar f q) s =
      .next ((s.barsAt f (barId w) ((List.range 64).filter fun i => (barQmask w).testBit i)).foldl (fun s e => s.runIns f e.1 e.2) s) := by
  have harm : exec (.bar f q) s = execBar f q s := rfl
  have hmem : ((List.range 64).filter fun i => (barQmask w).testBit i).contains q.val = true :=
    List.contains_iff_mem.2 (List.mem_filter.2 ⟨List.mem_range.2 q.isLt, hself⟩)
  have hlen : (s.barsAt f (barId w) ((List.range 64).filter fun i => (barQmask w).testBit i)).length =
      ((List.range 64).filter fun i => (barQmask w).testBit i).length :=
    barsAt_length fun i hi => hall i (List.mem_range.1 (List.mem_filter.1 hi).1) (List.mem_filter.1 hi).2
  rw [harm, execBar]
  simp only [hw, hmem, hlen, decide_true, Bool.and_self, if_true]

theorem modQueue_frond (s : State) (f : Fin 4) (n : Nat) (g : Queue → Queue) :
    (s.modQueue f n g).frond f = { s.frond f with queues := tmod (s.frond f).queues n g } := State.frond_modFrond ..

theorem targetAny_queues (x : Frond) (l : List (Nat × Queue)) (t : Nat) (h : HalfSt) :
    ({ x with queues := l } : Frond).targetAny t h = x.targetAny t h := rfl

theorem exec_endQueue {u : Queue} (hw : s.readyIns f q.val 0x3F = some w) (hu : (s.frond f).queue q.val = some u) (hbusy : u.busy = 0)
    (hflits : s.flitsOut f q.val = false)
    (hdrains : u.kind = 0 → ∀ r ∈ (s.frond f).drains, r.read < (drainF r.ins).ne → (s.frond f).targetAny (drainF r.ins).half .free = false) :
    exec (.endQueue f q) s = .next (s.modQueue f q.val fun u => { u with slot := none, retired := true }) := by
  have harm : exec (.endQueue f q) s = execEndQueue f q s := rfl
  have hok : (decide (u.kind = 0) && (s.frond f).drains.any fun r => decide (r.read < (drainF r.ins).ne) &&
      (s.frond f).targetAny (drainF r.ins).half .free) = false := by
    by_cases hkind : u.kind = 0
    · rw [decide_eq_true hkind, Bool.true_and, List.any_eq_false]
      intro r hr
      by_cases hread : r.read < (drainF r.ins).ne
      · rw [hdrains hkind r hr hread, Bool.and_false]
        exact Bool.false_ne_true
      · rw [decide_eq_false hread, Bool.false_and]
        exact Bool.false_ne_true
    · rw [decide_eq_false hkind, Bool.false_and]
  rw [harm, execEndQueue]
  simp only [hw, hu, hbusy, hflits, and_self, if_true, modQueue_frond, targetAny_queues, hok, Bool.false_eq_true, if_false]

/-- Settles O11: one lemma per command. -/
theorem stipeTokens : Obligations.StipeTokens := by
  refine ⟨fun s f q w hw => exec_tokWait hw, fun s f q w k hw hk hlocal => exec_tokSig_local hw hk hlocal,
    fun s f t q w k hw hk hremote ht hroom => exec_tokSig_remote hw hk hremote ht hroom,
    fun s f r rest j hin hj hruns => ⟨_, exec_remoteSignalArrive_running hin hj hruns, ?_, ?_, fun i hi => ?_⟩,
    fun s f q w hw hself hall => exec_bar hw hself hall,
    fun s f q w u hw hu hbusy hflits hdrains => exec_endQueue hw hu hbusy hflits hdrains⟩ <;>
  rw [State.frond_modFrond, State.frond_modFrond]
  · rfl
  · exact token_addToken_self _ _ _
  · exact token_addToken_ne _ _ hi

/-! Kernel starts, fetch, delivery and ends. -/

theorem exec_kernelStart {j code cap : Nat} {x : Job} (hsw : (s.frond f).switching = some (j, code, cap)) (hk : (s.frond f).kernel = none)
    (hj : s.job j = some x) (hzfill : (s.frond f).zfill = false) (hrestore : (s.frond f).restore = false) : exec (.kernelStart f) s =
      .next (((((((s.loadFieldRepairs f).applyRepairs f).loadSfu f x.prog).zeroTally f).loadStep f x).beginKernel f j x
        (⟨code / 2 % 4, Nat.mod_lt _ (by decide)⟩, decide (code % 2 = 1)) cap).applySignals f j x) := by
  have harm : exec (.kernelStart f) s = execKernelStart f s := rfl
  rw [harm, execKernelStart]
  simp only [hsw, hk, hj, hzfill, hrestore, Bool.or_self, Bool.false_eq_true, if_false]

theorem exec_instructionFetch {u : Queue} {a n : Nat} (hu : (s.frond f).queue q.val = some u) (ha : a = u.base + 16 * u.fetch)
    (hn : n = u.batch) (hpos : n ≠ 0) (hok : s.blockOk a = true) : exec (.instructionFetch f q) s =
      .next (((s.reportMarks (s.frondWho f 0xFF) (a / 256 * 256) 256).modQueue f q.val fun u =>
        { u with fetch := u.fetch + n, entries := u.entries ++ (List.range n).map fun i => BitVec.ofNat 128 (s.rdLe (a + 16 * i) 16) }).modFrond
        f fun x => { x with qptr := tput x.qptr q.val (a + 16 * n) }) := by
  subst ha hn
  have harm : exec (.instructionFetch f q) s = execInstructionFetch f q s := rfl
  rw [harm, execInstructionFetch]
  simp only [hu, hpos, hok, if_false, if_true]

theorem exec_instructionDeliver {k : KernelRun} (hk : (s.frond f).kernel = some k) (hhalt : s.stipeHalted f = false) :
    exec (.instructionDeliver f) s = .next ((s.useStep f).setFrond f
      ((((rrOrder (s.frond f).rr).filter (s.frond f).canDeliver).take 4).foldl Frond.deliver (s.frond f))) := by
  refine congrArg Host.Outcome.next (if_neg ?_)
  rw [hk, hhalt]
  simp

/-- A delivery moves the queue's head entry to its issue stage (R123). -/
theorem deliver_queue {x : Frond} {n : Nat} {u : Queue} {rest : List IWord} (hu : tfind x.queues n = some u) (hentries : u.entries = w :: rest) :
    tfind (x.deliver n).queues n = some { u with slot := some w, entries := rest } := by
  rw [Frond.deliver, tfind_tmod_self, hu, Option.map_some]
  simp only [hentries]

theorem exec_kernelEnd {k : KernelRun} (hk : (s.frond f).kernel = some k) (hretired : ∀ e ∈ (s.frond f).queues, e.2.retired = true)
    (hend : (s.frond f).endBad = false) (hflits : ∀ i < 64, s.flitsOut f i = false) : exec (.kernelEnd f) s =
      .next ((((s.storeSignals k).copyEnded k.job k (s.copyDigest f) f).modFrond f fun y =>
        y.endKernel ((((s.storeSignals k).copyEnded k.job k (s.copyDigest f) f).nextPtrs f k).getD (s.frond f).qptr)).sweepRetired) := by
  have harm : exec (.kernelEnd f) s = execKernelEnd f s := rfl
  have hall : ((s.frond f).queues.all fun e => e.2.retired) = true := List.all_eq_true.2 hretired
  have hnone : (List.range 64).any (s.flitsOut f) = false :=
    List.any_eq_false.2 fun i hi => by rw [hflits i (List.mem_range.1 hi)]; exact Bool.false_ne_true
  rw [harm, execKernelEnd]
  simp only [hk, hall, hend, hnone, Bool.or_self, Bool.false_eq_true, if_false, if_true]

/-- Settles O12: one lemma per command. -/
theorem stipeKernels : Obligations.StipeKernels :=
  ⟨fun _ _ _ _ _ _ hsw hk hj hzfill hrestore _ => exec_kernelStart hsw hk hj hzfill hrestore,
    fun _ _ _ _ _ _ hu ha hn hpos hok => exec_instructionFetch hu ha hn hpos hok,
    fun _ _ _ hk hhalt => exec_instructionDeliver hk hhalt, fun _ _ _ _ _ hu hentries => ⟨deliver_queue hu hentries, rfl⟩,
    fun _ _ _ hk hretired hend hflits => exec_kernelEnd hk hretired hend hflits⟩

end

end Sys2Proof.Machine

/-! The array: issue of its instructions, operand rows, accumulators and the drain (R42 to R87, R154, R155, R176, R208, R758). -/

namespace Sys2Proof.Machine
open Sys2Proof.Safety Sys2Proof.Laws

section
variable {s t : State} {f : Fin 4} {q : Fin 64} {w : IWord}

/-! Weight loading. -/

theorem exec_loadw (hw : s.readyIns f q.val 1 = some w) (hcan : s.loadwCan f (loadwF w) = true) :
    exec (.loadw f q) s = .next (s.doLoadw f q.val w) := by
  have harm : exec (.loadw f q) s = execLoadw f q s := rfl
  rw [harm, execLoadw]
  simp only [hw, hcan, if_true]

theorem exec_weightSetReady {set : Fin 2} {r : LoadRun} (hr : (s.frond f).loadOf set.val = some r)
    (hload : s.loadRows f set.val ((weightRows (loadwF r.ins)).1 - r.fetched) = (t, false)) :
    exec (.weightSetReady f set) s = .next (t.markReady f r) := by
  have harm : exec (.weightSetReady f set) s = execWeightSetReady f set s := rfl
  rw [harm, execWeightSetReady]
  simp only [hr, hload, orFault_clear]

/-! STREAM and GANG. -/

theorem slotIns_of_readyIns {n cls : Nat} (hw : s.readyIns f n cls = some w) : s.slotIns f n cls = some w := by
  rw [State.readyIns] at hw
  cases hslot : s.slotIns f n cls with
  | none => rw [hslot] at hw; cases hw
  | some v =>
    rw [hslot] at hw
    simp only [Option.ite_none_right_eq_some, Option.some.injEq] at hw
    rw [hw.2]

theorem tryStream_of_ready {cls : Nat} (hw : s.readyIns f q.val cls = some w)
    (htarget : (streamF w).clear = true ∨ (s.frond f).targetAny (streamF w).target .free = false)
    (hcan : s.streamCan f (streamF w) (geoOf (s.desc f (streamF w).geo)) = true) :
    s.tryStream f q.val cls = s.doStream f q.val cls w := by
  have hopen : (!(streamF w).clear && (s.frond f).targetAny (streamF w).target .free) = false := by
    rcases htarget with h | h <;> rw [h]
    · rfl
    · exact Bool.and_false _
  simp only [State.tryStream, slotIns_of_readyIns hw, hopen, Bool.false_eq_true, if_false, hw, hcan, if_true]

theorem exec_stream_gang (s : State) (f : Fin 4) (q : Fin 64) :
    ∀ e ∈ [(Instr.stream f q, 2), (.gang f q, 3)], exec e.1 s = .next (s.tryStream f q.val e.2) := by
  simp only [List.forall_mem_cons, List.not_mem_nil, IsEmpty.forall_iff, implies_true, and_true]
  exact ⟨rfl, rfl⟩

/-! The drain's issue, injection and FRD_MAPOUT. -/

theorem targetAny_drains (x : Frond) (l : List DrainRun) (n : Nat) (h : HalfSt) :
    ({ x with drains := l } : Frond).targetAny n h = x.targetAny n h := rfl

theorem issueIns_frond (s : State) (f : Fin 4) (n : Nat) : (s.issueIns f n).frond f =
    { s.frond f with queues := tmod (s.frond f).queues n fun u => { u with slot := none, busy := u.busy + 1 } } := modQueue_frond ..

theorem exec_drain (hw : s.readyIns f q.val 4 = some w) (hread : ∀ r ∈ (s.frond f).drains, r.read = (drainF r.ins).ne)
    (hfree : (s.frond f).targetAny (drainF w).half .free = false) : exec (.drain f q) s = .next ((s.issueIns f q.val).modFrond f fun x =>
      { x with drains := x.drains ++ [⟨q.val, w, 0, [], [], 0⟩] }) := by
  have harm : exec (.drain f q) s = execDrain f q s := rfl
  have hall : ((s.frond f).drains.all fun r => decide (r.read = (drainF r.ins).ne)) = true :=
    List.all_eq_true.2 fun r hr => decide_eq_true (hread r hr)
  have hhalf : (((s.issueIns f q.val).modFrond f fun x => { x with drains := x.drains ++ [⟨q.val, w, 0, [], [], 0⟩] }).frond f).targetAny
      (drainF w).half .free = false := by
    rw [State.frond_modFrond, targetAny_drains, issueIns_frond, targetAny_queues, hfree]
  rw [harm, execDrain]
  simp only [hw, hall, if_true, hhalf, Bool.false_and, Bool.false_eq_true, if_false]

theorem regSpec_mapout : ∀ f : Fin 4, regSpec (oMapout f) = some ⟨0, [fld' 31 31 .rwl, fld' 8 8 .rwl, fldE 4 0 .rwl 0 0xF]⟩ := by
  decide

theorem exec_frdMapoutWrite (v : Word) : exec (.frdMapoutWrite f v) s = .next (s.setReg (oMapout f) (BitVec.ofNat 32
    (regAfter ⟨0, [fld' 31 31 .rwl, fld' 8 8 .rwl, fldE 4 0 .rwl 0 0xF]⟩ (s.reg (oMapout f)).toNat v.toNat))) :=
  congrArg Host.Outcome.next (writeFields_spec v (regSpec_mapout f))

/-- FRD_MAPOUT while LOCK is set keeps its fields (R76). -/
theorem regAfter_mapout_locked {old : Nat} (v : Nat) (h : old.testBit 31 = true) :
    regAfter ⟨0, [fld' 31 31 .rwl, fld' 8 8 .rwl, fldE 4 0 .rwl 0 0xF]⟩ old v = old := by
  simp only [regAfter, List.foldl, fldWrite, fld', fldE, h, Bool.not_true, Bool.and_false, Bool.false_eq_true, if_false]

/-- FRD_MAPOUT while LOCK is clear takes LOCK, VALID, and a PCOL that names a column (R76). -/
theorem regAfter_mapout_unlocked {old : Nat} (v : Nat) (h : old.testBit 31 = false) :
    regAfter ⟨0, [fld' 31 31 .rwl, fld' 8 8 .rwl, fldE 4 0 .rwl 0 0xF]⟩ old v =
      (if bits v 0 5 < 16 then setBits (setBits (setBits old 31 1 (bits v 31 1)) 8 1 (bits v 8 1)) 0 5 (bits v 0 5)
        else setBits (setBits old 31 1 (bits v 31 1)) 8 1 (bits v 8 1)) := by
  simp only [regAfter, List.foldl, fldWrite, fld', fldE, h, Bool.not_false, Bool.and_true, if_true]
  exact if_congr (decide_eq_true_iff.trans ⟨fun hx => Nat.lt_succ_of_le hx.2, fun hx => ⟨Nat.zero_le _, Nat.le_of_lt_succ hx⟩⟩) rfl rfl

theorem bits_mod (v lo len : Nat) : bits v lo len % 2 ^ len = bits v lo len := Nat.mod_mod ..

theorem testBit_eq_bits (v i : Nat) : v.testBit i = decide (bits v i 1 = 1) := by
  rw [Nat.testBit_eq_decide_div_mod_eq, bits, Nat.shiftRight_eq_div_pow, Nat.pow_one]

theorem regF_setReg (s : State) (o : Nat) {v : Nat} (lo len : Nat) (h : v < 2 ^ 32) :
    (s.setReg o (BitVec.ofNat 32 v)).regF o lo len = bits v lo len := by
  rw [State.regF, State.reg_setReg, BitVec.toNat_ofNat, Nat.mod_eq_of_lt h]

theorem mapout_unlocked_lt (v : Nat) {old : Nat} (hold : old < 2 ^ 32) (h : old.testBit 31 = false) :
    regAfter ⟨0, [fld' 31 31 .rwl, fld' 8 8 .rwl, fldE 4 0 .rwl 0 0xF]⟩ old v < 2 ^ 32 := by
  have hvalid := setBits_lt (x := bits v 8 1) (setBits_lt (x := bits v 31 1) hold (by decide : 31 + 1 ≤ 32)) (by decide : 8 + 1 ≤ 32)
  rw [regAfter_mapout_unlocked v h]
  split
  · exact setBits_lt hvalid (by decide)
  · exact hvalid

/-- What a write to FRD_MAPOUT leaves of its three fields while LOCK is clear (R76). -/
theorem mapout_unlocked_fields (v : Nat) {old : Nat} (h : old.testBit 31 = false) :
    bits (regAfter ⟨0, [fld' 31 31 .rwl, fld' 8 8 .rwl, fldE 4 0 .rwl 0 0xF]⟩ old v) 31 1 = bits v 31 1 ∧
    bits (regAfter ⟨0, [fld' 31 31 .rwl, fld' 8 8 .rwl, fldE 4 0 .rwl 0 0xF]⟩ old v) 8 1 = bits v 8 1 ∧
    bits (regAfter ⟨0, [fld' 31 31 .rwl, fld' 8 8 .rwl, fldE 4 0 .rwl 0 0xF]⟩ old v) 0 5 =
      (if bits v 0 5 < 16 then bits v 0 5 else bits old 0 5) := by
  rw [regAfter_mapout_unlocked v h]
  split
  · refine ⟨?_, ?_, ?_⟩
    · rw [bits_setBits_ne (by decide), bits_setBits_ne (by decide), bits_setBits_self, bits_mod]
    · rw [bits_setBits_ne (by decide), bits_setBits_self, bits_mod]
    · rw [bits_setBits_self, bits_mod]
  · refine ⟨?_, ?_, ?_⟩
    · rw [bits_setBits_ne (by decide), bits_setBits_self, bits_mod]
    · rw [bits_setBits_self, bits_mod]
    · rw [bits_setBits_ne (by decide), bits_setBits_ne (by decide)]

/-- Settles O8: one lemma per command; FRD_MAPOUT by its three fields. -/
theorem arrayIssues : Obligations.ArrayIssues := by
  refine ⟨fun s t f q w ys hw hcan hys hload => ?_, fun s t f set r hr hload => exec_weightSetReady hr hload,
    fun s s1 f q w g e he hw hg htarget hcan hs1 => ?_, fun s f q w hw hread hfree => exec_drain hw hread hfree, fun _ _ _ => rfl,
    fun s f v hlock => ⟨_, exec_frdMapoutWrite v, ?_⟩, fun s f v hlock => ⟨_, exec_frdMapoutWrite v, fun o => ?_⟩⟩
  · subst hys
    rw [exec_loadw hw hcan, State.doLoadw]
    simp only [hload, orFault_clear]
  · subst hg
    rw [exec_stream_gang s f q e he, tryStream_of_ready hw htarget hcan]
    refine ⟨fun hdead => ?_, fun hs hlive hhs hok => ?_⟩
    · subst hs1
      simp only [State.doStream, hdead, if_true]
    · subst hhs hs1
      simp only [State.doStream, hlive, hok, Bool.false_eq_true, if_false, if_true]
  · have hclear : (s.reg (oMapout f)).toNat.testBit 31 = false := by
      rw [testBit_eq_bits, ← State.regF, hlock]; rfl
    obtain ⟨hl, hv, hp⟩ := mapout_unlocked_fields v.toNat hclear
    have hlt := mapout_unlocked_lt v.toNat (s.reg (oMapout f)).isLt hclear
    exact ⟨(regF_setReg _ _ _ _ hlt).trans hl, (regF_setReg _ _ _ _ hlt).trans hv, (regF_setReg _ _ _ _ hlt).trans hp,
      fun o ho => State.reg_setReg_ne _ _ ho.symm⟩
  · have hset : (s.reg (oMapout f)).toNat.testBit 31 = true := by
      rw [testBit_eq_bits, ← State.regF, hlock]; rfl
    rw [regAfter_mapout_locked _ hset, BitVec.ofNat_toNat, BitVec.setWidth_eq]
    by_cases ho : oMapout f = o
    · rw [← ho, State.reg_setReg]
    · exact State.reg_setReg_ne _ _ ho

/-! Operand rows and accumulators. -/

theorem exec_operandRowEnter {r : StreamRun} (hr : (s.frond f).entering = some r) (hpast : (s.enterRow f r).2 = false)
    (hload : (s.enterRow f r).1.loadClock f = (t, false)) : exec (.operandRowEnter f) s = .next t := by
  have harm : exec (.operandRowEnter f) s = execOperandRowEnter f s := rfl
  rw [harm, execOperandRowEnter]
  simp only [hr, hpast, hload, Bool.false_eq_true, if_false, orFault_clear]

theorem exec_accumulatorWrite {r : RowRun} {rest : List RowRun} {st : StreamRun} (hr : (s.frond f).rows = r :: rest)
    (hst : (s.frond f).writing = some st) : exec (.accumulatorWrite f) s = .next (s.writeRow f r rest st) := by
  have harm : exec (.accumulatorWrite f) s = execAccumulatorWrite f s := rfl
  rw [harm, execAccumulatorWrite, hr, hst]

/-- A half whose LAST row has been written becomes COMPLETE (R61). -/
def Frond.closeHalf (x : Frond) (i : Nat) : Frond :=
  if (x.half i).closing && decide ((x.half i).st = .accumulating) && !x.targetBusy i then
    x.putHalf i { x.half i with st := .complete, closing := false }
  else x

theorem exec_accumulatorComplete (s : State) (f : Fin 4) :
    exec (.accumulatorComplete f) s = .next (s.modFrond f fun x => (x.closeHalf 0).closeHalf 1) := rfl

theorem closeHalf_done {x : Frond} {i : Nat} (hclosing : (x.half i).closing = true) (hst : (x.half i).st = .accumulating)
    (hbusy : x.targetBusy i = false) : x.closeHalf i = x.putHalf i { x.half i with st := .complete, closing := false } := by
  rw [Frond.closeHalf, hclosing, decide_eq_true hst, hbusy]
  rfl

/-- Closing half 0 leaves half 1 and the streams. -/
theorem closeHalf_zero_frame (x : Frond) : (x.closeHalf 0).half1 = x.half1 ∧ (x.closeHalf 0).streams = x.streams := by
  rw [Frond.closeHalf]
  split <;> exact ⟨rfl, rfl⟩

/-- Closing half 1 leaves half 0. -/
theorem closeHalf_one_half0 (x : Frond) : (x.closeHalf 1).half0 = x.half0 := by
  rw [Frond.closeHalf]
  split <;> rfl

/-- Both halves are closed, each as it stood before. -/
theorem closeHalf_both {x : Frond} {i : Nat} (hi : i < 2) (hclosing : (x.half i).closing = true) (hst : (x.half i).st = .accumulating)
    (hbusy : x.targetBusy i = false) : ((x.closeHalf 0).closeHalf 1).half i = { x.half i with st := .complete, closing := false } := by
  obtain ⟨hhalf, hstreams⟩ := closeHalf_zero_frame x
  obtain rfl | rfl : i = 0 ∨ i = 1 := by omega
  · rw [Frond.half, if_pos rfl, closeHalf_one_half0, closeHalf_done hclosing hst hbusy]
    rfl
  · have hsame : (x.closeHalf 0).half 1 = x.half 1 := hhalf
    have hfree : (x.closeHalf 0).targetBusy 1 = false := by rw [Frond.targetBusy, hstreams]; exact hbusy
    rw [closeHalf_done (hsame ▸ hclosing) (hsame ▸ hst) hfree, hsame]
    rfl

/-! The drain. -/

theorem exec_drainEntryRead {r : DrainRun} (hr : (s.frond f).draining = some r) (hcan : (s.frond f).drainCan r = true) :
    exec (.drainEntryRead f) s = .next (s.drainEntry f r) := by
  have harm : exec (.drainEntryRead f) s = execDrainEntryRead f s := rfl
  rw [harm, execDrainEntryRead]
  simp only [hr, hcan, if_true]

section
variable {r : DrainRun} {rest : List DrainRun} {o : List PendWrite} {os : List (List PendWrite)}

theorem exec_drainOutputWrite (hr : (s.frond f).drains = r :: rest) (ho : r.outs = o :: os)
    (hstore : (s.modFrond f fun x => { x with drains := { r with outs := os } :: rest }).spStoreAll (s.frondWho f 4) f 1 o = (t, false)) :
    exec (.drainOutputWrite f false) s = .next t := by
  have harm : exec (.drainOutputWrite f false) s = execDrainOutputWrite f false s := rfl
  rw [harm, execDrainOutputWrite]
  simp only [hr, ho, Bool.false_eq_true, if_false, hstore, orFault_clear]

theorem exec_drainOutputWrite_lost (hr : (s.frond f).drains = r :: rest) (ho : r.outs = o :: os) (hexact : s.exactOn f = false) :
    exec (.drainOutputWrite f true) s = .next (s.count (oFrd f 0x4010) 1) := by
  have harm : exec (.drainOutputWrite f true) s = execDrainOutputWrite f true s := rfl
  rw [harm, execDrainOutputWrite]
  simp only [hr, ho, if_true, hexact, orFault_clear, State.noteConflict]

theorem exec_drainComplete (hr : (s.frond f).drains = r :: rest) (hread : r.read = (drainF r.ins).ne) (ho : r.outs = []) :
    exec (.drainComplete f) s = .next ((s.modFrond f fun x => { x with drains := rest }).finishIns f r.q r.ins) := by
  have harm : exec (.drainComplete f) s = execDrainComplete f s := rfl
  rw [harm, execDrainComplete]
  simp only [hr, hread, ho, and_self, if_true]

end

/-- Settles O9: one lemma per command. -/
theorem arrayRows : Obligations.ArrayRows := by
  refine ⟨fun s u f r sh hr hsh hpast hload => ?_, fun s f r rest st hr hst htag => ?_,
    fun s f => ⟨_, exec_accumulatorComplete s f, fun i hi hclosing hst hbusy => ?_⟩,
    fun s f r hr hcan => exec_drainEntryRead hr hcan,
    fun s t f r rest o os hr ho => ⟨fun hstore => exec_drainOutputWrite hr ho hstore, fun hexact => exec_drainOutputWrite_lost hr ho hexact⟩,
    fun s f r rest hr hread ho => exec_drainComplete hr hread ho⟩
  · subst hsh
    exact exec_operandRowEnter hr hpast hload
  · rw [exec_accumulatorWrite hr hst]
    refine ⟨fun hmore => ?_, fun hlast => ?_⟩
    · simp only [State.writeRow, htag, decide_eq_false (Nat.ne_of_lt hmore), Bool.false_and, Bool.false_eq_true, if_false]
    · simp only [State.writeRow, htag, decide_eq_true hlast, Bool.true_and, Bool.false_eq_true, if_false, if_true]
  · have hhalf := closeHalf_both hi hclosing hst hbusy
    rw [State.frond_modFrond, hhalf]
    exact ⟨rfl, rfl⟩

end

end Sys2Proof.Machine

/-! DMA: transfers, their units as they arrive, timeouts, and the work counters (R26, R133, R147 to R150, R542 to R547). -/

namespace Sys2Proof.Machine
open Sys2Proof.Safety Sys2Proof.Laws

section
variable {s t : State} {f r : Fin 4} {q : Fin 64} {w : IWord} {k : KernelRun} {ch soff doff : Nat} {d : DmaD}

/-- A DMA instruction that stands ready while a channel is free issues for its operation. -/
theorem dmaReady_of_ready (hw : s.readyIns f q.val 0xC = some w) (hk : (s.frond f).kernel = some k) (hch : (s.frond f).freeChannel = some ch) :
    s.dmaReady f q.val (dmaF w).dop = some (w, k, ch) := by
  simp only [State.dmaReady, hw, hk, hch, if_true]

/-! A transfer whose footprint is the partition's own starts. -/

theorem footprint_of_moveOk (h : MoveOk s f r k d soff doff) : ((List.range d.len).all fun i =>
    s.dmaMay r (copyAddr k f (d.src + 64 * soff) + 64 * i) && s.dmaMay r (copyAddr k f (d.dst + 64 * doff) + 64 * i)) = true := by
  obtain ⟨_, hmay⟩ := h
  refine List.all_eq_true.2 fun i hi => ?_
  obtain ⟨hsrc, hdst⟩ := hmay i (List.mem_range.1 hi)
  rw [hsrc, hdst]
  rfl

theorem dmaMove_of_moveOk (hr : s.partOn f = some r) (hd : dmaOf (s.desc f (dmaF w).desc) = d) (h : MoveOk s f r k d soff doff) :
    s.dmaMove f q.val w k ch soff doff = moveStarts s f q.val w k ch d soff doff := by
  have hfoot := footprint_of_moveOk h
  obtain ⟨hfill, _⟩ := h
  subst hd
  simp only [State.dmaMove, hr, hfill, hfoot, Bool.false_eq_true, if_false, if_true, moveStarts]

theorem dmaTrans_of_transMay (hr : s.partOn f = some r) (hd : dmaOf (s.desc f (dmaF w).desc) = d)
    (hfill : ((List.range d.rows).any fun i => s.filling (copyAddr k f (d.src + 64 * soff) + 64 * d.spitch * i) (d.e * d.cols)) = false)
    (hmay : s.transMay r d (copyAddr k f (d.src + 64 * soff)) (copyAddr k f (d.dst + 64 * doff)) = true) :
    s.dmaTrans f q.val w k ch soff doff = s.startDma f q.val w ch k.twin
      ((List.range d.rows).map fun i => (copyAddr k f (d.src + 64 * soff) + 64 * d.spitch * i, d.e * d.cols))
      (s.transPieces d (copyAddr k f (d.src + 64 * soff)) (copyAddr k f (d.dst + 64 * doff))) := by
  subst hd
  simp only [State.dmaTrans, hr, hfill, hmay, Bool.false_eq_true, if_false, if_true]

/-- A plain descriptor's transfer is a move. -/
theorem dmaXfer_of_plain (hd : dmaOf (s.desc f (dmaF w).desc) = d) (hplain : d.plain = true) :
    s.dmaXfer f q.val w k ch soff doff = s.dmaMove f q.val w k ch soff doff := by
  rw [DmaD.plain, Bool.and_eq_true, Bool.not_eq_true', Bool.not_eq_true'] at hplain
  obtain ⟨htrans, hcslot⟩ := hplain
  subst hd
  simp only [State.dmaXfer, htrans, hcslot, Bool.false_eq_true, if_false]

/-! The commands of the DMA queue. -/

theorem exec_copy (hready : s.dmaReady f q.val 0 = some (w, k, ch)) (hd : dmaOf (s.desc f (dmaF w).desc) = d) (hplain : d.plain = true) :
    exec (.copy f q) s = .next (s.dmaMove f q.val w k ch (dmaF w).soff (dmaF w).doff) := by
  have harm : exec (.copy f q) s = execCopy f q s := rfl
  subst hd
  rw [harm, execCopy]
  simp only [hready, hplain, if_true]

theorem exec_dmaTranspose (hready : s.dmaReady f q.val 0 = some (w, k, ch)) (hd : dmaOf (s.desc f (dmaF w).desc) = d)
    (htrans : d.transpose = true) : exec (.dmaTranspose f q) s = .next (s.dmaTrans f q.val w k ch (dmaF w).soff (dmaF w).doff) := by
  have harm : exec (.dmaTranspose f q) s = execDmaTranspose f q s := rfl
  subst hd
  rw [harm, execDmaTranspose]
  simp only [hready, htrans, if_true]

theorem exec_dmaCslot (hready : s.dmaReady f q.val 0 = some (w, k, ch)) (hd : dmaOf (s.desc f (dmaF w).desc) = d) (hcslot : d.cslot = true) :
    exec (.dmaCslot f q) s = .next (s.dmaSlots f q.val w k ch (dmaF w).soff (dmaF w).doff) := by
  have harm : exec (.dmaCslot f q) s = execDmaCslot f q s := rfl
  subst hd
  rw [harm, execDmaCslot]
  simp only [hready, hcslot, if_true]

/-- Index 0xFFFF_FFFF: the instruction completes and nothing moves (R133). -/
theorem exec_indexed_none (hidx : s.rdLe (spBase f + 64 * (dmaF w).idx) 4 = 0xFFFFFFFF) :
    ∀ e ∈ [(Instr.gather f q, 1), (.scatter f q, 2)], s.dmaReady f q.val e.2 = some (w, k, ch) →
      exec e.1 s = .next ((s.reportMarks (s.frondWho f 0xC) (spBase f + 64 * (dmaF w).idx) 64).runIns f q.val w) := by
  have hgather : exec (.gather f q) s = execGather f q s := rfl
  have hscatter : exec (.scatter f q) s = execScatter f q s := rfl
  simp only [List.forall_mem_cons, List.not_mem_nil, IsEmpty.forall_iff, implies_true, and_true]
  refine ⟨fun hready => ?_, fun hready => ?_⟩
  · rw [hgather, execGather]
    simp only [hready, State.dmaIdx, hidx, if_true]
  · rw [hscatter, execScatter]
    simp only [hready, State.dmaIdx, hidx, if_true]

/-- Any other index: the transfer of the descriptor runs with the offsets that it gives (R133). -/
theorem exec_indexed {idx : Nat} (hidx : s.rdLe (spBase f + 64 * (dmaF w).idx) 4 = idx) (hmoves : idx ≠ 0xFFFFFFFF)
    (hmarks : s.marksIn (spBase f + 64 * (dmaF w).idx) 64 = []) :
    ∀ e ∈ [(Instr.gather f q, 1, idx * (dmaF w).soff, (dmaF w).doff), (.scatter f q, 2, (dmaF w).soff, idx * (dmaF w).doff)],
      s.dmaReady f q.val e.2.1 = some (w, k, ch) → exec e.1 s = .next (s.dmaXfer f q.val w k ch e.2.2.1 e.2.2.2) := by
  have hgather : exec (.gather f q) s = execGather f q s := rfl
  have hscatter : exec (.scatter f q) s = execScatter f q s := rfl
  have hsame := reportMarks_of_marksIn_nil hmarks (s.frondWho f 0xC)
  simp only [List.forall_mem_cons, List.not_mem_nil, IsEmpty.forall_iff, implies_true, and_true]
  refine ⟨fun hready => ?_, fun hready => ?_⟩
  · rw [hgather, execGather]
    simp only [hready, State.dmaIdx, hidx, hmoves, if_false, hsame]
  · rw [hscatter, execScatter]
    simp only [hready, State.dmaIdx, hidx, hmoves, if_false, hsame]

/-! The work counters. -/

theorem exec_workSet (hready : s.dmaReady f q.val 4 = some (w, k, ch)) (hr : s.partOn f = some r) : exec (.workSet f q) s =
    .next ((s.setCounter (s.frondWho f 0xC) r ((dmaF w).desc % 256) (BitVec.ofNat 32 (dmaF w).soff)
      (BitVec.ofNat 32 (dmaF w).doff)).runIns f q.val w) := by
  have harm : exec (.workSet f q) s = execWorkSet f q s := rfl
  rw [harm, execWorkSet, hready, hr]

theorem exec_workTake (hready : s.dmaReady f q.val 3 = some (w, k, ch)) (hr : s.partOn f = some r)
    (htake : s.workTake f q.val w r = (t, false)) : exec (.workTake f q) s = .next t := by
  have harm : exec (.workTake f q) s = execWorkTake f q s := rfl
  rw [harm, execWorkTake, hready, hr]
  simp only [htake, orFault_clear]

end

/-! Units that arrive, and the timeout. -/

section
variable {s t : State} {f : Fin 4} {ch : Fin 16} {r : DmaRun}

theorem exec_dmaUnitArrive_empty (hr : tfind (s.frond f).dma ch.val = some r) (hunits : r.units = []) :
    exec (.dmaUnitArrive f ch) s = .next (s.dmaDone f ch.val r) := by
  have harm : exec (.dmaUnitArrive f ch) s = execDmaUnitArrive f ch s := rfl
  rw [harm, execDmaUnitArrive]
  simp only [hr, hunits]

theorem exec_dmaUnitArrive {u : DmaUnit} {rest : List DmaUnit} (hr : tfind (s.frond f).dma ch.val = some r) (hunits : r.units = u :: rest)
    (hwait : ¬(u.dst < dramEnd ∧ s.window = true)) (htake : s.dmaTake f ch.val r u rest = (t, false)) :
    exec (.dmaUnitArrive f ch) s = .next t := by
  have harm : exec (.dmaUnitArrive f ch) s = execDmaUnitArrive f ch s := rfl
  have hserve : (decide (u.dst < dramEnd) && s.window) = false := by
    rw [← Bool.not_eq_true, Bool.and_eq_true, decide_eq_true_iff]
    exact hwait
  rw [harm, execDmaUnitArrive]
  simp only [hr, hunits, hserve, Bool.false_eq_true, if_false, State.dmaArrive, htake, orFault_clear]

theorem exec_dmaTimeout (hr : tfind (s.frond f).dma ch.val = some r) : exec (.dmaTimeout f ch) s = .next
    (((s.modJob (s.frondWho f 0xC).job fun x => x.enter ⟨16 * f.val + 8, 19, ch.val, (s.frondWho f 0xC).kernel, s.now⟩).raise
      { (s.frondWho f 0xC).ev (srcOf (16 * f.val + 8) 4) 19 ch.val (dmaTimeoutUs (dmaOf (s.desc f (dmaF r.ins).desc))) with
        stepNo := 1 }).l1 f 4) := by
  have harm : exec (.dmaTimeout f ch) s = execDmaTimeout f ch s := rfl
  rw [harm, execDmaTimeout]
  simp only [hr]

end

/-- An instruction field of at most 32 bits fits a word. -/
theorem toNat_ofNat_ifld (w : IWord) (lo : Nat) {len : Nat} (h : len ≤ 32) : (BitVec.ofNat 32 (ifld w lo len)).toNat = ifld w lo len := by
  rw [BitVec.toNat_ofNat]
  exact Nat.mod_eq_of_lt ((Nat.mod_lt _ (Nat.two_pow_pos len)).trans_le (Nat.pow_le_pow_right (by decide) h))

/-- Settles O13: one lemma per command, the transfers by the lemmas about a footprint of the partition's own. -/
theorem dmaCommands : Obligations.DmaCommands := by
  refine ⟨fun s t f q w k ch r d hw hk hch hr hd => ?_, fun s f ch r hr => ⟨exec_dmaUnitArrive_empty hr,
    fun u rest t hunits hwait htake => exec_dmaUnitArrive hr hunits hwait htake, exec_dmaTimeout hr⟩⟩
  have hready : ∀ {n}, (dmaF w).dop = n → s.dmaReady f q.val n = some (w, k, ch) := fun hn => hn ▸ dmaReady_of_ready hw hk hch
  refine ⟨fun hop hplain hok => ?_, fun hop htrans hfill hmay => ?_, fun hop hcslot hok => exec_dmaCslot (hready hop) hd hcslot,
    fun idx s1 hidx hs1 => ⟨fun e he hop hnone => ?_, fun e he hop hmoves hmarks hplain hok => ?_⟩, fun hop => ?_,
    fun hop htake => exec_workTake (hready hop) hr htake⟩
  · rw [exec_copy (hready hop) hd hplain, dmaMove_of_moveOk hr hd hok]
  · rw [exec_dmaTranspose (hready hop) hd htrans, dmaTrans_of_transMay hr hd hfill hmay]
  · rw [hs1]
    exact exec_indexed_none (hidx ▸ hnone) e he (hready hop)
  · rw [exec_indexed hidx.symm hmoves hmarks e he (hready hop), dmaXfer_of_plain hd hplain, dmaMove_of_moveOk hr hd hok]
  · have hvalue : (BitVec.ofNat 32 (dmaF w).soff).toNat = (dmaF w).soff := toNat_ofNat_ifld w 56 (len := 24) (by decide)
    have hlimit : (BitVec.ofNat 32 (dmaF w).doff).toNat = (dmaF w).doff := toNat_ofNat_ifld w 80 (len := 24) (by decide)
    rw [exec_workSet (hready hop) hr, State.setCounter, hvalue, hlimit]

end Sys2Proof.Machine
